-- ==== Sys2Proof/Word.lean ====
section
/-! DEFINITION. The word types and their plainest arithmetic: bytes, bit fields of a natural number, little-endian lists. -/

namespace Sys2Proof

/-- A byte of a packet, a payload or an SRAM. -/
abbrev Byte := BitVec 8

/-- A register word of 64 bits. -/
abbrev Word := BitVec 64

/-- The `len` bits of `n` from bit `lo` up. -/
def bits (n lo len : Nat) : Nat := (n >>> lo) % 2 ^ len

/-- `n` with the `len` bits from `lo` up replaced by the low `len` bits of `v`. -/
def setBits (n lo len v : Nat) : Nat :=
  n - (bits n lo len) * 2 ^ lo + (v % 2 ^ len) * 2 ^ lo

/-- The `k` low bytes of `n`, the least significant first (R41). -/
def toLE : Nat → Nat → List Byte
  | 0, _ => []
  | k + 1, n => BitVec.ofNat 8 n :: toLE k (n / 256)

/-- The number whose bytes, least significant first, are the list (R41). -/
def ofLE : List Byte → Nat
  | [] => 0
  | b :: bs => b.toNat + 256 * ofLE bs

/-- The two's complement reading of the `w` low bits of `n`. -/
def signed (w n : Nat) : Int :=
  if bits n (w - 1) 1 = 1 then (n % 2 ^ w : Nat) - (2 ^ w : Nat) else ((n % 2 ^ w : Nat) : Int)

/-- The `w`-bit two's complement encoding of `z`. -/
def unsigned (w : Nat) (z : Int) : Nat := (z % (2 ^ w : Nat)).toNat

/-- Division rounded up. -/
def ceilDiv (a b : Nat) : Nat := (a + b - 1) / b

/-- `x` kept within `lo` and `hi`. -/
def clampInt (x lo hi : Int) : Int := max lo (min x hi)

/-- The difference of `a` and `b` modulo `2 ^ w`. -/
def subMod (w a b : Nat) : Nat := (a + 2 ^ w - b % 2 ^ w) % 2 ^ w

/-- `x` held at the largest value of `w` bits. -/
def sat (w x : Nat) : Nat := min x (2 ^ w - 1)

end Sys2Proof
end

