-- ==== Sys2Proof/Syntax.lean ====
section
/-! DEFINITION. The commands: one constructor of Instr for every row of spec/opcode_table.json, with the operands the
model gives it (log entry 6, DESIGN CHOICE), and the vocabulary they are written in: units, packets, flits, descriptors. -/

namespace Sys2Proof

/-! ### Units -/

/-- An OX9 port (R17). -/
abbrev Port := Fin 288
/-- A die of the package (R13). -/
abbrev Die := Fin 64
/-- The OEB of an accelerator (R238). -/
abbrev Side := Fin 2
/-- A port of an OEB. -/
abbrev OPort := Fin 16
/-- A Skipper (R21). -/
abbrev Skip := Fin 2
/-- A management domain or function (Table 19-1). -/
abbrev Dom := Fin 8
/-- A slice and its two banks (R18). -/
abbrev Slice := Fin 16
/-- A Luna die D(52 + k). -/
abbrev LDie := Fin 8
/-- A physical Luna core. -/
abbrev Core := Fin 864
/-- A virtual channel (R127). -/
abbrev Vc := Fin 6
/-- A partition. -/
abbrev Part := Fin 4096
/-- A lane site. -/
abbrev Site := Fin 648
/-- An issuing context of an OEB (R245). -/
abbrev Ctx := Fin 1024
/-- A DMA channel (R277). -/
abbrev Chan := Fin 64

/-- One end of a link: an OX9 port or an OEB port. Every link rule binds both (chapter 13). -/
inductive LinkEnd where
  | ox (p : Port)
  | oeb (side : Side) (q : OPort)
deriving DecidableEq, Repr

/-- Where a unit sends Breeze markers (R339): a link end, or a Monarch chain link. -/
inductive MarkerEnd where
  | link (e : LinkEnd)
  | chain (i : Fin 2)
deriving DecidableEq, Repr

/-- Where a packet enters the forwarding core (R102): a port, or a die that enters at a slice; such a die may enter a
packet for class 7 on DST_EP (R87, R323) or with its egress chosen (R322). -/
inductive Entry where
  | port (p : Port)
  | die (d : Die)
  | dieClass7 (d : Die)
deriving DecidableEq, Repr

/-- A unit that keeps fabric time, folds events, or holds keys. -/
inductive UnitId where
  | ox9
  | oeb (side : Side)
deriving DecidableEq, Repr

/-- A unit that keeps rate entries for source slow-down (R144). -/
inductive RateUnit where
  | oeb (side : Side)
  | skipper (k : Skip)
deriving DecidableEq, Repr

/-- A PAM4 symbol by its level: −3, −1, +1, +3 (R289). -/
inductive Pam4 where
  | m3 | m1 | p1 | p3
deriving DecidableEq, Repr

/-- What arrives on the lanes of a port: code groups of five symbols, slot by slot from lane 0 (R293). -/
abbrev Line := List (List Pam4)

/-- A congestion echo as it arrives: as an insert at a port of an OEB, or of the OX9 whose partner is an OX9, or inside the OX9
at a Skipper (R143, R144). -/
inductive EchoIn where
  | ox (p : Port) (line : Line)
  | oeb (side : Side) (q : OPort) (line : Line)
  | skipper (k : Skip) (body : List Byte)
deriving DecidableEq, Repr

/-- A unit that has a TRNG (R373). -/
inductive TrngUnit where
  | monarch (d : Fin 2)
  | oeb (side : Side)
deriving DecidableEq, Repr

/-- What a register access goes to: BAR0 of a function, an OEB's register space, a Skipper's host-facing BAR0. -/
inductive BusTarget where
  | bar0 (fn : Dom)
  | oeb (side : Side)
  | host (k : Skip)
deriving DecidableEq, Repr

/-- The result of an SRAM read (R31, R33): no error, at a place that matters to nothing or at the row named; an error with
its bank and row. -/
inductive SramRead where
  | clean
  | atRow (bank row : Nat)
  | corrected (bank row : Nat)
  | uncorrectable (bank row : Nat)
deriving DecidableEq, Repr

/-! ### Packets -/

/-- The packet header (Table 2-2); `w1` is word 1, ADDR or the chunk identity (Tables 2-1, 2-3). -/
structure Header where
  opcode : BitVec 6
  vc : BitVec 3
  status : BitVec 4
  part : BitVec 12
  srcEp : BitVec 12
  dstEp : BitVec 12
  tag : BitVec 14
  enc : Bool
  w1 : BitVec 64
  len : BitVec 13
  scope : BitVec 2
  lcId : BitVec 12
  keySlot : BitVec 13
  subop : BitVec 8
  mc : Bool
  mcg : BitVec 15
  ageStamp : BitVec 16
  seq : BitVec 48
deriving DecidableEq, Repr

/-- A packet: header, payload, trailer (GCM tag or chunk digest). -/
structure Packet where
  hdr : Header
  payload : List Byte
  trailer : List Byte
deriving DecidableEq, Repr

/-- The fields of a flit (Table 2-8) with its packet bytes. -/
structure Flit where
  fvc : BitVec 3
  sop : Bool
  eop : Bool
  bad : Bool
  valid : BitVec 7
  null : Bool
  fseq : BitVec 12
  ack : BitVec 12
  nak : Bool
  crVc : BitVec 3
  crCnt : BitVec 8
  body : List Byte
deriving DecidableEq, Repr

/-- An AREQ descriptor (Table 11-3) and its data beats. `aop` is the AOP it carries: the command's own, or a reserved value
of Table 11-4, with which R241 completes it. -/
structure Areq where
  aop : BitVec 6
  ctx : Ctx
  atag : BitVec 14
  scope : BitVec 2
  len : BitVec 13
  subop : BitVec 8
  rsv : BitVec 11
  addr : BitVec 64
  w2 : BitVec 64
  w3 : BitVec 64
  data : List Byte
deriving DecidableEq, Repr

/-- One lane's margin measurement (R301). -/
structure EyeResult where
  height : BitVec 7
  width : BitVec 6
  codeErrors : Bool
deriving DecidableEq, Repr

/-- The payload of a key command (Table 16-9). -/
structure KeyCmd where
  kindOrIndex : BitVec 8
  slot : BitVec 16
  part : BitVec 16
  overlap : BitVec 16
  arg : BitVec 64
  key : BitVec 256
  nmeas : BitVec 8
  meas : List (BitVec 384)
  rsvZero : Bool
  lenOk : Bool
deriving DecidableEq, Repr

/-- A check record (R169): the chunk's identity, its bitmap, its 132 column digests; `failed` where the checking
die's chunk failed; the core of each column on the checking die, which R170 step 4 needs. -/
structure CheckRecord where
  comm : Nat
  chunk : Nat
  step : Nat
  failed : Bool
  bitmap : List Nat
  digests : List (BitVec 64)
  cores : List Nat
deriving DecidableEq, Repr

/-- The identity of a chunk on a Luna die (Table 2-3). -/
structure ChunkId where
  comm : Nat
  tree : Nat
  chunk : Nat
  step : Nat
deriving DecidableEq, Repr

/-- A kind of unit a service command names (Table 19-6). -/
inductive UnitKind where
  | laneSite | lunaCore | sliceDie | monarchDie | skipperDie
deriving DecidableEq, Repr

/-- How a payload fetch ends (R422). -/
inductive FetchResult where
  | data (bytes : List Byte)
  | failed
deriving DecidableEq, Repr

/-- How a PCIe completion ends (R328). -/
inductive PcieStatus where
  | ok | unsupported | abort | poisoned
deriving DecidableEq, Repr

/-! ### Luna operands -/

/-- A scalar register. -/
abbrev SReg := Fin 16
/-- A vector register. -/
abbrev VReg := Fin 32
/-- A predicate register. -/
abbrev PReg := Fin 8
/-- A handle register. -/
abbrev AReg := Fin 8
/-- A 16-bit immediate or branch offset. -/
abbrev Imm := BitVec 16

/-- The lane types of Table 9-7. -/
inductive ElemT where
  | f32 | bf16 | f16 | e4m3 | e5m2 | mxe4m3 | mxe5m2 | mxe3m2 | mxe2m3 | mxe2m1 | mxi8 | i32 | i64 | raw
deriving DecidableEq, Repr

/-- The commands: one constructor for each row of the table, in its order. -/
inductive Instr where
  /-- REGISTER_WRITE (R4). A management or driver write to a register that has no row of its own sets its fields as their access codes state. -/
  | registerWrite (t : BusTarget) (off : Nat) (four : Bool) (v : Word)
  /-- UNMAPPED_ACCESS (R8). An access to an undefined BAR0 offset, or a non-aligned register access, reads zero, is ignored, counts and raises UNMAPPED_ACCESS. -/
  | unmappedAccess (t : BusTarget) (off len : Nat) (write : Bool)
  /-- OEB_ID_LOCK (R238). Writing 1 to OEB_ID.LOCK freezes EP, SIDE_MAP and GW_SIDE against writes until reset. -/
  | oebIdLock (side : Side)
  /-- FOLD_STAT_READ (R374). A read of FOLD_STAT returns OVERFLOW and then clears it. -/
  | foldStatRead (fn : Dom)
  /-- CTX_CFG_ERR_COUNT_READ (R245). A read of CTX_CFG word 1 returns ERR_COUNT and then clears it. -/
  | ctxCfgErrCountRead (side : Side) (x : Ctx)
  /-- XLAT_FAULT_COUNT_READ (R267). A read of XLAT_FAULT word 1 returns COUNT and then clears it. -/
  | xlatFaultCountRead (side : Side) (x : Ctx)
  /-- TRNG_STAT_READ (R373). A read of TRNG_STAT returns the RCT and APT failure counts and then clears them. -/
  | trngStatRead (u : TrngUnit)
  /-- SRAM_ROW_REPAIRED (R32). A row reaching four corrected errors in one second starts a copy to a spare row and a decode switch. -/
  | sramRowRepaired (die : Die) (bank row : Nat)
  /-- SRAM_ROW_COPY_DONE (R32). The row copy completes, the stalled accesses complete against the spare row, and the repair is logged to flash. -/
  | sramRowCopyDone (die : Die) (bank : Nat)
  /-- INGRESS_LOOKUP (R101). A corrected SOP flit starts the four-stage lookup: check, steer, resolve, and age and admission. -/
  | ingressLookup (src : Entry) (pkt : Packet) (eop bad : Bool) (reads : List (Nat × SramRead))
  /-- TRACKING_HOLD_RELEASE (R53). A tracking entry frees and the request held for it is admitted. -/
  | trackingHoldRelease (bank : Slice) (reads : List (Nat × SramRead))
  /-- HELD_PACKET_ADMIT (R114). A packet held for a grant or tokens is admitted once its ingress die holds them. -/
  | heldPacketAdmit (src : Entry) (vc : Vc) (reads : List (Nat × SramRead))
  /-- HELD_PACKET_AGE_OUT (R117). A packet held at ingress exceeds the age limit and is discarded with an AGED response or trace. -/
  | heldPacketAgeOut (src : Entry) (vc : Vc)
  /-- MC_OX7_EOP (R120). In OX7 mode the EOP cell arrives; a bad packet is discarded, a good one queues one copy per member. -/
  | mcOx7Eop (pid : Nat) (bad : Bool)
  /-- EOP_CELL_BUFFERED (R107). A packet that may not cut through has its EOP cell in the buffer and may now start at egress. -/
  | eopCellBuffered (pid : Nat) (bad : Bool) (reads : List (Nat × SramRead))
  /-- EGRESS_QUEUE_HEAD (R116). A packet reaches the head of its egress queue, is age-checked and starts to leave. -/
  | egressQueueHead (p : Port) (vc : Vc)
  /-- EGRESS_FLIT_SLOT (R140). Each flit slot of an egress port chooses a VC flit, a NULL flit, and a credit return to send. -/
  | egressFlitSlot (e : LinkEnd) (sram : SramRead)
  /-- CT_STALL_ABORT (R108). The next cell of a started packet misses CT_STALL_LIMIT and the rest is zero-filled and tail-marked. -/
  | ctStallAbort (p : Port) (vc : Vc)
  /-- BUF_GRANT_REQUEST (R112). An accountant serves a port die's request for a block of buffer cells. -/
  | bufGrantRequest (die : Die) (part : Part)
  /-- BUF_GRANT_RETURN (R112). A grant block unused for 1 µs is returned to the accountant. -/
  | bufGrantReturn (die : Die) (part : Part)
  /-- TOKEN_BLOCK_REQUEST (R147). An accountant grants a port die a block of 16 shaper tokens. -/
  | tokenBlockRequest (die : Die) (part : Part)
  /-- TOKEN_BLOCK_RETURN (R147). The unused positive part of a token block idle for 1 µs is returned. -/
  | tokenBlockReturn (die : Die) (part : Part)
  /-- MIRROR_COPY (R404). After the observed EOP a mirror session forms its copy as MSG fragments to the analyzer. -/
  | mirrorCopy (sess : Fin 8) (p : Port) (egress : Bool) (pkt : Packet) (bad : Bool) (sopFt : Nat) (sopQual : Fin 8)
  /-- SAMPLE_RECORD_WRITE (R403). The Monarch writes a sample record into each entitled domain's host sample ring. -/
  | sampleRecordWrite (sram : SramRead)
  /-- CREDIT_STALL (R138). A VC credit counter stays at 0 for 100 µs with a flit waiting; counted and raised. -/
  | creditStall (e : LinkEnd) (vc : Vc)
  /-- ECHO_SEND (R143). A pending congestion echo is sent as an ECHO insert between flits. -/
  | echoSend (p : Port)
  /-- ECHO_RX (R144). An OEB or Skipper applies a received congestion echo to its rate entry for the pair. -/
  | echoRx (x : EchoIn)
  /-- RATE_RECOVERY (R145). Each 4 µs without an echo raises a rate entry by 8, freeing it at 256. -/
  | rateRecovery (u : RateUnit) (dst : BitVec 12) (vc : Vc)
  /-- CMAP_BOUNDARY (R149). At a map boundary the congestion map completes, buffers swap and MAP_SEQ increments. -/
  | cmapBoundary
  /-- FLIT_RX (R298). A received flit is decoded, accepted or discarded by sequence, and its ACK, NAK and credits applied. -/
  | flitRx (e : LinkEnd) (line : Line) (slip : Bool)
  /-- REPLAY_TIMEOUT (R299). REPLAY_TO passes with unacknowledged flits and no ACK advance, and the transmitter replays. -/
  | replayTimeout (e : LinkEnd)
  /-- NAK_RESEND (R298). A receiver waiting for FSEQ E sends NAK again after each REPLAY_TO. -/
  | nakResend (e : LinkEnd)
  /-- SKIP_INSERT_SEND (R292). In skip mode a SKIP insert is sent after every 128 slots. -/
  | skipInsertSend (e : LinkEnd)
  /-- SKIP_RX (R292). A received SKIP is deleted or repeated by the elastic buffer and refreshes skip mode. -/
  | skipRx (e : LinkEnd) (line : Line) (slip : Bool)
  /-- BREEZE_SEND (R339). At each marker due time an ACTIVE transmitter sends a BREEZE insert. -/
  | breezeSend (e : MarkerEnd)
  /-- BREEZE_RX (R341). An accepted Breeze marker forms an offset; from the upstream it sets rate and corrects ft. -/
  | breezeRx (e : LinkEnd) (line : Line)
  /-- IDLE_RX (R309). A received IDLE insert puts the receiver in IDLE. -/
  | idleRx (e : LinkEnd) (line : Line)
  /-- SWAP_RX (R313). A received SWAP insert makes the partner expect a Gust burst and START after the transmit swap. -/
  | swapRx (e : LinkEnd) (line : Line)
  /-- DOWN_RX (R315). A received DOWN insert drops the link with cause PARTNER_DOWN. -/
  | downRx (e : LinkEnd) (line : Line)
  /-- GUST_RX (R310). A receiver in IDLE sees a Gust burst and relocks, awaiting START. -/
  | gustRx (e : LinkEnd) (line : Line)
  /-- ELECTRICAL_IDLE_ENTRY (R309). After IDLE_AFTER with nothing to send the transmitter sends IDLE and stops driving. -/
  | electricalIdleEntry (e : LinkEnd)
  /-- GUST_EXIT (R310). An idle transmitter with work pending sends a Gust burst and START and resumes flits. -/
  | gustExit (e : LinkEnd)
  /-- IDLE_KEEPALIVE (R311). Every IDLE_KEEP an idle transmitter sends a Gust burst followed by IDLE. -/
  | idleKeepalive (e : LinkEnd)
  /-- LOS (R315). No valid transition on any lane for 24 ns drops the link with cause LOS. -/
  | los (e : LinkEnd)
  /-- LOS_IDLE (R311). A receiver in IDLE sees no Gust burst within 2 × IDLE_KEEP + 1 µs and drops the link. -/
  | losIdle (e : LinkEnd)
  /-- FEC_BURST (R315). Sixteen consecutive uncorrectable flits drop the link. -/
  | fecBurst (e : LinkEnd)
  /-- REPLAY_MAX_EXCEEDED (R315). One flit sent REPLAY_MAX + 1 times without ACK drops the link with cause REPLAY. -/
  | replayMaxExceeded (e : LinkEnd)
  /-- SILENT_TIMEOUT (R315). No decodable flit in ACTIVE for SILENT_TO drops the link. -/
  | silentTimeout (e : LinkEnd)
  /-- GUST_TIMEOUT (R310). A receiver seeing signal but no START within 200 ns drops the link with cause GUST. -/
  | gustTimeout (e : LinkEnd)
  /-- NR_PATTERN_RX (R304). A partner receiving the NR pattern stays in DETECT and sets PARTNER_NR. -/
  | nrPatternRx (e : LinkEnd) (line : Line)
  /-- TS1_RX (R303). Valid TS1 sequences advance DETECT and ALIGN, mapping lanes, polarity and skew. -/
  | ts1Rx (e : LinkEnd) (line : Line) (arrivals : List Nat)
  /-- TS2_RX (R306). Valid TS2 sequences report partner lane results and are checked for width and identity in MARGIN. -/
  | ts2Rx (e : LinkEnd) (line : Line)
  /-- TSO_RX (R307). A received TSO yields a delay sample and triggers the next TSO until DELAY is set. -/
  | tsoRx (e : LinkEnd) (line : Line) (arrival : BitVec 40)
  /-- TSC_RX (R303). Eight identical TSC meeting R135 set the credit counters and enter ACTIVE. -/
  | tscRx (e : LinkEnd) (line : Line)
  /-- MARGIN_CHECK_DONE (R301). The 0.75 ms margin check ends and failing lanes are spared or the port fails training. -/
  | marginCheckDone (e : LinkEnd) (eyes : List EyeResult)
  /-- ALIGN_TIMEOUT (R303). ALIGN exceeds 100 µs and the port goes DOWN with cause ALIGN, SKEW or LANE_ORDER. -/
  | alignTimeout (e : LinkEnd)
  /-- MARGIN_TIMEOUT (R303). MARGIN exceeds 5 ms and the port goes DOWN with cause MARGIN or IDENTITY. -/
  | marginTimeout (e : LinkEnd)
  /-- TIME_STATE_TIMEOUT (R303). TIME exceeds 50 µs and the port goes DOWN with cause TIME. -/
  | timeStateTimeout (e : LinkEnd)
  /-- CREDIT_STATE_TIMEOUT (R303). CREDIT exceeds 20 µs and the port goes DOWN with cause CREDITS. -/
  | creditStateTimeout (e : LinkEnd)
  /-- DOWN_HOLD_END (R308). The DOWN hold of 10 µs or 100 ms ends and the port returns to DETECT. -/
  | downHoldEnd (e : LinkEnd)
  /-- REFCLK_LOST (R291). Loss of the reference switches lane PLLs to the holdover oscillator. -/
  | refclkLost
  /-- REFCLK_RESTORED (R291). After 100 ms of valid reference the PLLs switch back phase-continuously. -/
  | refclkRestored
  /-- LANE_DEGRADED (R312). A site's erasures in one second exceed DEGRADE; it is marked and a swap starts. -/
  | laneDegraded (site : Site)
  /-- LANE_SWAP_RX_SWITCH (R313). The listening spare locks and at a flit boundary takes over the receive path. -/
  | laneSwapRxSwitch (p : Port)
  /-- LANE_SWAP_TX_SWITCH (R313). At the next transmit boundary SWAP, Gust and START move the transmit path to the spare. -/
  | laneSwapTxSwitch (p : Port)
  /-- OEB_PORT_ENABLE (R304). The driver sets PORT_CFG.EN and the OEB port leaves the NR pattern to train. -/
  | oebPortEnable (side : Side) (q : OPort)
  /-- LOAD (R241). An AREQ LOAD is translated and issued as an RD. -/
  | load (side : Side) (d : Areq)
  /-- STORE (R241). An AREQ STORE is translated and issued as a WR_P. -/
  | store (side : Side) (d : Areq)
  /-- STORE_NP (R241). An AREQ STORE_NP is translated and issued as a WR_NP. -/
  | storeNp (side : Side) (d : Areq)
  /-- ATOMIC (R241). An AREQ ATOMIC is translated and issued as an ATOM. -/
  | atomic (side : Side) (d : Areq)
  /-- MSG_SEND (R241). An AREQ MSG_SEND is issued as a MSG with its cookie. -/
  | msgSend (side : Side) (d : Areq)
  /-- CONTRIB (R255). An AREQ CONTRIB derives plane, tree and chunk and queues an RCONTRIB under chunk credits. -/
  | contrib (side : Side) (d : Areq)
  /-- FENCE_SYS (R71). An AREQ FENCE_SYS waits for the context's prior fabric requests at both OEBs. -/
  | fenceSys (side : Side) (d : Areq)
  /-- FENCE_SYS_COMPLETE (R73). The fence's last awaited request resolves and it completes with the highest-precedence status. -/
  | fenceSysComplete (ctx : Ctx) (atag : BitVec 14)
  /-- LC_WAIT (R68). An AREQ LC_WAIT waits until a landing counter passes its target. -/
  | lcWait (side : Side) (d : Areq)
  /-- LC_WAIT_TIMEOUT (R68). An LC_WAIT reaches its timeout and returns TIMEOUT. -/
  | lcWaitTimeout (side : Side) (ctx : Ctx) (atag : BitVec 14)
  /-- LC_RD (R252). An AREQ LC_RD returns a landing counter word to a context entitled to it. -/
  | lcRd (side : Side) (d : Areq)
  /-- LC_WR (R252). An AREQ LC_WR writes COUNT and clears POISONED and DENIED of an entitled counter. -/
  | lcWr (side : Side) (d : Areq)
  /-- DMA_RING_DOORBELL (R279). DMA_RING with WAIT = 0 sets the channel TAIL and completes at once. -/
  | dmaRingDoorbell (side : Side) (d : Areq)
  /-- DMA_COMPLETION_WAIT (R279). DMA_RING with WAIT = 1 waits until DONE_SEQ passes V or the channel halts. -/
  | dmaCompletionWait (side : Side) (d : Areq)
  /-- DMA_WAIT_TIMEOUT (R279). A DMA completion wait reaches its timeout and returns TIMEOUT. -/
  | dmaWaitTimeout (side : Side) (ctx : Ctx) (atag : BitVec 14)
  /-- CW_GET_S (R241). An AREQ CW_GET_S is issued as COH_GET_S to the line's plane. -/
  | cwGetS (side : Side) (d : Areq)
  /-- CW_GET_M (R241). An AREQ CW_GET_M is issued as COH_GET_M to the line's plane. -/
  | cwGetM (side : Side) (d : Areq)
  /-- CW_UPG (R241). An AREQ CW_UPG is issued as COH_UPG to the line's plane. -/
  | cwUpg (side : Side) (d : Areq)
  /-- CW_WB (R241). An AREQ CW_WB is issued as COH_WB carrying the line. -/
  | cwWb (side : Side) (d : Areq)
  /-- WALK_START (R264). A queued TLB miss takes a free walker and begins its page walk. -/
  | walkStart (side : Side)
  /-- REQUEST_ISSUE (R248). A request leaves the OEB issue queue with a tag onto a chosen port. -/
  | requestIssue (side : Side)
  /-- LOAD_TIMEOUT (R249). A request without response within LOAD_TO completes with TIMEOUT and ERR_BYTE data. -/
  | loadTimeout (side : Side) (tag : BitVec 14)
  /-- QUARANTINE_END (R250). A timed-out tag's quarantine ends and the tag is freed. -/
  | quarantineEnd (side : Side) (tag : BitVec 14)
  /-- RESPONSE_RX (R51). A response arriving at the requesting OEB completes the matching outstanding request. -/
  | responseRx (side : Side) (q : OPort) (pkt : Packet) (bad : Bool)
  /-- SEQ_EXHAUSTED (R48). A key slot's SEQ counter issues its last value and the unit stops sealing under it. -/
  | seqExhausted (u : UnitId) (slot : BitVec 13) (unit : Nat)
  /-- INBOUND_REQUEST (R251). A target OEB checks an inbound memory request and performs it through MREQ. -/
  | inboundRequest (side : Side) (q : OPort) (pkt : Packet) (bad : Bool)
  /-- MRSP_RX (R243). An MRSP answers an MREQ, completing the access, walk, fetch or response it belongs to. -/
  | mrspRx (side : Side) (mtag : BitVec 14) (status : BitVec 4) (data : List Byte)
  /-- MRSP_TIMEOUT (R244). An MREQ has no MRSP within 4 µs and its operation fails with TIMEOUT. -/
  | mrspTimeout (side : Side) (mtag : BitVec 14)
  /-- RRESULT_RX (R253). An RRESULT at an OEB is matched to a receive entry and written at its chunk offset. -/
  | rresultRx (side : Side) (q : OPort) (pkt : Packet) (bad : Bool)
  /-- XLAT_INV_ALL (R275). A write of XLAT_INV kind 0 queues an invalidation of every entry. -/
  | xlatInvAll (side : Side) (drain : Bool)
  /-- XLAT_INV_ASID (R275). A write of XLAT_INV kind 1 queues an invalidation of one ASID's non-global entries. -/
  | xlatInvAsid (side : Side) (drain : Bool) (asid : BitVec 16)
  /-- XLAT_INV_ASID_RANGE (R275). A write of XLAT_INV kind 2 queues an invalidation of an ASID's non-global entries in a range. -/
  | xlatInvAsidRange (side : Side) (drain : Bool) (asid npages : BitVec 16)
  /-- XLAT_INV_RANGE (R275). A write of XLAT_INV kind 3 queues an invalidation of every entry in a range. -/
  | xlatInvRange (side : Side) (drain : Bool) (npages : BitVec 16)
  /-- XLAT_INV_APT (R275). A write of XLAT_INV kind 4 queues an invalidation of entries resolved through one aperture table. -/
  | xlatInvApt (side : Side) (drain : Bool) (apt : BitVec 4)
  /-- INV_PURGE (R275). An invalidation at the queue head purges its matching entries from every cache in one clock. -/
  | invPurge (side : Side)
  /-- INV_DRAIN_COMPLETE (R276). Every request translated before a drained purge has finished and the invalidation completes. -/
  | invDrainComplete (side : Side)
  /-- DMA_TAIL_WRITE (R278). A direct write of a channel's TAIL makes new descriptors available to fetch. -/
  | dmaTailWrite (side : Side) (ch : Chan) (tail : BitVec 32)
  /-- DESCRIPTOR_FETCH (R278). An enabled channel with HEAD behind TAIL fetches its next descriptor from the ring. -/
  | descriptorFetch (side : Side) (ch : Chan)
  /-- DMA_COPY (R281). A copy descriptor starts, reading SRC and writing DST in bursts. -/
  | dmaCopy (side : Side) (ch : Chan)
  /-- DMA_FILL (R281). A fill descriptor starts, writing its pattern over DST. -/
  | dmaFill (side : Side) (ch : Chan)
  /-- DMA_COMPARE (R281). A compare descriptor starts, reading and comparing SRC and DST. -/
  | dmaCompare (side : Side) (ch : Chan)
  /-- DMA_DECRYPT (R281). A decrypt descriptor starts, checking the weight blob header and decrypting segments. -/
  | dmaDecrypt (side : Side) (ch : Chan)
  /-- DMA_NO_OPERATION (R281). A no-operation descriptor moves no data but keeps barrier, trigger and record rules. -/
  | dmaNoOperation (side : Side) (ch : Chan)
  /-- DMA_BURST_ISSUE (R283). Each attach clock the engine picks a channel and issues one burst. -/
  | dmaBurstIssue (side : Side)
  /-- DMA_TIMER_TRIGGER (R285). The fabric time test reaches TRIG_ARG and the waiting descriptor starts. -/
  | dmaTimerTrigger (side : Side) (ch : Chan)
  /-- DMA_DESCRIPTOR_COMPLETE (R286). All bursts resolve; the record is written and DONE_SEQ advances or the channel halts. -/
  | dmaDescriptorComplete (side : Side) (ch : Chan)
  /-- DMA_STOP (R287). Writing STOP = 1 stops fetch and issue and halts the channel with NOT_READY. -/
  | dmaStop (side : Side) (ch : Chan)
  /-- DMA_ERR_CLEAR (R286). Writing 1 to ERR clears the halt and resumes from descriptor DONE_SEQ. -/
  | dmaErrClear (side : Side) (ch : Chan)
  /-- DMA_CHANNEL_DISABLE (R288). Clearing EN on a halted or idle channel discards unstarted descriptors. -/
  | dmaChannelDisable (side : Side) (ch : Chan)
  /-- CW_BANK_REQUEST (R89). A directory bank takes up a coherence or uncached request for a stable line and serves it. -/
  | cwBankRequest (pkts : List Packet)
  /-- COH_WB_AT_BANK (R93). A COH_WB reaches the bank and is forwarded to the home or taken as a recall answer. -/
  | cohWbAtBank (pkt : Packet)
  /-- COH_DATA_AT_BANK (R89). Home data reaches the bank and passes to the requester, completing the transaction. -/
  | cohDataAtBank (pkt : Packet)
  /-- COH_ACK_AT_BANK (R93). An INV_ACK, NOT_HELD or WB_DONE reaches the bank and advances the line's open transaction. -/
  | cohAckAtBank (pkt : Packet)
  /-- CW_ACK_TIMEOUT (R98). A member misses ACK_TIMEOUT; it is suspended and the bank continues or writes back poison. -/
  | cwAckTimeout (bank : Slice) (line : Nat) (member : Fin 64)
  /-- COH_INV_RX (R94). A member OEB receiving COH_INV snoops its accelerator and answers INV_ACK. -/
  | cohInvRx (side : Side) (pkt : Packet) (bad : Bool)
  /-- COH_RECALL_RX (R95). A member OEB receiving COH_RECALL answers after its first access by COH_WB or NOT_HELD. -/
  | cohRecallRx (side : Side) (pkt : Packet) (bad : Bool)
  /-- CONTRIB_SOP_RX (R159). A contribution's SOP cell reaches its Luna die and is checked against rows 1 to 11. -/
  | contribSopRx (die : LDie) (pkt : Packet)
  /-- HOLD_RANGE_ALLOCATED (R198). A contribution waiting in the packet buffer receives its hold range and streams. -/
  | holdRangeAllocated (die : LDie) (id : ChunkId) (slot : Nat)
  /-- CONTRIB_CELL_RX (R198). A contribution cell is unpacked into hold ranges and a full beat dispatches BEAT tasks. -/
  | contribCellRx (die : LDie) (id : ChunkId) (slot : Nat) (bytes : List Byte) (sram : SramRead)
  /-- CONTRIB_EOP_CHECK (R160). The EOP cell is checked by tag or digest and the contribution commits or fails its chunk. -/
  | contribEopCheck (die : LDie) (id : ChunkId) (slot : Nat) (bad : Bool) (trailer : List Byte)
  /-- TASK_START (R208). A dispatched Luna task issues its first instruction on its core. -/
  | taskStart (core : Core)
  /-- LUNA_STEP_DEADLINE (R166). The step deadline ends every open chunk of the die's share with partial results. -/
  | lunaStepDeadline (die : LDie) (comm : Fin 16384)
  /-- CHECK_RECORD_RX (R169). A check record reaches the emitting die and its digests are compared. -/
  | checkRecordRx (die : LDie) (rec : CheckRecord)
  /-- VERIFY_TIMEOUT (R169). No check record within 10 µs; the emitting die emits its own result. -/
  | verifyTimeout (die : LDie) (id : ChunkId)
  /-- LUNA_HWFAULT (R216). A core's own checks detect a fault; it is retired and the running task's chunks fail with POISON. -/
  | lunaHwfault (core : Core) (row : Option (Nat × Nat))
  /-- TASK_BUDGET_EXCEEDED (R216). A task runs past its BUDGET and its chunk fails with CHECK_FAIL. -/
  | taskBudgetExceeded (core : Core)
  /-- ARM_COMPLETE (R156). A context's arm copy finishes and it becomes ARMED. -/
  | armComplete (die : LDie) (comm : Fin 16384)
  /-- DISARM_COMPLETE (R155). The last open chunk of a disarming context ends and its reservation is freed. -/
  | disarmComplete (die : LDie) (comm : Fin 16384)
  /-- ADD (R209). sD := sA + sB. -/
  | add (c : Core) (d a b : SReg)
  /-- SUB (R209). sD := sA − sB. -/
  | sub (c : Core) (d a b : SReg)
  /-- AND (R209). sD := sA and sB. -/
  | andd (c : Core) (d a b : SReg)
  /-- OR (R209). sD := sA or sB. -/
  | orr (c : Core) (d a b : SReg)
  /-- XOR (R209). sD := sA xor sB. -/
  | xorr (c : Core) (d a b : SReg)
  /-- SHL (R209). sD := sA shifted left by sB[5:0]. -/
  | shl (c : Core) (d a b : SReg)
  /-- SHR (R209). sD := sA shifted right logically by sB[5:0]. -/
  | shr (c : Core) (d a b : SReg)
  /-- SAR (R209). sD := sA shifted right arithmetically by sB[5:0]. -/
  | sar (c : Core) (d a b : SReg)
  /-- MUL (R209). sD := low 64 bits of sA × sB. -/
  | mul (c : Core) (d a b : SReg)
  /-- SLT (R209). sD := 1 if sA < sB signed, else 0. -/
  | slt (c : Core) (d a b : SReg)
  /-- SLTU (R209). sD := 1 if sA < sB unsigned, else 0. -/
  | sltu (c : Core) (d a b : SReg)
  /-- SEQ (R209). sD := 1 if sA = sB, else 0. -/
  | seqq (c : Core) (d a b : SReg)
  /-- SMIN (R209). sD := signed minimum of sA and sB. -/
  | smin (c : Core) (d a b : SReg)
  /-- SMAX (R209). sD := signed maximum of sA and sB. -/
  | smax (c : Core) (d a b : SReg)
  /-- ADDI (R209). sD := sA + immediate. -/
  | addi (c : Core) (d a : SReg) (imm : Imm)
  /-- ANDI (R209). sD := sA and zero-extended immediate. -/
  | andi (c : Core) (d a : SReg) (imm : Imm)
  /-- ORI (R209). sD := sA or zero-extended immediate. -/
  | ori (c : Core) (d a : SReg) (imm : Imm)
  /-- SHLI (R209). sD := sA shifted left by n. -/
  | shli (c : Core) (d a : SReg) (n : Fin 64)
  /-- SHRI (R209). sD := sA shifted right logically by n. -/
  | shri (c : Core) (d a : SReg) (n : Fin 64)
  /-- LI (R209). sD := immediate. -/
  | li (c : Core) (d : SReg) (imm : Imm)
  /-- LSH (R209). sD := (sA << 16) or zero-extended immediate. -/
  | lsh (c : Core) (d a : SReg) (imm : Imm)
  /-- LD (R209). Loads 64 bits of core-local SRAM into sD. -/
  | ld (c : Core) (d a : SReg) (imm : Imm) (sram : SramRead)
  /-- LDW (R209). Loads 32 bits of core-local SRAM zero-extended into sD. -/
  | ldw (c : Core) (d a : SReg) (imm : Imm) (sram : SramRead)
  /-- ST (R209). Stores sD as 64 bits to core-local SRAM. -/
  | st (c : Core) (d a : SReg) (imm : Imm)
  /-- STW (R209). Stores sD[31:0] to core-local SRAM. -/
  | stw (c : Core) (d a : SReg) (imm : Imm)
  /-- LDC (R209). Loads a 64-bit constant from the program store. -/
  | ldc (c : Core) (d a : SReg) (imm : Imm)
  /-- BEQ (R209). Branches if sA = sB. -/
  | beq (c : Core) (a b : SReg) (off : Imm)
  /-- BNE (R209). Branches if sA ≠ sB. -/
  | bne (c : Core) (a b : SReg) (off : Imm)
  /-- BLT (R209). Branches if sA < sB signed. -/
  | blt (c : Core) (a b : SReg) (off : Imm)
  /-- BLTU (R209). Branches if sA < sB unsigned. -/
  | bltu (c : Core) (a b : SReg) (off : Imm)
  /-- BANY (R209). Branches if any lane bit of pA is 1. -/
  | bany (c : Core) (a : PReg) (off : Imm)
  /-- BNONE (R209). Branches if no lane bit of pA is 1. -/
  | bnone (c : Core) (a : PReg) (off : Imm)
  /-- JMP (R209). Jumps unconditionally. -/
  | jmp (c : Core) (off : Imm)
  /-- CALL (R209). Pushes the next address and jumps. -/
  | call (c : Core) (off : Imm)
  /-- RET (R209). Pops the return stack and jumps. -/
  | ret (c : Core)
  /-- DONE (R209). Ends the task once the X unit is idle and stores are performed. -/
  | done (c : Core)
  /-- RDT (R209). Reads task information n into sD. -/
  | rdt (c : Core) (d a : SReg) (n : Fin 6)
  /-- BITM (R209). sD := bit sA of the contributor bitmap. -/
  | bitm (c : Core) (d a : SReg)
  /-- PAND (R209). pD := pA and pB. -/
  | pand (c : Core) (d a b : PReg)
  /-- POR (R209). pD := pA or pB. -/
  | por (c : Core) (d a b : PReg)
  /-- PXOR (R209). pD := pA xor pB. -/
  | pxor (c : Core) (d a b : PReg)
  /-- PANDN (R209). pD := pA and not pB. -/
  | pandn (c : Core) (d a b : PReg)
  /-- PMOV (R209). pD := sA. -/
  | pmov (c : Core) (d : PReg) (a : SReg)
  /-- PGET (R209). sD := pA. -/
  | pget (c : Core) (d : SReg) (a : PReg)
  /-- PFIRST (R209). pD := the lowest min(sA, 64) bits set. -/
  | pfirst (c : Core) (d : PReg) (a : SReg)
  /-- PCNT (R209). sD := number of bits set in pA. -/
  | pcnt (c : Core) (d : SReg) (a : PReg)
  /-- VLD (R209). Loads 512 bits of core-local SRAM into vD. -/
  | vld (c : Core) (d : VReg) (a : SReg) (imm : Imm) (sram : SramRead)
  /-- VST (R209). Stores vD as 512 bits to core-local SRAM. -/
  | vst (c : Core) (d : VReg) (a : SReg) (imm : Imm)
  /-- VLDC (R209). Loads a 512-bit constant from the program store. -/
  | vldc (c : Core) (d : VReg) (a : SReg) (imm : Imm)
  /-- VADD (R210). Per enabled lane vD := vA + vB in the lane format. -/
  | vadd (c : Core) (t : ElemT) (d a b : VReg) (p : PReg)
  /-- VSUB (R210). Per enabled lane vD := vA − vB. -/
  | vsub (c : Core) (t : ElemT) (d a b : VReg) (p : PReg)
  /-- VMAX (R210). Per enabled lane vD := max(vA, vB). -/
  | vmax (c : Core) (t : ElemT) (d a b : VReg) (p : PReg)
  /-- VMIN (R210). Per enabled lane vD := min(vA, vB). -/
  | vmin (c : Core) (t : ElemT) (d a b : VReg) (p : PReg)
  /-- VAND (R210). Per enabled lane vD := vA and vB. -/
  | vand (c : Core) (t : ElemT) (d a b : VReg) (p : PReg)
  /-- VOR (R210). Per enabled lane vD := vA or vB. -/
  | vor (c : Core) (t : ElemT) (d a b : VReg) (p : PReg)
  /-- VXOR (R210). Per enabled lane vD := vA xor vB. -/
  | vxor (c : Core) (t : ElemT) (d a b : VReg) (p : PReg)
  /-- VSEL (R210). Per lane vD takes vA where enabled and vB elsewhere. -/
  | vsel (c : Core) (t : ElemT) (d a b : VReg) (p : PReg)
  /-- VCMP_EQ (R209). Sets predicate bits where lanes of vA and vB are equal. -/
  | vcmpEq (c : Core) (t : ElemT) (d : PReg) (a b : VReg) (p : PReg)
  /-- VCMP_LT (R209). Sets predicate bits where vA < vB. -/
  | vcmpLt (c : Core) (t : ElemT) (d : PReg) (a b : VReg) (p : PReg)
  /-- VCMP_LE (R209). Sets predicate bits where vA ≤ vB. -/
  | vcmpLe (c : Core) (t : ElemT) (d : PReg) (a b : VReg) (p : PReg)
  /-- VCMP_NE (R209). Sets predicate bits where vA ≠ vB. -/
  | vcmpNe (c : Core) (t : ElemT) (d : PReg) (a b : VReg) (p : PReg)
  /-- VCVT (R209). Converts 16 lanes of vA exactly to FP32 in vD. -/
  | vcvt (c : Core) (t : ElemT) (d a : VReg) (f : Fin 4)
  /-- VRND (R212). Rounds 16 FP32 lanes of vA to the output type into vD. -/
  | vrnd (c : Core) (t : ElemT) (d a : VReg) (b : SReg) (p : PReg) (f : Fin 4)
  /-- VSPLAT (R209). Sets every lane of vD to the low lane bytes of sA. -/
  | vsplat (c : Core) (t : ElemT) (d : VReg) (a : SReg)
  /-- VLDA (R209). Loads 16 FP32 entries of a handle into vD. -/
  | vlda (c : Core) (d : VReg) (a : AReg) (b : SReg) (sram : SramRead)
  /-- VSTA (R209). Writes enabled lanes of vD to entries of a handle. -/
  | vsta (c : Core) (d : VReg) (a : AReg) (b : SReg) (p : PReg)
  /-- XADD (R211). Adds decoded lanes into exact partials. -/
  | xadd (c : Core) (t : ElemT) (d : AReg) (a : VReg) (b : SReg) (p : PReg) (sram : SramRead)
  /-- XSUB (R211). Subtracts decoded lanes from exact partials. -/
  | xsub (c : Core) (t : ElemT) (d : AReg) (a : VReg) (b : SReg) (p : PReg) (sram : SramRead)
  /-- XMAX (R211). Combines decoded lanes into partials by max. -/
  | xmax (c : Core) (t : ElemT) (d : AReg) (a : VReg) (b : SReg) (p : PReg) (sram : SramRead)
  /-- XMIN (R211). Combines decoded lanes into partials by min. -/
  | xmin (c : Core) (t : ElemT) (d : AReg) (a : VReg) (b : SReg) (p : PReg) (sram : SramRead)
  /-- XAND (R211). Combines decoded lanes into partials by and. -/
  | xand (c : Core) (t : ElemT) (d : AReg) (a : VReg) (b : SReg) (p : PReg) (sram : SramRead)
  /-- XIOR (R211). Combines decoded lanes into partials by or. -/
  | xior (c : Core) (t : ElemT) (d : AReg) (a : VReg) (b : SReg) (p : PReg) (sram : SramRead)
  /-- XXOR (R211). Combines decoded lanes into partials by xor. -/
  | xxor (c : Core) (t : ElemT) (d : AReg) (a : VReg) (b : SReg) (p : PReg) (sram : SramRead)
  /-- XSET (R211). Sets partials to the decoded lane values alone. -/
  | xset (c : Core) (t : ElemT) (d : AReg) (a : VReg) (b : SReg) (p : PReg)
  /-- XID_SUM (R209). Sets sA partials to the sum identity. -/
  | xidSum (c : Core) (d : AReg) (a b : SReg)
  /-- XID_MAX (R209). Sets sA partials to the max identity. -/
  | xidMax (c : Core) (d : AReg) (a b : SReg)
  /-- XID_MIN (R209). Sets sA partials to the min identity. -/
  | xidMin (c : Core) (d : AReg) (a b : SReg)
  /-- XID_AND (R209). Sets sA partials to the and identity. -/
  | xidAnd (c : Core) (d : AReg) (a b : SReg)
  /-- XID_OR (R209). Sets sA partials to the or identity. -/
  | xidOr (c : Core) (d : AReg) (a b : SReg)
  /-- XID_XOR (R209). Sets sA partials to the xor identity. -/
  | xidXor (c : Core) (d : AReg) (a b : SReg)
  /-- XID_COPY (R209). Sets sA partials to the copy identity. -/
  | xidCopy (c : Core) (d : AReg) (a b : SReg)
  /-- XADDW (R211). Adds wide-form partials from the hold buffer. -/
  | xaddw (c : Core) (d : AReg) (a b : SReg) (sram : SramRead)
  /-- XSUBW (R211). Subtracts wide-form partials from the hold buffer. -/
  | xsubw (c : Core) (d : AReg) (a b : SReg) (sram : SramRead)
  /-- AOFF (R209). Derives a narrower handle view from entry sB. -/
  | aoff (c : Core) (d a : AReg) (b : SReg)
  /-- XSWP_ADD (R211). Sweeps stored contributions into partials by addition. -/
  | xswpAdd (c : Core) (t : ElemT) (d a : AReg) (b : SReg) (p : PReg) (sram : SramRead)
  /-- XSWP_MAX (R211). Sweeps stored contributions into partials by max. -/
  | xswpMax (c : Core) (t : ElemT) (d a : AReg) (b : SReg) (p : PReg) (sram : SramRead)
  /-- XSWP_MIN (R211). Sweeps stored contributions into partials by min. -/
  | xswpMin (c : Core) (t : ElemT) (d a : AReg) (b : SReg) (p : PReg) (sram : SramRead)
  /-- XSWP_AND (R211). Sweeps stored contributions into partials by and. -/
  | xswpAnd (c : Core) (t : ElemT) (d a : AReg) (b : SReg) (p : PReg) (sram : SramRead)
  /-- XSWP_OR (R211). Sweeps stored contributions into partials by or. -/
  | xswpOr (c : Core) (t : ElemT) (d a : AReg) (b : SReg) (p : PReg) (sram : SramRead)
  /-- XSWP_XOR (R211). Sweeps stored contributions into partials by xor. -/
  | xswpXor (c : Core) (t : ElemT) (d a : AReg) (b : SReg) (p : PReg) (sram : SramRead)
  /-- XSWP_COPY (R211). Sets each partial from the lowest committed slot in a sweep. -/
  | xswpCopy (c : Core) (t : ElemT) (d a : AReg) (b : SReg) (p : PReg) (sram : SramRead)
  /-- FSWP (R211). Forms the native fixed-order FP32 sum of 16 lanes. -/
  | fswp (c : Core) (t : ElemT) (d : VReg) (a : AReg) (b : SReg) (p : PReg) (sram : SramRead)
  /-- XRND (R212). Resolves and rounds partials into output lanes. -/
  | xrnd (c : Core) (t : ElemT) (d : VReg) (a : AReg) (b : SReg) (p : PReg) (sram : SramRead)
  /-- XBEXP (R212). Posts partial values to the chunk's MX block table. -/
  | xbexp (c : Core) (t : ElemT) (d : AReg) (b : SReg) (p : PReg) (sram : SramRead)
  /-- VBEXP (R212). Posts FP32 lane values to the chunk's MX block table. -/
  | vbexp (c : Core) (t : ElemT) (a : VReg) (b : SReg) (p : PReg)
  /-- XMRG (R213). Merges sparse entries into the record list or dense partials. -/
  | xmrg (c : Core) (t : ElemT) (d a b : SReg) (sram : SramRead)
  /-- XDNS (R213). Converts the core's records in place to dense partials. -/
  | xdns (c : Core) (sram : SramRead)
  /-- OST (R214). Appends enabled output lanes to the chunk's output. -/
  | ost (c : Core) (t : ElemT) (a : VReg) (p : PReg)
  /-- SEGMENT_EGRESS (R322). An egress Skipper restamps a segment and enters it for a gateway port under its window. -/
  | segmentEgress (k : Skip) (pkt : Packet) (bad : Bool)
  /-- SEGMENT_RELEASE (R322). A freed window place releases the transfer's oldest waiting segment. -/
  | segmentRelease (k : Skip) (src part region : Nat) (sram : SramRead)
  /-- SEGMENT_ARRIVAL (R323). An arrival Skipper re-enters a segment for class 7 and records non-posted ones. -/
  | segmentArrival (k : Skip) (pkt : Packet) (bad : Bool)
  /-- REMOTE_TIMEOUT (R323). A remote entry not cleared within REMOTE_TO synthesises a TIMEOUT response. -/
  | remoteTimeout (k : Skip) (src : BitVec 12) (tag : BitVec 14)
  /-- HOST_REQUEST (R327). A host Skipper checks a host-region request and serves it by PCIe or a record. -/
  | hostRequest (k : Skip) (pkt : Packet) (bad : Bool)
  /-- PCIE_COMPLETION_RX (R328). A PCIe completion returns host data or a mapped failure to the fabric requester. -/
  | pcieCompletionRx (k : Skip) (ptag : Nat) (status : PcieStatus) (data : List Byte)
  /-- HOST_CPL_TIMEOUT (R328). A host completion timeout of 10 ms returns TIMEOUT. -/
  | hostCplTimeout (k : Skip) (ptag : Nat)
  /-- HOST_RX_CONS_WRITE (R329). The host writes RX_CONS, freeing record ring slots. -/
  | hostRxConsWrite (k : Skip) (v : BitVec 32)
  /-- HOST_TX_TAIL_WRITE (R331). The host writes TX_TAIL, making transmit descriptors available. -/
  | hostTxTailWrite (k : Skip) (v : BitVec 32)
  /-- HOST_TX_DESCRIPTOR (R331). The Skipper starts the next transmit descriptor and emits its segments. -/
  | hostTxDescriptor (k : Skip) (words : List Word) (data : List Byte)
  /-- SKIPPER_WR_RSP_RX (R321). A Skipper consumes the response to a segment it emitted. -/
  | skipperWrRspRx (k : Skip) (pkt : Packet)
  /-- HOST_TX_DESCRIPTOR_COMPLETE (R331). All segments have left or been answered; TX_DONE advances and MSI-X vector 0 fires. -/
  | hostTxDescriptorComplete (k : Skip)
  /-- PPS_IN_EDGE (R338). A TIME_PPS_IN rising edge is timestamped and, at a disciplined root, corrects ft. -/
  | ppsInEdge
  /-- PPS_IN_LOST (R338). No valid PPS edge for 2 s drops the root to ROOT_FREE. -/
  | ppsInLost
  /-- MARKER_LOSS (R347). The upstream's marker window runs out; a new upstream is chosen or Doldrums entered. -/
  | markerLoss (u : UnitId)
  /-- PPS_OUT_EDGE (R349). TIME_PPS_OUT rises at each period instant of ft. -/
  | ppsOutEdge (k : Fin 2)
  /-- PPS_OUT_FALL (R349). TIME_PPS_OUT falls after (QUAL + 1) × 10 µs. -/
  | ppsOutFall (k : Fin 2)
  /-- KEY_SET (R364). A KEY_SET command installs a key in an empty slot for a partition. -/
  | keySet (u : UnitId) (sess : Nat) (c : KeyCmd)
  /-- KEY_ROTATE (R372). A KEY_ROTATE installs the next key and schedules rotation at T. -/
  | keyRotate (u : UnitId) (sess : Nat) (c : KeyCmd)
  /-- KEY_ERASE (R367). A KEY_ERASE zeroes a slot and cancels any pending rotation. -/
  | keyErase (u : UnitId) (sess : Nat) (c : KeyCmd)
  /-- KEY_QUERY (R364). A KEY_QUERY returns a slot's KS_INFO word 0. -/
  | keyQuery (u : UnitId) (sess : Nat) (c : KeyCmd)
  /-- DEVSET_SET (R365). A DEVSET_SET writes or clears a device set entry at an OEB. -/
  | devsetSet (u : UnitId) (sess : Nat) (c : KeyCmd)
  /-- KEY_ROTATION_TIME (R372). ft reaches T; the next key seals, SEQ resets, GEN increments and overlap starts. -/
  | keyRotationTime (u : UnitId) (slot : BitVec 13)
  /-- KEY_OVERLAP_END (R372). ft reaches T + OVERLAP and the old key is erased. -/
  | keyOverlapEnd (u : UnitId) (slot : BitVec 13)
  /-- GET_VERSION (R469). The SPDM GET_VERSION request is answered. -/
  | getVersion (u : UnitId) (conn : Nat)
  /-- GET_CAPABILITIES (R469). The SPDM GET_CAPABILITIES request is answered. -/
  | getCapabilities (u : UnitId) (conn : Nat) (req : List Byte)
  /-- NEGOTIATE_ALGORITHMS (R469). The SPDM NEGOTIATE_ALGORITHMS request is answered. -/
  | negotiateAlgorithms (u : UnitId) (conn : Nat) (req : List Byte)
  /-- GET_DIGESTS (R469). The SPDM GET_DIGESTS request returns certificate digests. -/
  | getDigests (u : UnitId) (conn : Nat)
  /-- GET_CERTIFICATE (R469). The SPDM GET_CERTIFICATE request returns the slot 0 chain. -/
  | getCertificate (u : UnitId) (conn : Nat) (slot : Nat) (offset length : Nat)
  /-- CHALLENGE (R373). The SPDM CHALLENGE request is answered with a signed nonce response. -/
  | challenge (u : UnitId) (conn : Nat) (slot : Nat) (req : List Byte)
  /-- GET_MEASUREMENTS (R358). The SPDM GET_MEASUREMENTS request returns the measurement blocks. -/
  | getMeasurements (u : UnitId) (conn : Nat) (index : Nat) (signed : Bool) (req : List Byte)
  /-- KEY_EXCHANGE (R373). The SPDM KEY_EXCHANGE request opens a secured session. -/
  | keyExchange (u : UnitId) (conn : Nat) (sess : Nat) (req : List Byte)
  /-- FINISH (R469). The SPDM FINISH request completes session establishment. -/
  | finish (u : UnitId) (sess : Nat) (req : List Byte) (leafKey : List Byte)
  /-- KEY_UPDATE (R373). The SPDM KEY_UPDATE request updates session keys or is refused without a working TRNG. -/
  | keyUpdate (u : UnitId) (sess : Nat) (req : List Byte)
  /-- HEARTBEAT (R469). The SPDM HEARTBEAT request keeps a session alive. -/
  | heartbeat (u : UnitId) (sess : Nat)
  /-- END_SESSION (R469). The SPDM END_SESSION request closes a session. -/
  | endSession (u : UnitId) (sess : Nat)
  /-- VENDOR_DEFINED_REQUEST (R364). An SPDM vendor-defined request carries a key command in a mutually authenticated session. -/
  | vendorDefinedRequest (u : UnitId) (sess : Nat) (std : BitVec 16) (pen : BitVec 32) (payload : List Byte)
  /-- TRNG_STARTUP_DONE (R373). The TRNG start-up tests end and READY is set or a retry starts. -/
  | trngStartupDone (u : TrngUnit) (pass : Bool)
  /-- TRNG_HEALTH_FAIL (R373). A continuous-test failure clears READY and restarts the start-up tests. -/
  | trngHealthFail (u : TrngUnit) (apt : Bool)
  /-- DRBG_RESEED (R373). After 2^20 requests the DRBG reseeds from health-tested samples. -/
  | drbgReseed (u : TrngUnit)
  /-- DEBUG_UNLOCK (R361). A signed DEBUG_UNLOCK token at reset erases keys and Luna SRAM before the debug port opens. -/
  | debugUnlock (token : List Byte)
  /-- MONARCH_HEARTBEAT_LOSS (R389). No heartbeat from the active Monarch for 1 ms makes the standby take over. -/
  | monarchHeartbeatLoss
  /-- MONARCH_FAULT_REPORT (R389). The active Monarch reports its own uncorrectable fault and the standby takes over. -/
  | monarchFaultReport
  /-- EVENT_FOLD (R376). A raised event reaches the fault folder and joins, is attributed to, or opens an entry. -/
  | eventFold (u : UnitId)
  /-- FOLD_WINDOW_EXPIRY (R377). FOLD_WIN passes without events and the entry closes with its closing record. -/
  | foldWindowExpiry (u : UnitId) (seq : Nat)
  /-- FOLD_MAXSPAN_EXPIRY (R377). An entry reaches MAXSPAN windows and closes with its closing record. -/
  | foldMaxspanExpiry (u : UnitId) (seq : Nat)
  /-- TRAY_REMOVAL (R382). HP_PRESENT_N high for 200 ns makes every port send DOWN, raises TRAY_REMOVAL and stops. -/
  | trayRemoval
  /-- HP_GLITCH (R456). A high pulse of HP_PRESENT_N shorter than 200 ns is ignored and counted. -/
  | hpGlitch
  /-- TRAY_INSERTION (R455). HP_PRESENT_N low for 10 ms marks an inserted tray and start-up may proceed. -/
  | trayInsertion
  /-- BACKGROUND_SELFTEST_FAIL (R387). A slice failing background self-test or uncorrectable errors in 4 rows starts a migration. -/
  | backgroundSelftestFail (sl : Slice)
  /-- SLICE_CUT_CLOCK (R387). The bank copy ends and the active list, banks and accountants move to the live spare. -/
  | sliceCutClock
  /-- GRANT_FREEZE_END (R387). One µs after the cut, accountants resume granting blocks. -/
  | grantFreezeEnd
  /-- SLICE_DRAINED (R387). The migrated slice's cells drain, it sets RETIRED and powers down. -/
  | sliceDrained (sl : Slice)
  /-- SLICE_FAIL (R388). A slice fails before its banks are copied; cells tail-mark, entries and its bank are lost. -/
  | sliceFail (sl : Slice)
  /-- UNIT_TEST_DONE (R390). A unit's in-service test ends and reports or proceeds to its shadow. -/
  | unitTestDone (kind : UnitKind) (num : Nat) (pass : Bool)
  /-- UNIT_SHADOW_DONE (R390). A unit's shadow ends and it returns to the spare pool or stays withdrawn. -/
  | unitShadowDone (kind : UnitKind) (num : Nat) (pass : Bool)
  /-- SNAPSHOT_INSTANT (R396). At a snapshot instant every die latches its counters in one slice clock. -/
  | snapshotInstant
  /-- SNAPSHOT_COPY_DONE (R398). The snapshot copy completes and DONE_BUF, SEQ and BUSY change together. -/
  | snapshotCopyDone
  /-- CALM_FREEZE (R409). At the stop time every die freezes, a Calm snapshot latches and ports send DOWN. -/
  | calmFreeze
  /-- CALM_FRAME_RX (R408). A chain Calm notice sets the stop time, or stops at once if it has passed. -/
  | calmFrameRx (link : Fin 2) (frame : List Byte)
  /-- SCAN_READ (R412). A SCAN_DATA read returns frozen state in Calm to the telemetry domain, or is denied. -/
  | scanRead (fn : Dom) (off : Nat)
  /-- MAILBOX_GO (R470). Writing GO submits the mailbox request and sets BUSY, or is refused. -/
  | mailboxGo (d : Dom) (fn : Dom) (reqLen : BitVec 13)
  /-- MAILBOX_RESPONSE (R470). The response is written, BUSY clears, DONE is set and MSI-X vector 1 fires. -/
  | mailboxResponse (d : Dom) (rsp : List Byte)
  /-- RING_TAIL_WRITE (R420). A RING_TAIL write makes complete programs available for take-up. -/
  | ringTailWrite (d : Dom) (tail : BitVec 32)
  /-- RING_FLUSH (R420). Writing FLUSH discards every word not yet taken up. -/
  | ringFlush (d : Dom)
  /-- PROGRAM_CHECK (R424). The Monarch takes up the next program, fetches its payload and runs the two check passes. -/
  | programCheck
  /-- PAYLOAD_FETCH_DONE (R422). A program's payload fetch completes or fails with reason FETCH. -/
  | payloadFetchDone (pos : Option (Fin 64)) (word : Nat) (res : FetchResult)
  /-- PROGRAM_COMMIT (R426). At ft ≥ E every write and command of the program takes effect in one slice clock. -/
  | programCommit
  /-- WR (R421). Writes one 64-bit word at a control address at commit. -/
  | wr (dom : Dom) (addr : BitVec 48) (v : Word)
  /-- BLK_WR (R421). Writes N fetched words at consecutive control addresses at commit. -/
  | blkWr (dom : Dom) (addr : BitVec 48) (vs : List Word)
  /-- RD (R421). Reads a control address into a result slot after the program's writes. -/
  | rd (dom : Dom) (addr : BitVec 48) (slot : BitVec 12)
  /-- CTX_ARM (R154). Arms a context on every die of its masks, reserving staging and copying its image. -/
  | ctxArm (dom : Dom) (comm : Fin 16384)
  /-- CTX_DISARM (R155). Disarms a context, opening no new chunks and freeing it when open chunks end. -/
  | ctxDisarm (dom : Dom) (comm : Fin 16384)
  /-- LUNA_LOAD (R221). Loads a checked Luna image into the image stores of the named dies. -/
  | lunaLoad (dom : Dom) (mask : BitVec 8) (image : List Byte)
  /-- LUNA_UNLOAD (R222). Removes an image not named by a valid context from the named dies. -/
  | lunaUnload (dom : Dom) (progId : BitVec 16) (mask : BitVec 8)
  /-- PROFILE_LOAD (R432). Resets program-settable registers and loads the named profile and its body. -/
  | profileLoad (dom : Dom) (n : Fin 4)
  /-- PROFILE_STORE (R434). Writes a profile to flash without changing the running configuration. -/
  | profileStore (dom : Dom) (n : Fin 4) (image : List Byte)
  /-- FW_STAGE (R421). Writes firmware to the flash bank not booted. -/
  | fwStage (dom : Dom) (image : List Byte)
  /-- FABRIC_ENABLE (R427). Commits only if the whole configuration passes, allowing fabric-ready. -/
  | fabricEnable (dom : Dom)
  /-- FABRIC_DISABLE (R446). Takes every port down with cause LOCAL and ends fabric-ready. -/
  | fabricDisable (dom : Dom)
  /-- TIME_SET (R337). Sets the root's ft, forward only once fabric-ready. -/
  | timeSet (dom : Dom) (ft : Word)
  /-- SNAP_AT (R396). Requests a one-shot snapshot at a stated ft. -/
  | snapAt (dom : Dom) (ft : Word)
  /-- CALM (R407). Starts a Calm at once. -/
  | calm (dom : Dom)
  /-- CALM_AT (R407). Starts a Calm with a stated stop time. -/
  | calmAt (dom : Dom) (ft : Word)
  /-- SIGNER_ENROLL (R360). Enrols a program-signer key at index 4–15. -/
  | signerEnroll (dom : Dom) (index : BitVec 4) (key : List Byte)
  /-- SIGNER_REVOKE (R360). Revokes a program-signer key at index 4–15. -/
  | signerRevoke (dom : Dom) (index : BitVec 4)
  /-- EXPEL (R386). Applies a quorum-signed expulsion, disabling the target's ports and routes. -/
  | expel (dom : Dom) (stmt : List Byte)
  /-- READMIT (R386). Removes a target from the expulsion list and lets its ports train. -/
  | readmit (dom : Dom) (stmt : List Byte)
  /-- MONARCH_SWITCH (R389). Switches the active Monarch to the standby. -/
  | monarchSwitch (dom : Dom)
  /-- RETIRE_UNIT (R421). Withdraws a lane site, Luna core or slice die from service. -/
  | retireUnit (dom : Dom) (kind : UnitKind) (num : Nat)
  /-- SERVICE_TEST (R390). Runs the in-service test of a unit and reports the result. -/
  | serviceTest (dom : Dom) (kind : UnitKind) (num : Nat)
  /-- RESTORE_UNIT (R390). Tests and shadows a unit and returns it to the spare pool. -/
  | restoreUnit (dom : Dom) (kind : UnitKind) (num : Nat)
  /-- GW_TX_RESUME (R421). Clears a halted Skipper transmit ring and runs from TX_DONE. -/
  | gwTxResume (dom : Dom) (k : Skip)
  /-- COMMIT_AT (R420). Ends a program and names its effective time. -/
  | commitAt (dom : Dom) (ft : Word)
  /-- NOP (R421). Does nothing. -/
  | nop (dom : Dom)
  /-- ENUM_FRAME_RX (R417). An ENUM frame on CHAIN0 sets this OX9's position and is sent on. -/
  | enumFrameRx (frame : List Byte)
  /-- CHAIN_HEAD_TIMEOUT (R417). No ENUM within 1 ms of management training makes the OX9 head at position 0. -/
  | chainHeadTimeout
  /-- CMD_FRAME_RX (R418). A CMD frame delivers command words to the addressed chain member. -/
  | cmdFrameRx (link : Fin 2) (frame : List Byte)
  /-- CPL_FRAME_RX (R418). A CPL frame returns a completion record or RD result to the head. -/
  | cplFrameRx (link : Fin 2) (frame : List Byte)
  /-- FETCH_FRAME_RX (R418). A FETCH frame carries a payload fetch request or fetched data. -/
  | fetchFrameRx (link : Fin 2) (frame : List Byte)
  /-- BREEZE_FRAME_RX (R418). A chain BREEZE frame is handled as a time marker on the chain link. -/
  | breezeFrameRx (link : Fin 2) (frame : List Byte)
  /-- EVENT_FRAME_RX (R418). An EVENT frame forwards a log record to the head's log mirror. -/
  | eventFrameRx (link : Fin 2) (frame : List Byte)
  /-- DELAY_FRAME_RX (R418). A DELAY frame exchanges delay samples setting CHAIN_STAT.DELAY. -/
  | delayFrameRx (link : Fin 2) (frame : List Byte) (arrival : BitVec 40)
  /-- CHAIN_FRAME_RESEND (R418). A frame unacknowledged for 2 µs is resent. -/
  | chainFrameResend (link : Fin 2)
  /-- CHAIN_DOWN (R419). A chain link drops and commands beyond it complete with NO_ROUTE. -/
  | chainDown (link : Fin 2)
  /-- STEP_LAUNCH (R430). A STEP_LAUNCH CTL is checked and writes or holds LUNA_CTX.DEADLINE. -/
  | stepLaunch
  /-- RESET (R438). A fall of PWR_GOOD or PERST_N resets the OX9 within 1 µs. -/
  | reset
  /-- START_UP (R440). The last of PWR_GOOD, PERST_N and HP_PRESENT_N reaching its running level starts phase 0. -/
  | startUp
  /-- AON_PHASE_DONE (R440). Phase 0 ends after sampling PSEL and fuses, and domains start powering. -/
  | aonPhaseDone (psel : Fin 4) (fusesOk aonOk : Bool)
  /-- POWER_PHASE_DONE (R440). All domains are up and self-test starts. -/
  | powerPhaseDone
  /-- SELFTEST_PHASE_DONE (R440). Self-test ends, spares are applied and the Monarch role chosen, or Chrysalis entered. -/
  | selftestPhaseDone (failedDies : List Die) (failedSites : List Site) (failedCores : List Core) (failedRows : List (Die × Nat × Nat))
  /-- BOOT_PHASE_DONE (R440). Firmware has booted and the profile phase starts. -/
  | bootPhaseDone
  /-- PROFILE_PHASE_DONE (R440). The PSEL profile is loaded and the OX9 waits for fabric-ready. -/
  | profilePhaseDone
  /-- LUNA_COCOON_ENTRY (R448). A Luna cluster idle for LUNA_AFTER enters Cocoon. -/
  | lunaCocoonEntry (die : LDie) (cluster : Fin 9)
  /-- COCOON_WAKE_DONE (R449). A woken domain is ON and the chunk or arm waiting for it proceeds. -/
  | cocoonWakeDone (dom : Fin 167)
  /-- DVFS_VOLTAGE_REACHED (R450). VDD_LUNA reaches REQ_MV − 10 mV and the Luna clock changes. -/
  | dvfsVoltageReached (raw : Int)
  /-- DVFS_TIMEOUT (R450). The voltage is not reached within 10 ms and FREQ reverts. -/
  | dvfsTimeout
  /-- GOVERNOR_TICK (R451). Each µs the governor moves G toward demand, sets pad work and holds. -/
  | governorTick (demand : Nat)
  /-- THERMAL_WARN (R453). A sensor reading at or above WARN sets ALERT_STAT.THERMAL and raises THERMAL_WARN. -/
  | thermalWarn (sensor : Fin 134) (raw : Int)
  /-- THERMAL_TRIP (R453). A reading of 115 °C for 10 µs removes power from all but PD000 and drives FAULT_N. -/
  | thermalTrip (sensor : Fin 134) (raw : Int)
  /-- PIN_READBACK (R480). Readback of FAULT_N, ALERT_N, TIME_PPS_OUT and the I3C lines finds contention and counts it. -/
  | pinReadback (fault alert pps0 pps1 i3c : Bool)
  /-- COH_REQUEST_AT_HOME (R87). A home member's OEB receives a COH_GET_S, COH_GET_M or COH_WB forwarded by the directory bank and answers with COH_DATA or WB_DONE. -/
  | cohRequestAtHome (side : Side) (pkt : Packet) (bad : Bool)
  /-- CHAIN_LINK_UP (R419). A Monarch chain link trains, or returns after a drop, and ENUM runs again so that positions and pending completions are restored. -/
  | chainLinkUp (link : Fin 2)
  /-- MANAGEMENT_PORT_TRAINED (R417). The PCIe management port completes training, which starts the 1 ms wait after which an OX9 with no ENUM on CHAIN0 becomes chain head. -/
  | managementPortTrained
  /-- SKIP_MODE_END (R292). 1 ms after the last SKIP received, with its PLLs back on the reference, a transmitter leaves skip mode and clears PORT_LINK.SKIP_MODE. -/
  | skipModeEnd (e : LinkEnd)
  /-- OEB_RESET (R238). An OEB is reset: OEB_SIDE is sampled into SIDE, LOCK clears, and its key slots are erased under R367. -/
  | oebReset (side : Side) (strap : Bool)
deriving DecidableEq, Repr

end Sys2Proof
end

