-- ==== Sys2Proof/Decode.lean ====
section
/-! DEFINITION. The decoders: the words of the opcode table (which gives no row any bits), and the 32-bit words of a Luna
program (Tables 9-7 to 9-12). -/

namespace Sys2Proof

/-- The command a table word spells: the table gives no row bits, so none. -/
def decodeTableWord (_nbits _w : Nat) : Option Instr := none

/-! ### Lane types (Table 9-7) -/

/-- The code of a lane type. -/
def ElemT.code : ElemT → Nat
  | .f32 => 0
  | .bf16 => 1
  | .f16 => 2
  | .e4m3 => 3
  | .e5m2 => 4
  | .mxe4m3 => 5
  | .mxe5m2 => 6
  | .mxe3m2 => 7
  | .mxe2m3 => 8
  | .mxe2m1 => 9
  | .mxi8 => 10
  | .i32 => 11
  | .i64 => 12
  | .raw => 15

/-- The lane type of a code; 0xD and 0xE are reserved. -/
def elemOf : Nat → Option ElemT
  | 0 => some .f32
  | 1 => some .bf16
  | 2 => some .f16
  | 3 => some .e4m3
  | 4 => some .e5m2
  | 5 => some .mxe4m3
  | 6 => some .mxe5m2
  | 7 => some .mxe3m2
  | 8 => some .mxe2m3
  | 9 => some .mxe2m1
  | 10 => some .mxi8
  | 11 => some .i32
  | 12 => some .i64
  | 15 => some .raw
  | _ => none

/-- The bytes of a lane. -/
def ElemT.size (t : ElemT) : Nat :=
  match t with
  | .f32 | .i32 => 4
  | .i64 => 8
  | .e4m3 | .e5m2 | .raw => 1
  | _ => 2

/-- The lanes of a vector. -/
def ElemT.lanes (t : ElemT) : Nat := 64 / t.size

/-- The lane holds an integer. -/
def ElemT.isInt (t : ElemT) : Bool := match t with | .i32 | .i64 => true | _ => false

/-- The types that vadd, vsub, vmax and vmin accept (R210). -/
def ElemT.arith (t : ElemT) : Bool := decide (t.code ≤ 4) || t.isInt

/-! ### Fields of a Luna word (Table 9-8) -/

/-- OP. -/
def lOp (w : Nat) : Nat := bits w 26 6
/-- D of formats R and I; A of format J. -/
def lD (w : Nat) : Nat := bits w 21 5
/-- A of formats R and I; B of format J. -/
def lA (w : Nat) : Nat := bits w 16 5
/-- B of format R. -/
def lB (w : Nat) : Nat := bits w 11 5
/-- P. -/
def lP (w : Nat) : Nat := bits w 8 3
/-- T. -/
def lT (w : Nat) : Nat := bits w 4 4
/-- F. -/
def lF (w : Nat) : Nat := bits w 0 4
/-- IMM or OFF. -/
def lImm (w : Nat) : Imm := BitVec.ofNat 16 w

/-- A scalar register field: 0 to 15. -/
def sReg? (n : Nat) : Option SReg := if h : n < 16 then some ⟨n, h⟩ else none
/-- A predicate or handle field: 0 to 7. -/
def pReg? (n : Nat) : Option PReg := if h : n < 8 then some ⟨n, h⟩ else none
/-- A vector register field. -/
def vReg (n : Nat) : VReg := Fin.ofNat 32 n
/-- The predicate field P. -/
def lPred (w : Nat) : PReg := Fin.ofNat 8 (lP w)
/-- A condition on unused fields or on a type. -/
def need (b : Bool) : Option Unit := if b then some () else none

/-! ### The decoder -/

/-- OP 0x01: scalar arithmetic. -/
def decodeAlu (c : Core) (w : Nat) : Option Instr := do
  let d ← sReg? (lD w)
  let a ← sReg? (lA w)
  let b ← sReg? (lB w)
  need (lP w == 0 && lT w == 0)
  match lF w with
  | 0 => some (.add c d a b)
  | 1 => some (.sub c d a b)
  | 2 => some (.andd c d a b)
  | 3 => some (.orr c d a b)
  | 4 => some (.xorr c d a b)
  | 5 => some (.shl c d a b)
  | 6 => some (.shr c d a b)
  | 7 => some (.sar c d a b)
  | 8 => some (.mul c d a b)
  | 9 => some (.slt c d a b)
  | 10 => some (.sltu c d a b)
  | 11 => some (.seqq c d a b)
  | 12 => some (.smin c d a b)
  | 13 => some (.smax c d a b)
  | _ => none

/-- Format I with scalar registers D and A: OP 0x02 to 0x0D and 0x1B. -/
def decodeImm (c : Core) (w : Nat) : Option Instr := do
  let d ← sReg? (lD w)
  let a ← sReg? (lA w)
  let imm := lImm w
  let n := bits w 0 16
  match lOp w with
  | 0x02 => some (.addi c d a imm)
  | 0x03 => some (.andi c d a imm)
  | 0x04 => some (.ori c d a imm)
  | 0x05 => if h : n < 64 then some (.shli c d a ⟨n, h⟩) else none
  | 0x06 => if h : n < 64 then some (.shri c d a ⟨n, h⟩) else none
  | 0x07 => if a = 0 then some (.li c d imm) else none
  | 0x08 => some (.lsh c d a imm)
  | 0x09 => some (.ld c d a imm .clean)
  | 0x0A => some (.ldw c d a imm .clean)
  | 0x0B => some (.st c d a imm)
  | 0x0C => some (.stw c d a imm)
  | 0x0D => some (.ldc c d a imm)
  | 0x1B => if h : n < 6 then some (.rdt c d a ⟨n, h⟩) else none
  | _ => none

/-- Format J: OP 0x10 to 0x19. -/
def decodeJump (c : Core) (w : Nat) : Option Instr :=
  let off := lImm w
  let two := fun (f : SReg → SReg → Instr) => do
    let a ← sReg? (lD w)
    let b ← sReg? (lA w)
    some (f a b)
  let noReg := lD w == 0 && lA w == 0
  match lOp w with
  | 0x10 => two fun a b => .beq c a b off
  | 0x11 => two fun a b => .bne c a b off
  | 0x12 => two fun a b => .blt c a b off
  | 0x13 => two fun a b => .bltu c a b off
  | 0x14 => if lA w = 0 then (pReg? (lD w)).map fun a => .bany c a off else none
  | 0x15 => if lA w = 0 then (pReg? (lD w)).map fun a => .bnone c a off else none
  | 0x16 => if noReg then some (.jmp c off) else none
  | 0x17 => if noReg then some (.call c off) else none
  | 0x18 => if noReg && off == 0 then some (.ret c) else none
  | 0x19 => if noReg && off == 0 then some (.done c) else none
  | _ => none

/-- OP 0x1A and 0x1C: predicates (Table 9-10), bitm. -/
def decodePred (c : Core) (w : Nat) : Option Instr := do
  need (lP w == 0 && lT w == 0)
  if lOp w = 0x1C then
    let d ← sReg? (lD w)
    let a ← sReg? (lA w)
    need (lB w == 0 && lF w == 0)
    some (.bitm c d a)
  else
    let three := fun (f : PReg → PReg → PReg → Instr) => do
      let d ← pReg? (lD w)
      let a ← pReg? (lA w)
      let b ← pReg? (lB w)
      some (f d a b)
    match lF w with
    | 0 => three fun d a b => .pand c d a b
    | 1 => three fun d a b => .por c d a b
    | 2 => three fun d a b => .pxor c d a b
    | 3 => three fun d a b => .pandn c d a b
    | 4 => do need (lB w == 0); some (.pmov c (← pReg? (lD w)) (← sReg? (lA w)))
    | 5 => do need (lB w == 0); some (.pget c (← sReg? (lD w)) (← pReg? (lA w)))
    | 6 => do need (lB w == 0); some (.pfirst c (← pReg? (lD w)) (← sReg? (lA w)))
    | 7 => do need (lB w == 0); some (.pcnt c (← sReg? (lD w)) (← pReg? (lA w)))
    | _ => none

/-- OP 0x20 to 0x29: vectors (Table 9-11). -/
def decodeVec (c : Core) (w : Nat) : Option Instr :=
  let d := vReg (lD w)
  let a := vReg (lA w)
  let b := vReg (lB w)
  let p := lPred w
  match lOp w with
  | 0x20 => (sReg? (lA w)).map fun s => .vld c d s (lImm w) .clean
  | 0x21 => (sReg? (lA w)).map fun s => .vst c d s (lImm w)
  | 0x22 => (sReg? (lA w)).map fun s => .vldc c d s (lImm w)
  | 0x23 => do
    let t ← elemOf (lT w)
    match lF w with
    | 0 => do need t.arith; some (.vadd c t d a b p)
    | 1 => do need t.arith; some (.vsub c t d a b p)
    | 2 => do need t.arith; some (.vmax c t d a b p)
    | 3 => do need t.arith; some (.vmin c t d a b p)
    | 4 => some (.vand c t d a b p)
    | 5 => some (.vor c t d a b p)
    | 6 => some (.vxor c t d a b p)
    | 7 => some (.vsel c t d a b p)
    | _ => none
  | 0x24 => do
    let t ← elemOf (lT w)
    let q ← pReg? (lD w)
    match lF w with
    | 0 => some (.vcmpEq c t q a b p)
    | 1 => some (.vcmpLt c t q a b p)
    | 2 => some (.vcmpLe c t q a b p)
    | 3 => some (.vcmpNe c t q a b p)
    | _ => none
  | 0x25 => do
    let t ← elemOf (lT w)
    need (lB w == 0 && lP w == 0 && decide (16 * lF w < t.lanes))
    if h : lF w < 4 then some (.vcvt c t d a ⟨lF w, h⟩) else none
  | 0x26 => do
    let t ← elemOf (lT w)
    let s ← sReg? (lB w)
    need (decide (16 * lF w < t.lanes))
    if h : lF w < 4 then some (.vrnd c t d a s p ⟨lF w, h⟩) else none
  | 0x27 => do
    let t ← elemOf (lT w)
    let s ← sReg? (lA w)
    need (lB w == 0 && lP w == 0 && lF w == 0)
    some (.vsplat c t d s)
  | 0x29 => do
    let h ← pReg? (lA w)
    let s ← sReg? (lB w)
    need (lT w == 0)
    match lF w with
    | 0 => do need (lP w == 0); some (.vlda c d h s .clean)
    | 1 => some (.vsta c d h s p)
    | _ => none
  | _ => none

/-- OP 0x30 to 0x39: the X unit and output (Table 9-12). -/
def decodeX (c : Core) (w : Nat) : Option Instr :=
  let p := lPred w
  match lOp w with
  | 0x30 => do
    let t ← elemOf (lT w)
    let d ← pReg? (lD w)
    let b ← sReg? (lB w)
    let a := vReg (lA w)
    match lF w with
    | 0 => some (.xadd c t d a b p .clean)
    | 1 => some (.xsub c t d a b p .clean)
    | 2 => some (.xmax c t d a b p .clean)
    | 3 => some (.xmin c t d a b p .clean)
    | 4 => some (.xand c t d a b p .clean)
    | 5 => some (.xior c t d a b p .clean)
    | 6 => some (.xxor c t d a b p .clean)
    | 7 => some (.xset c t d a b p)
    | _ => none
  | 0x31 => do
    let d ← pReg? (lD w)
    let a ← sReg? (lA w)
    let b ← sReg? (lB w)
    need (lP w == 0 && lT w == 0)
    match lF w with
    | 0 => some (.xidSum c d a b)
    | 1 => some (.xidMax c d a b)
    | 2 => some (.xidMin c d a b)
    | 3 => some (.xidAnd c d a b)
    | 4 => some (.xidOr c d a b)
    | 5 => some (.xidXor c d a b)
    | 7 => some (.xidCopy c d a b)
    | _ => none
  | 0x32 => do
    let d ← pReg? (lD w)
    let a ← sReg? (lA w)
    let b ← sReg? (lB w)
    need (lP w == 0 && lT w == 0)
    match lF w with
    | 0 => some (.xaddw c d a b .clean)
    | 1 => some (.xsubw c d a b .clean)
    | _ => none
  | 0x33 => do
    let d ← pReg? (lD w)
    let a ← pReg? (lA w)
    let b ← sReg? (lB w)
    need (lP w == 0 && lT w == 0 && lF w == 0)
    some (.aoff c d a b)
  | 0x34 => do
    let t ← elemOf (lT w)
    let a ← pReg? (lA w)
    let b ← sReg? (lB w)
    if lF w = 8 then some (.fswp c t (vReg (lD w)) a b p .clean)
    else
      let d ← pReg? (lD w)
      match lF w with
      | 0 => some (.xswpAdd c t d a b p .clean)
      | 1 => some (.xswpMax c t d a b p .clean)
      | 2 => some (.xswpMin c t d a b p .clean)
      | 3 => some (.xswpAnd c t d a b p .clean)
      | 4 => some (.xswpOr c t d a b p .clean)
      | 5 => some (.xswpXor c t d a b p .clean)
      | 7 => some (.xswpCopy c t d a b p .clean)
      | _ => none
  | 0x35 => do
    let t ← elemOf (lT w)
    let a ← pReg? (lA w)
    let b ← sReg? (lB w)
    need (lF w == 0)
    some (.xrnd c t (vReg (lD w)) a b p .clean)
  | 0x36 => do
    let t ← elemOf (lT w)
    let b ← sReg? (lB w)
    match lF w with
    | 0 => do need (lA w == 0); some (.xbexp c t (← pReg? (lD w)) b p .clean)
    | 1 => do need (lD w == 0); some (.vbexp c t (vReg (lA w)) b p)
    | _ => none
  | 0x37 => do
    let t ← elemOf (lT w)
    let d ← sReg? (lD w)
    let a ← sReg? (lA w)
    let b ← sReg? (lB w)
    need (lP w == 0 && lF w == 0)
    some (.xmrg c t d a b .clean)
  | 0x38 => if bits w 0 26 = 0 then some (.xdns c .clean) else none
  | 0x39 => do
    let t ← elemOf (lT w)
    need (lD w == 0 && lB w == 0 && lF w == 0)
    some (.ost c t (vReg (lA w)) p)
  | _ => none

/-- The instruction that a word of a Luna program is, on a core; none where the word is undefined (R207). -/
def decodeLunaWord (c : Core) (w : Nat) : Option Instr :=
  let op := lOp w
  if op = 0x01 then decodeAlu c w
  else if (0x02 ≤ op && op ≤ 0x0D) || op = 0x1B then decodeImm c w
  else if 0x10 ≤ op && op ≤ 0x19 then decodeJump c w
  else if op = 0x1A || op = 0x1C then decodePred c w
  else if 0x20 ≤ op && op ≤ 0x29 then decodeVec c w
  else if 0x30 ≤ op && op ≤ 0x39 then decodeX c w
  else none

/-! ### The encoder (Tables 9-8 to 9-12) -/

/-- A word of format R. -/
def wordR (op d a b p t f : Nat) : Nat := op * 2 ^ 26 + d * 2 ^ 21 + a * 2 ^ 16 + b * 2 ^ 11 + p * 2 ^ 8 + t * 2 ^ 4 + f

/-- A word of format I, or of format J. -/
def wordI (op d a imm : Nat) : Nat := op * 2 ^ 26 + d * 2 ^ 21 + a * 2 ^ 16 + imm

/-- The core and the word of a Luna instruction; none for any other command. -/
def encodeLunaWord (i : Instr) : Option (Core × Nat) :=
  match i with
  | .add c d a b => some (c, wordR 0x01 d.val a.val b.val 0 0 0)
  | .sub c d a b => some (c, wordR 0x01 d.val a.val b.val 0 0 1)
  | .andd c d a b => some (c, wordR 0x01 d.val a.val b.val 0 0 2)
  | .orr c d a b => some (c, wordR 0x01 d.val a.val b.val 0 0 3)
  | .xorr c d a b => some (c, wordR 0x01 d.val a.val b.val 0 0 4)
  | .shl c d a b => some (c, wordR 0x01 d.val a.val b.val 0 0 5)
  | .shr c d a b => some (c, wordR 0x01 d.val a.val b.val 0 0 6)
  | .sar c d a b => some (c, wordR 0x01 d.val a.val b.val 0 0 7)
  | .mul c d a b => some (c, wordR 0x01 d.val a.val b.val 0 0 8)
  | .slt c d a b => some (c, wordR 0x01 d.val a.val b.val 0 0 9)
  | .sltu c d a b => some (c, wordR 0x01 d.val a.val b.val 0 0 10)
  | .seqq c d a b => some (c, wordR 0x01 d.val a.val b.val 0 0 11)
  | .smin c d a b => some (c, wordR 0x01 d.val a.val b.val 0 0 12)
  | .smax c d a b => some (c, wordR 0x01 d.val a.val b.val 0 0 13)
  | .addi c d a imm => some (c, wordI 0x02 d.val a.val imm.toNat)
  | .andi c d a imm => some (c, wordI 0x03 d.val a.val imm.toNat)
  | .ori c d a imm => some (c, wordI 0x04 d.val a.val imm.toNat)
  | .shli c d a n => some (c, wordI 0x05 d.val a.val n.val)
  | .shri c d a n => some (c, wordI 0x06 d.val a.val n.val)
  | .li c d imm => some (c, wordI 0x07 d.val 0 imm.toNat)
  | .lsh c d a imm => some (c, wordI 0x08 d.val a.val imm.toNat)
  | .ld c d a imm _ => some (c, wordI 0x09 d.val a.val imm.toNat)
  | .ldw c d a imm _ => some (c, wordI 0x0A d.val a.val imm.toNat)
  | .st c d a imm => some (c, wordI 0x0B d.val a.val imm.toNat)
  | .stw c d a imm => some (c, wordI 0x0C d.val a.val imm.toNat)
  | .ldc c d a imm => some (c, wordI 0x0D d.val a.val imm.toNat)
  | .beq c a b off => some (c, wordI 0x10 a.val b.val off.toNat)
  | .bne c a b off => some (c, wordI 0x11 a.val b.val off.toNat)
  | .blt c a b off => some (c, wordI 0x12 a.val b.val off.toNat)
  | .bltu c a b off => some (c, wordI 0x13 a.val b.val off.toNat)
  | .bany c a off => some (c, wordI 0x14 a.val 0 off.toNat)
  | .bnone c a off => some (c, wordI 0x15 a.val 0 off.toNat)
  | .jmp c off => some (c, wordI 0x16 0 0 off.toNat)
  | .call c off => some (c, wordI 0x17 0 0 off.toNat)
  | .ret c => some (c, wordI 0x18 0 0 0)
  | .done c => some (c, wordI 0x19 0 0 0)
  | .rdt c d a n => some (c, wordI 0x1B d.val a.val n.val)
  | .bitm c d a => some (c, wordR 0x1C d.val a.val 0 0 0 0)
  | .pand c d a b => some (c, wordR 0x1A d.val a.val b.val 0 0 0)
  | .por c d a b => some (c, wordR 0x1A d.val a.val b.val 0 0 1)
  | .pxor c d a b => some (c, wordR 0x1A d.val a.val b.val 0 0 2)
  | .pandn c d a b => some (c, wordR 0x1A d.val a.val b.val 0 0 3)
  | .pmov c d a => some (c, wordR 0x1A d.val a.val 0 0 0 4)
  | .pget c d a => some (c, wordR 0x1A d.val a.val 0 0 0 5)
  | .pfirst c d a => some (c, wordR 0x1A d.val a.val 0 0 0 6)
  | .pcnt c d a => some (c, wordR 0x1A d.val a.val 0 0 0 7)
  | .vld c d a imm _ => some (c, wordI 0x20 d.val a.val imm.toNat)
  | .vst c d a imm => some (c, wordI 0x21 d.val a.val imm.toNat)
  | .vldc c d a imm => some (c, wordI 0x22 d.val a.val imm.toNat)
  | .vadd c t d a b p => some (c, wordR 0x23 d.val a.val b.val p.val t.code 0)
  | .vsub c t d a b p => some (c, wordR 0x23 d.val a.val b.val p.val t.code 1)
  | .vmax c t d a b p => some (c, wordR 0x23 d.val a.val b.val p.val t.code 2)
  | .vmin c t d a b p => some (c, wordR 0x23 d.val a.val b.val p.val t.code 3)
  | .vand c t d a b p => some (c, wordR 0x23 d.val a.val b.val p.val t.code 4)
  | .vor c t d a b p => some (c, wordR 0x23 d.val a.val b.val p.val t.code 5)
  | .vxor c t d a b p => some (c, wordR 0x23 d.val a.val b.val p.val t.code 6)
  | .vsel c t d a b p => some (c, wordR 0x23 d.val a.val b.val p.val t.code 7)
  | .vcmpEq c t d a b p => some (c, wordR 0x24 d.val a.val b.val p.val t.code 0)
  | .vcmpLt c t d a b p => some (c, wordR 0x24 d.val a.val b.val p.val t.code 1)
  | .vcmpLe c t d a b p => some (c, wordR 0x24 d.val a.val b.val p.val t.code 2)
  | .vcmpNe c t d a b p => some (c, wordR 0x24 d.val a.val b.val p.val t.code 3)
  | .vcvt c t d a f => some (c, wordR 0x25 d.val a.val 0 0 t.code f.val)
  | .vrnd c t d a b p f => some (c, wordR 0x26 d.val a.val b.val p.val t.code f.val)
  | .vsplat c t d a => some (c, wordR 0x27 d.val a.val 0 0 t.code 0)
  | .vlda c d a b _ => some (c, wordR 0x29 d.val a.val b.val 0 0 0)
  | .vsta c d a b p => some (c, wordR 0x29 d.val a.val b.val p.val 0 1)
  | .xadd c t d a b p _ => some (c, wordR 0x30 d.val a.val b.val p.val t.code 0)
  | .xsub c t d a b p _ => some (c, wordR 0x30 d.val a.val b.val p.val t.code 1)
  | .xmax c t d a b p _ => some (c, wordR 0x30 d.val a.val b.val p.val t.code 2)
  | .xmin c t d a b p _ => some (c, wordR 0x30 d.val a.val b.val p.val t.code 3)
  | .xand c t d a b p _ => some (c, wordR 0x30 d.val a.val b.val p.val t.code 4)
  | .xior c t d a b p _ => some (c, wordR 0x30 d.val a.val b.val p.val t.code 5)
  | .xxor c t d a b p _ => some (c, wordR 0x30 d.val a.val b.val p.val t.code 6)
  | .xset c t d a b p => some (c, wordR 0x30 d.val a.val b.val p.val t.code 7)
  | .xidSum c d a b => some (c, wordR 0x31 d.val a.val b.val 0 0 0)
  | .xidMax c d a b => some (c, wordR 0x31 d.val a.val b.val 0 0 1)
  | .xidMin c d a b => some (c, wordR 0x31 d.val a.val b.val 0 0 2)
  | .xidAnd c d a b => some (c, wordR 0x31 d.val a.val b.val 0 0 3)
  | .xidOr c d a b => some (c, wordR 0x31 d.val a.val b.val 0 0 4)
  | .xidXor c d a b => some (c, wordR 0x31 d.val a.val b.val 0 0 5)
  | .xidCopy c d a b => some (c, wordR 0x31 d.val a.val b.val 0 0 7)
  | .xaddw c d a b _ => some (c, wordR 0x32 d.val a.val b.val 0 0 0)
  | .xsubw c d a b _ => some (c, wordR 0x32 d.val a.val b.val 0 0 1)
  | .aoff c d a b => some (c, wordR 0x33 d.val a.val b.val 0 0 0)
  | .xswpAdd c t d a b p _ => some (c, wordR 0x34 d.val a.val b.val p.val t.code 0)
  | .xswpMax c t d a b p _ => some (c, wordR 0x34 d.val a.val b.val p.val t.code 1)
  | .xswpMin c t d a b p _ => some (c, wordR 0x34 d.val a.val b.val p.val t.code 2)
  | .xswpAnd c t d a b p _ => some (c, wordR 0x34 d.val a.val b.val p.val t.code 3)
  | .xswpOr c t d a b p _ => some (c, wordR 0x34 d.val a.val b.val p.val t.code 4)
  | .xswpXor c t d a b p _ => some (c, wordR 0x34 d.val a.val b.val p.val t.code 5)
  | .xswpCopy c t d a b p _ => some (c, wordR 0x34 d.val a.val b.val p.val t.code 7)
  | .fswp c t d a b p _ => some (c, wordR 0x34 d.val a.val b.val p.val t.code 8)
  | .xrnd c t d a b p _ => some (c, wordR 0x35 d.val a.val b.val p.val t.code 0)
  | .xbexp c t d b p _ => some (c, wordR 0x36 d.val 0 b.val p.val t.code 0)
  | .vbexp c t a b p => some (c, wordR 0x36 0 a.val b.val p.val t.code 1)
  | .xmrg c t d a b _ => some (c, wordR 0x37 d.val a.val b.val 0 t.code 0)
  | .xdns c _ => some (c, wordR 0x38 0 0 0 0 0 0)
  | .ost c t a p => some (c, wordR 0x39 0 a.val 0 p.val t.code 0)
  | _ => none

end Sys2Proof
end

