-- ==== Sys2Proof/Machine/Sparse.lean ====
section
/-! DEFINITION. Sparse tables: a list of key and value pairs in one canonical form, the keys strictly rising and no
entry equal to what an unlisted key reads as. -/

namespace Sys2Proof.Machine

/-- A sparse table keyed by numbers. -/
abbrev SMap (α : Type) := List (Nat × α)

/-- The value at `k`; `d k` where the table lists none. -/
def SMap.get {α : Type} (d : Nat → α) : SMap α → Nat → α
  | [], k => d k
  | (j, v) :: m, k => if k = j then v else SMap.get d m k

/-- The table without the entry at `k`. -/
def SMap.del {α : Type} : SMap α → Nat → SMap α
  | [], _ => []
  | (j, v) :: m, k => if k = j then SMap.del m k else (j, v) :: SMap.del m k

/-- The table with the entry `v` at `k`, in its place. -/
def SMap.put {α : Type} : SMap α → Nat → α → SMap α
  | [], k, v => [(k, v)]
  | (j, u) :: m, k, v =>
    if k < j then (k, v) :: (j, u) :: m
    else if k = j then (k, v) :: m
    else (j, u) :: SMap.put m k v

/-- A write of `v` at `k`: writing what an unlisted key reads as removes the entry. -/
def SMap.set {α : Type} [DecidableEq α] (d : Nat → α) (m : SMap α) (k : Nat) (v : α) : SMap α :=
  if v = d k then SMap.del m k else SMap.put m k v

/-- The keys rise strictly. -/
def SMap.sorted {α : Type} : SMap α → Bool
  | [] => true
  | [_] => true
  | (j, _) :: (k, v) :: m => decide (j < k) && SMap.sorted ((k, v) :: m)

/-- The canonical form. -/
def SMap.wf {α : Type} [DecidableEq α] (d : Nat → α) (m : SMap α) : Bool :=
  SMap.sorted m && m.all fun e => decide (e.2 ≠ d e.1)

/-- Element `k` of a list replaced by `v`; an index beyond the list changes nothing. -/
def setAt {α : Type} : List α → Nat → α → List α
  | [], _, _ => []
  | _ :: l, 0, v => v :: l
  | a :: l, k + 1, v => a :: setAt l k v

/-- The list with `v` in it once, in rising order. -/
def insertSorted : Nat → List Nat → List Nat
  | v, [] => [v]
  | v, a :: l => if v < a then v :: a :: l else if v = a then a :: l else a :: insertSorted v l

/-- The first number below `n` that passes the test. -/
def firstBelow (n : Nat) (p : Nat → Bool) : Option Nat := (List.range n).find? p

end Sys2Proof.Machine
end

