-- ==== Sys2Proof/Machine/Packet.lean ====
section
/-! DEFINITION. Packets and flits as bits: the header words (Tables 2-1 to 2-3), the types and their rules (Tables 2-4,
2-5), the malformed-packet checks, lengths in cells, the flit header, the CRCs. -/

namespace Sys2Proof

/-! ### Header words -/

/-- Header word 0 (Table 2-2). -/
def headerWord0 (h : Header) : Nat :=
  h.opcode.toNat + h.vc.toNat * 2 ^ 6 + h.status.toNat * 2 ^ 9 + h.part.toNat * 2 ^ 13 + h.srcEp.toNat * 2 ^ 25 +
    h.dstEp.toNat * 2 ^ 37 + h.tag.toNat * 2 ^ 49 + h.enc.toNat * 2 ^ 63

/-- Header word 2 (Table 2-2). -/
def headerWord2 (h : Header) : Nat :=
  h.len.toNat + h.scope.toNat * 2 ^ 13 + h.lcId.toNat * 2 ^ 15 + h.keySlot.toNat * 2 ^ 27 + h.subop.toNat * 2 ^ 40 +
    h.mc.toNat * 2 ^ 48 + h.mcg.toNat * 2 ^ 49

/-- Header word 3 (Table 2-2). -/
def headerWord3 (h : Header) : Nat := h.ageStamp.toNat + h.seq.toNat * 2 ^ 16

/-- The 32 header bytes, each word least significant byte first (R41). -/
def headerBytes (h : Header) : List Byte :=
  toLE 8 (headerWord0 h) ++ toLE 8 h.w1.toNat ++ toLE 8 (headerWord2 h) ++ toLE 8 (headerWord3 h)

/-- The header that four words spell (Table 2-2). -/
def headerOfWords (w0 w1 w2 w3 : Nat) : Header :=
  { opcode := BitVec.ofNat 6 w0, vc := BitVec.ofNat 3 (w0 / 2 ^ 6), status := BitVec.ofNat 4 (w0 / 2 ^ 9)
    part := BitVec.ofNat 12 (w0 / 2 ^ 13), srcEp := BitVec.ofNat 12 (w0 / 2 ^ 25)
    dstEp := BitVec.ofNat 12 (w0 / 2 ^ 37), tag := BitVec.ofNat 14 (w0 / 2 ^ 49), enc := bits w0 63 1 == 1
    w1 := BitVec.ofNat 64 w1, len := BitVec.ofNat 13 w2, scope := BitVec.ofNat 2 (w2 / 2 ^ 13)
    lcId := BitVec.ofNat 12 (w2 / 2 ^ 15), keySlot := BitVec.ofNat 13 (w2 / 2 ^ 27)
    subop := BitVec.ofNat 8 (w2 / 2 ^ 40), mc := bits w2 48 1 == 1, mcg := BitVec.ofNat 15 (w2 / 2 ^ 49)
    ageStamp := BitVec.ofNat 16 w3, seq := BitVec.ofNat 48 (w3 / 2 ^ 16) }

/-- The header that the first 32 bytes of a packet spell (R41). -/
def headerOfBytes (bs : List Byte) : Header :=
  headerOfWords (ofLE (bs.take 8)) (ofLE ((bs.drop 8).take 8)) (ofLE ((bs.drop 16).take 8)) (ofLE ((bs.drop 24).take 8))

/-- A header of zeros. -/
def Header.zero : Header := headerOfWords 0 0 0 0

/-! ### Word 1 -/

/-- REGION of an address (Table 2-1). -/
def addrRegion (a : Nat) : Nat := bits a 60 4
/-- EP of an address (Table 2-1). -/
def addrEp (a : Nat) : Nat := bits a 48 12
/-- OFFSET of an address (Table 2-1). -/
def addrOffset (a : Nat) : Nat := bits a 0 48
/-- The address with these fields (Table 2-1). -/
def mkAddr (region ep offset : Nat) : Nat := region % 16 * 2 ^ 60 + ep % 4096 * 2 ^ 48 + offset % 2 ^ 48

/-- ADDR of a header. -/
def Header.addr (h : Header) : Nat := h.w1.toNat
/-- COMM (Table 2-3). -/
def Header.comm (h : Header) : Nat := bits h.w1.toNat 0 14
/-- CHUNK (Table 2-3). -/
def Header.chunk (h : Header) : Nat := bits h.w1.toNat 14 24
/-- TREE (Table 2-3). -/
def Header.tree (h : Header) : Nat := bits h.w1.toNat 38 1
/-- STEP (Table 2-3). -/
def Header.step (h : Header) : Nat := bits h.w1.toNat 39 8
/-- UNIT (Table 2-3). -/
def Header.unit (h : Header) : Nat := bits h.w1.toNat 47 11
/-- FMT (Table 2-3). -/
def Header.fmt (h : Header) : Nat := bits h.w1.toNat 58 4
/-- Word 1 of a reduction packet (Table 2-3). -/
def mkChunkWord (comm chunk tree step unit fmt : Nat) : Nat :=
  comm % 2 ^ 14 + chunk % 2 ^ 24 * 2 ^ 14 + tree % 2 * 2 ^ 38 + step % 256 * 2 ^ 39 + unit % 2 ^ 11 * 2 ^ 47 +
    fmt % 16 * 2 ^ 58

/-! ### Packet types (Table 2-4) -/

/-- Opcode values. -/
def opRD : Nat := 0x01
def opWRP : Nat := 0x02
def opWRNP : Nat := 0x03
def opATOM : Nat := 0x04
def opMSG : Nat := 0x05
def opRDRSP : Nat := 0x11
def opWRRSP : Nat := 0x12
def opATOMRSP : Nat := 0x13
def opRCONTRIB : Nat := 0x18
def opRRESULT : Nat := 0x19
def opGETS : Nat := 0x20
def opGETM : Nat := 0x21
def opUPG : Nat := 0x22
def opWB : Nat := 0x23
def opINV : Nat := 0x24
def opRECALL : Nat := 0x25
def opACK : Nat := 0x26
def opDATA : Nat := 0x27
def opCTL : Nat := 0x30
def opCTLRSP : Nat := 0x31

/-- Whether an opcode is one of Table 2-4 (R43). -/
def opKnown (o : Nat) : Bool :=
  [0x01, 0x02, 0x03, 0x04, 0x05, 0x11, 0x12, 0x13, 0x18, 0x19, 0x20, 0x21, 0x22, 0x23, 0x24, 0x25, 0x26, 0x27, 0x30,
    0x31].contains o

/-- Memory packets, OPCODE 0x01 to 0x05. -/
def isMem (o : Nat) : Bool := 0x01 ≤ o && o ≤ 0x05
/-- Responses, OPCODE 0x11 to 0x13. -/
def isRsp (o : Nat) : Bool := 0x11 ≤ o && o ≤ 0x13
/-- Coherence packets, OPCODE 0x20 to 0x27. -/
def isCoh (o : Nat) : Bool := 0x20 ≤ o && o ≤ 0x27
/-- The packets of the reduction layout of word 1. -/
def isRed (o : Nat) : Bool := o == opRCONTRIB || o == opRRESULT

/-- Non-posted requests (Table 2-4). -/
def nonPosted (o : Nat) : Bool := o == opRD || o == opWRNP || o == opATOM || o == opCTL

/-- Posted packets (Table 2-4). -/
def posted (o : Nat) : Bool := o == opWRP || o == opMSG || isRed o

/-- The response type of a non-posted request (Table 2-4). -/
def rspOf (o : Nat) : Nat :=
  if o = opRD then opRDRSP else if o = opWRNP then opWRRSP else if o = opATOM then opATOMRSP else opCTLRSP

/-- Whether the opcode may travel on the VC (Table 2-4, R128). -/
def vcAllowed (o v : Nat) : Bool :=
  if o = opRD || o = opWRP || o = opWRNP then v == 0 || v == 3
  else if o = opATOM || o = opMSG then v == 0
  else if isRsp o then v == 1
  else if isRed o then v == 2
  else if isCoh o then v == 4
  else v == 5

/-! ### Status codes (Tables 0-5, 2-7) -/

def stOK : Nat := 0
def stPartDeny : Nat := 1
def stNoRoute : Nat := 2
def stCheckFail : Nat := 3
def stPoison : Nat := 4
def stNotReady : Nat := 5
def stLinkLost : Nat := 6
def stAged : Nat := 7
def stTimeout : Nat := 8
def stUnknown : Nat := 9

/-- The place of a status in the precedence of R9: 0 the highest. OK is last. -/
def stRank (s : Nat) : Nat := if s = 0 then 10 else s

/-- The status of higher precedence (R9). -/
def worse (a b : Nat) : Nat := if stRank b < stRank a then b else a

/-! ### Lengths -/

/-- The operand size of an ATOM (R45, R77). -/
def atomSize (h : Header) : Nat := if bits h.subop.toNat 0 4 = 9 then h.len.toNat / 2 else h.len.toNat

/-- The payload bytes a packet carries by its header: none in an RD (Table 2-2). -/
def payloadLen (h : Header) : Nat := if h.opcode.toNat = opRD then 0 else h.len.toNat

/-- The trailer bytes (R47): a GCM tag, or the chunk digest of a reduction packet in clear. -/
def trailerLen (h : Header) : Nat := if h.enc then 16 else if isRed h.opcode.toNat then 8 else 0

/-- B of R57: header, payload, trailer. -/
def packetBytes (h : Header) : Nat := 32 + payloadLen h + trailerLen h

/-- The flits, and cells, of a packet (R57, R100). -/
def packetCells (h : Header) : Nat := ceilDiv (packetBytes h) 112

/-- The cells of the largest response a non-posted request can receive (R110). -/
def rspCells (h : Header) : Nat :=
  let n := if h.opcode.toNat = opRD then h.len.toNat else if h.opcode.toNat = opATOM then atomSize h else 0
  ceilDiv (32 + n + 16) 112

/-- The bytes of a packet in order. -/
def Packet.bytes (p : Packet) : List Byte := headerBytes p.hdr ++ p.payload ++ p.trailer

/-- Bytes cut or zero-filled to length `n`. -/
def fit (n : Nat) (bs : List Byte) : List Byte := (bs ++ List.replicate (n - bs.length) 0).take n

/-- The packet brought to the length its header gives (R108): cells up to that length, zero-filled if short. -/
def Packet.fitted (p : Packet) : Packet :=
  let bs := fit (payloadLen p.hdr + trailerLen p.hdr) (p.payload ++ p.trailer)
  { p with payload := bs.take (payloadLen p.hdr), trailer := bs.drop (payloadLen p.hdr) }

/-- Whether the EOP flit of a packet falls where its header says (R108). -/
def Packet.lengthOk (p : Packet) : Bool :=
  decide ((p.payload ++ p.trailer).length = payloadLen p.hdr + trailerLen p.hdr)

/-! ### Malformed packets (R37, R43 to R45) -/

/-- A memory request's length and boundary rules (R37); a MSG's cookie is no offset. -/
def memShapeOk (h : Header) : Bool :=
  let o := h.opcode.toNat
  decide (1 ≤ h.len.toNat) && decide (h.len.toNat ≤ 256) && decide (h.dstEp.toNat = addrEp h.addr || h.mc) &&
    (o == opMSG || decide (addrOffset h.addr % 256 + h.len.toNat ≤ 256))

/-- An ATOM's length and alignment (R45). -/
def atomShapeOk (h : Header) : Bool :=
  let aop := bits h.subop.toNat 0 4
  decide (aop ≤ 9) && (if aop = 9 then h.len.toNat == 8 || h.len.toNat == 16 else h.len.toNat == 4 || h.len.toNat == 8) &&
    decide (addrOffset h.addr % atomSize h = 0)

/-- The rsv bits and reserved values of SUBOP by packet type (Tables 2-5, 4-3). -/
def subopOk (h : Header) : Bool :=
  let o := h.opcode.toNat
  let so := h.subop.toNat
  if o = opWRP || o = opWRNP then decide (so < 2)
  else if o = opATOM then bits so 4 3 == 0
  else if o = opMSG then true
  else if o = opRCONTRIB then decide (bits so 0 4 ≤ 7) && bits so 5 3 == 0
  else if o = opRRESULT then decide (bits so 0 4 ≤ 7)
  else if o = opDATA || o = opINV || o = opRECALL then decide (so < 2)
  else if o = opACK then decide (so < 4)
  else so == 0

/-- A packet that R43 to R45 call malformed. -/
def malformed (h : Header) : Bool :=
  let o := h.opcode.toNat
  !opKnown o || !vcAllowed o h.vc.toNat || (isMem o && !memShapeOk h) || (o == opATOM && !atomShapeOk h) ||
    !subopOk h || (isRed o && (decide (h.fmt ≥ 0xD) || bits h.w1.toNat 62 2 != 0)) ||
    (posted o && h.tag != 0) || (h.mc && nonPosted o)

/-! ### CRCs -/

/-- One byte of a CRC with the most significant bit first: `w` bits, polynomial `poly`. -/
def crcStep (w poly : Nat) : Nat → Nat → Nat
  | 0, c => c
  | k + 1, c =>
    let d := if bits c (w - 1) 1 = 1 then Nat.xor (c * 2 % 2 ^ w) poly else c * 2 % 2 ^ w
    crcStep w poly k d

/-- The CRC-8 of R294: polynomial 0x07, initial value 0, no reflection. -/
def crc8 (bs : List Byte) : Nat := bs.foldl (fun c b => crcStep 8 0x07 8 (Nat.xor c b.toNat)) 0

/-- One byte of a reflected CRC. -/
def crcStepR (poly : Nat) : Nat → Nat → Nat
  | 0, c => c
  | k + 1, c => crcStepR poly k (if c % 2 = 1 then Nat.xor (c / 2) poly else c / 2)

/-- The CRC-32 of IEEE 802.3 (R418). -/
def crc32 (bs : List Byte) : Nat :=
  Nat.xor (bs.foldl (fun c b => crcStepR 0xEDB88320 8 (Nat.xor c b.toNat)) 0xFFFFFFFF) 0xFFFFFFFF

/-! ### Flits (Table 2-8) -/

/-- The flit header. -/
def flitHeader (f : Flit) : Nat :=
  f.fvc.toNat + f.sop.toNat * 2 ^ 3 + f.eop.toNat * 2 ^ 4 + f.bad.toNat * 2 ^ 5 + f.valid.toNat * 2 ^ 6 +
    f.null.toNat * 2 ^ 13 + f.fseq.toNat * 2 ^ 14 + f.ack.toNat * 2 ^ 26 + f.nak.toNat * 2 ^ 38 +
    f.crVc.toNat * 2 ^ 39 + f.crCnt.toNat * 2 ^ 42

/-- The flit that 120 data bytes spell (R56). -/
def flitOfBytes (bs : List Byte) : Flit :=
  let w := ofLE (bs.take 8)
  { fvc := BitVec.ofNat 3 w, sop := bits w 3 1 == 1, eop := bits w 4 1 == 1, bad := bits w 5 1 == 1
    valid := BitVec.ofNat 7 (w / 2 ^ 6), null := bits w 13 1 == 1, fseq := BitVec.ofNat 12 (w / 2 ^ 14)
    ack := BitVec.ofNat 12 (w / 2 ^ 26), nak := bits w 38 1 == 1, crVc := BitVec.ofNat 3 (w / 2 ^ 39)
    crCnt := BitVec.ofNat 8 (w / 2 ^ 42), body := (bs.drop 8).take 112 }

/-- The 120 data bytes of a flit (R56). -/
def flitData (f : Flit) : List Byte := toLE 8 (flitHeader f) ++ fit 112 f.body

/-- A NULL flit with nothing set (Table 2-8). -/
def Flit.nul : Flit :=
  { fvc := 0, sop := false, eop := false, bad := false, valid := 0, null := true, fseq := 0, ack := 0, nak := false
    crVc := 0, crCnt := 0, body := [] }

end Sys2Proof
end

