-- ==== Sys2Proof/Machine/Codes.lean ====
section
/-! DEFINITION. The event codes of Table 21-8 and the counters the spec names, with the codes that key the counter file. -/

namespace Sys2Proof.Machine

/-- The events, by the names of Table 21-8. -/
inductive EvCode where
  | unmappedAccess
  | orphanRsp
  | lcAdvDisabled
  | creditOverflow
  | creditStall
  | lunaDeadline
  | journalPressure
  | refclkLost
  | timeQuality
  | timeStep
  | timeRootConflict
  | xlatInvDrop
  | thermalWarn
  | unitRestored
  | partDeny
  | noRoute
  | checkFail
  | poisonRx
  | notReady
  | aged
  | timeout
  | unknownOutcome
  | malformedPkt
  | tailMark
  | seqExhausted
  | atomPoison
  | lcWaitTimeout
  | sramUncorrectable
  | collRxMiss
  | xlatFault
  | dmaWaitTimeout
  | dmaErr
  | gwTxErr
  | lunaArmFail
  | lunaWindowOverrun
  | lunaDupContrib
  | lunaVerifyTimeout
  | lunaNoMajority
  | lunaAccSat
  | lunaProgFault
  | lunaLoadFail
  | programRefused
  | ctlRefused
  | profileFail
  | expelRefused
  | ringOverrun
  | dvfsTimeout
  | unitTestFail
  | sramRowRepaired
  | laneDegraded
  | laneSpared
  | lunaDiverge
  | lunaCoreRetired
  | sliceMigrated
  | monarchFailover
  | spareExhausted
  | linkDown
  | linkTrainFail
  | cwMemberSilent
  | cwOwnerLost
  | cwBankLost
  | expelled
  | chainDown
  | chainTooLong
  | fwBankReject
  | trayRemoval
  | calm
  | thermalTrip
  | trngFail
deriving DecidableEq, Repr

/-- The event code (R468). -/
def EvCode.num : EvCode → Nat
  | .unmappedAccess => 0x0001
  | .orphanRsp => 0x0002
  | .lcAdvDisabled => 0x0003
  | .creditOverflow => 0x0004
  | .creditStall => 0x0005
  | .lunaDeadline => 0x0006
  | .journalPressure => 0x0007
  | .refclkLost => 0x0008
  | .timeQuality => 0x0009
  | .timeStep => 0x000A
  | .timeRootConflict => 0x000B
  | .xlatInvDrop => 0x000C
  | .thermalWarn => 0x000D
  | .unitRestored => 0x000E
  | .partDeny => 0x1001
  | .noRoute => 0x1002
  | .checkFail => 0x1003
  | .poisonRx => 0x1004
  | .notReady => 0x1005
  | .aged => 0x1006
  | .timeout => 0x1007
  | .unknownOutcome => 0x1008
  | .malformedPkt => 0x1009
  | .tailMark => 0x100A
  | .seqExhausted => 0x100B
  | .atomPoison => 0x100C
  | .lcWaitTimeout => 0x100D
  | .sramUncorrectable => 0x100E
  | .collRxMiss => 0x100F
  | .xlatFault => 0x1010
  | .dmaWaitTimeout => 0x1011
  | .dmaErr => 0x1012
  | .gwTxErr => 0x1013
  | .lunaArmFail => 0x1014
  | .lunaWindowOverrun => 0x1015
  | .lunaDupContrib => 0x1016
  | .lunaVerifyTimeout => 0x1017
  | .lunaNoMajority => 0x1018
  | .lunaAccSat => 0x1019
  | .lunaProgFault => 0x101A
  | .lunaLoadFail => 0x101B
  | .programRefused => 0x101C
  | .ctlRefused => 0x101D
  | .profileFail => 0x101E
  | .expelRefused => 0x101F
  | .ringOverrun => 0x1020
  | .dvfsTimeout => 0x1021
  | .unitTestFail => 0x1022
  | .sramRowRepaired => 0x2001
  | .laneDegraded => 0x2002
  | .laneSpared => 0x2003
  | .lunaDiverge => 0x2004
  | .lunaCoreRetired => 0x2005
  | .sliceMigrated => 0x2006
  | .monarchFailover => 0x2007
  | .spareExhausted => 0x3001
  | .linkDown => 0x3002
  | .linkTrainFail => 0x3003
  | .cwMemberSilent => 0x3004
  | .cwOwnerLost => 0x3005
  | .cwBankLost => 0x3006
  | .expelled => 0x3007
  | .chainDown => 0x3008
  | .chainTooLong => 0x3009
  | .fwBankReject => 0x300A
  | .trayRemoval => 0x4001
  | .calm => 0x4002
  | .thermalTrip => 0x4003
  | .trngFail => 0x4004

/-- The class of an event, CODE[15:12] (R468, Table 17-1). -/
def EvCode.cls (e : EvCode) : Nat := e.num / 4096

/-- The counters, by the names under which the rules count them (R393). -/
inductive Ctr where
  | agedPkt
  | ageStampAhead
  | atomPoison
  | atomRetried
  | attachMalformed
  | attachMissteer
  | breezeRxBad
  | bytesRx
  | bytesTx
  | cellsAdmitted
  | chainDown
  | chainTooLong
  | collRxMiss
  | collRxTrunc
  | collSendFull
  | collStrayResult
  | contribsAdmitted
  | creditAdvLow
  | creditOverflow
  | creditStall
  | ctlBusy
  | ctlRefused
  | ctStallAbort
  | cwAckTimeout
  | cwBankLost
  | cwDeny
  | cwDisabled
  | cwEvictM
  | cwEvictS
  | cwOwnerLost
  | dmaCfgLocked
  | dmaErr
  | dmaRingDeny
  | dmaWaitTimeout
  | doldrumsEntry
  | dvfsTimeout
  | echoRxBad
  | echoSent
  | echoSuppressed
  | elasticSlip
  | erasures
  | expelApplied
  | expelRefused
  | fecCorrected
  | fecUncorrectable
  | fenceErr
  | flitsRx
  | flitsTx
  | fwBankReject
  | gcmFail
  | govHold
  | govPadShort
  | gwHold
  | gwHostCfgDeny
  | gwHostCplTimeout
  | gwHostDeny
  | gwNoTransit
  | gwRemoteTimeout
  | gwRxFull
  | gwTxErr
  | hpGlitch
  | ingressPartDeny
  | insertBad
  | jrnlAged
  | jrnlEarlyEvict
  | jrnlHit
  | jrnlUnknown
  | keyAbsent
  | keyCmdRefused
  | keyOldAccept
  | laneDegraded
  | laneSpared
  | laneSwapped
  | lcAdvDisabled
  | lcPartDeny
  | lcWaitTimeout
  | linkDown
  | linkLostSynth
  | loadTimeout
  | lunaAccSat
  | lunaArmFail
  | lunaChunksFailed
  | lunaChunksOk
  | lunaContribFail
  | lunaCoresLost
  | lunaCoreRetired
  | lunaCtxDormant
  | lunaCtxInvalid
  | lunaDeadlinePartial
  | lunaDupContrib
  | lunaLateContrib
  | lunaLoadFail
  | lunaNotMember
  | lunaOutRange
  | lunaPartDeny
  | lunaProgFault
  | lunaSparseDenseFb
  | lunaWindowOverrun
  | malformedPkt
  | marginFail
  | mbBusyWrite
  | mbReqBad
  | mcgDeny
  | mcgEmpty
  | mcCopySkipped
  | mcOx7Discard
  | mirrorDrop
  | monarchFailover
  | mrspLate
  | mrspTimeout
  | msgQueueFull
  | notReadyPkt
  | noPortDiscard
  | noRoutePkt
  | orphanRsp
  | pinContention
  | pktsAdmitted
  | pktsDelivered
  | pktsRx
  | pktsTx
  | portDownNoSpare
  | ppsInBad
  | ppsInLost
  | profileFail
  | programRefused
  | quotaHold
  | refclkLost
  | replayNak
  | replayTimeout
  | ringOverrun
  | rspDiscardDown
  | rspNoSpace
  | rxClearDeny
  | rxNotReady
  | rxRangeDeny
  | rxTailMarked
  | rxVc5Discard
  | sampleDrop
  | sampleRingDrop
  | scanDeny
  | seqExhausted
  | shapeHold
  | sliceDegraded
  | sliceMigrated
  | snapSkipped
  | sramCorrected
  | sramRowFenced
  | sramRowRepaired
  | sramUncorrectable
  | tailMarked
  | tailMarkPassed
  | timeLock
  | timeQualChange
  | timeRootConflict
  | timeStep
  | trainFail
  | trngHealthFail
  | unitRestored
  | unitTestFail
  | unmappedAccess
  | usedPeak
  | verifyDiverge
  | verifyLateRecord
  | verifyNoMajority
  | verifyOk
  | verifySkipped
  | verifyTimeout
  | weightDeny
  | weightTagFail
  | xlatCfgLocked
  | xlatFault
  | xlatInvDrop
  | xlatWalkRestart
deriving DecidableEq, Repr

/-- The place of a counter (Table 18-1). -/
inductive Place where
  | glob
  | die (d : Nat)
  | port (p : Nat)
  | part (p : Nat)
  | oeb (side : Nat)
deriving DecidableEq, Repr

/-- The key of a place in a counter file. -/
def Place.key : Place → Nat
  | .glob => 0
  | .die d => 1 + d
  | .port p => 128 + p
  | .part p => 512 + p
  | .oeb s => 8192 + s

/-- The key of counter `c` at place `p`. -/
def ctrKey (p : Place) (c : Ctr) : Nat := p.key * 2 ^ 8 + c.ctorIdx

end Sys2Proof.Machine
end

