-- ==== Sys2Proof/Machine/Num.lean ====
section
/-! DEFINITION. Number formats and reduction arithmetic (chapter 8): decoding, rounding, the exact partial, the stochastic
generator. A finite value is a whole number of units of 2^-149 (R179). -/

namespace Sys2Proof

/-! ### Values -/

/-- A decoded value: a NaN, an infinity, or a sign and a magnitude in units of 2^-149. -/
inductive Val where
  | nan
  | inf (neg : Bool)
  | fin (neg : Bool) (m : Nat)
deriving DecidableEq, Repr

/-- The finite value of an integer number of units. -/
def Val.ofInt (z : Int) : Val := .fin (decide (z < 0)) z.natAbs

/-- A finite value as an integer number of units; 0 for a special. -/
def Val.toInt : Val → Int
  | .fin true m => -(m : Int)
  | .fin false m => m
  | _ => 0

/-! ### Formats (Tables 2-6, 8-2, 8-3) -/

/-- The specials a format has: none, those of IEEE 754, the one NaN of E4M3. -/
inductive Specials where
  | none | ieee | e4m3
deriving DecidableEq, Repr

/-- A floating format: exponent bits, mantissa bits, bias, specials. -/
structure FpFmt where
  eb : Nat
  mb : Nat
  bias : Nat
  sp : Specials
deriving DecidableEq, Repr

/-- The element type of a float format code (Table 8-2). -/
def fpOf (t : Nat) : FpFmt :=
  match t with
  | 0 => ⟨8, 23, 127, .ieee⟩
  | 1 => ⟨8, 7, 127, .ieee⟩
  | 2 => ⟨5, 10, 15, .ieee⟩
  | 3 => ⟨4, 3, 7, .e4m3⟩
  | 4 => ⟨5, 2, 15, .ieee⟩
  | 5 => ⟨4, 3, 7, .e4m3⟩
  | 6 => ⟨5, 2, 15, .ieee⟩
  | 7 => ⟨3, 2, 3, .none⟩
  | 8 => ⟨2, 3, 1, .none⟩
  | _ => ⟨2, 1, 1, .none⟩

/-- An MX format (Table 8-3). -/
def isMx (t : Nat) : Bool := 5 ≤ t && t ≤ 10

/-- Float input: FMT 0x0 to 0xA (R173). -/
def isFloat (t : Nat) : Bool := t ≤ 10

/-- The width of an MX element (Table 8-3). -/
def mxWidth (t : Nat) : Nat := if t = 5 || t = 6 || t = 10 then 8 else if t = 9 then 4 else 6

/-- The bytes of one element, or of one block of an MX format (Table 8-3). -/
def fmtBytes (t : Nat) : Nat :=
  if isMx t then 1 + 4 * mxWidth t
  else if t = 0 || t = 11 then 4 else if t = 1 || t = 2 then 2 else if t = 12 then 8 else 1

/-- The bytes of `n` output elements: an MX format pads its last block (R174). -/
def outBytes (t n : Nat) : Nat := if isMx t then ceilDiv n 32 * fmtBytes t else n * fmtBytes t

/-- The exponent of a format's smallest subnormal in units: 150 - bias - mantissa bits. -/
def FpFmt.unit (f : FpFmt) : Nat := 150 - f.bias - f.mb

/-- The largest finite magnitude as a multiple of the smallest subnormal. -/
def FpFmt.top (f : FpFmt) : Nat :=
  match f.sp with
  | .ieee => (2 ^ (f.mb + 1) - 1) * 2 ^ (2 ^ f.eb - 3)
  | .e4m3 => (2 ^ (f.mb + 1) - 2) * 2 ^ (2 ^ f.eb - 2)
  | .none => (2 ^ (f.mb + 1) - 1) * 2 ^ (2 ^ f.eb - 2)

/-! ### Decoding (R176 to R178) -/

/-- A scalar encoding's value (R176). -/
def decodeFp (f : FpFmt) (x : Nat) : Val :=
  let neg := bits x (f.eb + f.mb) 1 == 1
  let e := bits x f.mb f.eb
  let m := bits x 0 f.mb
  let k := if e = 0 then m else (2 ^ f.mb + m) * 2 ^ (e - 1)
  match f.sp with
  | .ieee => if e = 2 ^ f.eb - 1 then (if m = 0 then .inf neg else .nan) else .fin neg (k * 2 ^ f.unit)
  | .e4m3 => if e = 2 ^ f.eb - 1 && m = 2 ^ f.mb - 1 then .nan else .fin neg (k * 2 ^ f.unit)
  | .none => .fin neg (k * 2 ^ f.unit)

/-- An MX element under its block scale (R178): a special stays one. -/
def decodeMx (t el x : Nat) : Val :=
  if x = 0xFF then .nan
  else
    let v := if t = 10 then Val.ofInt (signed 8 el * 2 ^ 143) else decodeFp (fpOf t) el
    match v with
    | .fin neg m => .fin neg (m * 2 ^ x / 2 ^ 127)
    | v => v

/-- An unpacked lane's value (Table 9-7): an encoding, or an element with its block scale in bits [15:8]. -/
def decodeLane (t x : Nat) : Val :=
  if t = 11 then Val.ofInt (signed 32 x * 2 ^ 149)
  else if t = 12 then Val.ofInt (signed 64 x * 2 ^ 149)
  else if isMx t then decodeMx t (bits x 0 8) (bits x 8 8)
  else decodeFp (fpOf t) x

/-- The integer that an INT32 or INT64 lane encodes. -/
def intLane (t x : Nat) : Int := if t = 11 then signed 32 x else signed 64 x

/-! ### Rounding (R187 to R191) -/

/-- Whether a magnitude `a × q + rem`, not on the grid, goes up (Table 8-7, R189); `u` is the generator's bits [63:32]. -/
def roundsUp (rnd : Nat) (neg : Bool) (u a rem q : Nat) : Bool :=
  match rnd with
  | 1 => false
  | 2 => !neg
  | 3 => neg
  | 4 => decide (q ≤ 2 * rem)
  | 5 => decide (u < rem * 2 ^ 32 / q)
  | 7 => decide (u < rem * 2 ^ 32 / q)
  | _ => decide (q < 2 * rem) || (2 * rem == q && a % 2 == 1)

/-- A magnitude rounded to a multiple of `q`. -/
def roundGrid (rnd : Nat) (neg : Bool) (u q m : Nat) : Nat :=
  let a := m / q
  let rem := m % q
  if rem = 0 then m else if roundsUp rnd neg u a rem q then (a + 1) * q else a * q

/-- The step of a format's grid at magnitude `m`, where its smallest subnormal is `q0`. -/
def quantumAt (mb q0 m : Nat) : Nat := max q0 (2 ^ (Nat.log2 m - mb))

/-- The exponent and mantissa fields of a magnitude on the grid of a format whose smallest subnormal is `q0`. -/
def encodeMag (f : FpFmt) (q0 m : Nat) : Nat :=
  let k := m / q0
  if k < 2 ^ f.mb then k
  else
    let e := Nat.log2 k - f.mb + 1
    e * 2 ^ f.mb + (k / 2 ^ (e - 1) - 2 ^ f.mb)

/-- The sign bit of a format. -/
def signBit (f : FpFmt) (neg : Bool) : Nat := if neg then 2 ^ (f.eb + f.mb) else 0

/-- The canonical NaN of a scalar format (R185). -/
def canonNan (t : Nat) : Nat :=
  match t with
  | 0 => 0x7FC00000
  | 1 => 0x7FC0
  | 2 => 0x7E00
  | 3 => 0x7F
  | 5 => 0x7F
  | _ => 0x7E

/-- The encoding of an infinity in an output of a rounding mode (R185). -/
def infBits (t rnd : Nat) (neg : Bool) : Nat :=
  let f := fpOf t
  match f.sp with
  | .ieee => signBit f neg + (2 ^ f.eb - 1) * 2 ^ f.mb
  | _ => if rnd ≤ 5 then 0x7F else signBit f neg + 0x7E

/-- A finite overflow gives an infinity in this mode (Table 8-7). -/
def overflowsToInf (rnd : Nat) (neg : Bool) : Bool :=
  rnd == 0 || rnd == 4 || rnd == 5 || (rnd == 2 && !neg) || (rnd == 3 && neg)

/-- A value rounded to a scalar float format: the encoding, and whether it overflowed (R185 to R187). A zero is +0. -/
def roundFp (t rnd u : Nat) (v : Val) : Nat × Bool :=
  let f := fpOf t
  let q0 := 2 ^ f.unit
  match v with
  | .nan => (canonNan t, false)
  | .inf neg => (infBits t rnd neg, false)
  | .fin neg m =>
    if m = 0 then (0, false)
    else
      let top := f.top * q0
      let r := roundGrid rnd neg u (quantumAt f.mb q0 m) m
      let half := decide (2 * top + quantumAt f.mb q0 top ≤ 2 * m)
      if decide (top < r) || ((rnd == 0 || rnd == 4 || rnd == 6) && half) then
        (if overflowsToInf rnd neg then infBits t rnd neg else signBit f neg + encodeMag f q0 top, true)
      else if r = 0 then (0, false)
      else (signBit f neg + encodeMag f q0 r, false)

/-- An integer output: the nearest end of the range where the value lies outside it (R188). -/
def roundInt (w : Nat) (v : Val) : Nat × Bool :=
  let z := v.toInt / 2 ^ 149
  let c := clampInt z (-(2 ^ (w - 1) : Nat)) ((2 ^ (w - 1) : Nat) - 1)
  (unsigned w c, decide (c ≠ z))

/-- An MX element under its block scale `x`: the element bits, and whether it was clamped (R191 steps 1, 3 and 4). -/
def roundMx (t rnd u x : Nat) (v : Val) : Nat × Bool :=
  if x = 0xFF then (0, false)
  else
    let f := fpOf t
    let maxBits (neg : Bool) : Nat :=
      if t = 10 then (if neg then 0x81 else 0x7F) else signBit f neg + encodeMag f 1 f.top
    match v with
    | .nan => (0, false)
    | .inf neg => if t = 6 then (infBits 6 rnd neg, false) else (maxBits neg, false)
    | .fin neg m =>
      if m = 0 then (0, false)
      else if t = 10 then
        let q := 2 ^ 143 * 2 ^ x / 2 ^ 127
        let k := roundGrid rnd neg u q m / q
        if 127 < k then (maxBits neg, true) else (if neg then (256 - k) % 256 else k, false)
      else
        let q0 := 2 ^ f.unit * 2 ^ x / 2 ^ 127
        let r := roundGrid rnd neg u (quantumAt f.mb q0 m) m
        if f.top * q0 < r then (maxBits neg, true)
        else if r = 0 then (0, false)
        else (signBit f neg + encodeMag f q0 r, false)

/-- emax of an element type (R191). -/
def mxEmax (t : Nat) : Nat :=
  match t with
  | 5 => 8
  | 6 => 15
  | 7 => 4
  | 8 => 2
  | 9 => 2
  | _ => 0

/-- The scale of a block whose largest finite magnitude is `m` (R191 step 2). -/
def mxScale (t m : Nat) : Nat :=
  if m = 0 then 0 else (min 254 (max 0 ((Nat.log2 m : Int) - 149 - mxEmax t + 127))).toNat

/-! ### Binary arithmetic in a lane's own format (R183, R210) -/

/-- The encoding of an IEEE value: nearest, ties to even, the sign of a zero kept. -/
def encodeIeee (t : Nat) (v : Val) : Nat :=
  match v with
  | .fin true 0 => signBit (fpOf t) true
  | v => (roundFp t 0 0 v).1

/-- The sum of two values: NaN of a NaN or of opposite infinities; a zero sum is negative only from two negative zeros. -/
def addVal (a b : Val) : Val :=
  match a, b with
  | .nan, _ => .nan
  | _, .nan => .nan
  | .inf x, .inf y => if x = y then .inf x else .nan
  | .inf x, _ => .inf x
  | _, .inf y => .inf y
  | .fin x m, .fin y n =>
    let z := Val.toInt (.fin x m) + Val.toInt (.fin y n)
    if z = 0 then .fin (x && y && m == 0 && n == 0) 0 else .ofInt z

/-- The value with its sign turned. -/
def negVal : Val → Val
  | .nan => .nan
  | .inf x => .inf (!x)
  | .fin x m => .fin (!x) m

/-- The order of two values that are no NaN. -/
def leVal (a b : Val) : Bool :=
  match a, b with
  | .inf true, _ => true
  | _, .inf false => true
  | .inf false, _ => false
  | _, .inf true => false
  | a, b => decide (a.toInt ≤ b.toInt)

/-- The larger value; +0 before -0 (R210). -/
def maxVal (a b : Val) : Val :=
  match a, b with
  | .nan, _ => .nan
  | _, .nan => .nan
  | .fin x 0, .fin y 0 => .fin (x && y) 0
  | a, b => if leVal a b then b else a

/-- The smaller value; -0 before +0 (R210). -/
def minVal (a b : Val) : Val :=
  match a, b with
  | .nan, _ => .nan
  | _, .nan => .nan
  | .fin x 0, .fin y 0 => .fin (x || y) 0
  | a, b => if leVal a b then a else b

/-- The FP32 encoding of a value (R183): exact, or rounded to nearest even; beyond the range an infinity. -/
def toFp32 (v : Val) : Nat := encodeIeee 0 v

/-- fp32_add on encodings (R183). -/
def fp32Add (a b : Nat) : Nat := encodeIeee 0 (addVal (decodeFp (fpOf 0) a) (decodeFp (fpOf 0) b))

/-! ### The exact partial (R179 to R182) -/

/-- An exact partial (Table 8-4). -/
structure Partial where
  fix : Int
  nan : Nat
  pinf : Nat
  ninf : Nat
deriving DecidableEq, Repr

/-- The ends of FIX (R179, R181). -/
def fixTop : Int := 2 ^ 317 - 1

/-- The identity of an operator (Table 8-5). -/
def partialId (rop : Nat) : Partial :=
  { fix := if rop = 1 then -(2 ^ 317) else if rop = 2 then fixTop else if rop = 3 then -1 else 0
    nan := 0, pinf := 0, ninf := 0 }

/-- A partial as its 352-bit integer (Table 8-4). -/
def Partial.toNat (p : Partial) : Nat :=
  unsigned 318 p.fix + p.nan % 2 ^ 12 * 2 ^ 318 + p.pinf % 2 ^ 11 * 2 ^ 330 + p.ninf % 2 ^ 11 * 2 ^ 341

/-- The partial that a 352-bit integer holds. -/
def Partial.ofNat (n : Nat) : Partial :=
  { fix := signed 318 n, nan := bits n 318 12, pinf := bits n 330 11, ninf := bits n 341 11 }

/-- A count raised by `n`, saturating at `top` (R180). -/
def cntAdd (top c n : Nat) : Nat := min top (c + n)

/-- A count lowered by `n`: one that has saturated stays (R180). -/
def cntSub (top c n : Nat) : Nat := if c = top then c else c - n

/-- FIX with `d` added: at an end it stays there; past the range, or with an end added, it takes that end. The second part
says that it has just saturated (R181). -/
def fixAdd (a d : Int) : Int × Bool :=
  if a = fixTop || a = -fixTop then (a, false)
  else if d = fixTop || fixTop < a + d then (fixTop, true)
  else if d = -fixTop || a + d < -fixTop then (-fixTop, true)
  else (a + d, false)

/-- A partial added to another (R180). -/
def Partial.add (p q : Partial) : Partial × Bool :=
  let (f, st) := fixAdd p.fix q.fix
  ({ fix := f, nan := cntAdd 4095 p.nan q.nan, pinf := cntAdd 2047 p.pinf q.pinf
     ninf := cntAdd 2047 p.ninf q.ninf }, st)

/-- A partial removed from another (R180). -/
def Partial.sub (p q : Partial) : Partial × Bool :=
  let (f, st) := fixAdd p.fix (-q.fix)
  ({ fix := f, nan := cntSub 4095 p.nan q.nan, pinf := cntSub 2047 p.pinf q.pinf
     ninf := cntSub 2047 p.ninf q.ninf }, st)

/-- The partial that holds one value alone. -/
def Partial.ofVal (v : Val) : Partial :=
  match v with
  | .nan => ⟨0, 1, 0, 0⟩
  | .inf false => ⟨0, 0, 1, 0⟩
  | .inf true => ⟨0, 0, 0, 1⟩
  | v => ⟨v.toInt, 0, 0, 0⟩

/-- A bitwise operation on FIX (Table 8-5). -/
def fixBits (op : Nat → Nat → Nat) (a x : Int) : Int := signed 318 (op (unsigned 318 a) (unsigned 318 x))

/-- An element combined into a partial under an operator (R180, Table 8-5); the second part says that FIX saturated. For
and, or and xor the element is the integer itself. -/
def Partial.combine (rop : Nat) (p : Partial) (v : Val) : Partial × Bool :=
  let q := Partial.ofVal v
  let counts (f : Int) : Partial :=
    { fix := f, nan := cntAdd 4095 p.nan q.nan, pinf := cntAdd 2047 p.pinf q.pinf, ninf := cntAdd 2047 p.ninf q.ninf }
  let isFin : Bool := match v with | .fin _ _ => true | _ => false
  match rop with
  | 1 => (counts (if isFin then max p.fix v.toInt else p.fix), false)
  | 2 => (counts (if isFin then min p.fix v.toInt else p.fix), false)
  | 3 => ({ p with fix := fixBits Nat.land p.fix (v.toInt / 2 ^ 149) }, false)
  | 4 => ({ p with fix := fixBits Nat.lor p.fix (v.toInt / 2 ^ 149) }, false)
  | 5 => ({ p with fix := fixBits Nat.xor p.fix (v.toInt / 2 ^ 149) }, false)
  | 7 => (q, false)
  | _ => p.add q

/-! ### Resolution of a partial (R184) -/

/-- A partial's value for an operator, an input format and an output format (Table 8-6). -/
def resolve (rop fmt out : Nat) (p : Partial) : Val :=
  if !isFloat fmt then
    if rop = 3 || rop = 4 || rop = 5 then
      .ofInt (signed (if out = 11 then 32 else 64) (unsigned 318 p.fix) * 2 ^ 149)
    else .ofInt p.fix
  else if 0 < p.nan then .nan
  else if 0 < p.pinf && 0 < p.ninf then (if rop = 1 then .inf false else if rop = 2 then .inf true else .nan)
  else if 0 < p.pinf then (if rop = 2 && p.fix ≠ fixTop then .ofInt p.fix else .inf false)
  else if 0 < p.ninf then (if rop = 1 && p.fix ≠ -(2 ^ 317) then .ofInt p.fix else .inf true)
  else if rop = 1 && p.fix = -(2 ^ 317) then .inf true
  else if rop = 2 && p.fix = fixTop then .inf false
  else .ofInt p.fix

/-- An integer identity of max or min is no clamp (R184, R188). -/
def isIdentity (rop : Nat) (p : Partial) : Bool := (rop == 1 || rop == 2) && p == partialId rop

/-! ### The stochastic generator (R190) -/

/-- One multiply and shift round of the generator. -/
def srMix (z shift mul : Nat) : Nat := Nat.xor z (z >>> shift) * mul % 2 ^ 64

/-- The generator output for an element. -/
def srOut (comm step chunk tree salt e : Nat) : Nat :=
  let ctr := e + tree * 2 ^ 13 + chunk * 2 ^ 14 + step % 256 * 2 ^ 38 + comm * 2 ^ 46
  let z0 := (Nat.xor ctr salt + 0x9E3779B97F4A7C15) % 2 ^ 64
  let z1 := srMix z0 30 0xBF58476D1CE4E5B9
  let z2 := srMix z1 27 0x94D049BB133111EB
  Nat.xor z2 (z2 >>> 31)

end Sys2Proof
end

