-- ==== Sys2Proof/Config.lean ====
section
/-! DEFINITION. What the spec leaves open or takes from outside standards, as constants without a body: free values,
the cryptographic primitives, the random numbers. Nothing in Lean can evaluate one, so a claim holds whatever it is. -/

namespace Sys2Proof.Config

/-- A free value: the `n`-th number the spec does not fix (log entry 3, DESIGN CHOICE). -/
opaque freeNat : Nat → Nat

/-- Byte `n` of the counter-mode key stream of AES-256-GCM: key, IV bytes, position (R47; log entry 8, PRESUMED). -/
opaque gcmStream : BitVec 256 → List Byte → Nat → Byte

/-- The 16-byte AES-256-GCM tag over key, IV, AAD and ciphertext (R47; log entry 8, PRESUMED). -/
opaque gcmTag : BitVec 256 → List Byte → List Byte → List Byte → List Byte

/-- SHA-384 of a byte list (R223, R358, R365; log entry 8, PRESUMED). -/
opaque sha384 : List Byte → BitVec 384

/-- ECDSA P-384 with SHA-384: public key digest, message, signature r and s (R218, R384; log entry 8, PRESUMED). -/
opaque ecdsaVerifies : BitVec 384 → List Byte → List Byte → List Byte → Bool

/-- Whether 97 bytes are an uncompressed point of P-384 (Table 19-7, SIGNER; log entry 8, PRESUMED). -/
opaque onCurve : List Byte → Bool

/-- The answer body an SPDM request of this OX9 or OEB receives (R469, Table 16-6; log entry 9, DESIGN CHOICE): request code, request
bytes, the state's summary number. -/
opaque spdmBody : Nat → List Byte → Nat → List Byte

/-- Whether the seal of a secured SPDM message verifies in its session (DSP0277; log entry 9, DESIGN CHOICE). -/
opaque spdmSealOk : Nat → List Byte → Bool

/-- The serial number of this OX9 in its DeviceID certificate (R384; log entry 2, DESIGN CHOICE). -/
opaque serial : List Byte

/-- The security fuses of a unit but for the debug bit: secure boot, debug lock, revocation, the factory calibration digest
(Table 16-5, index 5; log entry 2, DESIGN CHOICE): 0 the OX9, 1 and 2 the OEBs. -/
opaque fuseState : Nat → List Byte

/-- The firmware image of an OEB (R358; log entry 2, DESIGN CHOICE). -/
opaque oebFirmware : Nat → List Byte

/-- The `n`-th 64-bit output of the DRBG of a unit (R373; log entry 9, DESIGN CHOICE). -/
opaque drbg : Nat → Nat → BitVec 64

/-- Whether a DEBUG_UNLOCK token is Dolvy-signed for this part (R361; log entry 8, PRESUMED). -/
opaque debugTokenOk : List Byte → Bool

/-- The measurement of the boot ROM, the firmware of a flash bank, the security fuses (R358; log entry 8, PRESUMED). -/
opaque romDigest : BitVec 384

/-- The digests of the Dolvy Pesamo signing keys 0 to 3, fused (R360; log entry 2, DESIGN CHOICE). -/
opaque dolvySigner : Nat → BitVec 384

/-- Whether a Dolvy Pesamo signing key's fused revocation bit is set (R360; log entry 2, DESIGN CHOICE). -/
opaque dolvyRevoked : Nat → Bool

/-- The firmware image of a flash bank as shipped (R359; log entry 2, DESIGN CHOICE). -/
opaque fwFactory : Nat → List Byte

/-- A profile as shipped (R432; log entry 2, DESIGN CHOICE). -/
opaque profileFactory : Nat → List Byte

/-- Whether a firmware image carries a valid Dolvy signature (R359; log entry 8, PRESUMED). -/
opaque fwSigned : List Byte → Bool

/-- The security version of a firmware image (R359; log entry 8, PRESUMED). -/
opaque fwVersion : List Byte → Nat

/-- The fused minimum security version (R359; log entry 2, DESIGN CHOICE). -/
opaque fwMinimum : Nat

/-- The fused factory trim EQ_F of a lane site (R300, R489; log entry 2, DESIGN CHOICE). -/
opaque eqFactory : Nat → BitVec 64

/-- The fused factory offset F_OFF of a sensor, 12 bits (R435; log entry 2, DESIGN CHOICE). -/
opaque sensFactory : Nat → BitVec 12

/-- The fused TRNG health cutoffs RCT_CUT and APT_CUT of a unit (Table 16-12; log entry 2, DESIGN CHOICE). -/
opaque trngCuts : Nat → BitVec 23

/-- Which tracking bank an entry of SRC_EP and TAG takes, a choice R53 does not state (log entry 3, DESIGN CHOICE). -/
opaque trackBank : Nat → Nat → Nat

/-- The part of its store that an SRAM row of a die holds: the store, the first place and how many. On a slice die cells of
packet buffer; on a Luna die pages of staging (store 0) or bytes of a core's local SRAM (store 1 + core); on a Monarch die
bytes of its store (R30, R34; log entry 3, DESIGN CHOICE). -/
opaque rowSpan : Nat → Nat → Nat → Nat × Nat × Nat

/-- What the `n`-th SRAM read that no command reports finds: nothing, or an error, whether it lost the word, its bank and
row (R31, R33; log entry 114, DESIGN CHOICE). -/
opaque sramFind : Nat → Option (Bool × Nat × Nat)

/-- The samples the Monarch's sample buffer holds (R125; log entry 3, DESIGN CHOICE). -/
opaque sampleCap : Nat

/-- The done bits a Luna die holds, a number R154 does not state (log entry 3, DESIGN CHOICE). -/
opaque doneBitCap : Nat

/-- The bytes a scan space holds on a die (Table 18-13; log entry 3, DESIGN CHOICE). -/
opaque scanSize : Nat → Nat → Nat

/-- The word at an address of a scan space of a frozen die, by the contents of the space: where in it they stand the spec does
not state (R413; log entry 136, DESIGN CHOICE). -/
opaque scanWord : Nat → Nat → Nat → List (List Nat) → BitVec 64

/-- A word of a scan space is uncorrectable, in the Calm that froze at an ft (R413; log entry 136, DESIGN CHOICE). -/
opaque scanLost : Nat → Nat → Nat → Nat → Bool

/-- An uncorrectable word as stored (R413; log entry 136, DESIGN CHOICE). -/
opaque scanStored : Nat → Nat → Nat → Nat → BitVec 64

end Sys2Proof.Config
end

