-- ==== Sys2Proof/Machine/Regs.lean ====
section
/-! DEFINITION. The register map: every register the spec names, its fields with their access codes, ranges and reset
values (the field maps of the chapters), the codes that key the register file. -/

namespace Sys2Proof.Machine

/-- The registers, by the names of the field maps. -/
inductive Reg where
  | dieInfo
  | lcEntry
  | cwCtrl
  | cwMember
  | fwdCtrl
  | bufCarve
  | partBuf
  | mcgCtl
  | mcgIndex
  | mirrorMatch
  | mirrorDest
  | sampleCtl
  | partRt
  | route
  | pgroup
  | portArb
  | portCmark
  | partShape
  | cmapCtl
  | cmapTime
  | cmapRec
  | lunaCtx
  | lunaMember
  | oebId
  | ctxCfg
  | oebCfg
  | expBase
  | expSize
  | collRx
  | xlatCfg
  | xlatFault
  | apt
  | xlatInv
  | xlatInvVa
  | xlatInvStatus
  | dmaCfg
  | dmaCh
  | eqF
  | eqU
  | eqE
  | portLink
  | linkCfg
  | laneStat
  | gwCtrl
  | gwRegion
  | hostCfg
  | timeCfg
  | timeAsym
  | timeStat
  | ppsOutCfg
  | portBind
  | portPset
  | partSec
  | ksInfo
  | trngStat
  | foldCtl
  | foldStat
  | expelStat
  | snapCtl
  | snapStat
  | smpRing
  | calmCtl
  | calmStat
  | scanCtl
  | domRights
  | ringRec
  | profileStat
  | sensCal
  | startStat
  | domStat
  | cocoonCtl
  | lunaDvfs
  | govCtl
  | govStat
  | alertStat
  | deviceId
  | logSeq
  | secCap
  | thermCfg
  | chainStat
  | mcgPorts
  | mirrorPorts
  | ppsInEdge
  | calmTrig
  | lunaCoreMap
  | lunaSvc
  | hostStat
  | rtIndex
  | ksIndex
  | ctxIndex
  | portCfg
  | mbCtl
  | mbStat
  | ringCtl
  | ringTail
  | ringHead
  | ringPseq
  | ringRd
  | ringWord
  | sideMap
deriving DecidableEq, Repr

/-- The access codes of Table 0-4. -/
inductive Acc where
  | ro | rw | w1c | w1s | rc | wo
deriving DecidableEq, Repr

/-- A field of a register: the register, the word of it, the lowest bit, the width. -/
structure Fld where
  reg : Reg
  word : Nat
  lo : Nat
  len : Nat
deriving DecidableEq, Repr

/-- A row of a field map: the field, its access code, its reset value and the range its meaning states. -/
structure FldRow where
  fld : Fld
  acc : Acc
  reset : Nat
  min : Nat
  max : Nat
deriving DecidableEq, Repr

/-- DIE_INFO.DIE_NUM (R14, Table 1-2). -/
def DIE_INFO.DIE_NUM : Fld := ⟨.dieInfo, 0, 0, 6⟩
/-- DIE_INFO.ROLE (R14, Table 1-2). -/
def DIE_INFO.ROLE : Fld := ⟨.dieInfo, 0, 6, 3⟩
/-- DIE_INFO.STEP_BASE (R14, Table 1-2). -/
def DIE_INFO.STEP_BASE : Fld := ⟨.dieInfo, 0, 16, 4⟩
/-- DIE_INFO.STEP_METAL (R14, Table 1-2). -/
def DIE_INFO.STEP_METAL : Fld := ⟨.dieInfo, 0, 20, 4⟩
/-- DIE_INFO.ACTIVE (R14, Table 1-2). -/
def DIE_INFO.ACTIVE : Fld := ⟨.dieInfo, 0, 32, 1⟩
/-- DIE_INFO.STANDBY (R14, Table 1-2). -/
def DIE_INFO.STANDBY : Fld := ⟨.dieInfo, 0, 33, 1⟩
/-- DIE_INFO.RETIRED (R14, Table 1-2). -/
def DIE_INFO.RETIRED : Fld := ⟨.dieInfo, 0, 34, 1⟩
/-- DIE_INFO.SPARES_LEFT (R14, Table 1-2). -/
def DIE_INFO.SPARES_LEFT : Fld := ⟨.dieInfo, 0, 40, 8⟩
/-- LC_ENTRY.COUNT (R63, Table 3-1). -/
def LC_ENTRY.COUNT : Fld := ⟨.lcEntry, 0, 0, 32⟩
/-- LC_ENTRY.PART (R63, Table 3-1). -/
def LC_ENTRY.PART : Fld := ⟨.lcEntry, 0, 32, 12⟩
/-- LC_ENTRY.EN (R63, Table 3-1). -/
def LC_ENTRY.EN : Fld := ⟨.lcEntry, 0, 44, 1⟩
/-- LC_ENTRY.POISONED (R63, Table 3-1). -/
def LC_ENTRY.POISONED : Fld := ⟨.lcEntry, 0, 45, 1⟩
/-- LC_ENTRY.DENIED (R63, Table 3-1). -/
def LC_ENTRY.DENIED : Fld := ⟨.lcEntry, 0, 46, 1⟩
/-- CW_CTRL.EN (R82, Table 4-1). -/
def CW_CTRL.EN : Fld := ⟨.cwCtrl, 0, 0, 1⟩
/-- CW_CTRL.NPLANES_LOG2 (R82, Table 4-1). -/
def CW_CTRL.NPLANES_LOG2 : Fld := ⟨.cwCtrl, 0, 1, 3⟩
/-- CW_CTRL.PLANE_IDX (R82, Table 4-1). -/
def CW_CTRL.PLANE_IDX : Fld := ⟨.cwCtrl, 0, 4, 4⟩
/-- CW_CTRL.SIZE_LOG2 (R82, Table 4-1). -/
def CW_CTRL.SIZE_LOG2 : Fld := ⟨.cwCtrl, 0, 16, 6⟩
/-- CW_CTRL.ACK_TIMEOUT (R82, Table 4-1). -/
def CW_CTRL.ACK_TIMEOUT : Fld := ⟨.cwCtrl, 0, 32, 10⟩
/-- CW_MEMBER.EP (R82, Table 4-2). -/
def CW_MEMBER.EP : Fld := ⟨.cwMember, 0, 0, 12⟩
/-- CW_MEMBER.PART (R82, Table 4-2). -/
def CW_MEMBER.PART : Fld := ⟨.cwMember, 0, 12, 12⟩
/-- CW_MEMBER.VALID (R82, Table 4-2). -/
def CW_MEMBER.VALID : Fld := ⟨.cwMember, 0, 24, 1⟩
/-- CW_MEMBER.HOME (R82, Table 4-2). -/
def CW_MEMBER.HOME : Fld := ⟨.cwMember, 0, 25, 1⟩
/-- CW_MEMBER.SUSPENDED (R82, Table 4-2). -/
def CW_MEMBER.SUSPENDED : Fld := ⟨.cwMember, 0, 26, 1⟩
/-- FWD_CTRL.OX9_EP (R104, Table 5-3). -/
def FWD_CTRL.OX9_EP : Fld := ⟨.fwdCtrl, 0, 0, 12⟩
/-- FWD_CTRL.AGE_LIMIT (R104, Table 5-3). -/
def FWD_CTRL.AGE_LIMIT : Fld := ⟨.fwdCtrl, 0, 16, 12⟩
/-- FWD_CTRL.CT_STALL_LIMIT (R104, Table 5-3). -/
def FWD_CTRL.CT_STALL_LIMIT : Fld := ⟨.fwdCtrl, 0, 32, 12⟩
/-- BUF_CARVE.RSV_VC1 (R110, Table 5-5). -/
def BUF_CARVE.RSV_VC1 : Fld := ⟨.bufCarve, 0, 0, 16⟩
/-- BUF_CARVE.RSV_VC4 (R110, Table 5-5). -/
def BUF_CARVE.RSV_VC4 : Fld := ⟨.bufCarve, 0, 16, 16⟩
/-- BUF_CARVE.RSV_VC5 (R110, Table 5-5). -/
def BUF_CARVE.RSV_VC5 : Fld := ⟨.bufCarve, 0, 32, 16⟩
/-- PART_BUF.MIN (R110, Table 5-6). -/
def PART_BUF.MIN : Fld := ⟨.partBuf, 0, 0, 16⟩
/-- PART_BUF.MAX (R110, Table 5-6). -/
def PART_BUF.MAX : Fld := ⟨.partBuf, 0, 16, 16⟩
/-- PART_BUF.USED (R110, Table 5-6). -/
def PART_BUF.USED : Fld := ⟨.partBuf, 0, 32, 22⟩
/-- MCG_CTL.PART (R117, Table 5-7). -/
def MCG_CTL.PART : Fld := ⟨.mcgCtl, 0, 0, 12⟩
/-- MCG_CTL.VALID (R117, Table 5-7). -/
def MCG_CTL.VALID : Fld := ⟨.mcgCtl, 0, 12, 1⟩
/-- MCG_CTL.MODE (R117, Table 5-7). -/
def MCG_CTL.MODE : Fld := ⟨.mcgCtl, 0, 13, 1⟩
/-- MCG_CTL.SRC_PRUNE (R117, Table 5-7). -/
def MCG_CTL.SRC_PRUNE : Fld := ⟨.mcgCtl, 0, 14, 1⟩
/-- MCG_CTL.NPORTS (R117, Table 5-7). -/
def MCG_CTL.NPORTS : Fld := ⟨.mcgCtl, 0, 16, 9⟩
/-- MCG_INDEX.GROUP (R117, Table 5-8). -/
def MCG_INDEX.GROUP : Fld := ⟨.mcgIndex, 0, 0, 15⟩
/-- MIRROR_MATCH.EN (R121, Table 5-10). -/
def MIRROR_MATCH.EN : Fld := ⟨.mirrorMatch, 0, 0, 1⟩
/-- MIRROR_MATCH.DIR (R121, Table 5-10). -/
def MIRROR_MATCH.DIR : Fld := ⟨.mirrorMatch, 0, 1, 2⟩
/-- MIRROR_MATCH.FLOW (R121, Table 5-10). -/
def MIRROR_MATCH.FLOW : Fld := ⟨.mirrorMatch, 0, 3, 1⟩
/-- MIRROR_MATCH.M_PART (R121, Table 5-10). -/
def MIRROR_MATCH.M_PART : Fld := ⟨.mirrorMatch, 0, 4, 12⟩
/-- MIRROR_MATCH.M_PART_EN (R121, Table 5-10). -/
def MIRROR_MATCH.M_PART_EN : Fld := ⟨.mirrorMatch, 0, 16, 1⟩
/-- MIRROR_MATCH.M_EP (R121, Table 5-10). -/
def MIRROR_MATCH.M_EP : Fld := ⟨.mirrorMatch, 0, 17, 12⟩
/-- MIRROR_MATCH.M_EP_DST (R121, Table 5-10). -/
def MIRROR_MATCH.M_EP_DST : Fld := ⟨.mirrorMatch, 0, 29, 1⟩
/-- MIRROR_MATCH.M_EP_EN (R121, Table 5-10). -/
def MIRROR_MATCH.M_EP_EN : Fld := ⟨.mirrorMatch, 0, 30, 1⟩
/-- MIRROR_MATCH.M_OPCODE (R121, Table 5-10). -/
def MIRROR_MATCH.M_OPCODE : Fld := ⟨.mirrorMatch, 0, 31, 6⟩
/-- MIRROR_MATCH.M_OPCODE_EN (R121, Table 5-10). -/
def MIRROR_MATCH.M_OPCODE_EN : Fld := ⟨.mirrorMatch, 0, 37, 1⟩
/-- MIRROR_DEST.A_EP (R121, Table 5-11). -/
def MIRROR_DEST.A_EP : Fld := ⟨.mirrorDest, 0, 0, 12⟩
/-- MIRROR_DEST.A_PART (R121, Table 5-11). -/
def MIRROR_DEST.A_PART : Fld := ⟨.mirrorDest, 0, 12, 12⟩
/-- MIRROR_DEST.A_QUEUE (R121, Table 5-11). -/
def MIRROR_DEST.A_QUEUE : Fld := ⟨.mirrorDest, 0, 24, 8⟩
/-- SAMPLE_CTL.EN_IN (R123, Table 5-12). -/
def SAMPLE_CTL.EN_IN : Fld := ⟨.sampleCtl, 0, 0, 1⟩
/-- SAMPLE_CTL.EN_OUT (R123, Table 5-12). -/
def SAMPLE_CTL.EN_OUT : Fld := ⟨.sampleCtl, 0, 1, 1⟩
/-- SAMPLE_CTL.RATE_LOG2 (R123, Table 5-12). -/
def SAMPLE_CTL.RATE_LOG2 : Fld := ⟨.sampleCtl, 0, 2, 5⟩
/-- SAMPLE_CTL.SEED (R123, Table 5-12). -/
def SAMPLE_CTL.SEED : Fld := ⟨.sampleCtl, 0, 32, 32⟩
/-- PART_RT.RTSET (R129, Table 6-2). -/
def PART_RT.RTSET : Fld := ⟨.partRt, 0, 0, 4⟩
/-- ROUTE.GROUP (R129, Table 6-3). -/
def ROUTE.GROUP : Fld := ⟨.route, 0, 0, 10⟩
/-- ROUTE.VALID (R129, Table 6-3). -/
def ROUTE.VALID : Fld := ⟨.route, 0, 10, 1⟩
/-- PGROUP.M0 (R129, Table 6-4). -/
def PGROUP.M0 : Fld := ⟨.pgroup, 0, 0, 9⟩
/-- PGROUP.V0 (R129, Table 6-4). -/
def PGROUP.V0 : Fld := ⟨.pgroup, 0, 9, 1⟩
/-- PGROUP.M1 (R129, Table 6-4). -/
def PGROUP.M1 : Fld := ⟨.pgroup, 0, 10, 9⟩
/-- PGROUP.V1 (R129, Table 6-4). -/
def PGROUP.V1 : Fld := ⟨.pgroup, 0, 19, 1⟩
/-- PGROUP.M2 (R129, Table 6-4). -/
def PGROUP.M2 : Fld := ⟨.pgroup, 0, 20, 9⟩
/-- PGROUP.V2 (R129, Table 6-4). -/
def PGROUP.V2 : Fld := ⟨.pgroup, 0, 29, 1⟩
/-- PGROUP.M3 (R129, Table 6-4). -/
def PGROUP.M3 : Fld := ⟨.pgroup, 0, 30, 9⟩
/-- PGROUP.V3 (R129, Table 6-4). -/
def PGROUP.V3 : Fld := ⟨.pgroup, 0, 39, 1⟩
/-- PORT_ARB.FLOOR (R140, Table 6-6). -/
def PORT_ARB.FLOOR : Fld := ⟨.portArb, 0, 0, 6⟩
/-- PORT_ARB.VC5_GAP (R140, Table 6-6). -/
def PORT_ARB.VC5_GAP : Fld := ⟨.portArb, 0, 8, 4⟩
/-- PORT_ARB.W0 (R140, Table 6-6). -/
def PORT_ARB.W0 : Fld := ⟨.portArb, 0, 16, 4⟩
/-- PORT_ARB.W1 (R140, Table 6-6). -/
def PORT_ARB.W1 : Fld := ⟨.portArb, 0, 20, 4⟩
/-- PORT_ARB.W3 (R140, Table 6-6). -/
def PORT_ARB.W3 : Fld := ⟨.portArb, 0, 24, 4⟩
/-- PORT_ARB.W4 (R140, Table 6-6). -/
def PORT_ARB.W4 : Fld := ⟨.portArb, 0, 28, 4⟩
/-- PORT_CMARK.LVL1 (R141, Table 6-7). -/
def PORT_CMARK.LVL1 : Fld := ⟨.portCmark, 0, 0, 16⟩
/-- PORT_CMARK.LVL2 (R141, Table 6-7). -/
def PORT_CMARK.LVL2 : Fld := ⟨.portCmark, 0, 16, 16⟩
/-- PORT_CMARK.LVL3 (R141, Table 6-7). -/
def PORT_CMARK.LVL3 : Fld := ⟨.portCmark, 0, 32, 16⟩
/-- PORT_CMARK.EN (R141, Table 6-7). -/
def PORT_CMARK.EN : Fld := ⟨.portCmark, 0, 48, 1⟩
/-- PART_SHAPE.RATE (R145, Table 6-10). -/
def PART_SHAPE.RATE : Fld := ⟨.partShape, 0, 0, 17⟩
/-- PART_SHAPE.EN (R145, Table 6-10). -/
def PART_SHAPE.EN : Fld := ⟨.partShape, 0, 17, 1⟩
/-- PART_SHAPE.BURST (R145, Table 6-10). -/
def PART_SHAPE.BURST : Fld := ⟨.partShape, 0, 18, 16⟩
/-- PART_SHAPE.LEVEL (R145, Table 6-10). -/
def PART_SHAPE.LEVEL : Fld := ⟨.partShape, 0, 34, 18⟩
/-- CMAP_CTL.EN (R148, Table 6-12). -/
def CMAP_CTL.EN : Fld := ⟨.cmapCtl, 0, 0, 1⟩
/-- CMAP_CTL.PERIOD (R148, Table 6-12). -/
def CMAP_CTL.PERIOD : Fld := ⟨.cmapCtl, 0, 1, 14⟩
/-- CMAP_CTL.DONE_BUF (R148, Table 6-12). -/
def CMAP_CTL.DONE_BUF : Fld := ⟨.cmapCtl, 0, 16, 1⟩
/-- CMAP_CTL.MAP_SEQ (R148, Table 6-12). -/
def CMAP_CTL.MAP_SEQ : Fld := ⟨.cmapCtl, 0, 32, 32⟩
/-- CMAP_TIME.FT (R148, Table 6-13). -/
def CMAP_TIME.FT : Fld := ⟨.cmapTime, 0, 0, 64⟩
/-- CMAP_REC.PEAK_VC0 (R148, Table 6-14). -/
def CMAP_REC.PEAK_VC0 : Fld := ⟨.cmapRec, 0, 0, 16⟩
/-- CMAP_REC.PEAK_VC2 (R148, Table 6-14). -/
def CMAP_REC.PEAK_VC2 : Fld := ⟨.cmapRec, 0, 16, 16⟩
/-- CMAP_REC.PEAK_VC3 (R148, Table 6-14). -/
def CMAP_REC.PEAK_VC3 : Fld := ⟨.cmapRec, 0, 32, 16⟩
/-- CMAP_REC.MARKS (R148, Table 6-14). -/
def CMAP_REC.MARKS : Fld := ⟨.cmapRec, 0, 48, 16⟩
/-- CMAP_REC.FLITS_OUT (R148, Table 6-15). -/
def CMAP_REC.FLITS_OUT : Fld := ⟨.cmapRec, 1, 0, 32⟩
/-- CMAP_REC.STARVED (R148, Table 6-15). -/
def CMAP_REC.STARVED : Fld := ⟨.cmapRec, 1, 32, 16⟩
/-- CMAP_REC.MAX_LEVEL (R148, Table 6-15). -/
def CMAP_REC.MAX_LEVEL : Fld := ⟨.cmapRec, 1, 48, 2⟩
/-- LUNA_CTX.VALID (R152, Table 7-1). -/
def LUNA_CTX.VALID : Fld := ⟨.lunaCtx, 0, 0, 1⟩
/-- LUNA_CTX.STATE (R152, Table 7-1). -/
def LUNA_CTX.STATE : Fld := ⟨.lunaCtx, 0, 1, 2⟩
/-- LUNA_CTX.PART (R152, Table 7-1). -/
def LUNA_CTX.PART : Fld := ⟨.lunaCtx, 0, 3, 12⟩
/-- LUNA_CTX.VERIFY (R152, Table 7-1). -/
def LUNA_CTX.VERIFY : Fld := ⟨.lunaCtx, 0, 15, 1⟩
/-- LUNA_CTX.NATIVE_OK (R152, Table 7-1). -/
def LUNA_CTX.NATIVE_OK : Fld := ⟨.lunaCtx, 0, 16, 1⟩
/-- LUNA_CTX.ENC (R152, Table 7-1). -/
def LUNA_CTX.ENC : Fld := ⟨.lunaCtx, 0, 17, 1⟩
/-- LUNA_CTX.DIEMASK0 (R152, Table 7-1). -/
def LUNA_CTX.DIEMASK0 : Fld := ⟨.lunaCtx, 0, 21, 8⟩
/-- LUNA_CTX.DIEMASK1 (R152, Table 7-1). -/
def LUNA_CTX.DIEMASK1 : Fld := ⟨.lunaCtx, 0, 29, 8⟩
/-- LUNA_CTX.OUT_FMT (R152, Table 7-1). -/
def LUNA_CTX.OUT_FMT : Fld := ⟨.lunaCtx, 0, 37, 4⟩
/-- LUNA_CTX.OUT_SAME (R152, Table 7-1). -/
def LUNA_CTX.OUT_SAME : Fld := ⟨.lunaCtx, 0, 41, 1⟩
/-- LUNA_CTX.RND (R152, Table 7-1). -/
def LUNA_CTX.RND : Fld := ⟨.lunaCtx, 0, 42, 3⟩
/-- LUNA_CTX.LC_ADV (R152, Table 7-1). -/
def LUNA_CTX.LC_ADV : Fld := ⟨.lunaCtx, 0, 45, 1⟩
/-- LUNA_CTX.LC_ID (R152, Table 7-1). -/
def LUNA_CTX.LC_ID : Fld := ⟨.lunaCtx, 0, 46, 12⟩
/-- LUNA_CTX.KEY_IN (R152, Table 7-1). -/
def LUNA_CTX.KEY_IN : Fld := ⟨.lunaCtx, 1, 0, 13⟩
/-- LUNA_CTX.KEY_OUT (R152, Table 7-1). -/
def LUNA_CTX.KEY_OUT : Fld := ⟨.lunaCtx, 1, 13, 13⟩
/-- LUNA_CTX.RESULT_MCG (R152, Table 7-1). -/
def LUNA_CTX.RESULT_MCG : Fld := ⟨.lunaCtx, 1, 26, 15⟩
/-- LUNA_CTX.NSRC (R152, Table 7-1). -/
def LUNA_CTX.NSRC : Fld := ⟨.lunaCtx, 2, 0, 10⟩
/-- LUNA_CTX.MEMBASE (R152, Table 7-1). -/
def LUNA_CTX.MEMBASE : Fld := ⟨.lunaCtx, 2, 10, 18⟩
/-- LUNA_CTX.W (R152, Table 7-1). -/
def LUNA_CTX.W : Fld := ⟨.lunaCtx, 2, 28, 13⟩
/-- LUNA_CTX.MAXELEM (R152, Table 7-1). -/
def LUNA_CTX.MAXELEM : Fld := ⟨.lunaCtx, 2, 41, 14⟩
/-- LUNA_CTX.NCHUNK (R152, Table 7-1). -/
def LUNA_CTX.NCHUNK : Fld := ⟨.lunaCtx, 3, 0, 24⟩
/-- LUNA_CTX.CUR_STEP (R152, Table 7-1). -/
def LUNA_CTX.CUR_STEP : Fld := ⟨.lunaCtx, 3, 24, 8⟩
/-- LUNA_CTX.DL_MODE (R152, Table 7-1). -/
def LUNA_CTX.DL_MODE : Fld := ⟨.lunaCtx, 3, 32, 2⟩
/-- LUNA_CTX.DL_REL (R152, Table 7-1). -/
def LUNA_CTX.DL_REL : Fld := ⟨.lunaCtx, 3, 40, 24⟩
/-- LUNA_CTX.DEADLINE (R152, Table 7-1). -/
def LUNA_CTX.DEADLINE : Fld := ⟨.lunaCtx, 4, 0, 64⟩
/-- LUNA_CTX.RPT_EP (R152, Table 7-1). -/
def LUNA_CTX.RPT_EP : Fld := ⟨.lunaCtx, 5, 0, 12⟩
/-- LUNA_CTX.RPT_QUEUE (R152, Table 7-1). -/
def LUNA_CTX.RPT_QUEUE : Fld := ⟨.lunaCtx, 5, 12, 8⟩
/-- LUNA_CTX.RPT_EN (R152, Table 7-1). -/
def LUNA_CTX.RPT_EN : Fld := ⟨.lunaCtx, 5, 20, 1⟩
/-- LUNA_CTX.SPARSE_CAP (R152, Table 7-1). -/
def LUNA_CTX.SPARSE_CAP : Fld := ⟨.lunaCtx, 5, 21, 17⟩
/-- LUNA_CTX.PARENT_EN (R152, Table 7-1). -/
def LUNA_CTX.PARENT_EN : Fld := ⟨.lunaCtx, 5, 38, 1⟩
/-- LUNA_CTX.PARENT_EP (R152, Table 7-1). -/
def LUNA_CTX.PARENT_EP : Fld := ⟨.lunaCtx, 5, 39, 12⟩
/-- LUNA_CTX.PROG (R152, Table 7-1). -/
def LUNA_CTX.PROG : Fld := ⟨.lunaCtx, 6, 0, 16⟩
/-- LUNA_CTX.PARENT_COMM (R152, Table 7-1). -/
def LUNA_CTX.PARENT_COMM : Fld := ⟨.lunaCtx, 6, 16, 14⟩
/-- LUNA_CTX.SR_SALT (R152, Table 7-1). -/
def LUNA_CTX.SR_SALT : Fld := ⟨.lunaCtx, 7, 0, 64⟩
/-- LUNA_MEMBER.EP (R152, Table 7-2). -/
def LUNA_MEMBER.EP : Fld := ⟨.lunaMember, 0, 0, 12⟩
/-- LUNA_MEMBER.UNIT (R152, Table 7-2). -/
def LUNA_MEMBER.UNIT : Fld := ⟨.lunaMember, 0, 12, 11⟩
/-- LUNA_MEMBER.WIDE (R152, Table 7-2). -/
def LUNA_MEMBER.WIDE : Fld := ⟨.lunaMember, 0, 23, 1⟩
/-- LUNA_MEMBER.VALID (R152, Table 7-2). -/
def LUNA_MEMBER.VALID : Fld := ⟨.lunaMember, 0, 24, 1⟩
/-- OEB_ID.EP (R238, Table 11-1). -/
def OEB_ID.EP : Fld := ⟨.oebId, 0, 0, 12⟩
/-- OEB_ID.SIDE (R238, Table 11-1). -/
def OEB_ID.SIDE : Fld := ⟨.oebId, 0, 12, 1⟩
/-- OEB_ID.LOCK (R238, Table 11-1). -/
def OEB_ID.LOCK : Fld := ⟨.oebId, 0, 13, 1⟩
/-- OEB_ID.NPORTS (R238, Table 11-1). -/
def OEB_ID.NPORTS : Fld := ⟨.oebId, 0, 16, 5⟩
/-- CTX_CFG.VALID (R245, Table 11-6). -/
def CTX_CFG.VALID : Fld := ⟨.ctxCfg, 0, 0, 1⟩
/-- CTX_CFG.PART (R245, Table 11-6). -/
def CTX_CFG.PART : Fld := ⟨.ctxCfg, 0, 1, 12⟩
/-- CTX_CFG.LOAD_TO (R245, Table 11-6). -/
def CTX_CFG.LOAD_TO : Fld := ⟨.ctxCfg, 0, 13, 14⟩
/-- CTX_CFG.MAX_OUT (R245, Table 11-6). -/
def CTX_CFG.MAX_OUT : Fld := ⟨.ctxCfg, 0, 27, 15⟩
/-- CTX_CFG.ERR_STATUS (R245, Table 11-6). -/
def CTX_CFG.ERR_STATUS : Fld := ⟨.ctxCfg, 1, 0, 4⟩
/-- CTX_CFG.ERR (R245, Table 11-6). -/
def CTX_CFG.ERR : Fld := ⟨.ctxCfg, 1, 4, 1⟩
/-- CTX_CFG.ERR_COUNT (R245, Table 11-6). -/
def CTX_CFG.ERR_COUNT : Fld := ⟨.ctxCfg, 1, 5, 16⟩
/-- OEB_CFG.ERR_BYTE (R251, Table 11-8). -/
def OEB_CFG.ERR_BYTE : Fld := ⟨.oebCfg, 0, 0, 8⟩
/-- OEB_CFG.ATOM_RETRY (R251, Table 11-8). -/
def OEB_CFG.ATOM_RETRY : Fld := ⟨.oebCfg, 0, 8, 3⟩
/-- OEB_CFG.JRNL_HOLD (R251, Table 11-8). -/
def OEB_CFG.JRNL_HOLD : Fld := ⟨.oebCfg, 0, 11, 12⟩
/-- OEB_CFG.QUAR (R251, Table 11-8). -/
def OEB_CFG.QUAR : Fld := ⟨.oebCfg, 0, 23, 13⟩
/-- OEB_CFG.READY (R251, Table 11-8). -/
def OEB_CFG.READY : Fld := ⟨.oebCfg, 0, 36, 1⟩
/-- OEB_CFG.GW_SIDE (R251, Table 11-8). -/
def OEB_CFG.GW_SIDE : Fld := ⟨.oebCfg, 0, 37, 1⟩
/-- EXP_BASE.BASE (R251, Table 11-8). -/
def EXP_BASE.BASE : Fld := ⟨.expBase, 0, 0, 64⟩
/-- EXP_SIZE.SIZE (R251, Table 11-8). -/
def EXP_SIZE.SIZE : Fld := ⟨.expSize, 0, 0, 49⟩
/-- COLL_RX.VALID (R253, Table 11-9). -/
def COLL_RX.VALID : Fld := ⟨.collRx, 0, 0, 1⟩
/-- COLL_RX.PART (R253, Table 11-9). -/
def COLL_RX.PART : Fld := ⟨.collRx, 0, 1, 12⟩
/-- COLL_RX.COMM (R253, Table 11-9). -/
def COLL_RX.COMM : Fld := ⟨.collRx, 0, 13, 14⟩
/-- COLL_RX.FIXED (R253, Table 11-9). -/
def COLL_RX.FIXED : Fld := ⟨.collRx, 0, 27, 1⟩
/-- COLL_RX.VERIFY (R253, Table 11-9). -/
def COLL_RX.VERIFY : Fld := ⟨.collRx, 0, 28, 1⟩
/-- COLL_RX.PLANES (R253, Table 11-9). -/
def COLL_RX.PLANES : Fld := ⟨.collRx, 0, 29, 16⟩
/-- COLL_RX.SEND (R253, Table 11-9). -/
def COLL_RX.SEND : Fld := ⟨.collRx, 0, 45, 1⟩
/-- COLL_RX.ENC (R253, Table 11-9). -/
def COLL_RX.ENC : Fld := ⟨.collRx, 0, 46, 1⟩
/-- COLL_RX.KEY_SLOT (R253, Table 11-9). -/
def COLL_RX.KEY_SLOT : Fld := ⟨.collRx, 0, 47, 13⟩
/-- COLL_RX.BASE (R253, Table 11-9). -/
def COLL_RX.BASE : Fld := ⟨.collRx, 1, 0, 48⟩
/-- COLL_RX.NCHUNK (R253, Table 11-9). -/
def COLL_RX.NCHUNK : Fld := ⟨.collRx, 2, 0, 24⟩
/-- COLL_RX.W (R253, Table 11-9). -/
def COLL_RX.W : Fld := ⟨.collRx, 2, 24, 13⟩
/-- COLL_RX.UNIT_BYTES (R253, Table 11-9). -/
def COLL_RX.UNIT_BYTES : Fld := ⟨.collRx, 2, 37, 13⟩
/-- COLL_RX.NSRC (R253, Table 11-9). -/
def COLL_RX.NSRC : Fld := ⟨.collRx, 2, 50, 10⟩
/-- COLL_RX.U (R253, Table 11-9). -/
def COLL_RX.U : Fld := ⟨.collRx, 3, 0, 40⟩
/-- COLL_RX.BMAP_BASE (R253, Table 11-9). -/
def COLL_RX.BMAP_BASE : Fld := ⟨.collRx, 4, 0, 48⟩
/-- XLAT_CFG.MODE (R266, Table 12-3). -/
def XLAT_CFG.MODE : Fld := ⟨.xlatCfg, 0, 0, 3⟩
/-- XLAT_CFG.APT (R266, Table 12-3). -/
def XLAT_CFG.APT : Fld := ⟨.xlatCfg, 0, 3, 4⟩
/-- XLAT_CFG.ASID (R266, Table 12-3). -/
def XLAT_CFG.ASID : Fld := ⟨.xlatCfg, 0, 8, 16⟩
/-- XLAT_CFG.ROOT (R266, Table 12-3). -/
def XLAT_CFG.ROOT : Fld := ⟨.xlatCfg, 1, 12, 44⟩
/-- XLAT_FAULT.FVA (R267, Table 12-4). -/
def XLAT_FAULT.FVA : Fld := ⟨.xlatFault, 0, 0, 64⟩
/-- XLAT_FAULT.CAUSE (R267, Table 12-4). -/
def XLAT_FAULT.CAUSE : Fld := ⟨.xlatFault, 1, 0, 4⟩
/-- XLAT_FAULT.ENGINE (R267, Table 12-4). -/
def XLAT_FAULT.ENGINE : Fld := ⟨.xlatFault, 1, 4, 2⟩
/-- XLAT_FAULT.FAULTED (R267, Table 12-4). -/
def XLAT_FAULT.FAULTED : Fld := ⟨.xlatFault, 1, 6, 1⟩
/-- XLAT_FAULT.COUNT (R267, Table 12-4). -/
def XLAT_FAULT.COUNT : Fld := ⟨.xlatFault, 1, 7, 16⟩
/-- APT.KIND (R269, Table 12-5). -/
def APT.KIND : Fld := ⟨.apt, 0, 0, 2⟩
/-- APT.ATOM_OK (R269, Table 12-5). -/
def APT.ATOM_OK : Fld := ⟨.apt, 0, 2, 1⟩
/-- APT.ENC (R269, Table 12-5). -/
def APT.ENC : Fld := ⟨.apt, 0, 3, 1⟩
/-- APT.REGION (R269, Table 12-5). -/
def APT.REGION : Fld := ⟨.apt, 0, 4, 4⟩
/-- APT.EP (R269, Table 12-5). -/
def APT.EP : Fld := ⟨.apt, 0, 8, 12⟩
/-- APT.PART (R269, Table 12-5). -/
def APT.PART : Fld := ⟨.apt, 0, 20, 12⟩
/-- APT.KEY_SLOT (R269, Table 12-5). -/
def APT.KEY_SLOT : Fld := ⟨.apt, 0, 32, 13⟩
/-- XLAT_INV.KIND (R273, Table 12-9). -/
def XLAT_INV.KIND : Fld := ⟨.xlatInv, 0, 0, 3⟩
/-- XLAT_INV.DRAIN (R273, Table 12-9). -/
def XLAT_INV.DRAIN : Fld := ⟨.xlatInv, 0, 3, 1⟩
/-- XLAT_INV.ASID (R273, Table 12-9). -/
def XLAT_INV.ASID : Fld := ⟨.xlatInv, 0, 4, 16⟩
/-- XLAT_INV.APT (R273, Table 12-9). -/
def XLAT_INV.APT : Fld := ⟨.xlatInv, 0, 20, 4⟩
/-- XLAT_INV.NPAGES (R273, Table 12-9). -/
def XLAT_INV.NPAGES : Fld := ⟨.xlatInv, 0, 24, 16⟩
/-- XLAT_INV_VA.VA (R273, Table 12-9). -/
def XLAT_INV_VA.VA : Fld := ⟨.xlatInvVa, 0, 12, 52⟩
/-- XLAT_INV_STATUS.ISSUED (R273, Table 12-10). -/
def XLAT_INV_STATUS.ISSUED : Fld := ⟨.xlatInvStatus, 0, 0, 16⟩
/-- XLAT_INV_STATUS.DONE (R273, Table 12-10). -/
def XLAT_INV_STATUS.DONE : Fld := ⟨.xlatInvStatus, 0, 16, 16⟩
/-- XLAT_INV_STATUS.FULL (R273, Table 12-10). -/
def XLAT_INV_STATUS.FULL : Fld := ⟨.xlatInvStatus, 0, 32, 1⟩
/-- XLAT_INV_STATUS.DROPPED (R273, Table 12-10). -/
def XLAT_INV_STATUS.DROPPED : Fld := ⟨.xlatInvStatus, 0, 33, 1⟩
/-- DMA_CFG.STARVE (R277, Table 12-11). -/
def DMA_CFG.STARVE : Fld := ⟨.dmaCfg, 0, 0, 14⟩
/-- DMA_CH.EN (R277, Table 12-12). -/
def DMA_CH.EN : Fld := ⟨.dmaCh, 0, 0, 1⟩
/-- DMA_CH.STOP (R277, Table 12-12). -/
def DMA_CH.STOP : Fld := ⟨.dmaCh, 0, 1, 1⟩
/-- DMA_CH.CTX (R277, Table 12-12). -/
def DMA_CH.CTX : Fld := ⟨.dmaCh, 0, 2, 10⟩
/-- DMA_CH.PRIO (R277, Table 12-12). -/
def DMA_CH.PRIO : Fld := ⟨.dmaCh, 0, 12, 3⟩
/-- DMA_CH.RING_LOG2 (R277, Table 12-12). -/
def DMA_CH.RING_LOG2 : Fld := ⟨.dmaCh, 0, 15, 4⟩
/-- DMA_CH.STATE (R277, Table 12-12). -/
def DMA_CH.STATE : Fld := ⟨.dmaCh, 0, 19, 3⟩
/-- DMA_CH.RING_BASE (R277, Table 12-12). -/
def DMA_CH.RING_BASE : Fld := ⟨.dmaCh, 1, 6, 58⟩
/-- DMA_CH.TAIL (R277, Table 12-12). -/
def DMA_CH.TAIL : Fld := ⟨.dmaCh, 2, 0, 32⟩
/-- DMA_CH.HEAD (R277, Table 12-12). -/
def DMA_CH.HEAD : Fld := ⟨.dmaCh, 2, 32, 32⟩
/-- DMA_CH.DONE_SEQ (R277, Table 12-12). -/
def DMA_CH.DONE_SEQ : Fld := ⟨.dmaCh, 3, 0, 32⟩
/-- DMA_CH.ERR_STATUS (R277, Table 12-12). -/
def DMA_CH.ERR_STATUS : Fld := ⟨.dmaCh, 3, 32, 4⟩
/-- DMA_CH.ERR (R277, Table 12-12). -/
def DMA_CH.ERR : Fld := ⟨.dmaCh, 3, 36, 1⟩
/-- EQ_F.PRE2 (R300, Table 13-2). -/
def EQ_F.PRE2 : Fld := ⟨.eqF, 0, 0, 6⟩
/-- EQ_U.PRE2 (R300, Table 13-2). -/
def EQ_U.PRE2 : Fld := ⟨.eqU, 0, 0, 6⟩
/-- EQ_E.PRE2 (R300, Table 13-2). -/
def EQ_E.PRE2 : Fld := ⟨.eqE, 0, 0, 6⟩
/-- EQ_F.PRE1 (R300, Table 13-2). -/
def EQ_F.PRE1 : Fld := ⟨.eqF, 0, 6, 6⟩
/-- EQ_U.PRE1 (R300, Table 13-2). -/
def EQ_U.PRE1 : Fld := ⟨.eqU, 0, 6, 6⟩
/-- EQ_E.PRE1 (R300, Table 13-2). -/
def EQ_E.PRE1 : Fld := ⟨.eqE, 0, 6, 6⟩
/-- EQ_F.MAIN (R300, Table 13-2). -/
def EQ_F.MAIN : Fld := ⟨.eqF, 0, 12, 6⟩
/-- EQ_U.MAIN (R300, Table 13-2). -/
def EQ_U.MAIN : Fld := ⟨.eqU, 0, 12, 6⟩
/-- EQ_E.MAIN (R300, Table 13-2). -/
def EQ_E.MAIN : Fld := ⟨.eqE, 0, 12, 6⟩
/-- EQ_F.POST1 (R300, Table 13-2). -/
def EQ_F.POST1 : Fld := ⟨.eqF, 0, 18, 6⟩
/-- EQ_U.POST1 (R300, Table 13-2). -/
def EQ_U.POST1 : Fld := ⟨.eqU, 0, 18, 6⟩
/-- EQ_E.POST1 (R300, Table 13-2). -/
def EQ_E.POST1 : Fld := ⟨.eqE, 0, 18, 6⟩
/-- EQ_F.CTLE (R300, Table 13-2). -/
def EQ_F.CTLE : Fld := ⟨.eqF, 0, 24, 4⟩
/-- EQ_U.CTLE (R300, Table 13-2). -/
def EQ_U.CTLE : Fld := ⟨.eqU, 0, 24, 4⟩
/-- EQ_E.CTLE (R300, Table 13-2). -/
def EQ_E.CTLE : Fld := ⟨.eqE, 0, 24, 4⟩
/-- EQ_F.VGA (R300, Table 13-2). -/
def EQ_F.VGA : Fld := ⟨.eqF, 0, 28, 4⟩
/-- EQ_U.VGA (R300, Table 13-2). -/
def EQ_U.VGA : Fld := ⟨.eqU, 0, 28, 4⟩
/-- EQ_E.VGA (R300, Table 13-2). -/
def EQ_E.VGA : Fld := ⟨.eqE, 0, 28, 4⟩
/-- EQ_F.DFE1 (R300, Table 13-2). -/
def EQ_F.DFE1 : Fld := ⟨.eqF, 0, 32, 5⟩
/-- EQ_U.DFE1 (R300, Table 13-2). -/
def EQ_U.DFE1 : Fld := ⟨.eqU, 0, 32, 5⟩
/-- EQ_E.DFE1 (R300, Table 13-2). -/
def EQ_E.DFE1 : Fld := ⟨.eqE, 0, 32, 5⟩
/-- EQ_E.CLAMPED (R300, Table 13-2). -/
def EQ_E.CLAMPED : Fld := ⟨.eqE, 0, 37, 1⟩
/-- PORT_LINK.STATE (R308, Table 13-5). -/
def PORT_LINK.STATE : Fld := ⟨.portLink, 0, 0, 4⟩
/-- PORT_LINK.LAST_CAUSE (R308, Table 13-5). -/
def PORT_LINK.LAST_CAUSE : Fld := ⟨.portLink, 0, 4, 4⟩
/-- PORT_LINK.PARTNER_NR (R308, Table 13-5). -/
def PORT_LINK.PARTNER_NR : Fld := ⟨.portLink, 0, 8, 1⟩
/-- PORT_LINK.SKIP_MODE (R308, Table 13-5). -/
def PORT_LINK.SKIP_MODE : Fld := ⟨.portLink, 0, 9, 1⟩
/-- PORT_LINK.RX_REVERSED (R308, Table 13-5). -/
def PORT_LINK.RX_REVERSED : Fld := ⟨.portLink, 0, 10, 1⟩
/-- PORT_LINK.RX_POLARITY (R308, Table 13-5). -/
def PORT_LINK.RX_POLARITY : Fld := ⟨.portLink, 0, 12, 8⟩
/-- PORT_LINK.PARTNER_EP (R308, Table 13-5). -/
def PORT_LINK.PARTNER_EP : Fld := ⟨.portLink, 0, 20, 12⟩
/-- PORT_LINK.PARTNER_ROLE (R308, Table 13-5). -/
def PORT_LINK.PARTNER_ROLE : Fld := ⟨.portLink, 0, 32, 2⟩
/-- PORT_LINK.DELAY (R308, Table 13-5). -/
def PORT_LINK.DELAY : Fld := ⟨.portLink, 0, 36, 16⟩
/-- PORT_LINK.TRAIN_COUNT (R308, Table 13-5). -/
def PORT_LINK.TRAIN_COUNT : Fld := ⟨.portLink, 0, 52, 8⟩
/-- LINK_CFG.IDLE_AFTER (R308, Table 13-6). -/
def LINK_CFG.IDLE_AFTER : Fld := ⟨.linkCfg, 0, 0, 10⟩
/-- LINK_CFG.IDLE_KEEP (R308, Table 13-6). -/
def LINK_CFG.IDLE_KEEP : Fld := ⟨.linkCfg, 0, 10, 10⟩
/-- LINK_CFG.REPLAY_TO (R308, Table 13-6). -/
def LINK_CFG.REPLAY_TO : Fld := ⟨.linkCfg, 0, 20, 10⟩
/-- LINK_CFG.REPLAY_MAX (R308, Table 13-6). -/
def LINK_CFG.REPLAY_MAX : Fld := ⟨.linkCfg, 0, 30, 4⟩
/-- LINK_CFG.SILENT_TO (R308, Table 13-6). -/
def LINK_CFG.SILENT_TO : Fld := ⟨.linkCfg, 0, 34, 10⟩
/-- LINK_CFG.EYE_H_MIN (R308, Table 13-6). -/
def LINK_CFG.EYE_H_MIN : Fld := ⟨.linkCfg, 0, 44, 7⟩
/-- LINK_CFG.EYE_W_MIN (R308, Table 13-6). -/
def LINK_CFG.EYE_W_MIN : Fld := ⟨.linkCfg, 0, 51, 6⟩
/-- LINK_CFG.DEGRADE (R308, Table 13-6). -/
def LINK_CFG.DEGRADE : Fld := ⟨.linkCfg, 1, 0, 32⟩
/-- LANE_STAT.EYE_H (R311, Table 13-9). -/
def LANE_STAT.EYE_H : Fld := ⟨.laneStat, 0, 0, 7⟩
/-- LANE_STAT.EYE_W (R311, Table 13-9). -/
def LANE_STAT.EYE_W : Fld := ⟨.laneStat, 0, 7, 6⟩
/-- LANE_STAT.LLANE (R311, Table 13-9). -/
def LANE_STAT.LLANE : Fld := ⟨.laneStat, 0, 13, 10⟩
/-- LANE_STAT.IN_USE (R311, Table 13-9). -/
def LANE_STAT.IN_USE : Fld := ⟨.laneStat, 0, 23, 1⟩
/-- LANE_STAT.SPARE (R311, Table 13-9). -/
def LANE_STAT.SPARE : Fld := ⟨.laneStat, 0, 24, 1⟩
/-- LANE_STAT.FAILED (R311, Table 13-9). -/
def LANE_STAT.FAILED : Fld := ⟨.laneStat, 0, 25, 1⟩
/-- LANE_STAT.LISTEN (R311, Table 13-9). -/
def LANE_STAT.LISTEN : Fld := ⟨.laneStat, 0, 26, 1⟩
/-- LANE_STAT.DEGRADED (R311, Table 13-9). -/
def LANE_STAT.DEGRADED : Fld := ⟨.laneStat, 0, 27, 1⟩
/-- GW_CTRL.STAGE_ID (R318, Table 14-1). -/
def GW_CTRL.STAGE_ID : Fld := ⟨.gwCtrl, 0, 0, 4⟩
/-- GW_CTRL.SKIP_EP0 (R318, Table 14-1). -/
def GW_CTRL.SKIP_EP0 : Fld := ⟨.gwCtrl, 0, 4, 12⟩
/-- GW_CTRL.SKIP_EP1 (R318, Table 14-1). -/
def GW_CTRL.SKIP_EP1 : Fld := ⟨.gwCtrl, 0, 16, 12⟩
/-- GW_CTRL.REMOTE_TO (R318, Table 14-1). -/
def GW_CTRL.REMOTE_TO : Fld := ⟨.gwCtrl, 0, 28, 14⟩
/-- GW_CTRL.WINDOW (R318, Table 14-1). -/
def GW_CTRL.WINDOW : Fld := ⟨.gwCtrl, 0, 42, 10⟩
/-- GW_REGION.MODE (R318, Table 14-2). -/
def GW_REGION.MODE : Fld := ⟨.gwRegion, 0, 0, 2⟩
/-- GW_REGION.SKIPPER (R318, Table 14-2). -/
def GW_REGION.SKIPPER : Fld := ⟨.gwRegion, 0, 2, 1⟩
/-- GW_REGION.GROUP (R318, Table 14-2). -/
def GW_REGION.GROUP : Fld := ⟨.gwRegion, 0, 3, 10⟩
/-- HOST_CFG.EN (R326, Table 14-5). -/
def HOST_CFG.EN : Fld := ⟨.hostCfg, 0, 0, 1⟩
/-- HOST_CFG.PART (R326, Table 14-5). -/
def HOST_CFG.PART : Fld := ⟨.hostCfg, 0, 1, 12⟩
/-- HOST_CFG.RX_LOG2 (R326, Table 14-5). -/
def HOST_CFG.RX_LOG2 : Fld := ⟨.hostCfg, 0, 13, 5⟩
/-- HOST_CFG.TX_LOG2 (R326, Table 14-5). -/
def HOST_CFG.TX_LOG2 : Fld := ⟨.hostCfg, 0, 18, 4⟩
/-- HOST_CFG.WIN_BASE (R326, Table 14-5). -/
def HOST_CFG.WIN_BASE : Fld := ⟨.hostCfg, 1, 0, 64⟩
/-- HOST_CFG.WIN_SIZE (R326, Table 14-5). -/
def HOST_CFG.WIN_SIZE : Fld := ⟨.hostCfg, 2, 0, 48⟩
/-- HOST_CFG.RX_BASE (R326, Table 14-5). -/
def HOST_CFG.RX_BASE : Fld := ⟨.hostCfg, 3, 0, 64⟩
/-- HOST_CFG.TX_BASE (R326, Table 14-5). -/
def HOST_CFG.TX_BASE : Fld := ⟨.hostCfg, 4, 0, 64⟩
/-- HOST_CFG.IDX_ADDR (R326, Table 14-5). -/
def HOST_CFG.IDX_ADDR : Fld := ⟨.hostCfg, 5, 0, 64⟩
/-- HOST_CFG.RX_CONS (R326, Table 14-5). -/
def HOST_CFG.RX_CONS : Fld := ⟨.hostCfg, 6, 0, 32⟩
/-- HOST_CFG.TX_TAIL (R326, Table 14-5). -/
def HOST_CFG.TX_TAIL : Fld := ⟨.hostCfg, 6, 32, 32⟩
/-- TIME_CFG.ROOT (R336, Table 15-1). -/
def TIME_CFG.ROOT : Fld := ⟨.timeCfg, 0, 0, 1⟩
/-- TIME_CFG.PPS_EN (R336, Table 15-1). -/
def TIME_CFG.PPS_EN : Fld := ⟨.timeCfg, 0, 1, 1⟩
/-- TIME_CFG.STEP_EN (R336, Table 15-1). -/
def TIME_CFG.STEP_EN : Fld := ⟨.timeCfg, 0, 2, 1⟩
/-- TIME_CFG.SLEW_MAX (R336, Table 15-1). -/
def TIME_CFG.SLEW_MAX : Fld := ⟨.timeCfg, 0, 3, 7⟩
/-- TIME_CFG.MARKER_INT (R336, Table 15-1). -/
def TIME_CFG.MARKER_INT : Fld := ⟨.timeCfg, 0, 10, 6⟩
/-- TIME_CFG.MARKER_LOSS (R336, Table 15-1). -/
def TIME_CFG.MARKER_LOSS : Fld := ⟨.timeCfg, 0, 16, 4⟩
/-- TIME_CFG.RATE_SET (R336, Table 15-1). -/
def TIME_CFG.RATE_SET : Fld := ⟨.timeCfg, 0, 20, 16⟩
/-- TIME_CFG.PPS_PHASE (R336, Table 15-1). -/
def TIME_CFG.PPS_PHASE : Fld := ⟨.timeCfg, 1, 0, 32⟩
/-- TIME_ASYM.ASYM (R340, Table 15-3). -/
def TIME_ASYM.ASYM : Fld := ⟨.timeAsym, 0, 0, 16⟩
/-- TIME_STAT.QUAL (R344, Table 15-5). -/
def TIME_STAT.QUAL : Fld := ⟨.timeStat, 0, 0, 3⟩
/-- TIME_STAT.SRC_OSC (R344, Table 15-5). -/
def TIME_STAT.SRC_OSC : Fld := ⟨.timeStat, 0, 3, 1⟩
/-- TIME_STAT.UPSTREAM (R344, Table 15-5). -/
def TIME_STAT.UPSTREAM : Fld := ⟨.timeStat, 0, 4, 9⟩
/-- TIME_STAT.HOPS (R344, Table 15-5). -/
def TIME_STAT.HOPS : Fld := ⟨.timeStat, 0, 13, 4⟩
/-- TIME_STAT.RATE (R344, Table 15-5). -/
def TIME_STAT.RATE : Fld := ⟨.timeStat, 0, 17, 16⟩
/-- TIME_STAT.OFFSET (R344, Table 15-5). -/
def TIME_STAT.OFFSET : Fld := ⟨.timeStat, 1, 0, 32⟩
/-- TIME_STAT.DOLDRUMS_FT (R344, Table 15-5). -/
def TIME_STAT.DOLDRUMS_FT : Fld := ⟨.timeStat, 2, 0, 64⟩
/-- PPS_OUT_CFG.EN (R349, Table 15-8). -/
def PPS_OUT_CFG.EN : Fld := ⟨.ppsOutCfg, 0, 0, 1⟩
/-- PPS_OUT_CFG.PERIOD (R349, Table 15-8). -/
def PPS_OUT_CFG.PERIOD : Fld := ⟨.ppsOutCfg, 0, 1, 20⟩
/-- PPS_OUT_CFG.PHASE (R349, Table 15-8). -/
def PPS_OUT_CFG.PHASE : Fld := ⟨.ppsOutCfg, 0, 21, 32⟩
/-- PORT_BIND.EP (R354, Table 16-1). -/
def PORT_BIND.EP : Fld := ⟨.portBind, 0, 0, 12⟩
/-- PORT_BIND.ROLE (R354, Table 16-1). -/
def PORT_BIND.ROLE : Fld := ⟨.portBind, 0, 12, 1⟩
/-- PORT_BIND.GW (R354, Table 16-1). -/
def PORT_BIND.GW : Fld := ⟨.portBind, 0, 13, 1⟩
/-- PORT_PSET.PERMIT (R354, Table 16-2). -/
def PORT_PSET.PERMIT : Fld := ⟨.portPset, 0, 0, 64⟩
/-- PART_SEC.VALID (R354, Table 16-3). -/
def PART_SEC.VALID : Fld := ⟨.partSec, 0, 0, 1⟩
/-- PART_SEC.DOM (R354, Table 16-3). -/
def PART_SEC.DOM : Fld := ⟨.partSec, 0, 1, 3⟩
/-- PART_SEC.INR (R354, Table 16-3). -/
def PART_SEC.INR : Fld := ⟨.partSec, 0, 4, 1⟩
/-- PART_SEC.NKEYS (R354, Table 16-3). -/
def PART_SEC.NKEYS : Fld := ⟨.partSec, 0, 5, 13⟩
/-- KS_INFO.KIND (R363, Table 16-8). -/
def KS_INFO.KIND : Fld := ⟨.ksInfo, 0, 0, 2⟩
/-- KS_INFO.PART (R363, Table 16-8). -/
def KS_INFO.PART : Fld := ⟨.ksInfo, 0, 2, 12⟩
/-- KS_INFO.STATE (R363, Table 16-8). -/
def KS_INFO.STATE : Fld := ⟨.ksInfo, 0, 14, 2⟩
/-- KS_INFO.GEN (R363, Table 16-8). -/
def KS_INFO.GEN : Fld := ⟨.ksInfo, 0, 16, 16⟩
/-- KS_INFO.ENFORCE (R363, Table 16-8). -/
def KS_INFO.ENFORCE : Fld := ⟨.ksInfo, 0, 32, 1⟩
/-- KS_INFO.NMEAS (R363, Table 16-8). -/
def KS_INFO.NMEAS : Fld := ⟨.ksInfo, 0, 33, 2⟩
/-- KS_INFO.OVERLAP (R363, Table 16-8). -/
def KS_INFO.OVERLAP : Fld := ⟨.ksInfo, 0, 35, 14⟩
/-- KS_INFO.ROT_AT (R363, Table 16-8). -/
def KS_INFO.ROT_AT : Fld := ⟨.ksInfo, 1, 0, 64⟩
/-- TRNG_STAT.READY (R372, Table 16-12). -/
def TRNG_STAT.READY : Fld := ⟨.trngStat, 0, 0, 1⟩
/-- TRNG_STAT.FAILED (R372, Table 16-12). -/
def TRNG_STAT.FAILED : Fld := ⟨.trngStat, 0, 1, 1⟩
/-- TRNG_STAT.TRIES (R372, Table 16-12). -/
def TRNG_STAT.TRIES : Fld := ⟨.trngStat, 0, 2, 2⟩
/-- TRNG_STAT.RCT_FAILS (R372, Table 16-12). -/
def TRNG_STAT.RCT_FAILS : Fld := ⟨.trngStat, 0, 4, 16⟩
/-- TRNG_STAT.APT_FAILS (R372, Table 16-12). -/
def TRNG_STAT.APT_FAILS : Fld := ⟨.trngStat, 0, 20, 16⟩
/-- TRNG_STAT.RCT_CUT (R372, Table 16-12). -/
def TRNG_STAT.RCT_CUT : Fld := ⟨.trngStat, 0, 36, 12⟩
/-- TRNG_STAT.APT_CUT (R372, Table 16-12). -/
def TRNG_STAT.APT_CUT : Fld := ⟨.trngStat, 0, 48, 11⟩
/-- FOLD_CTL.EN (R374, Table 17-2). -/
def FOLD_CTL.EN : Fld := ⟨.foldCtl, 0, 0, 1⟩
/-- FOLD_CTL.FOLD_WIN (R374, Table 17-2). -/
def FOLD_CTL.FOLD_WIN : Fld := ⟨.foldCtl, 0, 1, 14⟩
/-- FOLD_CTL.MAXSPAN (R374, Table 17-2). -/
def FOLD_CTL.MAXSPAN : Fld := ⟨.foldCtl, 0, 15, 7⟩
/-- FOLD_STAT.OPEN (R374, Table 17-3). -/
def FOLD_STAT.OPEN : Fld := ⟨.foldStat, 0, 0, 11⟩
/-- FOLD_STAT.OVERFLOW (R374, Table 17-3). -/
def FOLD_STAT.OVERFLOW : Fld := ⟨.foldStat, 0, 12, 32⟩
/-- EXPEL_STAT.QUORUM (R383, Table 17-5). -/
def EXPEL_STAT.QUORUM : Fld := ⟨.expelStat, 0, 0, 4⟩
/-- EXPEL_STAT.KEYS (R383, Table 17-5). -/
def EXPEL_STAT.KEYS : Fld := ⟨.expelStat, 0, 4, 8⟩
/-- EXPEL_STAT.LISTED (R383, Table 17-5). -/
def EXPEL_STAT.LISTED : Fld := ⟨.expelStat, 0, 12, 7⟩
/-- EXPEL_STAT.LAST_SEQ (R383, Table 17-5). -/
def EXPEL_STAT.LAST_SEQ : Fld := ⟨.expelStat, 1, 0, 64⟩
/-- SNAP_CTL.EN (R394, Table 18-2). -/
def SNAP_CTL.EN : Fld := ⟨.snapCtl, 0, 0, 1⟩
/-- SNAP_CTL.PERIOD (R394, Table 18-2). -/
def SNAP_CTL.PERIOD : Fld := ⟨.snapCtl, 0, 1, 14⟩
/-- SNAP_STAT.DONE_BUF (R394, Table 18-3). -/
def SNAP_STAT.DONE_BUF : Fld := ⟨.snapStat, 0, 0, 1⟩
/-- SNAP_STAT.BUSY (R394, Table 18-3). -/
def SNAP_STAT.BUSY : Fld := ⟨.snapStat, 0, 1, 1⟩
/-- SNAP_STAT.SEQ (R394, Table 18-3). -/
def SNAP_STAT.SEQ : Fld := ⟨.snapStat, 0, 32, 32⟩
/-- SMP_RING.EN (R403, Table 18-7). -/
def SMP_RING.EN : Fld := ⟨.smpRing, 0, 0, 1⟩
/-- SMP_RING.LOG2 (R403, Table 18-7). -/
def SMP_RING.LOG2 : Fld := ⟨.smpRing, 0, 1, 5⟩
/-- SMP_RING.BASE (R403, Table 18-7). -/
def SMP_RING.BASE : Fld := ⟨.smpRing, 1, 12, 52⟩
/-- SMP_RING.CONS (R403, Table 18-7). -/
def SMP_RING.CONS : Fld := ⟨.smpRing, 2, 0, 32⟩
/-- SMP_RING.PROD (R403, Table 18-7). -/
def SMP_RING.PROD : Fld := ⟨.smpRing, 2, 32, 32⟩
/-- CALM_CTL.ARM (R405, Table 18-10). -/
def CALM_CTL.ARM : Fld := ⟨.calmCtl, 0, 0, 1⟩
/-- CALM_CTL.SYNC (R405, Table 18-10). -/
def CALM_CTL.SYNC : Fld := ⟨.calmCtl, 0, 1, 1⟩
/-- CALM_CTL.CHAIN_OUT (R405, Table 18-10). -/
def CALM_CTL.CHAIN_OUT : Fld := ⟨.calmCtl, 0, 2, 1⟩
/-- CALM_CTL.CHAIN_IN (R405, Table 18-10). -/
def CALM_CTL.CHAIN_IN : Fld := ⟨.calmCtl, 0, 3, 1⟩
/-- CALM_CTL.DELAY (R405, Table 18-10). -/
def CALM_CTL.DELAY : Fld := ⟨.calmCtl, 0, 4, 10⟩
/-- CALM_CTL.SNAP (R405, Table 18-10). -/
def CALM_CTL.SNAP : Fld := ⟨.calmCtl, 0, 14, 1⟩
/-- CALM_STAT.CALM (R405, Table 18-11). -/
def CALM_STAT.CALM : Fld := ⟨.calmStat, 0, 0, 1⟩
/-- CALM_STAT.CAUSE (R405, Table 18-11). -/
def CALM_STAT.CAUSE : Fld := ⟨.calmStat, 0, 1, 2⟩
/-- CALM_STAT.LATE (R405, Table 18-11). -/
def CALM_STAT.LATE : Fld := ⟨.calmStat, 0, 3, 1⟩
/-- CALM_STAT.EVENT (R405, Table 18-11). -/
def CALM_STAT.EVENT : Fld := ⟨.calmStat, 0, 4, 16⟩
/-- CALM_STAT.TRIG_FT (R405, Table 18-11). -/
def CALM_STAT.TRIG_FT : Fld := ⟨.calmStat, 1, 0, 64⟩
/-- CALM_STAT.CALM_FT (R405, Table 18-11). -/
def CALM_STAT.CALM_FT : Fld := ⟨.calmStat, 2, 0, 64⟩
/-- SCAN_CTL.DIE (R411, Table 18-13). -/
def SCAN_CTL.DIE : Fld := ⟨.scanCtl, 0, 0, 6⟩
/-- SCAN_CTL.SPACE (R411, Table 18-13). -/
def SCAN_CTL.SPACE : Fld := ⟨.scanCtl, 0, 6, 4⟩
/-- SCAN_CTL.UE (R411, Table 18-13). -/
def SCAN_CTL.UE : Fld := ⟨.scanCtl, 0, 10, 1⟩
/-- SCAN_CTL.ADDR (R411, Table 18-13). -/
def SCAN_CTL.ADDR : Fld := ⟨.scanCtl, 1, 0, 48⟩
/-- SCAN_CTL.SIZE (R411, Table 18-13). -/
def SCAN_CTL.SIZE : Fld := ⟨.scanCtl, 2, 0, 48⟩
/-- DOM_RIGHTS.FABRIC (R415, Table 19-2). -/
def DOM_RIGHTS.FABRIC : Fld := ⟨.domRights, 0, 0, 1⟩
/-- DOM_RIGHTS.TELEMETRY (R415, Table 19-2). -/
def DOM_RIGHTS.TELEMETRY : Fld := ⟨.domRights, 0, 1, 1⟩
/-- DOM_RIGHTS.PART (R415, Table 19-2). -/
def DOM_RIGHTS.PART : Fld := ⟨.domRights, 0, 2, 1⟩
/-- DOM_RIGHTS.SKIP0 (R415, Table 19-2). -/
def DOM_RIGHTS.SKIP0 : Fld := ⟨.domRights, 0, 3, 1⟩
/-- DOM_RIGHTS.SKIP1 (R415, Table 19-2). -/
def DOM_RIGHTS.SKIP1 : Fld := ⟨.domRights, 0, 4, 1⟩
/-- DOM_RIGHTS.EN (R415, Table 19-2). -/
def DOM_RIGHTS.EN : Fld := ⟨.domRights, 0, 5, 1⟩
/-- RING_REC.PSEQ (R420, Table 19-5). -/
def RING_REC.PSEQ : Fld := ⟨.ringRec, 0, 0, 32⟩
/-- RING_REC.STATUS (R420, Table 19-5). -/
def RING_REC.STATUS : Fld := ⟨.ringRec, 0, 32, 4⟩
/-- RING_REC.REASON (R420, Table 19-5). -/
def RING_REC.REASON : Fld := ⟨.ringRec, 0, 36, 8⟩
/-- RING_REC.STATE (R420, Table 19-5). -/
def RING_REC.STATE : Fld := ⟨.ringRec, 0, 44, 2⟩
/-- RING_REC.LATE (R420, Table 19-5). -/
def RING_REC.LATE : Fld := ⟨.ringRec, 0, 46, 1⟩
/-- RING_REC.WORD (R420, Table 19-5). -/
def RING_REC.WORD : Fld := ⟨.ringRec, 0, 48, 16⟩
/-- RING_REC.E_FT (R420, Table 19-5). -/
def RING_REC.E_FT : Fld := ⟨.ringRec, 1, 0, 64⟩
/-- RING_REC.FIRST (R420, Table 19-5). -/
def RING_REC.FIRST : Fld := ⟨.ringRec, 2, 0, 32⟩
/-- PROFILE_STAT.PSEL (R433, Table 19-11). -/
def PROFILE_STAT.PSEL : Fld := ⟨.profileStat, 0, 0, 2⟩
/-- PROFILE_STAT.LOADED (R433, Table 19-11). -/
def PROFILE_STAT.LOADED : Fld := ⟨.profileStat, 0, 2, 2⟩
/-- PROFILE_STAT.VALID (R433, Table 19-11). -/
def PROFILE_STAT.VALID : Fld := ⟨.profileStat, 0, 4, 1⟩
/-- PROFILE_STAT.FAILED (R433, Table 19-11). -/
def PROFILE_STAT.FAILED : Fld := ⟨.profileStat, 0, 5, 1⟩
/-- PROFILE_STAT.REASON (R433, Table 19-11). -/
def PROFILE_STAT.REASON : Fld := ⟨.profileStat, 0, 6, 8⟩
/-- SENS_CAL.F_OFF (R435, Table 19-13). -/
def SENS_CAL.F_OFF : Fld := ⟨.sensCal, 0, 0, 12⟩
/-- SENS_CAL.U_OFF (R435, Table 19-13). -/
def SENS_CAL.U_OFF : Fld := ⟨.sensCal, 0, 12, 12⟩
/-- SENS_CAL.E_OFF (R435, Table 19-13). -/
def SENS_CAL.E_OFF : Fld := ⟨.sensCal, 0, 24, 12⟩
/-- SENS_CAL.CLAMPED (R435, Table 19-13). -/
def SENS_CAL.CLAMPED : Fld := ⟨.sensCal, 0, 36, 1⟩
/-- START_STAT.PHASE (R440, Table 20-3). -/
def START_STAT.PHASE : Fld := ⟨.startStat, 0, 0, 3⟩
/-- START_STAT.FABRIC_READY (R440, Table 20-3). -/
def START_STAT.FABRIC_READY : Fld := ⟨.startStat, 0, 3, 1⟩
/-- START_STAT.CAUSE (R440, Table 20-3). -/
def START_STAT.CAUSE : Fld := ⟨.startStat, 0, 4, 4⟩
/-- START_STAT.READY_MS (R440, Table 20-3). -/
def START_STAT.READY_MS : Fld := ⟨.startStat, 0, 16, 32⟩
/-- DOM_STAT.STATE (R446, Table 20-5). -/
def DOM_STAT.STATE : Fld := ⟨.domStat, 0, 0, 2⟩
/-- DOM_STAT.PINNED (R446, Table 20-5). -/
def DOM_STAT.PINNED : Fld := ⟨.domStat, 0, 2, 1⟩
/-- DOM_STAT.FAILED (R446, Table 20-5). -/
def DOM_STAT.FAILED : Fld := ⟨.domStat, 0, 3, 1⟩
/-- DOM_STAT.WAKES (R446, Table 20-5). -/
def DOM_STAT.WAKES : Fld := ⟨.domStat, 0, 4, 32⟩
/-- COCOON_CTL.LUNA_EN (R446, Table 20-6). -/
def COCOON_CTL.LUNA_EN : Fld := ⟨.cocoonCtl, 0, 0, 1⟩
/-- COCOON_CTL.LUNA_AFTER (R446, Table 20-6). -/
def COCOON_CTL.LUNA_AFTER : Fld := ⟨.cocoonCtl, 0, 1, 10⟩
/-- COCOON_CTL.WAKE_AT (R446, Table 20-6). -/
def COCOON_CTL.WAKE_AT : Fld := ⟨.cocoonCtl, 0, 11, 4⟩
/-- COCOON_CTL.PORT_EN (R446, Table 20-6). -/
def COCOON_CTL.PORT_EN : Fld := ⟨.cocoonCtl, 0, 15, 1⟩
/-- COCOON_CTL.SKIP_EN (R446, Table 20-6). -/
def COCOON_CTL.SKIP_EN : Fld := ⟨.cocoonCtl, 0, 16, 1⟩
/-- LUNA_DVFS.FREQ (R449, Table 20-9). -/
def LUNA_DVFS.FREQ : Fld := ⟨.lunaDvfs, 0, 0, 5⟩
/-- LUNA_DVFS.REQ_MV (R449, Table 20-9). -/
def LUNA_DVFS.REQ_MV : Fld := ⟨.lunaDvfs, 0, 16, 10⟩
/-- LUNA_DVFS.CUR_FREQ (R449, Table 20-9). -/
def LUNA_DVFS.CUR_FREQ : Fld := ⟨.lunaDvfs, 0, 26, 5⟩
/-- LUNA_DVFS.BUSY (R449, Table 20-9). -/
def LUNA_DVFS.BUSY : Fld := ⟨.lunaDvfs, 0, 31, 1⟩
/-- GOV_CTL.EN (R450, Table 20-10). -/
def GOV_CTL.EN : Fld := ⟨.govCtl, 0, 0, 1⟩
/-- GOV_CTL.LIMIT (R450, Table 20-10). -/
def GOV_CTL.LIMIT : Fld := ⟨.govCtl, 0, 1, 10⟩
/-- GOV_CTL.IDLE_RESV (R450, Table 20-10). -/
def GOV_CTL.IDLE_RESV : Fld := ⟨.govCtl, 0, 11, 1⟩
/-- GOV_STAT.G (R450, Table 20-11). -/
def GOV_STAT.G : Fld := ⟨.govStat, 0, 0, 12⟩
/-- GOV_STAT.D (R450, Table 20-11). -/
def GOV_STAT.D : Fld := ⟨.govStat, 0, 12, 12⟩
/-- GOV_STAT.PAD (R450, Table 20-11). -/
def GOV_STAT.PAD : Fld := ⟨.govStat, 0, 24, 12⟩
/-- GOV_STAT.HOLDING (R450, Table 20-11). -/
def GOV_STAT.HOLDING : Fld := ⟨.govStat, 0, 36, 1⟩
/-- ALERT_STAT.THERMAL (R453, Table 20-13). -/
def ALERT_STAT.THERMAL : Fld := ⟨.alertStat, 0, 0, 1⟩
/-- ALERT_STAT.DVFS (R453, Table 20-13). -/
def ALERT_STAT.DVFS : Fld := ⟨.alertStat, 0, 1, 1⟩
/-- ALERT_STAT.GOV (R453, Table 20-13). -/
def ALERT_STAT.GOV : Fld := ⟨.alertStat, 0, 2, 1⟩
/-- ALERT_STAT.EVENT (R453, Table 20-13). -/
def ALERT_STAT.EVENT : Fld := ⟨.alertStat, 0, 3, 1⟩
/-- DEVICE_ID.PART (R461, Table 21-4). -/
def DEVICE_ID.PART : Fld := ⟨.deviceId, 0, 0, 16⟩
/-- DEVICE_ID.REV_BASE (R461, Table 21-4). -/
def DEVICE_ID.REV_BASE : Fld := ⟨.deviceId, 0, 16, 4⟩
/-- DEVICE_ID.REV_METAL (R461, Table 21-4). -/
def DEVICE_ID.REV_METAL : Fld := ⟨.deviceId, 0, 20, 4⟩
/-- LOG_SEQ.SEQ (R461, Table 21-5). -/
def LOG_SEQ.SEQ : Fld := ⟨.logSeq, 0, 0, 64⟩
/-- SEC_CAP.PEN (R461, Table 21-5). -/
def SEC_CAP.PEN : Fld := ⟨.secCap, 0, 0, 32⟩
/-- SEC_CAP.DEBUG (R461, Table 21-5). -/
def SEC_CAP.DEBUG : Fld := ⟨.secCap, 0, 32, 1⟩
/-- THERM_CFG.WARN (R461, Table 21-5). -/
def THERM_CFG.WARN : Fld := ⟨.thermCfg, 0, 0, 11⟩
/-- CHAIN_STAT.POS (R461, Table 21-5). -/
def CHAIN_STAT.POS : Fld := ⟨.chainStat, 0, 0, 6⟩
/-- CHAIN_STAT.HEAD (R461, Table 21-5). -/
def CHAIN_STAT.HEAD : Fld := ⟨.chainStat, 0, 6, 1⟩
/-- CHAIN_STAT.UP (R461, Table 21-5). -/
def CHAIN_STAT.UP : Fld := ⟨.chainStat, 0, 7, 1⟩
/-- CHAIN_STAT.DELAY (R461, Table 21-5). -/
def CHAIN_STAT.DELAY : Fld := ⟨.chainStat, 0, 8, 16⟩
/-- MCG_PORTS.PORTS (R117). -/
def MCG_PORTS.PORTS : Fld := ⟨.mcgPorts, 0, 0, 64⟩
/-- MIRROR_PORTS.PORTS (R121). -/
def MIRROR_PORTS.PORTS : Fld := ⟨.mirrorPorts, 0, 0, 64⟩
/-- PPS_IN_EDGE.FT (R350). -/
def PPS_IN_EDGE.FT : Fld := ⟨.ppsInEdge, 0, 0, 64⟩
/-- CALM_TRIG.EVENT (R405). -/
def CALM_TRIG.EVENT : Fld := ⟨.calmTrig, 0, 0, 16⟩
/-- CALM_TRIG.EN (R405). -/
def CALM_TRIG.EN : Fld := ⟨.calmTrig, 0, 16, 1⟩
/-- LUNA_CORE_MAP.PHYS (R462). -/
def LUNA_CORE_MAP.PHYS : Fld := ⟨.lunaCoreMap, 0, 0, 10⟩
/-- LUNA_CORE_MAP.VALID (R462). -/
def LUNA_CORE_MAP.VALID : Fld := ⟨.lunaCoreMap, 0, 10, 1⟩
/-- LUNA_SVC.SHADOW_CHUNKS (R462). -/
def LUNA_SVC.SHADOW_CHUNKS : Fld := ⟨.lunaSvc, 0, 0, 16⟩
/-- HOST_STAT.TX_ERR (R462). -/
def HOST_STAT.TX_ERR : Fld := ⟨.hostStat, 0, 0, 4⟩
/-- HOST_STAT.TX_HALT (R462). -/
def HOST_STAT.TX_HALT : Fld := ⟨.hostStat, 0, 4, 1⟩
/-- RT_INDEX.TABLE (R460). -/
def RT_INDEX.TABLE : Fld := ⟨.rtIndex, 0, 0, 1⟩
/-- RT_INDEX.SET (R460). -/
def RT_INDEX.SET : Fld := ⟨.rtIndex, 0, 1, 4⟩
/-- RT_INDEX.ENTRY (R460). -/
def RT_INDEX.ENTRY : Fld := ⟨.rtIndex, 0, 5, 12⟩
/-- KS_INDEX.SLOT (R460). -/
def KS_INDEX.SLOT : Fld := ⟨.ksIndex, 0, 0, 13⟩
/-- CTX_INDEX.TABLE (R460). -/
def CTX_INDEX.TABLE : Fld := ⟨.ctxIndex, 0, 0, 1⟩
/-- CTX_INDEX.INDEX (R460). -/
def CTX_INDEX.INDEX : Fld := ⟨.ctxIndex, 0, 1, 18⟩
/-- PORT_CFG.PLANE (R246). -/
def PORT_CFG.PLANE : Fld := ⟨.portCfg, 0, 0, 4⟩
/-- PORT_CFG.EN (R246). -/
def PORT_CFG.EN : Fld := ⟨.portCfg, 0, 4, 1⟩
/-- PORT_CFG.WIDTH (R246). -/
def PORT_CFG.WIDTH : Fld := ⟨.portCfg, 0, 5, 2⟩
/-- PORT_CFG.UP (R246). -/
def PORT_CFG.UP : Fld := ⟨.portCfg, 0, 7, 1⟩
/-- PORT_CFG.FIRST_LANE (R246). -/
def PORT_CFG.FIRST_LANE : Fld := ⟨.portCfg, 0, 8, 5⟩
/-- MB_CTL.GO (R469). -/
def MB_CTL.GO : Fld := ⟨.mbCtl, 0, 0, 1⟩
/-- MB_CTL.REQ_LEN (R469). -/
def MB_CTL.REQ_LEN : Fld := ⟨.mbCtl, 0, 1, 13⟩
/-- MB_STAT.BUSY (R469). -/
def MB_STAT.BUSY : Fld := ⟨.mbStat, 0, 0, 1⟩
/-- MB_STAT.DONE (R469). -/
def MB_STAT.DONE : Fld := ⟨.mbStat, 0, 1, 1⟩
/-- MB_STAT.RSP_LEN (R469). -/
def MB_STAT.RSP_LEN : Fld := ⟨.mbStat, 0, 2, 13⟩
/-- MB_STAT.ERR (R469). -/
def MB_STAT.ERR : Fld := ⟨.mbStat, 0, 15, 1⟩
/-- RING_CTL.EN (R420). -/
def RING_CTL.EN : Fld := ⟨.ringCtl, 0, 0, 1⟩
/-- RING_CTL.FLUSH (R420). -/
def RING_CTL.FLUSH : Fld := ⟨.ringCtl, 0, 1, 1⟩
/-- RING_TAIL.TAIL (R420). -/
def RING_TAIL.TAIL : Fld := ⟨.ringTail, 0, 0, 32⟩
/-- RING_HEAD.HEAD (R420). -/
def RING_HEAD.HEAD : Fld := ⟨.ringHead, 0, 0, 32⟩
/-- RING_PSEQ.PSEQ (R420). -/
def RING_PSEQ.PSEQ : Fld := ⟨.ringPseq, 0, 0, 32⟩
/-- RING_RD.VALUE (R420). -/
def RING_RD.VALUE : Fld := ⟨.ringRd, 0, 0, 64⟩
/-- RING_WORD.W0 (R420). -/
def RING_WORD.W0 : Fld := ⟨.ringWord, 0, 0, 64⟩
/-- RING_WORD.W1 (R420). -/
def RING_WORD.W1 : Fld := ⟨.ringWord, 1, 0, 64⟩
/-- SIDE_MAP.BITS (R238). -/
def SIDE_MAP.BITS : Fld := ⟨.sideMap, 0, 0, 64⟩

/-- The field map of DIE_INFO. -/
def rowsDIE_INFO : List FldRow := [
  ⟨DIE_INFO.DIE_NUM, .ro, 0, 0, 63⟩,
  ⟨DIE_INFO.ROLE, .ro, 0, 0, 7⟩,
  ⟨DIE_INFO.STEP_BASE, .ro, 0, 0, 15⟩,
  ⟨DIE_INFO.STEP_METAL, .ro, 0, 0, 15⟩,
  ⟨DIE_INFO.ACTIVE, .ro, 0, 0, 1⟩,
  ⟨DIE_INFO.STANDBY, .ro, 0, 0, 1⟩,
  ⟨DIE_INFO.RETIRED, .ro, 0, 0, 1⟩,
  ⟨DIE_INFO.SPARES_LEFT, .ro, 0, 0, 255⟩]
/-- The field map of LC_ENTRY. -/
def rowsLC_ENTRY : List FldRow := [
  ⟨LC_ENTRY.COUNT, .rw, 0, 0, 4294967295⟩,
  ⟨LC_ENTRY.PART, .rw, 0, 0, 4095⟩,
  ⟨LC_ENTRY.EN, .rw, 0, 0, 1⟩,
  ⟨LC_ENTRY.POISONED, .w1c, 0, 0, 1⟩,
  ⟨LC_ENTRY.DENIED, .w1c, 0, 0, 1⟩]
/-- The field map of CW_CTRL. -/
def rowsCW_CTRL : List FldRow := [
  ⟨CW_CTRL.EN, .rw, 0, 0, 1⟩,
  ⟨CW_CTRL.NPLANES_LOG2, .rw, 0, 0, 4⟩,
  ⟨CW_CTRL.PLANE_IDX, .rw, 0, 0, 15⟩,
  ⟨CW_CTRL.SIZE_LOG2, .rw, 0, 20, 40⟩,
  ⟨CW_CTRL.ACK_TIMEOUT, .rw, 20, 1, 1000⟩]
/-- The field map of CW_MEMBER. -/
def rowsCW_MEMBER : List FldRow := [
  ⟨CW_MEMBER.EP, .rw, 0, 0, 4095⟩,
  ⟨CW_MEMBER.PART, .rw, 0, 0, 4095⟩,
  ⟨CW_MEMBER.VALID, .rw, 0, 0, 1⟩,
  ⟨CW_MEMBER.HOME, .rw, 0, 0, 1⟩,
  ⟨CW_MEMBER.SUSPENDED, .ro, 0, 0, 1⟩]
/-- The field map of FWD_CTRL. -/
def rowsFWD_CTRL : List FldRow := [
  ⟨FWD_CTRL.OX9_EP, .rw, 0, 0, 4095⟩,
  ⟨FWD_CTRL.AGE_LIMIT, .rw, 50, 1, 3355⟩,
  ⟨FWD_CTRL.CT_STALL_LIMIT, .rw, 20, 1, 4095⟩]
/-- The field map of BUF_CARVE. -/
def rowsBUF_CARVE : List FldRow := [
  ⟨BUF_CARVE.RSV_VC1, .rw, 3072, 0, 65535⟩,
  ⟨BUF_CARVE.RSV_VC4, .rw, 1024, 0, 65535⟩,
  ⟨BUF_CARVE.RSV_VC5, .rw, 256, 0, 65535⟩]
/-- The field map of PART_BUF. -/
def rowsPART_BUF : List FldRow := [
  ⟨PART_BUF.MIN, .rw, 0, 0, 65535⟩,
  ⟨PART_BUF.MAX, .rw, 65535, 0, 65535⟩,
  ⟨PART_BUF.USED, .ro, 0, 0, 4194303⟩]
/-- The field map of MCG_CTL. -/
def rowsMCG_CTL : List FldRow := [
  ⟨MCG_CTL.PART, .rw, 0, 0, 4095⟩,
  ⟨MCG_CTL.VALID, .rw, 0, 0, 1⟩,
  ⟨MCG_CTL.MODE, .rw, 0, 0, 1⟩,
  ⟨MCG_CTL.SRC_PRUNE, .rw, 1, 0, 1⟩,
  ⟨MCG_CTL.NPORTS, .ro, 0, 0, 511⟩]
/-- The field map of MCG_INDEX. -/
def rowsMCG_INDEX : List FldRow := [
  ⟨MCG_INDEX.GROUP, .rw, 0, 0, 32767⟩]
/-- The field map of MIRROR_MATCH. -/
def rowsMIRROR_MATCH : List FldRow := [
  ⟨MIRROR_MATCH.EN, .rw, 0, 0, 1⟩,
  ⟨MIRROR_MATCH.DIR, .rw, 0, 0, 2⟩,
  ⟨MIRROR_MATCH.FLOW, .rw, 0, 0, 1⟩,
  ⟨MIRROR_MATCH.M_PART, .rw, 0, 0, 4095⟩,
  ⟨MIRROR_MATCH.M_PART_EN, .rw, 0, 0, 1⟩,
  ⟨MIRROR_MATCH.M_EP, .rw, 0, 0, 4095⟩,
  ⟨MIRROR_MATCH.M_EP_DST, .rw, 0, 0, 1⟩,
  ⟨MIRROR_MATCH.M_EP_EN, .rw, 0, 0, 1⟩,
  ⟨MIRROR_MATCH.M_OPCODE, .rw, 0, 0, 63⟩,
  ⟨MIRROR_MATCH.M_OPCODE_EN, .rw, 0, 0, 1⟩]
/-- The field map of MIRROR_DEST. -/
def rowsMIRROR_DEST : List FldRow := [
  ⟨MIRROR_DEST.A_EP, .rw, 0, 0, 4095⟩,
  ⟨MIRROR_DEST.A_PART, .rw, 0, 0, 4095⟩,
  ⟨MIRROR_DEST.A_QUEUE, .rw, 0, 0, 255⟩]
/-- The field map of SAMPLE_CTL. -/
def rowsSAMPLE_CTL : List FldRow := [
  ⟨SAMPLE_CTL.EN_IN, .rw, 0, 0, 1⟩,
  ⟨SAMPLE_CTL.EN_OUT, .rw, 0, 0, 1⟩,
  ⟨SAMPLE_CTL.RATE_LOG2, .rw, 10, 4, 20⟩,
  ⟨SAMPLE_CTL.SEED, .rw, 0, 0, 4294967295⟩]
/-- The field map of PART_RT. -/
def rowsPART_RT : List FldRow := [
  ⟨PART_RT.RTSET, .rw, 0, 0, 15⟩]
/-- The field map of ROUTE. -/
def rowsROUTE : List FldRow := [
  ⟨ROUTE.GROUP, .rw, 0, 0, 1023⟩,
  ⟨ROUTE.VALID, .rw, 0, 0, 1⟩]
/-- The field map of PGROUP. -/
def rowsPGROUP : List FldRow := [
  ⟨PGROUP.M0, .rw, 0, 0, 511⟩,
  ⟨PGROUP.V0, .rw, 0, 0, 1⟩,
  ⟨PGROUP.M1, .rw, 0, 0, 511⟩,
  ⟨PGROUP.V1, .rw, 0, 0, 1⟩,
  ⟨PGROUP.M2, .rw, 0, 0, 511⟩,
  ⟨PGROUP.V2, .rw, 0, 0, 1⟩,
  ⟨PGROUP.M3, .rw, 0, 0, 511⟩,
  ⟨PGROUP.V3, .rw, 0, 0, 1⟩]
/-- The field map of PORT_ARB. -/
def rowsPORT_ARB : List FldRow := [
  ⟨PORT_ARB.FLOOR, .rw, 5, 0, 50⟩,
  ⟨PORT_ARB.VC5_GAP, .rw, 8, 2, 15⟩,
  ⟨PORT_ARB.W0, .rw, 2, 1, 15⟩,
  ⟨PORT_ARB.W1, .rw, 4, 1, 15⟩,
  ⟨PORT_ARB.W3, .rw, 1, 1, 15⟩,
  ⟨PORT_ARB.W4, .rw, 2, 1, 15⟩]
/-- The field map of PORT_CMARK. -/
def rowsPORT_CMARK : List FldRow := [
  ⟨PORT_CMARK.LVL1, .rw, 128, 0, 65535⟩,
  ⟨PORT_CMARK.LVL2, .rw, 512, 0, 65535⟩,
  ⟨PORT_CMARK.LVL3, .rw, 2048, 0, 65535⟩,
  ⟨PORT_CMARK.EN, .rw, 1, 0, 1⟩]
/-- The field map of PART_SHAPE. -/
def rowsPART_SHAPE : List FldRow := [
  ⟨PART_SHAPE.RATE, .rw, 0, 1, 100800⟩,
  ⟨PART_SHAPE.EN, .rw, 0, 0, 1⟩,
  ⟨PART_SHAPE.BURST, .rw, 0, 64, 65535⟩,
  ⟨PART_SHAPE.LEVEL, .ro, 0, 0, 262143⟩]
/-- The field map of CMAP_CTL. -/
def rowsCMAP_CTL : List FldRow := [
  ⟨CMAP_CTL.EN, .rw, 0, 0, 1⟩,
  ⟨CMAP_CTL.PERIOD, .rw, 100, 10, 10000⟩,
  ⟨CMAP_CTL.DONE_BUF, .ro, 0, 0, 1⟩,
  ⟨CMAP_CTL.MAP_SEQ, .ro, 0, 0, 4294967295⟩]
/-- The field map of CMAP_TIME. -/
def rowsCMAP_TIME : List FldRow := [
  ⟨CMAP_TIME.FT, .ro, 0, 0, 18446744073709551615⟩]
/-- The field map of CMAP_REC. -/
def rowsCMAP_REC : List FldRow := [
  ⟨CMAP_REC.PEAK_VC0, .ro, 0, 0, 65535⟩,
  ⟨CMAP_REC.PEAK_VC2, .ro, 0, 0, 65535⟩,
  ⟨CMAP_REC.PEAK_VC3, .ro, 0, 0, 65535⟩,
  ⟨CMAP_REC.MARKS, .ro, 0, 0, 65535⟩,
  ⟨CMAP_REC.FLITS_OUT, .ro, 0, 0, 4294967295⟩,
  ⟨CMAP_REC.STARVED, .ro, 0, 0, 65535⟩,
  ⟨CMAP_REC.MAX_LEVEL, .ro, 0, 0, 3⟩]
/-- The field map of LUNA_CTX. -/
def rowsLUNA_CTX : List FldRow := [
  ⟨LUNA_CTX.VALID, .rw, 0, 0, 1⟩,
  ⟨LUNA_CTX.STATE, .ro, 0, 0, 3⟩,
  ⟨LUNA_CTX.PART, .rw, 0, 0, 4095⟩,
  ⟨LUNA_CTX.VERIFY, .rw, 0, 0, 1⟩,
  ⟨LUNA_CTX.NATIVE_OK, .rw, 0, 0, 1⟩,
  ⟨LUNA_CTX.ENC, .rw, 0, 0, 1⟩,
  ⟨LUNA_CTX.DIEMASK0, .rw, 0, 0, 255⟩,
  ⟨LUNA_CTX.DIEMASK1, .rw, 0, 0, 255⟩,
  ⟨LUNA_CTX.OUT_FMT, .rw, 0, 0, 15⟩,
  ⟨LUNA_CTX.OUT_SAME, .rw, 1, 0, 1⟩,
  ⟨LUNA_CTX.RND, .rw, 0, 0, 7⟩,
  ⟨LUNA_CTX.LC_ADV, .rw, 0, 0, 1⟩,
  ⟨LUNA_CTX.LC_ID, .rw, 0, 0, 4095⟩,
  ⟨LUNA_CTX.KEY_IN, .rw, 0, 0, 8191⟩,
  ⟨LUNA_CTX.KEY_OUT, .rw, 0, 0, 8191⟩,
  ⟨LUNA_CTX.RESULT_MCG, .rw, 0, 0, 32767⟩,
  ⟨LUNA_CTX.NSRC, .rw, 0, 1, 512⟩,
  ⟨LUNA_CTX.MEMBASE, .rw, 0, 0, 262143⟩,
  ⟨LUNA_CTX.W, .rw, 0, 1, 8191⟩,
  ⟨LUNA_CTX.MAXELEM, .rw, 0, 1, 8192⟩,
  ⟨LUNA_CTX.NCHUNK, .rw, 0, 1, 16777215⟩,
  ⟨LUNA_CTX.CUR_STEP, .ro, 0, 0, 255⟩,
  ⟨LUNA_CTX.DL_MODE, .rw, 0, 0, 2⟩,
  ⟨LUNA_CTX.DL_REL, .rw, 0, 0, 16777215⟩,
  ⟨LUNA_CTX.DEADLINE, .rw, 0, 0, 18446744073709551615⟩,
  ⟨LUNA_CTX.RPT_EP, .rw, 0, 0, 4095⟩,
  ⟨LUNA_CTX.RPT_QUEUE, .rw, 0, 0, 255⟩,
  ⟨LUNA_CTX.RPT_EN, .rw, 0, 0, 1⟩,
  ⟨LUNA_CTX.SPARSE_CAP, .rw, 0, 0, 131071⟩,
  ⟨LUNA_CTX.PARENT_EN, .rw, 0, 0, 1⟩,
  ⟨LUNA_CTX.PARENT_EP, .rw, 0, 0, 4095⟩,
  ⟨LUNA_CTX.PROG, .rw, 0, 0, 65535⟩,
  ⟨LUNA_CTX.PARENT_COMM, .rw, 0, 0, 16383⟩,
  ⟨LUNA_CTX.SR_SALT, .rw, 0, 0, 18446744073709551615⟩]
/-- The field map of LUNA_MEMBER. -/
def rowsLUNA_MEMBER : List FldRow := [
  ⟨LUNA_MEMBER.EP, .rw, 0, 0, 4095⟩,
  ⟨LUNA_MEMBER.UNIT, .rw, 0, 0, 2047⟩,
  ⟨LUNA_MEMBER.WIDE, .rw, 0, 0, 1⟩,
  ⟨LUNA_MEMBER.VALID, .rw, 0, 0, 1⟩]
/-- The field map of OEB_ID. -/
def rowsOEB_ID : List FldRow := [
  ⟨OEB_ID.EP, .rw, 0, 0, 4095⟩,
  ⟨OEB_ID.SIDE, .ro, 0, 0, 1⟩,
  ⟨OEB_ID.LOCK, .w1s, 0, 0, 1⟩,
  ⟨OEB_ID.NPORTS, .ro, 0, 0, 31⟩]
/-- The field map of CTX_CFG. -/
def rowsCTX_CFG : List FldRow := [
  ⟨CTX_CFG.VALID, .rw, 0, 0, 1⟩,
  ⟨CTX_CFG.PART, .rw, 0, 0, 4095⟩,
  ⟨CTX_CFG.LOAD_TO, .rw, 20, 1, 16000⟩,
  ⟨CTX_CFG.MAX_OUT, .rw, 16384, 1, 16384⟩,
  ⟨CTX_CFG.ERR_STATUS, .ro, 0, 0, 15⟩,
  ⟨CTX_CFG.ERR, .w1c, 0, 0, 1⟩,
  ⟨CTX_CFG.ERR_COUNT, .rc, 0, 0, 65535⟩]
/-- The field map of OEB_CFG. -/
def rowsOEB_CFG : List FldRow := [
  ⟨OEB_CFG.ERR_BYTE, .rw, 255, 0, 255⟩,
  ⟨OEB_CFG.ATOM_RETRY, .rw, 2, 0, 7⟩,
  ⟨OEB_CFG.JRNL_HOLD, .rw, 200, 10, 3276⟩,
  ⟨OEB_CFG.QUAR, .rw, 102, 1, 8191⟩,
  ⟨OEB_CFG.READY, .rw, 0, 0, 1⟩,
  ⟨OEB_CFG.GW_SIDE, .rw, 0, 0, 1⟩]
/-- The field map of EXP_BASE. -/
def rowsEXP_BASE : List FldRow := [
  ⟨EXP_BASE.BASE, .rw, 0, 0, 18446744073709551615⟩]
/-- The field map of EXP_SIZE. -/
def rowsEXP_SIZE : List FldRow := [
  ⟨EXP_SIZE.SIZE, .rw, 0, 0, 562949953421311⟩]
/-- The field map of COLL_RX. -/
def rowsCOLL_RX : List FldRow := [
  ⟨COLL_RX.VALID, .rw, 0, 0, 1⟩,
  ⟨COLL_RX.PART, .rw, 0, 0, 4095⟩,
  ⟨COLL_RX.COMM, .rw, 0, 0, 16383⟩,
  ⟨COLL_RX.FIXED, .rw, 0, 0, 1⟩,
  ⟨COLL_RX.VERIFY, .rw, 0, 0, 1⟩,
  ⟨COLL_RX.PLANES, .rw, 0, 0, 65535⟩,
  ⟨COLL_RX.SEND, .rw, 0, 0, 1⟩,
  ⟨COLL_RX.ENC, .rw, 0, 0, 1⟩,
  ⟨COLL_RX.KEY_SLOT, .rw, 0, 0, 8191⟩,
  ⟨COLL_RX.BASE, .rw, 0, 0, 281474976710655⟩,
  ⟨COLL_RX.NCHUNK, .rw, 0, 0, 16777215⟩,
  ⟨COLL_RX.W, .rw, 0, 0, 8191⟩,
  ⟨COLL_RX.UNIT_BYTES, .rw, 0, 0, 8191⟩,
  ⟨COLL_RX.NSRC, .rw, 0, 0, 1023⟩,
  ⟨COLL_RX.U, .rw, 0, 0, 1099511627775⟩,
  ⟨COLL_RX.BMAP_BASE, .rw, 0, 0, 281474976710655⟩]
/-- The field map of XLAT_CFG. -/
def rowsXLAT_CFG : List FldRow := [
  ⟨XLAT_CFG.MODE, .rw, 0, 0, 4⟩,
  ⟨XLAT_CFG.APT, .rw, 0, 0, 15⟩,
  ⟨XLAT_CFG.ASID, .rw, 0, 0, 65535⟩,
  ⟨XLAT_CFG.ROOT, .rw, 0, 0, 17592186044415⟩]
/-- The field map of XLAT_FAULT. -/
def rowsXLAT_FAULT : List FldRow := [
  ⟨XLAT_FAULT.FVA, .ro, 0, 0, 18446744073709551615⟩,
  ⟨XLAT_FAULT.CAUSE, .ro, 0, 0, 15⟩,
  ⟨XLAT_FAULT.ENGINE, .ro, 0, 0, 3⟩,
  ⟨XLAT_FAULT.FAULTED, .w1c, 0, 0, 1⟩,
  ⟨XLAT_FAULT.COUNT, .rc, 0, 0, 65535⟩]
/-- The field map of APT. -/
def rowsAPT : List FldRow := [
  ⟨APT.KIND, .rw, 0, 0, 2⟩,
  ⟨APT.ATOM_OK, .rw, 0, 0, 1⟩,
  ⟨APT.ENC, .rw, 0, 0, 1⟩,
  ⟨APT.REGION, .rw, 0, 0, 15⟩,
  ⟨APT.EP, .rw, 0, 0, 4095⟩,
  ⟨APT.PART, .rw, 0, 0, 4095⟩,
  ⟨APT.KEY_SLOT, .rw, 0, 0, 8191⟩]
/-- The field map of XLAT_INV. -/
def rowsXLAT_INV : List FldRow := [
  ⟨XLAT_INV.KIND, .wo, 0, 0, 7⟩,
  ⟨XLAT_INV.DRAIN, .wo, 0, 0, 1⟩,
  ⟨XLAT_INV.ASID, .wo, 0, 0, 65535⟩,
  ⟨XLAT_INV.APT, .wo, 0, 0, 15⟩,
  ⟨XLAT_INV.NPAGES, .wo, 0, 1, 65535⟩]
/-- The field map of XLAT_INV_VA. -/
def rowsXLAT_INV_VA : List FldRow := [
  ⟨XLAT_INV_VA.VA, .rw, 0, 0, 4503599627370495⟩]
/-- The field map of XLAT_INV_STATUS. -/
def rowsXLAT_INV_STATUS : List FldRow := [
  ⟨XLAT_INV_STATUS.ISSUED, .ro, 0, 0, 65535⟩,
  ⟨XLAT_INV_STATUS.DONE, .ro, 0, 0, 65535⟩,
  ⟨XLAT_INV_STATUS.FULL, .ro, 0, 0, 1⟩,
  ⟨XLAT_INV_STATUS.DROPPED, .w1c, 0, 0, 1⟩]
/-- The field map of DMA_CFG. -/
def rowsDMA_CFG : List FldRow := [
  ⟨DMA_CFG.STARVE, .rw, 10, 1, 16000⟩]
/-- The field map of DMA_CH. -/
def rowsDMA_CH : List FldRow := [
  ⟨DMA_CH.EN, .rw, 0, 0, 1⟩,
  ⟨DMA_CH.STOP, .w1s, 0, 0, 1⟩,
  ⟨DMA_CH.CTX, .rw, 0, 0, 1023⟩,
  ⟨DMA_CH.PRIO, .rw, 0, 0, 7⟩,
  ⟨DMA_CH.RING_LOG2, .rw, 4, 4, 15⟩,
  ⟨DMA_CH.STATE, .ro, 0, 0, 7⟩,
  ⟨DMA_CH.RING_BASE, .rw, 0, 0, 288230376151711743⟩,
  ⟨DMA_CH.TAIL, .rw, 0, 0, 4294967295⟩,
  ⟨DMA_CH.HEAD, .ro, 0, 0, 4294967295⟩,
  ⟨DMA_CH.DONE_SEQ, .ro, 0, 0, 4294967295⟩,
  ⟨DMA_CH.ERR_STATUS, .ro, 0, 0, 15⟩,
  ⟨DMA_CH.ERR, .w1c, 0, 0, 1⟩]
/-- The field map of EQ_F. -/
def rowsEQ_F : List FldRow := [
  ⟨EQ_F.PRE2, .ro, 0, 0, 63⟩,
  ⟨EQ_F.PRE1, .ro, 0, 0, 63⟩,
  ⟨EQ_F.MAIN, .ro, 0, 0, 63⟩,
  ⟨EQ_F.POST1, .ro, 0, 0, 63⟩,
  ⟨EQ_F.CTLE, .ro, 0, 0, 15⟩,
  ⟨EQ_F.VGA, .ro, 0, 0, 15⟩,
  ⟨EQ_F.DFE1, .ro, 0, 0, 31⟩]
/-- The field map of EQ_U. -/
def rowsEQ_U : List FldRow := [
  ⟨EQ_U.PRE2, .rw, 0, 0, 63⟩,
  ⟨EQ_U.PRE1, .rw, 0, 0, 63⟩,
  ⟨EQ_U.MAIN, .rw, 0, 0, 63⟩,
  ⟨EQ_U.POST1, .rw, 0, 0, 63⟩,
  ⟨EQ_U.CTLE, .rw, 0, 0, 15⟩,
  ⟨EQ_U.VGA, .rw, 0, 0, 15⟩,
  ⟨EQ_U.DFE1, .rw, 0, 0, 31⟩]
/-- The field map of EQ_E. -/
def rowsEQ_E : List FldRow := [
  ⟨EQ_E.PRE2, .ro, 0, 0, 63⟩,
  ⟨EQ_E.PRE1, .ro, 0, 0, 63⟩,
  ⟨EQ_E.MAIN, .ro, 0, 0, 63⟩,
  ⟨EQ_E.POST1, .ro, 0, 0, 63⟩,
  ⟨EQ_E.CTLE, .ro, 0, 0, 15⟩,
  ⟨EQ_E.VGA, .ro, 0, 0, 15⟩,
  ⟨EQ_E.DFE1, .ro, 0, 0, 31⟩,
  ⟨EQ_E.CLAMPED, .ro, 0, 0, 1⟩]
/-- The field map of PORT_LINK. -/
def rowsPORT_LINK : List FldRow := [
  ⟨PORT_LINK.STATE, .ro, 0, 0, 15⟩,
  ⟨PORT_LINK.LAST_CAUSE, .ro, 0, 0, 15⟩,
  ⟨PORT_LINK.PARTNER_NR, .ro, 0, 0, 1⟩,
  ⟨PORT_LINK.SKIP_MODE, .ro, 0, 0, 1⟩,
  ⟨PORT_LINK.RX_REVERSED, .ro, 0, 0, 1⟩,
  ⟨PORT_LINK.RX_POLARITY, .ro, 0, 0, 255⟩,
  ⟨PORT_LINK.PARTNER_EP, .ro, 0, 0, 4095⟩,
  ⟨PORT_LINK.PARTNER_ROLE, .ro, 0, 0, 3⟩,
  ⟨PORT_LINK.DELAY, .ro, 0, 0, 65535⟩,
  ⟨PORT_LINK.TRAIN_COUNT, .ro, 0, 0, 255⟩]
/-- The field map of LINK_CFG. -/
def rowsLINK_CFG : List FldRow := [
  ⟨LINK_CFG.IDLE_AFTER, .rw, 10, 0, 1023⟩,
  ⟨LINK_CFG.IDLE_KEEP, .rw, 20, 1, 1000⟩,
  ⟨LINK_CFG.REPLAY_TO, .rw, 64, 4, 1023⟩,
  ⟨LINK_CFG.REPLAY_MAX, .rw, 8, 1, 15⟩,
  ⟨LINK_CFG.SILENT_TO, .rw, 2, 1, 1000⟩,
  ⟨LINK_CFG.EYE_H_MIN, .rw, 8, 1, 100⟩,
  ⟨LINK_CFG.EYE_W_MIN, .rw, 10, 1, 63⟩,
  ⟨LINK_CFG.DEGRADE, .rw, 65536, 0, 4294967295⟩]
/-- The field map of LANE_STAT. -/
def rowsLANE_STAT : List FldRow := [
  ⟨LANE_STAT.EYE_H, .ro, 0, 0, 127⟩,
  ⟨LANE_STAT.EYE_W, .ro, 0, 0, 63⟩,
  ⟨LANE_STAT.LLANE, .ro, 0, 0, 1023⟩,
  ⟨LANE_STAT.IN_USE, .ro, 0, 0, 1⟩,
  ⟨LANE_STAT.SPARE, .ro, 0, 0, 1⟩,
  ⟨LANE_STAT.FAILED, .ro, 0, 0, 1⟩,
  ⟨LANE_STAT.LISTEN, .ro, 0, 0, 1⟩,
  ⟨LANE_STAT.DEGRADED, .ro, 0, 0, 1⟩]
/-- The field map of GW_CTRL. -/
def rowsGW_CTRL : List FldRow := [
  ⟨GW_CTRL.STAGE_ID, .rw, 0, 0, 14⟩,
  ⟨GW_CTRL.SKIP_EP0, .rw, 0, 0, 4095⟩,
  ⟨GW_CTRL.SKIP_EP1, .rw, 0, 0, 4095⟩,
  ⟨GW_CTRL.REMOTE_TO, .rw, 10, 1, 16000⟩,
  ⟨GW_CTRL.WINDOW, .rw, 256, 1, 1023⟩]
/-- The field map of GW_REGION. -/
def rowsGW_REGION : List FldRow := [
  ⟨GW_REGION.MODE, .rw, 0, 0, 3⟩,
  ⟨GW_REGION.SKIPPER, .rw, 0, 0, 1⟩,
  ⟨GW_REGION.GROUP, .rw, 0, 0, 1023⟩]
/-- The field map of HOST_CFG. -/
def rowsHOST_CFG : List FldRow := [
  ⟨HOST_CFG.EN, .rw, 0, 0, 1⟩,
  ⟨HOST_CFG.PART, .rw, 0, 0, 4095⟩,
  ⟨HOST_CFG.RX_LOG2, .rw, 8, 4, 16⟩,
  ⟨HOST_CFG.TX_LOG2, .rw, 8, 4, 15⟩,
  ⟨HOST_CFG.WIN_BASE, .rw, 0, 0, 18446744073709551615⟩,
  ⟨HOST_CFG.WIN_SIZE, .rw, 0, 0, 281474976710655⟩,
  ⟨HOST_CFG.RX_BASE, .rw, 0, 0, 18446744073709551615⟩,
  ⟨HOST_CFG.TX_BASE, .rw, 0, 0, 18446744073709551615⟩,
  ⟨HOST_CFG.IDX_ADDR, .rw, 0, 0, 18446744073709551615⟩,
  ⟨HOST_CFG.RX_CONS, .rw, 0, 0, 4294967295⟩,
  ⟨HOST_CFG.TX_TAIL, .rw, 0, 0, 4294967295⟩]
/-- The field map of TIME_CFG. -/
def rowsTIME_CFG : List FldRow := [
  ⟨TIME_CFG.ROOT, .rw, 0, 0, 1⟩,
  ⟨TIME_CFG.PPS_EN, .rw, 0, 0, 1⟩,
  ⟨TIME_CFG.STEP_EN, .rw, 0, 0, 1⟩,
  ⟨TIME_CFG.SLEW_MAX, .rw, 100, 1, 100⟩,
  ⟨TIME_CFG.MARKER_INT, .rw, 1, 1, 63⟩,
  ⟨TIME_CFG.MARKER_LOSS, .rw, 8, 2, 15⟩,
  ⟨TIME_CFG.RATE_SET, .rw, 0, 0, 65535⟩,
  ⟨TIME_CFG.PPS_PHASE, .rw, 0, 0, 4294967295⟩]
/-- The field map of TIME_ASYM. -/
def rowsTIME_ASYM : List FldRow := [
  ⟨TIME_ASYM.ASYM, .rw, 0, 0, 65535⟩]
/-- The field map of TIME_STAT. -/
def rowsTIME_STAT : List FldRow := [
  ⟨TIME_STAT.QUAL, .ro, 0, 0, 7⟩,
  ⟨TIME_STAT.SRC_OSC, .ro, 0, 0, 1⟩,
  ⟨TIME_STAT.UPSTREAM, .ro, 511, 0, 511⟩,
  ⟨TIME_STAT.HOPS, .ro, 0, 0, 15⟩,
  ⟨TIME_STAT.RATE, .ro, 0, 0, 65535⟩,
  ⟨TIME_STAT.OFFSET, .ro, 0, 0, 4294967295⟩,
  ⟨TIME_STAT.DOLDRUMS_FT, .ro, 0, 0, 18446744073709551615⟩]
/-- The field map of PPS_OUT_CFG. -/
def rowsPPS_OUT_CFG : List FldRow := [
  ⟨PPS_OUT_CFG.EN, .rw, 0, 0, 1⟩,
  ⟨PPS_OUT_CFG.PERIOD, .rw, 1000000, 1000, 1000000⟩,
  ⟨PPS_OUT_CFG.PHASE, .rw, 0, 0, 4294967295⟩]
/-- The field map of PORT_BIND. -/
def rowsPORT_BIND : List FldRow := [
  ⟨PORT_BIND.EP, .rw, 0, 0, 4095⟩,
  ⟨PORT_BIND.ROLE, .rw, 0, 0, 1⟩,
  ⟨PORT_BIND.GW, .rw, 0, 0, 1⟩]
/-- The field map of PORT_PSET. -/
def rowsPORT_PSET : List FldRow := [
  ⟨PORT_PSET.PERMIT, .rw, 0, 0, 18446744073709551615⟩]
/-- The field map of PART_SEC. -/
def rowsPART_SEC : List FldRow := [
  ⟨PART_SEC.VALID, .rw, 0, 0, 1⟩,
  ⟨PART_SEC.DOM, .rw, 0, 0, 7⟩,
  ⟨PART_SEC.INR, .ro, 0, 0, 1⟩,
  ⟨PART_SEC.NKEYS, .ro, 0, 0, 8191⟩]
/-- The field map of KS_INFO. -/
def rowsKS_INFO : List FldRow := [
  ⟨KS_INFO.KIND, .ro, 0, 0, 3⟩,
  ⟨KS_INFO.PART, .ro, 0, 0, 4095⟩,
  ⟨KS_INFO.STATE, .ro, 0, 0, 3⟩,
  ⟨KS_INFO.GEN, .ro, 0, 0, 65535⟩,
  ⟨KS_INFO.ENFORCE, .ro, 0, 0, 1⟩,
  ⟨KS_INFO.NMEAS, .ro, 0, 0, 3⟩,
  ⟨KS_INFO.OVERLAP, .ro, 0, 0, 16383⟩,
  ⟨KS_INFO.ROT_AT, .ro, 0, 0, 18446744073709551615⟩]
/-- The field map of TRNG_STAT. -/
def rowsTRNG_STAT : List FldRow := [
  ⟨TRNG_STAT.READY, .ro, 0, 0, 1⟩,
  ⟨TRNG_STAT.FAILED, .ro, 0, 0, 1⟩,
  ⟨TRNG_STAT.TRIES, .ro, 0, 0, 3⟩,
  ⟨TRNG_STAT.RCT_FAILS, .rc, 0, 0, 65535⟩,
  ⟨TRNG_STAT.APT_FAILS, .rc, 0, 0, 65535⟩,
  ⟨TRNG_STAT.RCT_CUT, .ro, 0, 0, 4095⟩,
  ⟨TRNG_STAT.APT_CUT, .ro, 0, 0, 2047⟩]
/-- The field map of FOLD_CTL. -/
def rowsFOLD_CTL : List FldRow := [
  ⟨FOLD_CTL.EN, .rw, 1, 0, 1⟩,
  ⟨FOLD_CTL.FOLD_WIN, .rw, 100, 10, 10000⟩,
  ⟨FOLD_CTL.MAXSPAN, .rw, 64, 1, 127⟩]
/-- The field map of FOLD_STAT. -/
def rowsFOLD_STAT : List FldRow := [
  ⟨FOLD_STAT.OPEN, .ro, 0, 0, 2047⟩,
  ⟨FOLD_STAT.OVERFLOW, .rc, 0, 0, 4294967295⟩]
/-- The field map of EXPEL_STAT. -/
def rowsEXPEL_STAT : List FldRow := [
  ⟨EXPEL_STAT.QUORUM, .ro, 0, 0, 15⟩,
  ⟨EXPEL_STAT.KEYS, .ro, 0, 0, 255⟩,
  ⟨EXPEL_STAT.LISTED, .ro, 0, 0, 127⟩,
  ⟨EXPEL_STAT.LAST_SEQ, .ro, 0, 0, 18446744073709551615⟩]
/-- The field map of SNAP_CTL. -/
def rowsSNAP_CTL : List FldRow := [
  ⟨SNAP_CTL.EN, .rw, 0, 0, 1⟩,
  ⟨SNAP_CTL.PERIOD, .rw, 1000, 100, 10000⟩]
/-- The field map of SNAP_STAT. -/
def rowsSNAP_STAT : List FldRow := [
  ⟨SNAP_STAT.DONE_BUF, .ro, 0, 0, 1⟩,
  ⟨SNAP_STAT.BUSY, .ro, 0, 0, 1⟩,
  ⟨SNAP_STAT.SEQ, .ro, 0, 0, 4294967295⟩]
/-- The field map of SMP_RING. -/
def rowsSMP_RING : List FldRow := [
  ⟨SMP_RING.EN, .rw, 0, 0, 1⟩,
  ⟨SMP_RING.LOG2, .rw, 12, 8, 20⟩,
  ⟨SMP_RING.BASE, .rw, 0, 0, 4503599627370495⟩,
  ⟨SMP_RING.CONS, .rw, 0, 0, 4294967295⟩,
  ⟨SMP_RING.PROD, .ro, 0, 0, 4294967295⟩]
/-- The field map of CALM_CTL. -/
def rowsCALM_CTL : List FldRow := [
  ⟨CALM_CTL.ARM, .rw, 0, 0, 1⟩,
  ⟨CALM_CTL.SYNC, .rw, 1, 0, 1⟩,
  ⟨CALM_CTL.CHAIN_OUT, .rw, 0, 0, 1⟩,
  ⟨CALM_CTL.CHAIN_IN, .rw, 0, 0, 1⟩,
  ⟨CALM_CTL.DELAY, .rw, 20, 1, 1000⟩,
  ⟨CALM_CTL.SNAP, .rw, 1, 0, 1⟩]
/-- The field map of CALM_STAT. -/
def rowsCALM_STAT : List FldRow := [
  ⟨CALM_STAT.CALM, .ro, 0, 0, 1⟩,
  ⟨CALM_STAT.CAUSE, .ro, 0, 0, 3⟩,
  ⟨CALM_STAT.LATE, .ro, 0, 0, 1⟩,
  ⟨CALM_STAT.EVENT, .ro, 0, 0, 65535⟩,
  ⟨CALM_STAT.TRIG_FT, .ro, 0, 0, 18446744073709551615⟩,
  ⟨CALM_STAT.CALM_FT, .ro, 0, 0, 18446744073709551615⟩]
/-- The field map of SCAN_CTL. -/
def rowsSCAN_CTL : List FldRow := [
  ⟨SCAN_CTL.DIE, .rw, 0, 0, 63⟩,
  ⟨SCAN_CTL.SPACE, .rw, 0, 0, 15⟩,
  ⟨SCAN_CTL.UE, .w1c, 0, 0, 1⟩,
  ⟨SCAN_CTL.ADDR, .rw, 0, 0, 281474976710655⟩,
  ⟨SCAN_CTL.SIZE, .ro, 0, 0, 281474976710655⟩]
/-- The field map of DOM_RIGHTS. -/
def rowsDOM_RIGHTS : List FldRow := [
  ⟨DOM_RIGHTS.FABRIC, .rw, 0, 0, 1⟩,
  ⟨DOM_RIGHTS.TELEMETRY, .rw, 0, 0, 1⟩,
  ⟨DOM_RIGHTS.PART, .rw, 0, 0, 1⟩,
  ⟨DOM_RIGHTS.SKIP0, .rw, 0, 0, 1⟩,
  ⟨DOM_RIGHTS.SKIP1, .rw, 0, 0, 1⟩,
  ⟨DOM_RIGHTS.EN, .rw, 0, 0, 1⟩]
/-- The field map of RING_REC. -/
def rowsRING_REC : List FldRow := [
  ⟨RING_REC.PSEQ, .ro, 0, 0, 4294967295⟩,
  ⟨RING_REC.STATUS, .ro, 0, 0, 15⟩,
  ⟨RING_REC.REASON, .ro, 0, 0, 255⟩,
  ⟨RING_REC.STATE, .ro, 0, 0, 3⟩,
  ⟨RING_REC.LATE, .ro, 0, 0, 1⟩,
  ⟨RING_REC.WORD, .ro, 0, 0, 65535⟩,
  ⟨RING_REC.E_FT, .ro, 0, 0, 18446744073709551615⟩,
  ⟨RING_REC.FIRST, .ro, 0, 0, 4294967295⟩]
/-- The field map of PROFILE_STAT. -/
def rowsPROFILE_STAT : List FldRow := [
  ⟨PROFILE_STAT.PSEL, .ro, 0, 0, 3⟩,
  ⟨PROFILE_STAT.LOADED, .ro, 0, 0, 3⟩,
  ⟨PROFILE_STAT.VALID, .ro, 0, 0, 1⟩,
  ⟨PROFILE_STAT.FAILED, .w1c, 0, 0, 1⟩,
  ⟨PROFILE_STAT.REASON, .ro, 0, 0, 255⟩]
/-- The field map of SENS_CAL. -/
def rowsSENS_CAL : List FldRow := [
  ⟨SENS_CAL.F_OFF, .ro, 0, 0, 4095⟩,
  ⟨SENS_CAL.U_OFF, .rw, 0, 0, 4095⟩,
  ⟨SENS_CAL.E_OFF, .ro, 0, 0, 4095⟩,
  ⟨SENS_CAL.CLAMPED, .ro, 0, 0, 1⟩]
/-- The field map of START_STAT. -/
def rowsSTART_STAT : List FldRow := [
  ⟨START_STAT.PHASE, .ro, 0, 0, 7⟩,
  ⟨START_STAT.FABRIC_READY, .ro, 0, 0, 1⟩,
  ⟨START_STAT.CAUSE, .ro, 0, 0, 15⟩,
  ⟨START_STAT.READY_MS, .ro, 0, 0, 4294967295⟩]
/-- The field map of DOM_STAT. -/
def rowsDOM_STAT : List FldRow := [
  ⟨DOM_STAT.STATE, .ro, 0, 0, 3⟩,
  ⟨DOM_STAT.PINNED, .ro, 0, 0, 1⟩,
  ⟨DOM_STAT.FAILED, .ro, 0, 0, 1⟩,
  ⟨DOM_STAT.WAKES, .ro, 0, 0, 4294967295⟩]
/-- The field map of COCOON_CTL. -/
def rowsCOCOON_CTL : List FldRow := [
  ⟨COCOON_CTL.LUNA_EN, .rw, 1, 0, 1⟩,
  ⟨COCOON_CTL.LUNA_AFTER, .rw, 50, 1, 1000⟩,
  ⟨COCOON_CTL.WAKE_AT, .rw, 8, 1, 15⟩,
  ⟨COCOON_CTL.PORT_EN, .rw, 1, 0, 1⟩,
  ⟨COCOON_CTL.SKIP_EN, .rw, 1, 0, 1⟩]
/-- The field map of LUNA_DVFS. -/
def rowsLUNA_DVFS : List FldRow := [
  ⟨LUNA_DVFS.FREQ, .rw, 20, 8, 22⟩,
  ⟨LUNA_DVFS.REQ_MV, .ro, 800, 0, 1023⟩,
  ⟨LUNA_DVFS.CUR_FREQ, .ro, 20, 0, 31⟩,
  ⟨LUNA_DVFS.BUSY, .ro, 0, 0, 1⟩]
/-- The field map of GOV_CTL. -/
def rowsGOV_CTL : List FldRow := [
  ⟨GOV_CTL.EN, .rw, 1, 0, 1⟩,
  ⟨GOV_CTL.LIMIT, .rw, 100, 10, 1000⟩,
  ⟨GOV_CTL.IDLE_RESV, .rw, 1, 0, 1⟩]
/-- The field map of GOV_STAT. -/
def rowsGOV_STAT : List FldRow := [
  ⟨GOV_STAT.G, .ro, 0, 0, 4095⟩,
  ⟨GOV_STAT.D, .ro, 0, 0, 4095⟩,
  ⟨GOV_STAT.PAD, .ro, 0, 0, 4095⟩,
  ⟨GOV_STAT.HOLDING, .ro, 0, 0, 1⟩]
/-- The field map of ALERT_STAT. -/
def rowsALERT_STAT : List FldRow := [
  ⟨ALERT_STAT.THERMAL, .w1c, 0, 0, 1⟩,
  ⟨ALERT_STAT.DVFS, .w1c, 0, 0, 1⟩,
  ⟨ALERT_STAT.GOV, .w1c, 0, 0, 1⟩,
  ⟨ALERT_STAT.EVENT, .w1c, 0, 0, 1⟩]
/-- The field map of DEVICE_ID. -/
def rowsDEVICE_ID : List FldRow := [
  ⟨DEVICE_ID.PART, .ro, 2569, 0, 65535⟩,
  ⟨DEVICE_ID.REV_BASE, .ro, 0, 0, 15⟩,
  ⟨DEVICE_ID.REV_METAL, .ro, 0, 0, 15⟩]
/-- The field map of LOG_SEQ. -/
def rowsLOG_SEQ : List FldRow := [
  ⟨LOG_SEQ.SEQ, .ro, 0, 0, 18446744073709551615⟩]
/-- The field map of SEC_CAP. -/
def rowsSEC_CAP : List FldRow := [
  ⟨SEC_CAP.PEN, .ro, 47073, 0, 4294967295⟩,
  ⟨SEC_CAP.DEBUG, .ro, 0, 0, 1⟩]
/-- The field map of THERM_CFG. -/
def rowsTHERM_CFG : List FldRow := [
  ⟨THERM_CFG.WARN, .rw, 1680, 1280, 1760⟩]
/-- The field map of CHAIN_STAT. -/
def rowsCHAIN_STAT : List FldRow := [
  ⟨CHAIN_STAT.POS, .ro, 0, 0, 63⟩,
  ⟨CHAIN_STAT.HEAD, .ro, 0, 0, 1⟩,
  ⟨CHAIN_STAT.UP, .ro, 0, 0, 1⟩,
  ⟨CHAIN_STAT.DELAY, .ro, 0, 0, 65535⟩]
/-- The field map of MCG_PORTS. -/
def rowsMCG_PORTS : List FldRow := [
  ⟨MCG_PORTS.PORTS, .rw, 0, 0, 18446744073709551615⟩]
/-- The field map of MIRROR_PORTS. -/
def rowsMIRROR_PORTS : List FldRow := [
  ⟨MIRROR_PORTS.PORTS, .rw, 0, 0, 18446744073709551615⟩]
/-- The field map of PPS_IN_EDGE. -/
def rowsPPS_IN_EDGE : List FldRow := [
  ⟨PPS_IN_EDGE.FT, .ro, 0, 0, 18446744073709551615⟩]
/-- The field map of CALM_TRIG. -/
def rowsCALM_TRIG : List FldRow := [
  ⟨CALM_TRIG.EVENT, .rw, 0, 0, 65535⟩,
  ⟨CALM_TRIG.EN, .rw, 0, 0, 1⟩]
/-- The field map of LUNA_CORE_MAP. -/
def rowsLUNA_CORE_MAP : List FldRow := [
  ⟨LUNA_CORE_MAP.PHYS, .ro, 0, 0, 1023⟩,
  ⟨LUNA_CORE_MAP.VALID, .ro, 0, 0, 1⟩]
/-- The field map of LUNA_SVC. -/
def rowsLUNA_SVC : List FldRow := [
  ⟨LUNA_SVC.SHADOW_CHUNKS, .rw, 4096, 1, 65535⟩]
/-- The field map of HOST_STAT. -/
def rowsHOST_STAT : List FldRow := [
  ⟨HOST_STAT.TX_ERR, .ro, 0, 0, 15⟩,
  ⟨HOST_STAT.TX_HALT, .ro, 0, 0, 1⟩]
/-- The field map of RT_INDEX. -/
def rowsRT_INDEX : List FldRow := [
  ⟨RT_INDEX.TABLE, .rw, 0, 0, 1⟩,
  ⟨RT_INDEX.SET, .rw, 0, 0, 15⟩,
  ⟨RT_INDEX.ENTRY, .rw, 0, 0, 4095⟩]
/-- The field map of KS_INDEX. -/
def rowsKS_INDEX : List FldRow := [
  ⟨KS_INDEX.SLOT, .rw, 0, 0, 8191⟩]
/-- The field map of CTX_INDEX. -/
def rowsCTX_INDEX : List FldRow := [
  ⟨CTX_INDEX.TABLE, .rw, 0, 0, 1⟩,
  ⟨CTX_INDEX.INDEX, .rw, 0, 0, 262143⟩]
/-- The field map of PORT_CFG. -/
def rowsPORT_CFG : List FldRow := [
  ⟨PORT_CFG.PLANE, .rw, 0, 0, 15⟩,
  ⟨PORT_CFG.EN, .rw, 0, 0, 1⟩,
  ⟨PORT_CFG.WIDTH, .rw, 0, 0, 3⟩,
  ⟨PORT_CFG.UP, .ro, 0, 0, 1⟩,
  ⟨PORT_CFG.FIRST_LANE, .rw, 0, 0, 31⟩]
/-- The field map of MB_CTL. -/
def rowsMB_CTL : List FldRow := [
  ⟨MB_CTL.GO, .w1s, 0, 0, 1⟩,
  ⟨MB_CTL.REQ_LEN, .rw, 0, 0, 8191⟩]
/-- The field map of MB_STAT. -/
def rowsMB_STAT : List FldRow := [
  ⟨MB_STAT.BUSY, .ro, 0, 0, 1⟩,
  ⟨MB_STAT.DONE, .w1c, 0, 0, 1⟩,
  ⟨MB_STAT.RSP_LEN, .ro, 0, 0, 8191⟩,
  ⟨MB_STAT.ERR, .w1c, 0, 0, 1⟩]
/-- The field map of RING_CTL. -/
def rowsRING_CTL : List FldRow := [
  ⟨RING_CTL.EN, .rw, 0, 0, 1⟩,
  ⟨RING_CTL.FLUSH, .w1s, 0, 0, 1⟩]
/-- The field map of RING_TAIL. -/
def rowsRING_TAIL : List FldRow := [
  ⟨RING_TAIL.TAIL, .rw, 0, 0, 4294967295⟩]
/-- The field map of RING_HEAD. -/
def rowsRING_HEAD : List FldRow := [
  ⟨RING_HEAD.HEAD, .ro, 0, 0, 4294967295⟩]
/-- The field map of RING_PSEQ. -/
def rowsRING_PSEQ : List FldRow := [
  ⟨RING_PSEQ.PSEQ, .ro, 0, 0, 4294967295⟩]
/-- The field map of RING_RD. -/
def rowsRING_RD : List FldRow := [
  ⟨RING_RD.VALUE, .ro, 0, 0, 18446744073709551615⟩]
/-- The field map of RING_WORD. -/
def rowsRING_WORD : List FldRow := [
  ⟨RING_WORD.W0, .rw, 0, 0, 18446744073709551615⟩,
  ⟨RING_WORD.W1, .rw, 0, 0, 18446744073709551615⟩]
/-- The field map of SIDE_MAP. -/
def rowsSIDE_MAP : List FldRow := [
  ⟨SIDE_MAP.BITS, .rw, 0, 0, 18446744073709551615⟩]

/-- The field map of a register. -/
def fieldMap : Reg → List FldRow
  | .dieInfo => rowsDIE_INFO
  | .lcEntry => rowsLC_ENTRY
  | .cwCtrl => rowsCW_CTRL
  | .cwMember => rowsCW_MEMBER
  | .fwdCtrl => rowsFWD_CTRL
  | .bufCarve => rowsBUF_CARVE
  | .partBuf => rowsPART_BUF
  | .mcgCtl => rowsMCG_CTL
  | .mcgIndex => rowsMCG_INDEX
  | .mirrorMatch => rowsMIRROR_MATCH
  | .mirrorDest => rowsMIRROR_DEST
  | .sampleCtl => rowsSAMPLE_CTL
  | .partRt => rowsPART_RT
  | .route => rowsROUTE
  | .pgroup => rowsPGROUP
  | .portArb => rowsPORT_ARB
  | .portCmark => rowsPORT_CMARK
  | .partShape => rowsPART_SHAPE
  | .cmapCtl => rowsCMAP_CTL
  | .cmapTime => rowsCMAP_TIME
  | .cmapRec => rowsCMAP_REC
  | .lunaCtx => rowsLUNA_CTX
  | .lunaMember => rowsLUNA_MEMBER
  | .oebId => rowsOEB_ID
  | .ctxCfg => rowsCTX_CFG
  | .oebCfg => rowsOEB_CFG
  | .expBase => rowsEXP_BASE
  | .expSize => rowsEXP_SIZE
  | .collRx => rowsCOLL_RX
  | .xlatCfg => rowsXLAT_CFG
  | .xlatFault => rowsXLAT_FAULT
  | .apt => rowsAPT
  | .xlatInv => rowsXLAT_INV
  | .xlatInvVa => rowsXLAT_INV_VA
  | .xlatInvStatus => rowsXLAT_INV_STATUS
  | .dmaCfg => rowsDMA_CFG
  | .dmaCh => rowsDMA_CH
  | .eqF => rowsEQ_F
  | .eqU => rowsEQ_U
  | .eqE => rowsEQ_E
  | .portLink => rowsPORT_LINK
  | .linkCfg => rowsLINK_CFG
  | .laneStat => rowsLANE_STAT
  | .gwCtrl => rowsGW_CTRL
  | .gwRegion => rowsGW_REGION
  | .hostCfg => rowsHOST_CFG
  | .timeCfg => rowsTIME_CFG
  | .timeAsym => rowsTIME_ASYM
  | .timeStat => rowsTIME_STAT
  | .ppsOutCfg => rowsPPS_OUT_CFG
  | .portBind => rowsPORT_BIND
  | .portPset => rowsPORT_PSET
  | .partSec => rowsPART_SEC
  | .ksInfo => rowsKS_INFO
  | .trngStat => rowsTRNG_STAT
  | .foldCtl => rowsFOLD_CTL
  | .foldStat => rowsFOLD_STAT
  | .expelStat => rowsEXPEL_STAT
  | .snapCtl => rowsSNAP_CTL
  | .snapStat => rowsSNAP_STAT
  | .smpRing => rowsSMP_RING
  | .calmCtl => rowsCALM_CTL
  | .calmStat => rowsCALM_STAT
  | .scanCtl => rowsSCAN_CTL
  | .domRights => rowsDOM_RIGHTS
  | .ringRec => rowsRING_REC
  | .profileStat => rowsPROFILE_STAT
  | .sensCal => rowsSENS_CAL
  | .startStat => rowsSTART_STAT
  | .domStat => rowsDOM_STAT
  | .cocoonCtl => rowsCOCOON_CTL
  | .lunaDvfs => rowsLUNA_DVFS
  | .govCtl => rowsGOV_CTL
  | .govStat => rowsGOV_STAT
  | .alertStat => rowsALERT_STAT
  | .deviceId => rowsDEVICE_ID
  | .logSeq => rowsLOG_SEQ
  | .secCap => rowsSEC_CAP
  | .thermCfg => rowsTHERM_CFG
  | .chainStat => rowsCHAIN_STAT
  | .mcgPorts => rowsMCG_PORTS
  | .mirrorPorts => rowsMIRROR_PORTS
  | .ppsInEdge => rowsPPS_IN_EDGE
  | .calmTrig => rowsCALM_TRIG
  | .lunaCoreMap => rowsLUNA_CORE_MAP
  | .lunaSvc => rowsLUNA_SVC
  | .hostStat => rowsHOST_STAT
  | .rtIndex => rowsRT_INDEX
  | .ksIndex => rowsKS_INDEX
  | .ctxIndex => rowsCTX_INDEX
  | .portCfg => rowsPORT_CFG
  | .mbCtl => rowsMB_CTL
  | .mbStat => rowsMB_STAT
  | .ringCtl => rowsRING_CTL
  | .ringTail => rowsRING_TAIL
  | .ringHead => rowsRING_HEAD
  | .ringPseq => rowsRING_PSEQ
  | .ringRd => rowsRING_RD
  | .ringWord => rowsRING_WORD
  | .sideMap => rowsSIDE_MAP

/-- The rows of one word of a register. -/
def fieldsOf (r : Reg) (word : Nat) : List FldRow := (fieldMap r).filter fun x => x.fld.word = word

/-- The key of word `w` of entry `i` of register `r` in a register file. -/
def regKey (r : Reg) (i w : Nat) : Nat := (r.ctorIdx * 2 ^ 20 + i) * 2 ^ 7 + w

/-- The word the field map's reset column gives. -/
def mapReset (r : Reg) (word : Nat) : Nat :=
  (fieldsOf r word).foldl (fun a x => a + x.reset * 2 ^ x.fld.lo) 0

/-- The bits of a word that fields cover; every other bit is rsv (R5). -/
def fieldMask (r : Reg) (word : Nat) : Nat :=
  (fieldsOf r word).foldl (fun a x => a + (2 ^ x.fld.len - 1) * 2 ^ x.fld.lo) 0

end Sys2Proof.Machine
end

