-- ==== Sys2Proof/Machine/RegReset.lean ====
section
/-! DEFINITION. What every register word holds at reset: the reset column of its field map, and the resets that the
spec states by entry (the die roles, the fused fields, the seeds, the rights of domain 0, the lane map). -/

namespace Sys2Proof.Machine

/-- The regions that GW_REGION has an entry for (Table 14-2). -/
def gwRegions : List Nat := (List.range 14).map (1 + ·)

/-- The role of die `n` (R13, Table 1-1). -/
def dieRole (n : Nat) : Nat :=
  if n < 36 then 0 else if n < 52 then 1 else if n < 60 then 2 else if n < 62 then 3 else 4

/-- The stepping of die `n` of DLV-OX9A-B1: base, metal (Table 0-6). -/
def dieStep (n : Nat) : Nat × Nat :=
  match dieRole n with
  | 0 => (1, 0)
  | 1 => (1, 1)
  | 2 => (1, 1)
  | 3 => (0, 2)
  | _ => (1, 1)

/-- The spares a die shipped without factory repair holds: two lane sites, eight cores (R25; log entry 2, DESIGN CHOICE). -/
def dieSpares (n : Nat) : Nat :=
  match dieRole n with
  | 0 => 2
  | 2 => 8
  | _ => 0

/-- DIE_INFO of die `n` at reset (Tables 1-2, 0-6; log entry 2, DESIGN CHOICE). -/
def dieInfoReset (n : Nat) : Nat :=
  n + dieRole n * 2 ^ 6 + (dieStep n).1 * 2 ^ 16 + (dieStep n).2 * 2 ^ 20 + dieSpares n * 2 ^ 40

/-- LANE_STAT of site `t` at reset: site 18n + k carries lane 16n + k, the last two sites of a die are its spares
(chapter 1; Table 13-9; log entry 10, DESIGN CHOICE). -/
def laneStatReset (t : Nat) : Nat :=
  if t % 18 < 16 then (16 * (t / 18) + t % 18) * 2 ^ 13 + 2 ^ 23 else 2 ^ 24

/-- LUNA_CORE_MAP entry `100k + i` as fused: the first hundred cores of the die (R462; log entry 2, DESIGN CHOICE). -/
def coreMapReset (l : Nat) : Nat := (108 * (l / 100) + l % 100) + 2 ^ 10

/-- A signed sum clamped to `lo` and `hi`: the value and whether it was clamped. -/
def clampSum (x lo hi : Int) : Int × Bool := (clampInt x lo hi, decide (x < lo) || decide (hi < x))

/-- EQ_E of a site: the sum of its EQ_F and its lane's EQ_U, each field clamped, then MAIN lowered (R300, Table 13-2). -/
def eqDerive (f u : Nat) : Nat :=
  let p2 := clampSum (signed 6 f + signed 6 u) (-4) 0
  let p1 := clampSum (signed 6 (f / 2 ^ 6) + signed 6 (u / 2 ^ 6)) (-16) 0
  let mn := clampSum ((bits f 12 6 : Int) + signed 6 (u / 2 ^ 12)) 23 63
  let po := clampSum (signed 6 (f / 2 ^ 18) + signed 6 (u / 2 ^ 18)) (-20) 0
  let ct := clampSum ((bits f 24 4 : Int) + signed 4 (u / 2 ^ 24)) 0 15
  let vg := clampSum ((bits f 28 4 : Int) + signed 4 (u / 2 ^ 28)) 0 15
  let df := clampSum ((bits f 32 5 : Int) + signed 5 (u / 2 ^ 32)) 0 31
  let top := 63 + p2.1 + p1.1 + po.1
  let low := min mn.1 top
  let any := p2.2 || p1.2 || mn.2 || po.2 || ct.2 || vg.2 || df.2 || decide (top < mn.1)
  unsigned 6 p2.1 + unsigned 6 p1.1 * 2 ^ 6 + unsigned 6 low * 2 ^ 12 + unsigned 6 po.1 * 2 ^ 18 +
    unsigned 4 ct.1 * 2 ^ 24 + unsigned 4 vg.1 * 2 ^ 28 + unsigned 5 df.1 * 2 ^ 32 + any.toNat * 2 ^ 37

/-- EQ_F of a site at reset: each field of the fused trim within its range of Table 13-2, rsv zero (R5, R489). -/
def eqFused (i : Nat) : Nat :=
  let x := (Config.eqFactory i).toNat
  let pick (k m : Nat) : Nat := x / 2 ^ (6 * k) % m
  unsigned 6 (-(pick 0 5 : Int)) + unsigned 6 (-(pick 1 17 : Int)) * 2 ^ 6 + (23 + pick 2 41) * 2 ^ 12 +
    unsigned 6 (-(pick 3 21 : Int)) * 2 ^ 18 + pick 4 16 * 2 ^ 24 + pick 5 16 * 2 ^ 28 + pick 6 32 * 2 ^ 32

/-- The word `w` of entry `i` of register `r` at reset. -/
def regReset (r : Reg) (i w : Nat) : Word :=
  match r with
  | .dieInfo => BitVec.ofNat 64 (dieInfoReset i)
  | .deviceId => BitVec.ofNat 64 (0x0A09 + 2 ^ 16 + 2 ^ 20)
  | .laneStat => BitVec.ofNat 64 (laneStatReset i)
  | .lunaCoreMap => BitVec.ofNat 64 (coreMapReset i)
  | .sampleCtl => BitVec.ofNat 64 (0x0A * 2 ^ 2 + (i + 1) * 2 ^ 32)
  | .domRights => BitVec.ofNat 64 (if i = 0 then 0x3F else 0)
  | .eqF => BitVec.ofNat 64 (eqFused i)
  | .eqE => BitVec.ofNat 64 (eqDerive (eqFused i) 0)
  | .sensCal => (Config.sensFactory i).zeroExtend 64
  | .trngStat => (Config.trngCuts i).zeroExtend 64 <<< 36
  | _ => BitVec.ofNat 64 (mapReset r w)

end Sys2Proof.Machine
end

