-- ==== Sys2Proof/Machine/State.lean ====
section
/-! DEFINITION. The state of the block: one OX9 and the two OEBs of one accelerator, as plain data; the reasons a step
can stop; the state right after reset. -/

namespace Sys2Proof.Machine

/-! ### Why a step can stop -/

/-- Faults. -/
inductive Fault where
  /-- A nonzero value written to an rsv field, whose effect R5 leaves undefined. Raised by no command: REGISTER_WRITE goes on,
  with a free value in the register's named bits (log entry 18, DESIGN CHOICE). -/
  | rsvWritten
deriving DecidableEq, Repr

/-- Refusals. -/
inductive Refusal where
  /-- The command has no meaning yet: raised by its arm in Dispatch.lean alone. Safe. -/
  | notModelled (mnemonic : String)
deriving DecidableEq, Repr

/-! ### Events (chapter 17) -/

/-- A raised event (R375): its origin, the fields it names, its arguments (each wide or narrow, R467). -/
structure Event where
  code : EvCode
  folded : Bool
  ft : Nat
  qual : Nat
  die : Nat
  part : Option Nat
  okind : Nat
  origin : Nat
  oep : Option Nat
  srcEp : Option Nat
  dstEp : Option Nat
  args : List (Bool × Nat)
deriving DecidableEq, Repr

/-- An open fold entry (R376, R377). `winFt` is the ft of the last event counted in it. -/
structure FoldEntry where
  code : EvCode
  okind : Nat
  origin : Nat
  oep : Option Nat
  cause : Bool
  qual : Nat
  die : Nat
  part : Option Nat
  firstFt : Nat
  openFt : Nat
  winFt : Nat
  count : Nat
  conseq : Nat
  firstConseq : Nat
  sources : List Nat
  firstSeq : Nat
  foldWin : Nat
  maxSpan : Nat
deriving DecidableEq, Repr

/-- The fault folder of a unit with its log: events in flight to it, which a failover holds and folds afterwards (R389),
the log ring by slot (each record its eight words), the open entries. -/
structure EventSys where
  raised : List Event
  log : SMap (List Nat)
  entries : List FoldEntry
deriving DecidableEq, Repr

/-! ### Fabric time (chapter 15) -/

/-- The last valid marker of a port or chain link. -/
structure Marker where
  rxFt : Nat
  qual : Nat
  hops : Nat
  up : Bool
  rate : Int
deriving DecidableEq, Repr

/-- The time unit of an OX9 or an OEB. `loc` is its local clock in units of 0.4 ns, which no step or slew moves (R352). `frac`, `r` and `ppsSlewed` count 2^-32 ft (R334, R341); `ppsOut` holds for each
output the number of its last edge, the ft of it and its level. -/
structure TimeUnit where
  ft : Nat
  loc : Nat
  frac : Nat
  r : Int
  hist : List Int
  markers : SMap (Option Marker)
  freq : Int
  heldQual : Nat
  demotedFt : Option Nat
  ppsPrevFt : Option Nat
  ppsPrevE : Option Int
  ppsSlewed : Int
  ppsGood : Nat
  ppsOut : List (Nat × Nat × Bool)
deriving DecidableEq, Repr

/-- What an OX9 and an OEB each hold: the register file, the counter file, the time unit, the folder. -/
structure UnitSt where
  regs : SMap Word
  ctrs : SMap Nat
  time : TimeUnit
  events : EventSys
deriving DecidableEq, Repr

/-- A unit's time right after reset (R334). -/
def TimeUnit.reset : TimeUnit :=
  { ft := 0, loc := 0, frac := 0, r := 0, hist := [], markers := [], freq := 0, heldQual := 0, demotedFt := none
    ppsPrevFt := none, ppsPrevE := none, ppsSlewed := 0, ppsGood := 0, ppsOut := [(0, 0, false), (0, 0, false)] }

/-- A folder right after reset. -/
def EventSys.reset : EventSys := { raised := [], log := [], entries := [] }

/-- A unit right after reset. -/
def UnitSt.reset : UnitSt := { regs := [], ctrs := [], time := .reset, events := .reset }

/-! ### Forwarding (chapters 5 and 6) -/

/-- Where a packet in the forwarding core goes (Table 5-2). -/
inductive Dest where
  | port (p : Nat)
  | luna (d : Nat)
  | skip (k : Nat)
  | bank (b : Nat)
  | monarch
deriving DecidableEq, Repr

/-- Why a packet is held at ingress (R53, R110, R114, R146, R322, R323, R452), that no cells of its VC's reserve or of the
remainder are free (R109), that its bank's wait queue is full (R90), or that it waits behind one that is held. -/
inductive HoldWhy where
  | quota | room | shape | tracking | reservation | governor | skipper | remote | bank | behind
deriving DecidableEq, Repr

/-- How much of a packet has come: whether its EOP cell has, whether its tail carries BAD, whether it came so, the cells that
have arrived, the cause of TAIL_MARK where there is one (log entry 24), what the reads of its cells found where a die takes
it. -/
structure Tail where
  eop : Bool
  bad : Bool
  inBad : Bool
  cells : Nat
  cause : Nat
  reads : List (Nat × SramRead)
deriving DecidableEq, Repr

/-- The pools a packet's cells are charged to (R109): its partition, or a VC's reserve and the shared remainder, or the
reservation of a tracking entry (R110). -/
inductive Charge where
  | part (p : Nat)
  | vc (v reserve shared : Nat)
  | resv
deriving DecidableEq, Repr

/-- A packet stored in the buffer: its stripe list (R106), how much of it has come, the copies still to leave, the members
still to receive copies in OX7 mode (R120) and whether they wait, the die that takes it where no port does. -/
structure BufPkt where
  pid : Nat
  pkt : Packet
  src : Entry
  cells : Nat
  stripe : List Nat
  tail : Tail
  copies : Nat
  ox7 : List Nat
  charge : Charge
  wait : Bool
  dest : Option Dest
deriving DecidableEq, Repr

/-- An entry of an egress queue: the packet, whether it may start before its EOP cell (R107), whether its first flit may
leave (R116), the cells sent, the ft since which the next cell is awaited (R108). -/
structure Copy where
  pid : Nat
  cut : Bool
  started : Bool
  sent : Nat
  since : Nat
deriving DecidableEq, Repr

/-- What stages 2 and 3 find for a packet. A group comes with its mode and with its ports but for the pruned one, each with
whether it permits the packet's partition (R118, R120, R356). -/
inductive Target where
  | uni (d : Dest)
  | group (g : Nat) (ox7 : Bool) (ports : List (Nat × Bool))
  | noRoute
  | cwOff
  | noTransit (k : Nat)
deriving DecidableEq, Repr

/-- A packet held at ingress: how much of it has come; what stages 2 and 3 found for it, which it keeps (R132, R322, R426),
the age limit and whether its partition was shaped then; whether its shaper tokens are taken (R146); the cells it already
has, a synthesised response those of its request's reservation (R110); the reasons it has been counted as held for. -/
structure Held where
  src : Entry
  pkt : Packet
  tail : Tail
  why : HoldWhy
  target : Option Target
  limit : Nat
  shape : Bool
  paid : Bool
  pre : Option Charge
  noted : List HoldWhy
deriving DecidableEq, Repr

/-- An entry of tracking bank `bank`, 0 to 15 (R53, chapter 17). `egress` is none where the request went to a die. -/
structure Track where
  bank : Nat
  srcEp : Nat
  tag : Nat
  part : Nat
  opcode : Nat
  addr : Nat
  ingress : Entry
  egress : Option Nat
  resv : Nat
  resvShared : Nat
  rspIn : Bool
  hdr : Header
deriving DecidableEq, Repr

/-- An entry of a port's echo cache, or an echo that waits (R143). -/
structure Echo where
  dst : Nat
  vc : Nat
  level : Nat
  sentFt : Nat
deriving DecidableEq, Repr

/-- A sample in the Monarch's buffer (Table 18-6). -/
structure Sample where
  ft : Nat
  port : Nat
  egress : Bool
  part : Nat
  pktLen : Nat
  qual : Nat
  drops : Nat
  bytes : List Byte
deriving DecidableEq, Repr

/-- The forwarding core. `coming` counts the requests admitted that have not reached directory bank b (by b), the segments that
have not reached Skipper k (by 16 + k) and those of them for its remote table (by 18 + k) (R90, R322, R323); `lastGov` is the die whose packet the governor's holds released last (R452). -/
structure Fwd where
  nextPid : Nat
  bufs : List BufPkt
  queues : SMap (List Copy)
  held : List Held
  stripePtr : SMap Nat
  groupPtr : SMap Nat
  grants : SMap Nat
  used : SMap Nat
  rsv1 : Nat
  rsv4 : Nat
  rsv5 : Nat
  sharedVc : Nat
  grantReqs : List (Nat × Nat)
  tokenReqs : List (Nat × Nat)
  lastGrant : SMap Nat
  lastToken : SMap Nat
  level : SMap Int
  tokens : SMap Int
  tracks : List Track
  coming : SMap Nat
  lastGov : Nat
deriving DecidableEq, Repr

/-- The observers of the forwarding core: echoes, selectors, sample buffer, mirror sessions, the map being built with the
ports that have starved in the present unit of 256 ft. -/
structure Obs where
  echoCache : SMap (List Echo)
  echoPend : SMap (List Echo)
  echoSlots : SMap Nat
  lfsr : SMap Nat
  samples : List Sample
  sampleDrops : SMap Nat
  sampleWin : Nat
  sampleCount : Nat
  mirrorRec : SMap Nat
  mirrorDrops : SMap Nat
  cmapOn : Bool
  cmapPeriod : Nat
  cmapIdx : Nat
  starved : List Nat
deriving DecidableEq, Repr

/-- The slices in service (R18, R105, R387, R388): the active list, the live spare, for each tracking and directory bank the
slice die whose bank set holds it (16: none, R29), the directory banks whose lines were lost, the migrations asked for (the
first in progress), the freeze of grants. -/
structure SliceSt where
  active : List Nat
  spare : Option Nat
  bankHost : List Nat
  lostDir : List Nat
  migrating : List Nat
  frozen : Bool
deriving DecidableEq, Repr

/-- The forwarding core right after reset. -/
def Fwd.reset : Fwd :=
  { nextPid := 0, bufs := [], queues := [], held := [], stripePtr := [], groupPtr := [], grants := [], used := []
    rsv1 := 0, rsv4 := 0, rsv5 := 0, sharedVc := 0, grantReqs := [], tokenReqs := [], lastGrant := [], lastToken := []
    level := [], tokens := [], tracks := [], coming := [], lastGov := 63 }

/-- The observers right after reset. -/
def Obs.reset : Obs :=
  { echoCache := [], echoPend := [], echoSlots := [], lfsr := [], samples := [], sampleDrops := [], sampleWin := 0
    sampleCount := 0, mirrorRec := [], mirrorDrops := [], cmapOn := false, cmapPeriod := 100, cmapIdx := 0
    starved := [] }

/-- The slices right after reset: 0 to 14 active, 15 the live spare, each die its own banks (chapter 1). -/
def SliceSt.reset : SliceSt :=
  { active := List.range 15, spare := some 15, bankHost := List.range 16, lostDir := [], migrating := []
    frozen := false }

/-! ### The Common-window directory (chapter 4) -/

/-- The states of a line that has an entry (Table 4-4). -/
inductive CwSt where
  | s | m | bFetch | bInv | bRecall | bWb
deriving DecidableEq, Repr

/-- A directory entry: the line's address, its state, owner, sharer vector, when it was last used; of an open
transaction: the request served (none for an eviction), the members whose INV_ACK is awaited, the home data held, whether
a request went to the home, whether the writeback is the bank's own, whether the owner answered NOT_HELD (R93), the ft at
which its snoops left (R98). -/
structure CwLine where
  addr : Nat
  st : CwSt
  owner : Nat
  sharers : List Nat
  used : Nat
  req : Option Packet
  acks : List Nat
  data : Option Packet
  asked : Bool
  poison : Bool
  notHeld : Bool
  since : Nat
deriving DecidableEq, Repr

/-- A directory bank: its lines in a state other than I, its wait queue (R92), the writebacks that wait for a place among
its open transactions (R96), its rotating pointer (R91), its use counter, whether all its lines are to go (R84). -/
structure CwBank where
  lines : List CwLine
  queue : List Packet
  wbs : List Packet
  ptr : Nat
  clock : Nat
  flush : Bool
deriving DecidableEq, Repr

/-- A bank right after reset: every line in state I. -/
def CwBank.reset : CwBank := { lines := [], queue := [], wbs := [], ptr := 0, clock := 0, flush := false }


/-! ### Links (chapter 13) -/

/-- One end of a link. `st` is its state of Table 13-4, `cause` its LAST_CAUSE of Table 13-5. `held` is the replay
buffer, each flit with the times it was sent; `skipHeard` is true until 1 ms after the last SKIP received (R292). -/
structure Link where
  st : Nat
  cause : Nat
  partnerNr : Bool
  skipHeard : Bool
  rxReversed : Bool
  polarity : Nat
  partnerEp : Nat
  partnerRole : Nat
  delay : Nat
  trainCount : Nat
  txIdle : Bool
  e : Nat
  a : Nat
  nak : Bool
  waitE : Bool
  nextFseq : Nat
  lastAck : Nat
  held : List (Flit × Nat)
  replayAck : Option Nat
  replayFt : Nat
  fecRun : Nat
deriving DecidableEq, Repr

/-- A packet in the queue of an OEB port: the flits of it sent, the number of its request (R247). -/
structure TxPkt where
  pkt : Packet
  sent : Nat
  rid : Nat
deriving DecidableEq, Repr

/-- The credits, the arbiter and the training progress of one end of a link: `trainCause` is the cause a timeout will
record, `subs` the spares under check in MARGIN, each with the site it replaces before it and whether it is a candidate of R392
(R301), `ownPass` the lanes that the last own check passed. `tsRun` counts the consecutive valid training sequences of kind
`tsKind`, `tsLast` the bytes of the last one, `tsSent` those sent in CREDIT (R302, R303). `txq` holds the packets an OEB port is
to send (R141, R247). `txRd` is the running disparity of each lane sent, true for positive,
`rxRd` that of each lane received, none until it is known (R289); a lane a list does not reach is negative, or unknown.
`boundary` is the place of the last insert sent since the last flit (R295). -/
structure LinkAux where
  credits : List Nat
  advert : List Nat
  owed : List Nat
  withheld : List Nat
  lastOwed : Nat
  g : Nat
  f : Nat
  wrrVc : Nat
  wrrLeft : Nat
  failRun : Nat
  failCause : Nat
  trainCause : Nat
  ownChecked : Bool
  ownPass : Option Nat
  ts2Ok : Bool
  subs : List (Nat × Nat × Bool)
  tsKind : Nat
  tsRun : Nat
  tsLast : List (List Byte)
  tsSent : Nat
  tsoSent : Nat
  tsoRcvd : Nat
  tsoSentFt : List Nat
  samples : List Int
  breezeFt : Nat
  expectStart : Bool
  txq : List TxPkt
  txRd : List Bool
  rxRd : List (Option Bool)
  boundary : Nat
deriving DecidableEq, Repr

/-- A live lane swap (R313): the port, the old site, the spare and whether it is a candidate of R392, the steps done. -/
structure Swap where
  port : Nat
  old : Nat
  spare : Nat
  cand : Bool
  step : Nat
deriving DecidableEq, Repr

/-- An end of a link right after reset. -/
def Link.reset : Link :=
  { st := 0, cause := 0, partnerNr := false, skipHeard := false, rxReversed := false, polarity := 0, partnerEp := 0
    partnerRole := 0, delay := 0, trainCount := 0, txIdle := false, e := 0, a := 0xFFF, nak := false
    waitE := false, nextFseq := 0, lastAck := 0xFFF, held := [], replayAck := none, replayFt := 0, fecRun := 0 }

/-- The credits and the training progress right after reset. -/
def LinkAux.reset : LinkAux :=
  { credits := [0, 0, 0, 0, 0, 0], advert := [0, 0, 0, 0, 0, 0], owed := [0, 0, 0, 0, 0, 0]
    withheld := [0, 0, 0, 0, 0, 0], lastOwed := 5, g := 0, f := 0, wrrVc := 1, wrrLeft := 0, failRun := 0
    failCause := 0, trainCause := 0, ownChecked := false, ownPass := none, ts2Ok := false, subs := [], tsKind := 0, tsRun := 0
    tsLast := [], tsSent := 0, tsoSent := 0, tsoRcvd := 0, tsoSentFt := [], samples := []
    breezeFt := 0, expectStart := false, txq := [], txRd := [], rxRd := [], boundary := 0 }

/-- The links and the lane sites: every end by its key, the swaps in progress and requested, the erasures of each site
in its current second (R312) and since reset (R296), the layout of the loaded profile (Table 19-10). -/
structure Links where
  ends : SMap Link
  aux : SMap LinkAux
  swaps : List Swap
  swapReqs : List Nat
  erasures : SMap Nat
  erasureWin : SMap Nat
  erasureCount : SMap Nat
  refLost : Bool
  layout : List Nat
  disabled : List Nat
deriving DecidableEq, Repr

/-- The links right after reset: no profile is loaded, every half off. -/
def Links.reset : Links :=
  { ends := [], aux := [], swaps := [], swapReqs := [], erasures := [], erasureWin := [], erasureCount := [], refLost := false
    layout := List.replicate 72 0, disabled := [] }

/-! ### SRAM rows (chapter 1) -/

/-- A row of an SRAM bank. -/
structure RowId where
  die : Nat
  bank : Nat
  row : Nat
deriving DecidableEq, Repr

/-- The SRAM rows: the corrected errors of each row by ft (R32), the rows that need repair, the spare rows used in each
bank, the copies in progress, the rows fenced out (R34), the rows with uncorrectable errors by ft. -/
structure Sram where
  errs : List (RowId × Nat)
  faulty : List RowId
  sparesUsed : SMap Nat
  copying : List RowId
  fenced : List RowId
  uncorr : List (RowId × Nat)
deriving DecidableEq, Repr

/-- The rows right after reset. -/
def Sram.reset : Sram := { errs := [], faulty := [], sparesUsed := [], copying := [], fenced := [], uncorr := [] }

/-- A rate entry of a pair (R144): `r` in 1/256, the level and ft of the last echo applied. -/
structure RateEnt where
  dst : Nat
  vc : Nat
  r : Nat
  lastFt : Nat
  lastLevel : Nat
deriving DecidableEq, Repr

/-! ### The Monarch chain (R417 to R419) -/

/-- A chain link: sequence numbers, frames not yet acknowledged, the delay exchange (R307, R418). -/
structure ChainLink where
  txSeq : Nat
  rxSeq : Nat
  unacked : List (Nat × List Byte)
  dSent : Nat
  dRcvd : Nat
  dSentFt : List Nat
  samples : List Int
  breezeFt : Nat
deriving DecidableEq, Repr

/-- A chain link right after reset. -/
def ChainLink.reset : ChainLink :=
  { txSeq := 0, rxSeq := 255, unacked := [], dSent := 0, dRcvd := 0, dSentFt := [], samples := [], breezeFt := 0 }

/-- The chain: its two links, whether a position has been taken, whether the wait for an ENUM runs, the completion
records that wait for a lost link, the head's mirror of the log records of members (each its link and words 1 to 7). -/
structure Chain where
  link0 : ChainLink
  link1 : ChainLink
  posTaken : Bool
  waiting : Bool
  heldCpl : List (List Byte)
  mirror : List (Nat × List Nat)
deriving DecidableEq, Repr

/-- The chain right after reset. -/
def Chain.reset : Chain :=
  { link0 := .reset, link1 := .reset, posTaken := false, waiting := false, heldCpl := [], mirror := [] }

/-! ### Snapshots and Calm (chapter 18) -/

/-- A snapshot: its header (Table 18-5) and every counter as latched. -/
structure Snap where
  seq : Nat
  oneshot : Bool
  calm : Bool
  late : Bool
  qual : Nat
  ft : Nat
  taken : Nat
  stale : List Nat
  ctrs : SMap Nat
deriving DecidableEq, Repr

/-- The snapshots of a unit: its two buffers (an OEB uses the first), the one being copied, the settings in force, the
number of the last periodic instant, the one-shot instants asked for (R395 to R400). -/
structure SnapSt where
  buf0 : Option Snap
  buf1 : Option Snap
  copying : Option Snap
  en : Bool
  period : Nat
  idx : Nat
  oneShots : List Nat
  seq : Nat
deriving DecidableEq, Repr

/-- The snapshots of a unit right after reset. -/
def SnapSt.reset : SnapSt :=
  { buf0 := none, buf1 := none, copying := none, en := false, period := 1000, idx := 0, oneShots := [], seq := 0 }

/-- Snapshots of the three units, the stop time of a started Calm and whether it came late (R407, R408), the end of the
last Monarch switch in ft and by the local clock (R389). `start` is the ft of the clock of the start recorded, `rank` its place
among the starts of one clock: 0 for a command, 1 + k for trigger k, 9 for a notice. -/
structure Tele where
  ox : SnapSt
  oebA : SnapSt
  oebB : SnapSt
  stop : Option Nat
  late : Bool
  start : Nat
  rank : Nat
  switchFt : Option Nat
  switchEnd : Nat
deriving DecidableEq, Repr

/-- Snapshots and Calm right after reset. -/
def Tele.reset : Tele := { ox := .reset, oebA := .reset, oebB := .reset, stop := none, late := false, start := 0, rank := 9, switchFt := none, switchEnd := 0 }


/-! ### Keys, sessions and random numbers (chapter 16) -/

/-- A key slot that is not empty: its key, the next and the old key of a rotation, the image measurements bound to it, its
device set. Its KIND, PART, STATE and the rest of KS_INFO are in the register file. -/
structure KeySlot where
  key : BitVec 256
  next : Option (BitVec 256)
  old : Option (BitVec 256)
  meas : List (BitVec 384)
  devset : Nat
deriving DecidableEq, Repr

/-- An SPDM session: its number, whether FINISH has established it, the digest of the requester's public key where it
authenticated itself (R364, R365), how often KEY_UPDATE has renewed its keys. -/
structure Session where
  id : Nat
  established : Bool
  owner : Option (BitVec 384)
  updates : Nat
deriving DecidableEq, Repr

/-- The security engine of a unit: key slots, SEQ counters by slot and emitting unit (R48), owners of partitions (R365),
device sets with their owners, sessions, requests that each DRBG has served since its last seed and its seeds, by Monarch die
number at the OX9 (R373); at the OX9 the package key, once drawn (R362, R371). -/
structure KeySec where
  slots : SMap (Option KeySlot)
  seqs : SMap Nat
  owners : SMap (Option (BitVec 384))
  devsets : SMap (Option (Nat × BitVec 384))
  sessions : List Session
  drbgReqs : SMap Nat
  drbgSeeds : SMap Nat
  package : Option (BitVec 256)
deriving DecidableEq, Repr

/-- A security engine right after reset. -/
def KeySec.reset : KeySec :=
  { slots := [], seqs := [], owners := [], devsets := [], sessions := [], drbgReqs := [], drbgSeeds := [], package := none }

/-- The security mailbox of a domain: its request and response buffers (Table 21-10). -/
structure Mailbox where
  req : SMap Byte
  rsp : List Byte
deriving DecidableEq, Repr

/-- A mailbox right after reset. -/
def Mailbox.reset : Mailbox := { req := [], rsp := [] }


/-! ### Flash -/

/-- A unit in the repair log (R390, R391): how often it was withdrawn for a fault found in service, whether it is
permanently retired, whether it is withdrawn now, and whether that withdrawal is one of those counted. -/
structure UnitLog where
  kind : UnitKind
  num : Nat
  times : Nat
  perm : Bool
  out : Bool
  counted : Bool
deriving DecidableEq, Repr

/-- An enrolled program signer (R360): its public key, whether it is revoked. -/
structure Signer where
  key : List Byte
  revoked : Bool
deriving DecidableEq, Repr

/-- The flash contents the OX9 keeps across resets (R438): the expulsion list, each entry its kind and
target; the repair log of rows and of units; the firmware banks and the four profiles, none where as shipped; the signer
records of keys 4 to 15. -/
structure Flash where
  expelled : List (Nat × Nat)
  rowLog : List RowId
  units : List UnitLog
  banks : SMap (Option (List Byte))
  profiles : SMap (Option (List Byte))
  signers : SMap (Option Signer)
deriving DecidableEq, Repr

/-- Flash as shipped. -/
def Flash.reset : Flash := { expelled := [], rowLog := [], units := [], banks := [], profiles := [], signers := [] }

/-! ### Monarch programs (chapter 19) -/

/-- A decoded command (Table 19-6); `bad` is a word refused with FORMAT, with the OP it holds. A command with a payload
holds its host address and its length. -/
inductive Cmd where
  | bad
  | wr (addr v : Nat)
  | blkWr (addr host n : Nat)
  | rd (addr slot : Nat)
  | ctxArm (c : Nat)
  | ctxDisarm (c : Nat)
  | lunaLoad (mask host len : Nat)
  | lunaUnload (prog mask : Nat)
  | profileLoad (n : Nat)
  | profileStore (n host len : Nat)
  | fwStage (host len : Nat)
  | fabricEnable
  | fabricDisable
  | timeSet (ft : Nat)
  | snapAt (ft : Nat)
  | calm
  | calmAt (ft : Nat)
  | signerEnroll (k host : Nat)
  | signerRevoke (k : Nat)
  | expel (host len : Nat)
  | readmit (host len : Nat)
  | monarchSwitch
  | retireUnit (kind num : Nat)
  | serviceTest (kind num : Nat)
  | restoreUnit (kind num : Nat)
  | gwTxResume (k : Nat)
  | commitAt (ft : Nat)
  | nop
deriving DecidableEq, Repr

/-- A command of a program: its word number, its payload, whether the fetch of it failed. -/
structure PCmd where
  word : Nat
  cmd : Cmd
  data : List Byte
  lost : Bool
deriving DecidableEq, Repr

/-- A program taken up (R420 to R425): its domain and number, the ring number of its first word, the words it takes, its
DEV, whether it came by the chain, its commands, its COMMIT_AT, its effective commit time, whether it committed late (R427). -/
structure Prog where
  dom : Nat
  pseq : Nat
  first : Nat
  words : Nat
  dev : Nat
  remote : Bool
  cmds : List PCmd
  commitAt : Nat
  e : Nat
  late : Bool
deriving DecidableEq, Repr

/-- A unit under test or shadow (R390, R392): whether RESTORE_UNIT names it, whether its shadow runs, the program whose
record it holds open (R429). -/
structure UnitTest where
  kind : UnitKind
  num : Nat
  restore : Bool
  shadow : Bool
  owner : Option Prog
deriving DecidableEq, Repr

/-- A payload fetch that the head serves for a member: its number, the member's position, domain, length. -/
structure Relay where
  tag : Nat
  pos : Nat
  dom : Nat
  len : Nat
deriving DecidableEq, Repr

/-- A read request of a payload fetch (R422): the fetch, the function, the address, the length, whether it has been issued. -/
structure HostMrd where
  tag : Nat
  fn : Nat
  addr : Nat
  len : Nat
  sent : Bool
deriving DecidableEq, Repr

/-- The Monarch: the domain last served (R423); the program under check with the words whose payload it awaits; pending
programs in commit order; whether a recheck is due (R427); the tests and shadows in progress; programs sent to members
(R421); words received by CMD frames of a program not complete; fetches served for members; the profile loaded, its
layout and its sections of QUORUM and expulsion keys; the bank booted, and the firmware image each Monarch die booted (Table
16-5); launches held, with their contexts (R430); whether the management port is down since a Monarch switch (R389); the
requests of the fetches in progress, issued or waiting (R422); the CTLs that have come in and those that wait in the queue, each
with its BAD mark (R431). -/
structure Monarch where
  last : Nat
  checking : Option (Prog × List Nat)
  progs : List Prog
  recheck : Bool
  tests : List UnitTest
  sent : List Prog
  inbox : List (Nat × Nat × Nat × Nat × Nat)
  ready : List Prog
  fetched : List Byte
  relays : List Relay
  expelKeys : List (List Byte)
  profile : List Byte
  bank : Nat
  boots : List (Nat × List Byte)
  launches : List (Nat × Header)
  mgmtDown : Bool
  reads : List HostMrd
  ctlIn : List (Packet × Bool)
  ctls : List (Packet × Bool)
deriving DecidableEq, Repr

/-- The Monarch right after reset. -/
def Monarch.reset : Monarch :=
  { last := 7, checking := none, progs := [], recheck := false, tests := [], sent := [], inbox := [], ready := []
    fetched := [], relays := [], expelKeys := [], profile := [], bank := 0, boots := [], launches := [], mgmtDown := false, reads := []
    ctlIn := [], ctls := [] }

/-! ### The endpoint block (chapters 11 and 12) -/

/-- A resolved leaf (R268 to R272): local or fabric, whether its aperture is in use, the output address of its page, the
log2 of its size, what a request through it carries, its permissions, the aperture table it was resolved through. -/
structure Leaf where
  fabric : Bool
  ok : Bool
  base : Nat
  size : Nat
  part : Nat
  enc : Bool
  slot : Nat
  r : Bool
  w : Bool
  atom : Bool
  d : Bool
  glob : Bool
  apt : Option Nat
deriving DecidableEq, Repr

/-- A TLB entry (R263). -/
structure TlbEnt where
  asid : Nat
  page : Nat
  leaf : Leaf
deriving DecidableEq, Repr

/-- A page-walk cache entry: the table that the last level of a 2 MiB region is read from (R263). -/
structure PwcEnt where
  asid : Nat
  page : Nat
  glob : Bool
  table : Nat
deriving DecidableEq, Repr

/-- Who asked for a translation: a part of an attach request; a DMA channel's ring in one of its enablings (R288); the
source or the destination of a descriptor's next burst; a descriptor's record. -/
inductive XWho where
  | part (rid : Nat)
  | ring (ch gen : Nat)
  | src (ch n : Nat)
  | dst (ch n : Nat)
  | crec (ch : Nat)
deriving DecidableEq, Repr

/-- A TLB miss: who asked, the engine, the context, the address, what Table 12-7 asks of the leaf. -/
structure XMiss where
  who : XWho
  eng : Nat
  ctx : Nat
  va : Nat
  need : Nat
deriving DecidableEq, Repr

/-- A page walk in progress (R264, R268, R270); `again` where a purge met it (R275). -/
structure Walk where
  id : Nat
  asid : Nat
  page : Nat
  mode : Nat
  apt : Nat
  root : Nat
  level : Nat
  table : Nat
  glob : Bool
  again : Bool
  waiters : List XMiss
deriving DecidableEq, Repr

/-- What an invalidation's drain waits for (R276). -/
inductive WKey where
  | req (rid : Nat)
  | join (jid : Nat)
  | mem (mid : Nat)
  | burst (ch n off : Nat)
deriving DecidableEq, Repr

/-- A queued invalidation (R274 to R276). -/
structure Inv where
  kind : Nat
  drain : Bool
  asid : Nat
  apt : Nat
  npages : Nat
  va : Nat
  purged : Bool
  waits : List WKey
deriving DecidableEq, Repr

/-- The attach operations that become requests (Table 11-4). -/
inductive Aop where
  | load | store | storeNp | atomic | msg | contrib | getS | getM | upg | wb
deriving DecidableEq, Repr

/-- An AREQ in progress: its descriptor, the parts still open, the worst status so far, VALUE and SUBOP of its ARSP, the
data pieces by offset, whether it has been counted as mis-steered (R239), PART of the translation entry that mapped a
contribution's source (R38). -/
structure Join where
  jid : Nat
  aop : Aop
  d : Areq
  left : Nat
  status : Nat
  value : Nat
  subop : Nat
  data : List (Nat × List Byte)
  acc : Nat
  astray : Bool
  part : Nat
deriving DecidableEq, Repr

/-- What a request or answer belongs to: a part of an AREQ at an offset; a burst of a DMA descriptor, reading its source
(role 0), its destination (1) or writing (2); an answer to an inbound packet. -/
inductive ReqSrc where
  | attach (jid off : Nat)
  | dma (ch n off role : Nat)
  | answer
deriving DecidableEq, Repr

/-- A packet that waits to be issued, or is outstanding. -/
structure Req where
  rid : Nat
  ctx : Nat
  src : ReqSrc
  hdr : Header
  data : List Byte
  acc : Nat
  retries : Nat
  inPort : Option Nat
  plane : Option Nat
deriving DecidableEq, Repr

/-- What an MREQ is for (Table 11-5). -/
inductive MPurp where
  | inRead (pkt : Packet) (q : Nat)
  | inWrite (pkt : Packet) (q : Nat)
  | msg (pkt : Packet)
  | atom (pkt : Packet) (q : Nat) (jid : Option Nat)
  | unlock (ep part ctx : Nat)
  | walk (id : Nat)
  | contrib (jid off : Nat)
  | result (pkt : Packet) (bmapAt : Option Nat)
  | dmaRd (ch n off role : Nat)
  | dmaWr (ch n off : Nat)
  | crec (ch : Nat)
  | ring (ch gen : Nat)
  | snpInv (pkt : Packet) (q : Nat)
  | snpRecall (pkt : Packet) (q : Nat)
  | homeRead (pkt : Packet) (q : Nat)
  | homeWrite (pkt : Packet) (q : Nat)
deriving DecidableEq, Repr

/-- An MREQ without its MRSP; `late` once it has failed (R244). `ctx` is the context whose translation it uses, 1,024 where it
uses none (R276). -/
structure Mreq where
  mid : Nat
  mtag : Nat
  purp : MPurp
  ctx : Nat
  sent : Nat
  late : Bool
deriving DecidableEq, Repr

/-- An MREQ that waits for an MTAG (R244): its purpose, its context as in `Mreq`, address, LEN, POISON, QUEUE and data. -/
structure MreqWait where
  mid : Nat
  purp : MPurp
  ctx : Nat
  addr : Nat
  len : Nat
  poison : Bool
  queue : Nat
  data : List Byte
deriving DecidableEq, Repr

/-- An LC_WAIT, or a DMA completion wait where `dma` holds. -/
structure OWait where
  dma : Bool
  ctx : Nat
  atag : Nat
  idx : Nat
  target : Nat
  deadline : Nat
deriving DecidableEq, Repr

/-- A FENCE_SYS at one OEB (R71): the requests it still waits on, its number in their order, its status. -/
structure Fence where
  ctx : Nat
  atag : Nat
  after : Nat
  rids : List Nat
  status : Nat
deriving DecidableEq, Repr

/-- A journal entry (R256): key, the unit of 256 ft of its AGE_STAMP, STATUS and old value. -/
structure Jent where
  ep : Nat
  tag : Nat
  stamp : Nat
  unit : Nat
  status : Nat
  old : List Byte
deriving DecidableEq, Repr

/-- A burst of a descriptor in progress (R282): what it still waits for, the data read, where it writes, whether its local
write advances its landing counter (R65), whether a read of it has failed. -/
structure Burst where
  off : Nat
  len : Nat
  reads : Nat
  src : List Byte
  dst : List Byte
  out : Leaf
  addr : Nat
  writing : Bool
  adv : Bool
  failed : Bool
deriving DecidableEq, Repr

/-- A fetched descriptor (Table 12-13): its words, whether it has started, the offset of its next burst, its status, its
open bursts, the spans performed, the lowest difference found, the blob being decrypted. -/
structure Desc where
  n : Nat
  words : List Nat
  started : Bool
  next : Nat
  stop : Bool
  status : Nat
  bursts : List Burst
  spans : List (Nat × Nat)
  diff : Option Nat
  plain : Nat
  hdr : List Byte
  seg : Nat
  buf : List (Nat × List Byte)
  wq : List (Nat × List Byte)
  crec : Nat
deriving DecidableEq, Repr

/-- What a channel knows of a translation its next burst needs. -/
inductive XState where
  | none
  | asked
  | got (l : Leaf) (addr : Nat)
deriving DecidableEq, Repr

/-- A DMA channel (R277 to R288); `gen` counts its disablings, so that a fetch in flight at one is not taken after it. -/
structure DmaCh where
  descs : List Desc
  fetching : Bool
  sx : XState
  dx : XState
  ready : Option Nat
  gen : Nat
deriving DecidableEq, Repr

/-- An OEB: caches and walks, requests, its target side, its collective receive state, its DMA engine. -/
structure Oeb where
  l1 : SMap (List TlbEnt)
  l2 : SMap (List TlbEnt)
  pwc : List PwcEnt
  walks : List Walk
  missQ : List XMiss
  xhold : List XMiss
  invQ : List Inv
  nextId : Nat
  joins : List Join
  waiting : List Req
  queue : List Req
  outst : SMap (Option Req)
  posted : List Req
  quar : List (Nat × Nat)
  atomRel : List (Nat × Nat)
  rotPort : Nat
  sent : SMap (List (Nat × Nat))
  mreqs : List Mreq
  mreqQ : List MreqWait
  waits : List OWait
  fences : List Fence
  journal : List Jent
  floor : Option Nat
  atomQ : List (Packet × Nat × Option Nat)
  recalls : List (Packet × Nat)
  lines : SMap (Option (Nat × Bool × Nat))
  windows : SMap (Nat × List Nat)
  chans : SMap DmaCh
  prioPtr : SMap Nat
deriving DecidableEq, Repr

/-- A channel right after reset. -/
def DmaCh.reset : DmaCh := { descs := [], fetching := false, sx := .none, dx := .none, ready := none, gen := 0 }

/-- An OEB right after reset. -/
def Oeb.reset : Oeb :=
  { l1 := [], l2 := [], pwc := [], walks := [], missQ := [], xhold := [], invQ := [], nextId := 0, joins := [], waiting := []
    queue := [], outst := [], posted := [], quar := [], atomRel := [], rotPort := 0, sent := [], mreqs := [], mreqQ := [], waits := []
    fences := [], journal := [], floor := none, atomQ := [], recalls := [], lines := [], windows := [], chans := []
    prioPtr := [] }


/-! ### The Skippers (chapter 14) -/

/-- An entry of an arrival Skipper's remote table (R323): the request and the ft at which it was recorded. -/
structure Remote where
  hdr : Header
  since : Nat
deriving DecidableEq, Repr

/-- A PCIe read without its completion (R327, R328): its tag, the fabric request, the ft at which it was issued. -/
structure HostRead where
  ptag : Nat
  hdr : Header
  since : Nat
deriving DecidableEq, Repr

/-- The transmit descriptor that runs (R331): its words, the source's bytes, its next segment, the Skipper tags of the
WR_NP segments that have no WR_RSP. -/
structure TxRun where
  words : List Nat
  data : List Byte
  next : Nat
  tags : List Nat
deriving DecidableEq, Repr

/-- A Skipper: segments that wait for their transfer's window with their BAD marks (R322), the remote table, PCIe reads
outstanding and waiting for a tag (Table 14-4), RX_PROD and TX_DONE, the descriptor that runs, the last SEQ emitted under
each key slot (R332), the bytes of each (DST_EP, VC) pair sent in the last 1 µs, by EP × 8 + VC, with their times (R145). -/
structure Skipper where
  waiting : List (Packet × Bool)
  remote : List Remote
  reads : List HostRead
  readQ : List Header
  rxProd : Nat
  txDone : Nat
  tx : Option TxRun
  lastSeq : SMap (Option Nat)
  sent : SMap (List (Nat × Nat))
deriving DecidableEq, Repr

/-- A Skipper right after reset. -/
def Skipper.reset : Skipper :=
  { waiting := [], remote := [], reads := [], readQ := [], rxProd := 0, txDone := 0, tx := none, lastSeq := [], sent := [] }


/-! ### The Luna engine (chapters 7 to 9) -/

/-- The running figures of a context's step on a die (R165, R166, R168): the ft of its first contribution, the last commit
of each slot, the slots absent from an emitted chunk, whether a verify event occurred, whether it met its deadline, the
operator, mode and format of its first chunk. -/
structure LStep where
  step : Nat
  firstFt : Nat
  emitted : Nat
  partials : Nat
  failed : Nat
  digest : Nat
  late : SMap Nat
  missing : List Nat
  event : Bool
  dlHit : Bool
  first : Option (Nat × Bool × Nat)
deriving DecidableEq, Repr

/-- A context on a die (R154 to R163, R234, R430): `st` 0 DORMANT, 1 ARMED, 2 ACTIVE; whether its image is being copied;
whether it is disarming; its slots and the pages they take; CUR_STEP; DEADLINE as written for this die, the deadline latched
for CUR_STEP, a launch held for it; the done bits; the figures of its steps. -/
structure LCtx where
  st : Nat
  arming : Bool
  disarming : Bool
  slots : Nat
  pages : Nat
  curStep : Nat
  dlReg : Option Nat
  latched : Option Nat
  held : Option Nat
  done : List ChunkId
  steps : List LStep
deriving DecidableEq, Repr

/-- The part of a contribution that one core takes (R198): the core, its elements in core order, its hold range, how many of
its elements have been dispatched in beats. -/
structure LPart where
  core : Nat
  elems : List Nat
  addr : Nat
  len : Nat
  landed : Nat
  sent : Nat
deriving DecidableEq, Repr

/-- A contribution that streams (R160, R198): its slot, its header, whether its slot is WIDE, whether it holds its hold
ranges, its payload so far, an uncorrectable word found in it, its parts. -/
structure LStream where
  slot : Nat
  hdr : Header
  wide : Bool
  alloc : Bool
  bytes : List Byte
  bad : Bool
  parts : List LPart
  key : Option KeySlot
deriving DecidableEq, Repr

/-- A block of the block table (R212): whether a NaN and an infinity were posted, the largest finite magnitude. -/
structure LBlock where
  nan : Bool
  inf : Bool
  max : Nat
deriving DecidableEq, Repr

/-- Where a chunk stands: it takes contributions; its tasks DENSIFY, SCALE, EMIT run; it waits for its check record; RECOMP
runs on its arbiter. -/
inductive LPhase where
  | fill | densify | scale | emit | check | recomp
deriving DecidableEq, Repr

/-- An open chunk (R157 to R170): its cluster (which may be waking), its scratch record, operator, format, mode, element
count, the slots committed, its exact partials, the FP32 accumulators, its sparse records and whether it has gone dense, the
contributions stored, those that stream, the block table and the scales fixed from it, the output lanes; whether it ends at
a deadline, whether an output was out of range, when it was complete; the check record that came, whether verification is
over; the differing columns, the arbiter and its scratch record for the chunk, the recomputed partials and accumulators. -/
structure LChunk where
  id : ChunkId
  cluster : Nat
  waking : Bool
  scratch : Nat
  rop : Nat
  native : Bool
  fmt : Nat
  e : Nat
  bitmap : List Nat
  parts : SMap Partial
  acc : SMap Nat
  recs : SMap (Option Partial)
  dense : Bool
  stored : SMap (Option (List Byte))
  streams : List LStream
  blocks : SMap LBlock
  scales : SMap Nat
  outs : SMap Nat
  phase : LPhase
  ending : Bool
  partialEnd : Bool
  outRange : Bool
  doneFt : Nat
  record : Option CheckRecord
  verified : Bool
  cols : List Nat
  arbiter : Option Nat
  rscratch : Nat
  rparts : SMap Partial
  racc : SMap Nat
deriving DecidableEq, Repr

/-- A verified image in a die's store (R218, R223): its PROG_ID, its bytes, its measurement. -/
structure LImage where
  prog : Nat
  bytes : List Byte
  meas : BitVec 384
deriving DecidableEq, Repr

/-- A Luna die: its image store, the images in every cluster's program store (least recently used first), the distributor's
pointer, its contexts, its open chunks, the active cores of each cluster in column order, its unused spare cores, check
records that came before their chunk was complete. -/
structure LDieSt where
  images : List LImage
  store : List Nat
  ptr : Nat
  ctxs : SMap LCtx
  chunks : List LChunk
  serve : SMap (List Nat)
  spares : List Nat
  records : List CheckRecord
deriving DecidableEq, Repr

/-- What a handle is bound to (R203), with the first entry of its view and its entries. -/
inductive View where
  | unbound
  | parts (off n : Nat)
  | recs (off : Nat)
  | acc (off n : Nat)
  | stored (off n : Nat)
deriving DecidableEq, Repr

/-- A task (R196 to R203): its chunk and kind, the contributor slot, whether that slot is WIDE, DENSE as the task sees it,
the elements of the core in core order, the presets s2 to s4, the hold range it may read. -/
structure LTask where
  id : ChunkId
  kind : Nat
  slot : Nat
  wide : Bool
  dense : Bool
  elems : List Nat
  s2 : Nat
  s3 : Nat
  s4 : Nat
  holdAt : Nat
  holdLen : Nat
deriving DecidableEq, Repr

/-- A Luna core (Table 9-2, R205): the task that runs, its queue, the register files, the return stack, the program counter,
its local SRAM, the output lanes of its EMIT task, whether an xmrg of the task found no room. -/
structure LCore where
  run : Option LTask
  queue : List LTask
  sregs : SMap Word
  vregs : SMap (BitVec 512)
  pregs : SMap Word
  views : SMap View
  ret : List Nat
  pc : Nat
  mem : SMap Byte
  lanes : List Nat
  noRoom : Bool
deriving DecidableEq, Repr

/-- A context that a die holds, DORMANT. -/
def LCtx.reset : LCtx :=
  { st := 0, arming := false, disarming := false, slots := 0, pages := 0, curStep := 0, dlReg := none, latched := none
    held := none, done := [], steps := [] }

/-- A die right after reset. -/
def LDieSt.reset (k : Nat) : LDieSt :=
  { images := [], store := [], ptr := 0, ctxs := [], chunks := [], serve := []
    spares := (List.range 8).map fun i => 108 * k + 100 + i, records := [] }

/-- The cores of a cluster of die `k` in service as fused (log entry 2, DESIGN CHOICE), in ascending physical number. -/
def serveReset (k c : Nat) : List Nat := ((List.range 12).filter fun i => 12 * c + i < 100).map fun i => 108 * k + 12 * c + i

/-- A core right after reset. -/
def LCore.reset : LCore :=
  { run := none, queue := [], sregs := [], vregs := [], pregs := [], views := [], ret := [], pc := 0, mem := []
    lanes := [], noRoom := false }


/-! ### Power, pins and start-up (chapter 20) -/

/-- Pins and power: `held` while PWR_GOOD or PERST_N holds the OX9 in reset, `removed` after tray removal, `tripped`
after a thermal trip; the governor's reference in mW, the task starts it allows each awake cluster in one microsecond while it holds
work, and those each has had (R452); the reference cycles since phase 0 began; the dies that passed; the target clock and
since when it waits; faults of phase 0; runs of bad pin reads; writes to registers of dies in Cocoon (R463). -/
structure Power where
  held : Bool
  removed : Bool
  tripped : Bool
  inserted : Bool
  govG : Nat
  pace : Nat
  starts : SMap Nat
  bootCycles : Nat
  readySeen : Bool
  fabricEnabled : Bool
  passed : List Nat
  dvfsGoal : Option Nat
  dvfsSince : Nat
  fusesBad : Bool
  aonBad : Bool
  pinRun : List Nat
  cocoonWrites : List (Reg × Nat × Nat × Nat)
deriving DecidableEq, Repr

/-- Pins and power right after reset: the signals at their running level (log entry 11, DESIGN CHOICE). -/
def Power.reset : Power :=
  { held := false, removed := false, tripped := false, inserted := true, govG := 0, pace := 0, starts := [], bootCycles := 0
    readySeen := false, fabricEnabled := false, passed := [], dvfsGoal := none, dvfsSince := 0, fusesBad := false
    aonBad := false, pinRun := [0, 0, 0, 0], cocoonWrites := [] }

/-! ### What leaves the block -/

/-- An insert between flits, a training sequence or a burst (Tables 13-1, 13-4). -/
inductive InsertKind where
  | skip | echo | breeze | idle | swap | down | gust | start | nr | ts1 | ts2 | tso | tsc
deriving DecidableEq, Repr

/-- The attributes of a PCIe request (R75). -/
structure PcieAttr where
  noSnoop : Bool
  relaxed : Bool
deriving DecidableEq, Repr

/-- What the block sends or hands over, in order (log entry 5, DESIGN CHOICE). -/
inductive Output where
  /-- A packet handed to a die: a Luna, Skipper or Monarch die, a directory bank; with its BAD mark. A Luna die takes the
  cells as they arrive (R107). -/
  | deliver (dest : Dest) (pkt : Packet) (bad : Bool)
  /-- The EOP cell of a packet that a Luna die took before it had come, with its BAD mark (R107, R108). -/
  | deliverTail (dest : Dest) (hdr : Header) (bad : Bool)
  /-- A flit on a link, with the symbols on its lanes. -/
  | flit (e : Nat) (f : Flit) (line : Line)
  /-- An insert, a training sequence or a burst on a link, with the symbols on its lanes. -/
  | insert (e : Nat) (k : InsertKind) (body : List Byte) (line : Line)
  /-- The NR pattern on the eight lanes of a port die's half that carries no port yet (R304). -/
  | nrPattern (half : Nat) (line : Line)
  /-- A flit accepted from a link. -/
  | accepted (e : Nat) (f : Flit)
  /-- A packet an OEB sends by one of its ports. -/
  | oebTx (side : Nat) (q : Nat) (pkt : Packet)
  /-- An MSI-X vector of a function. -/
  | msix (fn : Nat) (vector : Nat)
  /-- Bytes the Monarch writes to a domain's host memory. -/
  | hostWrite (dom : Nat) (addr : Nat) (bytes : List Byte)
  /-- A congestion echo given to a Skipper (R142). -/
  | skipEcho (k : Nat) (body : List Byte)
  /-- A read of bytes stalled until a row copy ends (R32). -/
  | rowCopied (die bank row : Nat)
  /-- The level of a TIME_PPS_OUT pin. -/
  | ppsOut (k : Nat) (high : Bool)
  /-- A frame on a chain link (R418). -/
  | chain (i : Nat) (frame : List Byte)
  /-- A value that a register or window read returns. -/
  | readData (value : Nat)
  /-- An SPDM answer of a unit (0 the OX9, 1 and 2 the OEBs): its response code and body (R469). -/
  | spdm (u : Nat) (code : Nat) (body : List Byte)
  /-- A completion on ARSP: word 0, VALUE, data beats (R242). -/
  | arsp (side : Nat) (w0 : Nat) (value : Nat) (data : List Byte)
  /-- A request on MREQ: word 0, word 1, data beats (R243). -/
  | mreq (side : Nat) (w0 : Nat) (w1 : Nat) (data : List Byte)
  /-- A PCIe read request of a Skipper to its host: tag, bus address, length (Table 14-4). -/
  | pcieRead (k : Nat) (ptag : Nat) (addr : Nat) (len : Nat) (attr : PcieAttr)
  /-- A PCIe posted write of a Skipper to its host. -/
  | pcieWrite (k : Nat) (addr : Nat) (bytes : List Byte) (attr : PcieAttr)
  /-- An MSI-X vector of a Skipper's host function (R331, R332). -/
  | hostMsix (k : Nat) (vector : Nat)
  /-- A check record on its way to the emitting die (R169). -/
  | checkRecord (die : Nat) (rec : CheckRecord)
  /-- A read of a domain's host memory by the Monarch (R422): function, address, length. -/
  | hostRead (fn : Nat) (addr : Nat) (len : Nat)
deriving DecidableEq, Repr


/-! ### The state -/

/-- Everything the spec gives the block, the commands that wait, what has left the block and the free values drawn. `cwGone`
holds the members no longer valid that the directory still awaits: index, EP, PART (R84). -/
structure State where
  pending : List Instr
  out : List Output
  free : Nat
  ox : UnitSt
  oebA : UnitSt
  oebB : UnitSt
  fwd : Fwd
  obs : Obs
  slices : SliceSt
  links : Links
  power : Power
  flash : Flash
  sram : Sram
  rates : SMap (List RateEnt)
  cw : SMap CwBank
  cwGone : List (Nat × Nat × Nat)
  chain : Chain
  tele : Tele
  keys : SMap KeySec
  mailboxes : SMap Mailbox
  oebs : SMap Oeb
  skips : SMap Skipper
  luna : SMap LDieSt
  cores : SMap LCore
  monarch : Monarch
deriving DecidableEq, Repr

/-- The state right after reset. -/
def State.reset : State :=
  { pending := [], out := [], free := 0, ox := .reset, oebA := .reset
    oebB := { UnitSt.reset with regs := [(regKey .oebId 0 0, BitVec.ofNat 64 (2 ^ 12))] }
    fwd := .reset
    obs := .reset
    slices := .reset
    links := .reset
    power := .reset
    flash := .reset
    sram := .reset
    rates := []
    cw := []
    cwGone := []
    chain := .reset
    tele := .reset
    keys := []
    mailboxes := []
    oebs := []
    skips := []
    luna := []
    cores := []
    monarch := .reset
  }

end Sys2Proof.Machine
end

