-- ==== Sys2Proof/Machine/Ops.lean ====
section
/-! DEFINITION. The named operations over the state that every family uses: units, registers, counters, free values,
outputs, the raising of events, the ports of the loaded layout, the gate of a halted OX9. -/

namespace Sys2Proof.Machine

/-! ### Units -/

/-- What a unit holds. -/
def State.unit (s : State) : UnitId → UnitSt
  | .ox9 => s.ox
  | .oeb 0 => s.oebA
  | .oeb _ => s.oebB

/-- The state with a unit's contents replaced. -/
def State.setUnit (s : State) (u : UnitId) (x : UnitSt) : State :=
  match u with
  | .ox9 => { s with ox := x }
  | .oeb 0 => { s with oebA := x }
  | .oeb _ => { s with oebB := x }

/-! ### Registers -/

/-- Word `w` of entry `i` of a register. -/
def getW (u : UnitId) (r : Reg) (i w : Nat) (s : State) : Word :=
  SMap.get (fun _ => regReset r i w) (s.unit u).regs (regKey r i w)

/-- The state with that word set. -/
def setW (u : UnitId) (r : Reg) (i w : Nat) (v : Word) (s : State) : State :=
  s.setUnit u { s.unit u with regs := SMap.set (fun _ => regReset r i w) (s.unit u).regs (regKey r i w) v }

/-- A field of entry `i` of its register. -/
def gf (u : UnitId) (f : Fld) (i : Nat) (s : State) : Nat := bits (getW u f.reg i f.word s).toNat f.lo f.len

/-- The state with that field set to the low bits of `v`. -/
def sf (u : UnitId) (f : Fld) (i : Nat) (v : Nat) (s : State) : State :=
  setW u f.reg i f.word (BitVec.ofNat 64 (setBits (getW u f.reg i f.word s).toNat f.lo f.len v)) s

/-- A field of the OX9. -/
def gx (f : Fld) (i : Nat) (s : State) : Nat := gf .ox9 f i s
/-- The state with a field of the OX9 set. -/
def sx (f : Fld) (i v : Nat) (s : State) : State := sf .ox9 f i v s

/-- A one-bit field of the OX9 as a truth value. -/
def gb (f : Fld) (i : Nat) (s : State) : Bool := gx f i s == 1

/-- A saturating field of a unit raised by `n`. -/
def satAdd (u : UnitId) (f : Fld) (i n : Nat) (s : State) : State :=
  sf u f i (min (gf u f i s + n) (2 ^ f.len - 1)) s

/-- The entries of register `r` that a register file lists: index and word number with the value. -/
def regEntries (r : Reg) (m : SMap Word) : List (Nat × Nat × Word) :=
  (m.filter fun e => e.1 / 2 ^ 27 = r.ctorIdx).map fun e => (e.1 / 2 ^ 7 % 2 ^ 20, e.1 % 2 ^ 7, e.2)

/-! ### Time, free values, outputs -/

/-- The fabric time of a unit. -/
def ftOf (u : UnitId) (s : State) : Nat := (s.unit u).time.ft

/-- The local clock of a unit, in units of 0.4 ns (R352). -/
def locOf (u : UnitId) (s : State) : Nat := (s.unit u).time.loc

/-- The fabric time of the OX9. -/
def ft (s : State) : Nat := s.ox.time.ft

/-- The time quality of a unit (Table 15-4). -/
def qualOf (u : UnitId) (s : State) : Nat := gf u TIME_STAT.QUAL 0 s

/-- Something leaves the block. -/
def emit (o : Output) (s : State) : State := { s with out := s.out ++ [o] }

/-- The next free value (log entry 3, DESIGN CHOICE). -/
def freeVal (s : State) : Nat := Config.freeNat s.free

/-- The state with the next free value drawn. -/
def draw (s : State) : State := { s with free := s.free + 1 }

/-- State that no program sets has changed: the Monarch is to check the pending programs again (R427). -/
def noteChange (s : State) : State := { s with monarch := { s.monarch with recheck := true } }

/-! ### Counters (R393) -/

/-- A counter raised by `n`, modulo 2^64. -/
def countN (u : UnitId) (p : Place) (c : Ctr) (n : Nat) (s : State) : State :=
  s.setUnit u { s.unit u with
    ctrs := SMap.set (fun _ => 0) (s.unit u).ctrs (ctrKey p c)
      ((SMap.get (fun _ => 0) (s.unit u).ctrs (ctrKey p c) + n) % 2 ^ 64) }

/-- The value of a counter. -/
def counter (u : UnitId) (p : Place) (c : Ctr) (s : State) : Nat :=
  SMap.get (fun _ => 0) (s.unit u).ctrs (ctrKey p c)

/-- A counter of the global block raised by one. -/
def countG (c : Ctr) (s : State) : State := countN .ox9 .glob c 1 s

/-- A counter of a die window raised by one. -/
def countD (d : Nat) (c : Ctr) (s : State) : State := countN .ox9 (.die d) c 1 s

/-- A per-partition entry raised by one (Table 18-4). -/
def countP (p : Nat) (c : Ctr) (s : State) : State := countN .ox9 (.part p) c 1 s

/-- A counter of an OEB raised by one. -/
def countO (side : Side) (c : Ctr) (s : State) : State := countN (.oeb side) (.oeb side.val) c 1 s

/-! ### The ports of the loaded layout (R16, R17, Table 19-10) -/

/-- The first lane and the width of the ports of one port-die half. -/
def halfPorts (half code : Nat) : List (Nat × Nat) :=
  match code with
  | 1 => [(8 * half, 2), (8 * half + 2, 2), (8 * half + 4, 2), (8 * half + 6, 2)]
  | 2 => [(8 * half, 4), (8 * half + 4, 4)]
  | 3 => [(8 * half, 8)]
  | _ => []

/-- The ports of a layout in order: first logical lane and width. -/
def portsFrom : Nat → List Nat → List (Nat × Nat)
  | _, [] => []
  | h, c :: cs => halfPorts h c ++ portsFrom (h + 1) cs

/-- The ports of the loaded layout, numbered from 0 in ascending order of their first lane (R17). -/
def ports (s : State) : List (Nat × Nat) := portsFrom 0 s.links.layout

/-- First lane and width of a port, none where the loaded layout has no such port. -/
def portInfo (p : Nat) (s : State) : Option (Nat × Nat) := (ports s)[p]?

/-- The width of a port; 0 where it does not exist. -/
def portWidth (p : Nat) (s : State) : Nat := ((portInfo p s).map (·.2)).getD 0

/-- The first lane of a port. -/
def portLane (p : Nat) (s : State) : Nat := ((portInfo p s).map (·.1)).getD 0

/-- The die of a port (R16). -/
def portDie (p : Nat) (s : State) : Nat := portLane p s / 16

/-- The port that carries a logical lane. -/
def portOfLane (l : Nat) (s : State) : Option Nat :=
  (ports s).findIdx? fun x => decide (x.1 ≤ l) && decide (l < x.1 + x.2)

/-- The die where an entry looks a packet up. -/
def entryDie (e : Entry) (s : State) : Nat :=
  match e with
  | .port p => portDie p.val s
  | .die d => d.val
  | .dieClass7 d => d.val

/-- A counter of a port: its per-port entry and its die's total (R394). -/
def countPort (p : Nat) (c : Ctr) (n : Nat) (s : State) : State :=
  countN .ox9 (.die (portDie p s)) c n (countN .ox9 (.port p) c n s)

/-! ### Link ends -/

/-- The key of a link end. -/
def linkKey : LinkEnd → Nat
  | .ox p => p.val
  | .oeb side q => 288 + 16 * side.val + q.val

/-- The unit that holds a link end. -/
def linkUnit : LinkEnd → UnitId
  | .ox _ => .ox9
  | .oeb side _ => .oeb side

/-- A link end. -/
def getLink (k : Nat) (s : State) : Link := SMap.get (fun _ => Link.reset) s.links.ends k
/-- Its credits, arbiter and training progress. -/
def getAux (k : Nat) (s : State) : LinkAux := SMap.get (fun _ => LinkAux.reset) s.links.aux k
/-- The state with a link end replaced. -/
def setLink (k : Nat) (l : Link) (s : State) : State :=
  { s with links := { s.links with ends := SMap.set (fun _ => Link.reset) s.links.ends k l } }
/-- The state with its credits, arbiter and progress replaced. -/
def setAux (k : Nat) (l : LinkAux) (s : State) : State :=
  { s with links := { s.links with aux := SMap.set (fun _ => LinkAux.reset) s.links.aux k l } }

/-- A port is up while it is ACTIVE, IDLE or GUST (Table 13-4). -/
def linkUp (l : Link) : Bool := decide (6 ≤ l.st) && decide (l.st ≤ 8)

/-- Whether an OX9 port of the layout is up. -/
def portUp (p : Nat) (s : State) : Bool := (portInfo p s).isSome && linkUp (getLink p s)

/-- Element `k` of a list of numbers; 0 beyond it. -/
def nth (l : List Nat) (k : Nat) : Nat := (l[k]?).getD 0

/-! ### Events (R375, R467) -/

/-- An event of a unit raised now by a die, with its origin and arguments; nothing else named. -/
def Event.mk0 (u : UnitId) (code : EvCode) (folded : Bool) (die okind origin : Nat) (args : List (Bool × Nat))
    (s : State) : Event :=
  { code := code, folded := folded, ft := ftOf u s, qual := qualOf u s, die := die, part := none, okind := okind
    origin := origin, oep := none, srcEp := none, dstEp := none, args := args }

/-- A Monarch switch is in progress (R389). -/
def switching (s : State) : Bool := decide (locOf .ox9 s < s.tele.switchEnd)

/-- The events of a unit on their way to its folder, one more among them. During a Monarch switch the always-on buffer holds 1,024
of them; one more is lost (R389; log entry 134, DESIGN CHOICE). -/
def raisedWith (u : UnitId) (e : Event) (s : State) : List Event :=
  let l := (s.unit u).events.raised
  if u = .ox9 && switching s && decide (1024 ≤ l.length) then l else l ++ [e]

/-- An event on its way to the unit's folder. -/
def raise (u : UnitId) (e : Event) (s : State) : State :=
  s.setUnit u { s.unit u with events := { (s.unit u).events with raised := raisedWith u e s } }

/-- A narrow argument (R467). -/
def na (v : Nat) : Bool × Nat := (false, v)
/-- A wide argument (R467). -/
def wa (v : Nat) : Bool × Nat := (true, v)

/-- An event whose origin is a port: it carries the endpoint that PORT_BIND binds to the port (R375). -/
def raisePort (code : EvCode) (folded : Bool) (p : Nat) (args : List (Bool × Nat)) (s : State) : State :=
  raise .ox9 { Event.mk0 .ox9 code folded (portDie p s) 1 p (na p :: args) s with oep := some (gx PORT_BIND.EP p s) } s

/-- An event whose origin is an endpoint. -/
def raiseEp (code : EvCode) (folded : Bool) (die ep : Nat) (args : List (Bool × Nat)) (s : State) : State :=
  raise .ox9 (Event.mk0 .ox9 code folded die 2 ep (na ep :: args) s) s

/-- An event whose origin is a die. -/
def raiseDie (code : EvCode) (folded : Bool) (die : Nat) (args : List (Bool × Nat)) (s : State) : State :=
  raise .ox9 (Event.mk0 .ox9 code folded die 3 die (na die :: args) s) s

/-- An event with no origin. -/
def raise0 (code : EvCode) (folded : Bool) (die : Nat) (args : List (Bool × Nat)) (s : State) : State :=
  raise .ox9 (Event.mk0 .ox9 code folded die 0 0 args s) s

/-- An event of an OEB whose origin is an endpoint. -/
def raiseO (side : Side) (code : EvCode) (folded : Bool) (okind origin : Nat) (args : List (Bool × Nat)) (s : State) :
    State :=
  raise (.oeb side) (Event.mk0 (.oeb side) code folded 0 okind origin args s) s

/-! ### The repair log of units (R391) -/

/-- The repair log entry of a unit. -/
def unitLog (k : UnitKind) (n : Nat) (s : State) : UnitLog :=
  (s.flash.units.find? fun x => x.kind = k && x.num = n).getD { kind := k, num := n, times := 0, perm := false, out := false, counted := false }

/-- The state with a unit's entry replaced. -/
def setUnitLog (x : UnitLog) (s : State) : State :=
  { s with flash := { s.flash with
    units := (s.flash.units.filter fun y => !(y.kind = x.kind && y.num = x.num)) ++ [x] } }

/-- A unit is withdrawn for a fault found in service: the second time, or where `perm`, it is permanently retired. -/
def withdraw (k : UnitKind) (n : Nat) (perm : Bool) (s : State) : State :=
  let x := unitLog k n s
  let n := if x.counted then x.times else x.times + 1
  setUnitLog { x with times := n, perm := x.perm || perm || decide (2 ≤ n), out := true, counted := true } s

/-! ### The gate -/

/-- The OX9 is held in reset (R438), removed (R382) or tripped (R453). -/
def dark (s : State) : Bool := s.power.held || s.power.removed || s.power.tripped

/-- A Monarch answers: no Chrysalis whose cause leaves none alive (R443). -/
def monarchLive (s : State) : Bool :=
  !(gx START_STAT.PHASE 0 s == 7 && (gx START_STAT.CAUSE 0 s == 1 || gx START_STAT.CAUSE 0 s == 8))

/-- A host's accesses over the management port are served: it answers Request Retry Status until BOOT ends (R440), is down while it
retrains after a Monarch switch (R389), and needs a live Monarch (R443). -/
def hostServed (s : State) : Bool := decide (4 ≤ gx START_STAT.PHASE 0 s) && !s.monarch.mgmtDown && monarchLive s

/-- The OX9 stands still: it is dark, or frozen by Calm (R409). -/
def halted (s : State) : Bool := gb CALM_STAT.CALM 0 s || dark s

/-- An effect on an OX9 that does not stand still; on one that does, nothing happens. -/
def live (f : State → State) (s : State) : Host.Outcome State Fault Refusal :=
  if halted s then .next s else .next (f s)

/-- An effect on a unit: an OX9 that stands still is left as it is; an OEB has no such gate. -/
def liveAt (u : UnitId) (f : State → State) (s : State) : Host.Outcome State Fault Refusal :=
  match u with
  | .ox9 => live f s
  | .oeb _ => .next (f s)

/-- An effect on an OX9 that is not dark, frozen or not: the Monarch, the chain and the security mailbox run on in Calm
(R410), where commands are refused (R411). -/
def served (f : State → State) (s : State) : Host.Outcome State Fault Refusal := if dark s then .next s else .next (f s)

/-- An effect of the Monarch, where one answers (R443). -/
def manned (f : State → State) (s : State) : Host.Outcome State Fault Refusal := if dark s || !monarchLive s then .next s else .next (f s)

/-- An effect that a host asks for over the management port. -/
def hosted (f : State → State) (s : State) : Host.Outcome State Fault Refusal := if dark s || !hostServed s then .next s else .next (f s)

/-- An effect of an OEB. -/
def run (f : State → State) (s : State) : Host.Outcome State Fault Refusal := .next (f s)

/-- The active Monarch die: D62, or D63 where D63 is ACTIVE (R21, R389). -/
def activeMonarch (s : State) : Nat := if gb DIE_INFO.ACTIVE 63 s then 63 else 62

/-- The conditions of fabric-ready hold (R444). -/
def readyHolds (s : State) : Bool :=
  (gx START_STAT.PHASE 0 s == 5 || gx START_STAT.PHASE 0 s == 6) && s.power.fabricEnabled && qualOf .ox9 s != 0 &&
    !gb CALM_STAT.CALM 0 s

/-- START_STAT follows the conditions: FABRIC_READY, phase 5 or 6, READY_MS at the first READY; a millisecond is 156,250
reference cycles (R440, R444, Table 20-3). -/
def refreshReady (s : State) : State :=
  let r := readyHolds s
  let ph := gx START_STAT.PHASE 0 s
  let s1 := sx START_STAT.FABRIC_READY 0 r.toNat (if ph = 5 || ph = 6 then sx START_STAT.PHASE 0 (if r then 6 else 5) s else s)
  if r && !s.power.readySeen then
    sx START_STAT.READY_MS 0 (min (s.power.bootCycles / 156250) (2 ^ 32 - 1))
      { s1 with power := { s1.power with readySeen := true } }
  else s1

/-- UNMAPPED_ACCESS: counted and raised (R8, R491). -/
def unmapped (s : State) : State :=
  raise0 .unmappedAccess false (activeMonarch s) [] (countG .unmappedAccess s)

end Sys2Proof.Machine
end

