-- ==== Sys2Proof/Machine/Sram.lean ====
section
/-! DEFINITION. SRAM errors and row repair (R31 to R34): SRAM_ROW_REPAIRED, SRAM_ROW_COPY_DONE. -/

namespace Sys2Proof.Machine

/-- The key of a bank. -/
def bankKey (die bank : Nat) : Nat := die * 2 ^ 20 + bank

/-- The spare rows of a bank used so far, of eight. -/
def rowSparesUsed (die bank : Nat) (s : State) : Nat := SMap.get (fun _ => 0) s.sram.sparesUsed (bankKey die bank)

/-- A corrected error at a row: counted; the fourth within one second of fabric time makes the row due for repair
(R31, R32). -/
def sramCorrected (die bank row : Nat) (s : State) : State :=
  let r : RowId := ⟨die, bank, row⟩
  let s1 := countD die .sramCorrected s
  let errs := (s1.sram.errs.filter fun e => e.1 ≠ r || ft s < e.2 + 2500000000) ++ [(r, ft s)]
  let n := (errs.filter fun e => e.1 = r).length
  { s1 with sram := { s1.sram with
    errs := errs
    faulty := if n ≥ 4 && !s1.sram.faulty.contains r then s1.sram.faulty ++ [r] else s1.sram.faulty } }

/-- An uncorrectable error at a row: counted, raised with die, bank and row; the row is due for repair (R33). -/
def sramUncorrectable (die bank row : Nat) (s : State) : State :=
  let r : RowId := ⟨die, bank, row⟩
  let s1 := raiseDie .sramUncorrectable false die [na bank, na row] (countD die .sramUncorrectable s)
  { s1 with sram := { s1.sram with
    uncorr := (s1.sram.uncorr.filter fun e => ft s < e.2 + 2500000000) ++ [(r, ft s)]
    faulty := if s1.sram.faulty.contains r then s1.sram.faulty else s1.sram.faulty ++ [r] } }

/-- The traces of a word of a die read from a row (R31, R33). -/
def sramRead (die : Nat) (r : SramRead) (s : State) : State :=
  match r with
  | .clean | .atRow _ _ => s
  | .corrected bank row => sramCorrected die bank row s
  | .uncorrectable bank row => sramUncorrectable die bank row s

/-- A read that lost its word (R33). -/
def readLost : SramRead → Bool
  | .uncorrectable _ _ => true
  | _ => false

/-- An access to a row of a die waits while the row is copied to a spare (R32). -/
def rowStalled (die : Nat) (r : SramRead) (s : State) : Bool :=
  match r with
  | .clean => false
  | .atRow bank row | .corrected bank row | .uncorrectable bank row => s.sram.copying.contains ⟨die, bank, row⟩

/-- What the next SRAM read that no command reports finds (R31, R33; log entry 114, DESIGN CHOICE). -/
def foundNext (s : State) : SramRead :=
  match Config.sramFind s.free with
  | none => .clean
  | some (false, bank, row) => .corrected bank row
  | some (true, bank, row) => .uncorrectable bank row

/-- A read of a die that no command reports: whether its word is lost, and its traces; one of a row being copied completes
against the spare row (R31 to R33). -/
def silentRead (die : Nat) (s : State) : Bool × State :=
  if rowStalled die (foundNext s) s then (false, draw s) else (readLost (foundNext s), sramRead die (foundNext s) (draw s))

/-- `n` such reads: whether one of them lost its word. -/
def silentReads (die : Nat) : Nat → State → Bool × State
  | 0, s => (false, s)
  | n + 1, s => ((silentRead die s).1 || (silentReads die n (silentRead die s).2).1, (silentReads die n (silentRead die s).2).2)

/-- Bytes read from the SRAM of the active Monarch die, in words of eight; a lost word leaves them a free value (R31, R33; log
entry 114, DESIGN CHOICE). -/
def monarchRead (bs : List Byte) (s : State) : List Byte × State :=
  let r := silentReads (activeMonarch s) (ceilDiv bs.length 8) s
  if r.1 then (toLE bs.length (freeVal r.2), draw r.2) else (bs, r.2)

/-- The fenced rows of a die (R34). -/
def fencedRows (die : Nat) (s : State) : List RowId := s.sram.fenced.filter fun r => r.die = die

/-- The ranges of store `k` of a die that its fenced rows take away: the first place and how many (R34). -/
def fencedRanges (die k : Nat) (s : State) : List (Nat × Nat) :=
  ((fencedRows die s).map fun r => Config.rowSpan r.die r.bank r.row).filterMap fun x => if x.1 = k then some x.2 else none

/-- How much of store `k` of a die its fenced rows take away (R34; log entry 3, DESIGN CHOICE). -/
def fencedSpan (die k : Nat) (s : State) : Nat :=
  ((fencedRanges die k s).map (·.2)).sum

/-- A row due for repair: a copy to a spare row starts, or the row is fenced out (R32, R34). The rules name no field of
SRAM_ROW_REPAIRED, and of SPARE_EXHAUSTED for a row none: the die is the origin of both and the first argument, bank and row
follow (log entry 83, DESIGN CHOICE). -/
def rowRepair (die bank row : Nat) (s : State) : State :=
  let r : RowId := ⟨die, bank, row⟩
  if !s.sram.faulty.contains r then s
  else
    let s1 := { s with sram := { s.sram with
      faulty := s.sram.faulty.erase r, errs := s.sram.errs.filter fun e => e.1 ≠ r } }
    if rowSparesUsed die bank s < 8 then
      raiseDie .sramRowRepaired false die [na bank, na row] (countD die .sramRowRepaired
        { s1 with sram := { s1.sram with
          sparesUsed := SMap.set (fun _ => 0) s1.sram.sparesUsed (bankKey die bank) (rowSparesUsed die bank s + 1)
          copying := s1.sram.copying ++ [r] } })
    else
      raiseDie .spareExhausted false die [na bank, na row] (countD die .sramRowFenced
        { s1 with sram := { s1.sram with fenced := s1.sram.fenced ++ [r] } })

/-- SRAM_ROW_REPAIRED (R32). -/
def execSramRowRepaired (die : Die) (bank row : Nat) (s : State) : Host.Outcome State Fault Refusal :=
  live (rowRepair die.val bank row) s

/-- The first copy of a bank ends: the accesses that waited complete against the spare row, and the repair is written
to the repair log in flash (R32). -/
def rowCopyDone (die bank : Nat) (s : State) : State :=
  match s.sram.copying.find? fun r => r.die = die && r.bank = bank with
  | none => s
  | some r =>
    emit (.rowCopied die bank r.row) { s with
      sram := { s.sram with copying := s.sram.copying.erase r }
      flash := { s.flash with rowLog := s.flash.rowLog ++ [r] } }

/-- SRAM_ROW_COPY_DONE (R32). -/
def execSramRowCopyDone (die : Die) (bank : Nat) (s : State) : Host.Outcome State Fault Refusal :=
  live (rowCopyDone die.val bank) s

end Sys2Proof.Machine
end

