-- ==== Sys2Proof/Machine/Forward.lean ====
section
/-! DEFINITION. The forwarding core's shared operations: striping, buffer carving and grants, tokens, ageing, the
resolving of destinations, admission, tracking, marking and echoes, sampling, synthesised responses (chapters 2, 5, 6). -/

namespace Sys2Proof.Machine

/-! ### Striping and accountants (R105, chapter 5) -/

/-- The active slices, in ascending order (R105). -/
def activeSlices (s : State) : List Nat := s.slices.active

/-- N of R105, never 0 in a division. -/
def nSlices (s : State) : Nat := max 1 s.slices.active.length

/-- The accountant's slice of partition `p`: L[p mod N]. -/
def accountant (p : Nat) (s : State) : Nat := nth (activeSlices s) (p % nSlices s)

/-- The stripe pointer of a die (R105). -/
def stripePtr (d : Nat) (s : State) : Nat := SMap.get (fun d => d % 15) s.fwd.stripePtr d

/-- The slices of the `n` cells of a packet from pointer `h` (R105). -/
def stripeList (h n : Nat) (s : State) : List Nat := (List.range n).map fun c => nth (activeSlices s) ((h + c) % nSlices s)

/-- The state with the die's pointer moved past `n` cells. -/
def moveStripe (d n : Nat) (s : State) : State :=
  { s with fwd := { s.fwd with
    stripePtr := SMap.set (fun d => d % 15) s.fwd.stripePtr d ((stripePtr d s + n) % nSlices s) } }

/-! ### Buffer carving (R109 to R112) -/

/-- Cells of a partition in USED. -/
def usedOf (p : Nat) (s : State) : Nat := SMap.get (fun _ => 0) s.fwd.used p

/-- USED set, with the USED_PEAK gauge raised to it (Table 18-4). -/
def setUsed (p n : Nat) (s : State) : State :=
  let s1 := { s with fwd := { s.fwd with used := SMap.set (fun _ => 0) s.fwd.used p n } }
  { s1 with ox := { s1.ox with
    ctrs := SMap.set (fun _ => 0) s1.ox.ctrs (ctrKey (.part p) .usedPeak)
      (max n (SMap.get (fun _ => 0) s1.ox.ctrs (ctrKey (.part p) .usedPeak))) } }

/-- The cells of the three reserves (Table 5-5). -/
def reserveCells (v : Nat) (s : State) : Nat :=
  64 * (if v = 1 then gx BUF_CARVE.RSV_VC1 0 s else if v = 4 then gx BUF_CARVE.RSV_VC4 0 s else gx BUF_CARVE.RSV_VC5 0 s)

/-- The cells of a reserve now charged. -/
def reserveUsed (v : Nat) (s : State) : Nat :=
  if v = 1 then s.fwd.rsv1 else if v = 4 then s.fwd.rsv4 else s.fwd.rsv5

/-- The state with a reserve's charge set. -/
def setReserve (v n : Nat) (s : State) : State :=
  if v = 1 then { s with fwd := { s.fwd with rsv1 := n } }
  else if v = 4 then { s with fwd := { s.fwd with rsv4 := n } }
  else { s with fwd := { s.fwd with rsv5 := n } }

/-- The sum of all PART_BUF.MIN, in cells. -/
def sumMin (s : State) : Nat :=
  64 * ((regEntries .partBuf s.ox.regs).map fun e => bits e.2.2.toNat 0 16).sum

/-- The usable buffer in cells: that of the active slices, but for their fenced rows (R30, R34, R100). -/
def usableCells (s : State) : Nat :=
  64 * (3072 * nSlices s) - ((activeSlices s).map fun x => fencedSpan (36 + x) 0 s).sum

/-- The free cells of the shared remainder (R109). -/
def sharedFree (s : State) : Nat :=
  let pool := usableCells s - reserveCells 1 s - reserveCells 4 s - reserveCells 5 s
  let excess := (s.fwd.used.map fun e => e.2 - 64 * gx PART_BUF.MIN e.1 s).sum
  pool - sumMin s - excess - s.fwd.sharedVc

/-- The cells that an accountant may grant of a block now (R112). -/
def grantable (p : Nat) (s : State) : Nat :=
  let used := usedOf p s
  let min' := 64 * gx PART_BUF.MIN p s
  let top := if gx PART_BUF.MAX p s = 0xFFFF then 64 else 64 * gx PART_BUF.MAX p s - used
  if used + 64 ≤ min' then 64 else min 64 (min top (sharedFree s + (min' - used)))

/-- Cells of a grant a die holds. -/
def grantOf (d p : Nat) (s : State) : Nat := SMap.get (fun _ => 0) s.fwd.grants (d * 4096 + p)

/-- The state with a die's grant set. -/
def setGrant (d p n : Nat) (s : State) : State :=
  { s with fwd := { s.fwd with grants := SMap.set (fun _ => 0) s.fwd.grants (d * 4096 + p) n } }

/-- The pending requests of an accountant in the rotating order of R113: ascending die number, from the die after the last
served; those of one die for several partitions in their order of arrival (log entry 123, DESIGN CHOICE). -/
def rotate (last : Nat) (reqs : List (Nat × Nat)) : List (Nat × Nat) :=
  ((List.range 64).map fun i => reqs.filter fun r => r.1 = (last + 1 + i) % 64).flatten

/-- One pending grant request served if its accountant has cells (R112, R113). -/
def serveGrant (r : Nat × Nat) (s : State) : State :=
  let n := if s.slices.frozen then 0 else grantable r.2 s
  if n = 0 then s
  else
    let s1 := setGrant r.1 r.2 (grantOf r.1 r.2 s + n) (setUsed r.2 (usedOf r.2 s + n) s)
    { s1 with fwd := { s1.fwd with
      grantReqs := s1.fwd.grantReqs.filter (fun x => x ≠ r)
      lastGrant := SMap.set (fun _ => 63) s1.fwd.lastGrant (accountant r.2 s1) r.1 } }

/-- The pending requests of the accountant of slice `a` served in their order (R113). Before it has served a die it starts at
D00 (log entry 84, DESIGN CHOICE). -/
def serveAccountant (a : Nat) (s : State) : State :=
  (rotate (SMap.get (fun _ => 63) s.fwd.lastGrant a) (s.fwd.grantReqs.filter fun r => accountant r.2 s = a)).foldl
    (fun s r => serveGrant r s) s

/-- The pending requests served as cells are freed: those of partition `p`'s accountant first, then those of the others in
ascending order, which may wait for the shared remainder (R113; log entry 84, DESIGN CHOICE). -/
def serveGrants (p : Nat) (s : State) : State :=
  ((activeSlices s).filter (· ≠ accountant p s)).foldl (fun s a => serveAccountant a s) (serveAccountant (accountant p s) s)

/-- Cells returned to a partition's accountant: the return is applied before pending requests (R115). -/
def returnPart (p n : Nat) (s : State) : State := serveGrants p (setUsed p (usedOf p s - n) s)

/-- A packet's cells returned (R115); what waits for the shared remainder is served (R113). -/
def uncharge (c : Charge) (n : Nat) (s : State) : State :=
  match c with
  | .part p => returnPart p n s
  | .vc v r sh =>
    let s1 := setReserve v (reserveUsed v s - r) s
    serveGrants 0 { s1 with fwd := { s1.fwd with sharedVc := s1.fwd.sharedVc - sh } }
  | .resv => s

/-- `n` cells of a reserve, then of the shared remainder; none where too few are free (R109). -/
def chargeVc (v n : Nat) (s : State) : Option (State × Charge) :=
  let r := min n (reserveCells v s - reserveUsed v s)
  let sh := n - r
  if sh ≤ sharedFree s then
    let s1 := setReserve v (reserveUsed v s + r) s
    some ({ s1 with fwd := { s1.fwd with sharedVc := s1.fwd.sharedVc + sh } }, .vc v r sh)
  else none

/-! ### Shaper tokens (R146, R147) -/

/-- The tokens a die holds for a partition. -/
def tokensOf (d p : Nat) (s : State) : Int := SMap.get (fun _ => 0) s.fwd.tokens (d * 4096 + p)

/-- The state with that holding set. -/
def setTokens (d p : Nat) (n : Int) (s : State) : State :=
  { s with fwd := { s.fwd with tokens := SMap.set (fun _ => 0) s.fwd.tokens (d * 4096 + p) n } }

/-- LEVEL of a partition's bucket, in 1/65,536 of a cell (R147). -/
def levelOf (p : Nat) (s : State) : Int := SMap.get (fun _ => 0) s.fwd.level p

/-- The state with LEVEL set. -/
def setLevel (p : Nat) (n : Int) (s : State) : State :=
  { s with fwd := { s.fwd with level := SMap.set (fun _ => 0) s.fwd.level p n } }

/-- One pending token request served: a block of 16 while LEVEL is at least 1 (R147). -/
def serveToken (r : Nat × Nat) (s : State) : State :=
  if levelOf r.2 s < 65536 || s.slices.frozen then s
  else
    let s1 := setTokens r.1 r.2 (tokensOf r.1 r.2 s + 16) (setLevel r.2 (levelOf r.2 s - 16 * 65536) s)
    { s1 with fwd := { s1.fwd with
      tokenReqs := s1.fwd.tokenReqs.filter (fun x => x ≠ r)
      lastToken := SMap.set (fun _ => 63) s1.fwd.lastToken (accountant r.2 s1) r.1 } }

/-- The pending token requests of partition `p`'s accountant served in rotating order, at first from D00 (log entry 84,
DESIGN CHOICE). -/
def serveTokens (p : Nat) (s : State) : State :=
  let mine := s.fwd.tokenReqs.filter fun r => accountant r.2 s = accountant p s
  (rotate (SMap.get (fun _ => 63) s.fwd.lastToken (accountant p s)) mine).foldl (fun s r => serveToken r s) s

/-- What a bucket of rate RATE gains in `k` slice clocks, of which 2,000 make a µs: RATE × N ÷ 15 cells a µs in steps equal to
1/65,536 of a cell (R147; log entry 117, DEDUCED). -/
def bucketGain (rate n k : Nat) : Nat := rate * n * 65536 * k / (15 * 2000)

/-- Slice clock `k` of a bucket: its step, the limit BURST, then the requests (R147). -/
def bucketClock (p k : Nat) (s : State) : State :=
  let gain := bucketGain (gx PART_SHAPE.RATE p s) (nSlices s) (k + 1) - bucketGain (gx PART_SHAPE.RATE p s) (nSlices s) k
  serveTokens p (setLevel p (min (levelOf p s + gain) (gx PART_SHAPE.BURST p s * 65536)) s)

/-- `n` slice clocks of a bucket from clock `k` on. -/
def bucketClocks (p : Nat) : Nat → Nat → State → State
  | _, 0, s => s
  | k, n + 1, s => bucketClocks p (k + 1) n (bucketClock p k s)

/-- The slice clocks that a local clock of 0.4 ns units has seen: one each 0.5 ns. -/
def sliceClocks (loc : Nat) : Nat := loc * 4 / 5

/-- The slice clocks of a bucket in the reference cycle that ends now (R147). -/
def bucketStep (p : Nat) (s : State) : State :=
  let n := sliceClocks (locOf .ox9 s)
  let k := sliceClocks (locOf .ox9 s - 16)
  bucketClocks p k (n - k) s

/-! ### Ageing (R42, R116) -/

/-- The age of a stamp now, in units of 256 ft (R42). -/
def ageOf (stamp now : Nat) : Nat := (now / 256 + 2 ^ 16 - stamp % 2 ^ 16) % 2 ^ 16

/-- The packet age limit in units of 256 ft: ⌈AGE_LIMIT × 1,000 ÷ 102.4⌉ (R116). -/
def ageLimit (s : State) : Nat := ceilDiv (gx FWD_CTRL.AGE_LIMIT 0 s * 10000) 1024

/-- Whether ageing applies to a VC (R116). -/
def vcAged (v : Nat) : Bool := v == 0 || v == 1 || v == 3

/-- The stamp lies ahead of fabric time (R116). -/
def stampAhead (h : Header) (s : State) : Bool := decide (ageOf h.ageStamp.toNat (ft s) ≥ 32768)

/-- A packet is older than a limit (R116). -/
def agedPast (limit : Nat) (h : Header) (s : State) : Bool :=
  vcAged h.vc.toNat && !stampAhead h s && decide (ageOf h.ageStamp.toNat (ft s) > limit)

/-- A packet ages out (R116). -/
def agedOut (h : Header) (s : State) : Bool := agedPast (ageLimit s) h s

/-- AGE_STAMP_AHEAD counted where it applies (R116). -/
def countAhead (d : Nat) (h : Header) (s : State) : State :=
  if vcAged h.vc.toNat && stampAhead h s then countD d .ageStampAhead s else s

/-- The stamp of a packet injected now: ft[23:8] (R42). -/
def stampNow (s : State) : BitVec 16 := BitVec.ofNat 16 (ft s / 256)

/-! ### Responses the OX9 synthesises (R49) -/

/-- Requests of the Common window that are answered as non-posted ones are (R98). -/
def cohRequest (o : Nat) : Bool := o == opGETS || o == opGETM || o == opUPG || o == opWB

/-- A synthesised answer to a coherence request: COH_DATA with the status and no data, as R98 gives it; for COH_WB a
COH_ACK of kind WB_DONE (log entry 13, DEDUCED). -/
def synthCoh (h : Header) (st : Nat) (s : State) : Packet :=
  { hdr :=
      { h with
        opcode := BitVec.ofNat 6 (if h.opcode.toNat = opWB then opACK else opDATA)
        vc := 4
        status := BitVec.ofNat 4 st
        srcEp := BitVec.ofNat 12 (gx FWD_CTRL.OX9_EP 0 s)
        dstEp := h.srcEp
        enc := false
        len := 0
        lcId := 0
        keySlot := 0
        subop := if h.opcode.toNat = opWB then 1 else 0
        mc := false
        mcg := 0
        ageStamp := stampNow s
        seq := 0 }
    payload := [], trailer := [] }

/-- A synthesised response to a request header. -/
def synthRsp (h : Header) (st : Nat) (s : State) : Packet :=
  let o := rspOf h.opcode.toNat
  { hdr :=
      { h with
        opcode := BitVec.ofNat 6 o
        vc := if o = opCTLRSP then 5 else 1
        status := BitVec.ofNat 4 st
        srcEp := BitVec.ofNat 12 (gx FWD_CTRL.OX9_EP 0 s)
        dstEp := h.srcEp
        enc := false
        len := 0
        lcId := 0
        keySlot := 0
        subop := 0
        mc := false
        mcg := 0
        ageStamp := stampNow s
        seq := 0 }
    payload := [], trailer := [] }

/-! ### Queues -/

/-- The egress queue of a port and VC. -/
def queueOf (p v : Nat) (s : State) : List Copy := SMap.get (fun _ => []) s.fwd.queues (p * 8 + v)

/-- The state with that queue set. -/
def setQueue (p v : Nat) (q : List Copy) (s : State) : State :=
  { s with fwd := { s.fwd with queues := SMap.set (fun _ => []) s.fwd.queues (p * 8 + v) q } }

/-- The stored packet of an identity. -/
def bufOf (pid : Nat) (s : State) : Option BufPkt := s.fwd.bufs.find? fun b => b.pid = pid

/-- The state with a stored packet replaced. -/
def setBuf (b : BufPkt) (s : State) : State :=
  { s with fwd := { s.fwd with bufs := s.fwd.bufs.map fun x => if x.pid = b.pid then b else x } }

/-- The cells of a queue entry still to leave. -/
def copyCells (c : Copy) (s : State) : Nat := ((bufOf c.pid s).map (·.cells)).getD 0 - c.sent

/-- The depth of an egress queue in cells (R132, R142). -/
def queueCells (p v : Nat) (s : State) : Nat := ((queueOf p v s).map fun c => copyCells c s).sum

/-- The buffer of the map being built (R149): the one that is not done. -/
def cmapBuf (s : State) : Nat := 1 - gx CMAP_CTL.DONE_BUF 0 s

/-- A field of the record of port `p` in the map being built, raised to at least `v`. -/
def cmapMax (f : Fld) (p v : Nat) (s : State) : State :=
  if s.obs.cmapOn then
    let i := 288 * cmapBuf s + p
    sx f i (max (gx f i s) (min v (2 ^ f.len - 1))) s
  else s

/-- A field of that record raised by one, saturating. -/
def cmapAdd (f : Fld) (p : Nat) (s : State) : State :=
  if s.obs.cmapOn then satAdd .ox9 f (288 * cmapBuf s + p) 1 s else s

/-- The peak depth of a port's queue recorded (Table 6-14). -/
def cmapPeak (p v : Nat) (s : State) : State :=
  if v = 0 then cmapMax CMAP_REC.PEAK_VC0 p (queueCells p v s) s
  else if v = 2 then cmapMax CMAP_REC.PEAK_VC2 p (queueCells p v s) s
  else if v = 3 then cmapMax CMAP_REC.PEAK_VC3 p (queueCells p v s) s
  else s

/-- A copy joined to the tail of a port's queue. -/
def enqueue (p v : Nat) (c : Copy) (s : State) : State := cmapPeak p v (setQueue p v (queueOf p v s ++ [c]) s)

/-- A copy of a stored packet is done: with the last, the packet's cells return to their pool (R115). -/
def copyDone (pid : Nat) (s : State) : State :=
  match bufOf pid s with
  | none => s
  | some b =>
    if b.copies ≤ 1 then
      uncharge b.charge b.cells { s with fwd := { s.fwd with bufs := s.fwd.bufs.filter fun x => x.pid ≠ pid } }
    else setBuf { b with copies := b.copies - 1 } s

/-! ### Tracking (R53, R110) -/

/-- The tracking entry that a response answers. -/
def trackFor (h : Header) (s : State) : Option Track :=
  s.fwd.tracks.find? fun t => t.srcEp = h.dstEp.toNat && t.tag = h.tag.toNat && rspOf t.opcode = h.opcode.toNat

/-- The tracking entry of a request. -/
def trackOf (h : Header) (s : State) : Option Track :=
  s.fwd.tracks.find? fun t => t.srcEp = h.srcEp.toNat && t.tag = h.tag.toNat && t.opcode = h.opcode.toNat

/-- A Skipper. -/
def skipOf (k : Nat) (s : State) : Skipper := SMap.get (fun _ => Skipper.reset) s.skips k
/-- The state with a Skipper changed. -/
def modSkip (k : Nat) (f : Skipper → Skipper) (s : State) : State :=
  { s with skips := SMap.set (fun _ => Skipper.reset) s.skips k (f (skipOf k s)) }

/-- The remote entry of a request clears (R323). -/
def clearRemote (src tag o : Nat) (x : Skipper) : Skipper :=
  { x with remote := x.remote.filter fun r =>
      !(r.hdr.srcEp.toNat == src && r.hdr.tag.toNat == tag && r.hdr.opcode.toNat == o) }

/-- A response of a non-posted request: it has the buffer space of its request's reservation (R110). -/
def isResponse (o : Nat) : Bool := isRsp o || o == opCTLRSP

/-- A tracking entry frees, and the Skippers' remote entries for it clear (R323); of its reservation `keep` cells of the
reserve and of the remainder stay charged (R110). -/
def freeTrackBut (keep : Nat × Nat) (t : Track) (s : State) : State :=
  let s1 := uncharge (.vc 1 (t.resv - keep.1) (t.resvShared - keep.2)) 0 s
  modSkip 1 (clearRemote t.srcEp t.tag t.opcode) (modSkip 0 (clearRemote t.srcEp t.tag t.opcode)
    { s1 with fwd := { s1.fwd with tracks := s1.fwd.tracks.erase t } })

/-- A tracking entry frees, its reservation with it (R110). -/
def freeTrack (t : Track) (s : State) : State := freeTrackBut (0, 0) t s

/-- One cell of those charged to a reserve and the remainder. -/
def oneCell (r sh : Nat) : Nat × Nat := if 0 < r then (1, 0) else (0, min 1 sh)

/-- The entry of a request frees; the response that is formed for it has a cell of the reservation (R49, R110). -/
def takeReserved (h : Header) (s : State) : Option Charge × State :=
  match trackOf h s with
  | some t => let k := oneCell t.resv t.resvShared; (some (.vc 1 k.1 k.2), freeTrackBut k t s)
  | none => (none, s)

/-- The entries of a tracking bank. -/
def bankCount (b : Nat) (s : State) : Nat := (s.fwd.tracks.filter fun t => t.bank = b).length

/-- The slice die that holds bank `b`: its own, or the one whose second bank set took it (R18); 16 where none does (R29). -/
def bankAt (b : Nat) (s : State) : Nat := nth s.slices.bankHost b

/-- The tracking banks that a slice die holds. -/
def liveBanks (s : State) : List Nat := (List.range 16).filter fun b => bankAt b s < 16

/-- The tracking bank of a request's entry (log entry 85, DESIGN CHOICE). -/
def bankFor (h : Header) (s : State) : Nat :=
  let l := liveBanks s
  nth l (Config.trackBank h.srcEp.toNat h.tag.toNat % max 1 l.length)

/-! ### Destinations (Table 5-2) -/

/-- A partition may enter and leave by a port (R356). -/
def permitted (q p : Nat) (s : State) : Bool := bits (gx PORT_PSET.PERMIT (64 * q + p / 64) s) (p % 64) 1 == 1

/-- An endpoint is on the expulsion list (R386). -/
def expelledEp (ep : Nat) (s : State) : Bool := s.flash.expelled.contains (0, ep)

/-- The valid members of a port group, each with its index (Table 6-4). -/
def groupMembers (g : Nat) (s : State) : List (Nat × Nat) :=
  (if gx PGROUP.V0 g s = 1 then [(0, gx PGROUP.M0 g s)] else []) ++
  (if gx PGROUP.V1 g s = 1 then [(1, gx PGROUP.M1 g s)] else []) ++
  (if gx PGROUP.V2 g s = 1 then [(2, gx PGROUP.M2 g s)] else []) ++
  (if gx PGROUP.V3 g s = 1 then [(3, gx PGROUP.M3 g s)] else [])

/-- The rotating pointer of a die for a group (R132). -/
def groupPtr (d g : Nat) (s : State) : Nat := SMap.get (fun _ => 0) s.fwd.groupPtr (d * 1024 + g)

/-- The member stage 3 picks (R132): up, the fewest cells, ties by the pointer. -/
def pickMember (d g v : Nat) (s : State) : Option (Nat × Nat) :=
  let up := (groupMembers g s).filter fun m => portUp m.2 s
  let best := up.foldl (fun b m => min b (queueCells m.2 v s)) (2 ^ 40)
  let tied := up.filter fun m => queueCells m.2 v s = best
  let ptr := groupPtr d g s
  ((tied.filter fun m => ptr ≤ m.1) ++ tied.filter fun m => m.1 < ptr).head?

/-- The pointer moved past the member chosen (R132). -/
def movePtr (d g idx : Nat) (s : State) : State :=
  { s with fwd := { s.fwd with groupPtr := SMap.set (fun _ => 0) s.fwd.groupPtr (d * 1024 + g) ((idx + 1) % 4) } }

/-- SKIP_EPk is assigned (R320). -/
def skipAssigned (k : Nat) (s : State) : Bool :=
  gx HOST_CFG.EN k s == 1 || gwRegions.any fun r => gx GW_REGION.MODE r s != 0 && gx GW_REGION.SKIPPER r s == k

/-- The Skipper whose assigned endpoint is `ep` (Table 5-2, order 5). -/
def skipOfEp (ep : Nat) (s : State) : Option Nat :=
  if skipAssigned 0 s && gx GW_CTRL.SKIP_EP0 0 s == ep then some 0
  else if skipAssigned 1 s && gx GW_CTRL.SKIP_EP1 0 s == ep then some 1
  else none

/-- The directory bank of an address (R86). -/
def bankOfAddr (a : Nat) : Nat := Nat.xor (bits a 10 4) (bits a 48 4)

/-- The Luna die of a contribution (R151): the (CHUNK mod k)-th set bit of the tree's mask. Of an empty mask D52, which
answers by row 1 of Table 7-5: R103 does not list the case (log entry 86, DESIGN CHOICE). -/
def lunaDieOf (h : Header) (s : State) : Nat :=
  let m := if h.tree = 0 then gx LUNA_CTX.DIEMASK0 h.comm s else gx LUNA_CTX.DIEMASK1 h.comm s
  let ds := (List.range 8).filter fun d => bits m d 1 = 1
  nth ds (h.chunk % max 1 ds.length)

/-- REGION of a packet that carries an address. -/
def regionOf (h : Header) : Nat := if isRed h.opcode.toNat then 0 else addrRegion h.addr

/-- An entry is a gateway port (Table 16-1). -/
def isGateway (e : Entry) (s : State) : Bool :=
  match e with
  | .port p => gx PORT_BIND.ROLE p.val s == 1 && gx PORT_BIND.GW p.val s == 1
  | _ => false

/-- Class 7: the route table and the group's member (R130, R132). -/
def routeTarget (die : Nat) (h : Header) (s : State) : Target × Option (Nat × Nat) :=
  let i := 4096 * gx PART_RT.RTSET h.part.toNat s + h.dstEp.toNat
  if gx ROUTE.VALID i s = 0 || expelledEp h.dstEp.toNat s then (.noRoute, none)
  else
    let g := gx ROUTE.GROUP i s
    match pickMember die g h.vc.toNat s with
    | none => (.noRoute, none)
    | some (idx, p) => if permitted p h.part.toNat s then (.uni (.port p), some (g, idx)) else (.noRoute, none)

/-- A memory packet to a gateway region (Table 5-2, order 5). -/
def gwRegion (h : Header) : Bool := isMem h.opcode.toNat && decide (1 ≤ regionOf h) && decide (regionOf h ≤ 14)

/-- Class 5: the Skipper designated for a gateway region whatever EP holds, or the one DST_EP names (R36, R321, R324). -/
def skipTarget (e : Entry) (h : Header) (s : State) : Target :=
  if gwRegion h then
    let r := regionOf h
    let mode := gx GW_REGION.MODE r s
    if mode = 0 then .noRoute
    else if mode = 1 && isGateway e s then .noTransit (gx GW_REGION.SKIPPER r s)
    else .uni (.skip (gx GW_REGION.SKIPPER r s))
  else match skipOfEp h.dstEp.toNat s with
    | some k => .uni (.skip k)
    | none => .noRoute

/-- The egress of a segment: a member of its region's group, picked with the Skipper's pointer (R322, R132, R356). -/
def gwTarget (k : Nat) (h : Header) (s : State) : Target × Option (Nat × Nat) :=
  let g := gx GW_REGION.GROUP (regionOf h) s
  match pickMember (60 + k) g h.vc.toNat s with
  | none => (.noRoute, none)
  | some (idx, p) => if permitted p h.part.toNat s then (.uni (.port p), some (g, idx)) else (.noRoute, none)

/-- The target of a packet that has left its first choice behind: a segment of a Skipper takes its region's group again,
any other packet its route (R322, R380). -/
def againTarget (e : Entry) (h : Header) (s : State) : Target × Option (Nat × Nat) :=
  match e with
  | .die d =>
    if dieRole d.val = 3 && isMem h.opcode.toNat && gx GW_REGION.MODE (regionOf h) s == 1 then gwTarget (d.val - 60) h s
    else routeTarget d.val h s
  | e => routeTarget (entryDie e s) h s

/-- A request to the directory: a memory packet, COH_GET_S, COH_GET_M or COH_UPG. What answers the directory reaches its bank
whatever CW_CTRL.EN holds; a COH_WB is one of these, and where EN = 0 and no line is left it goes on to the home (R84; log entry
87, DESIGN CHOICE). -/
def cwRequest (o : Nat) : Bool := isMem o || o == opGETS || o == opGETM || o == opUPG

/-- The ports of a group but for the one that SRC_PRUNE takes out, each with whether it permits the packet's partition (R118,
R356). -/
def groupPorts (e : Entry) (h : Header) (g : Nat) (s : State) : List (Nat × Bool) :=
  let all := ((List.range 5).map fun w =>
    ((List.range 64).filter fun i => bits (gx MCG_PORTS.PORTS (8 * g + w) s) i 1 = 1).map (64 * w + ·)).flatten
  (all.filter fun p => p < 288 && !(gx MCG_CTL.SRC_PRUNE g s == 1 && (match e with | .port q => q.val == p | _ => false))).map
    fun p => (p, permitted p h.part.toNat s)

/-- Class 6: the owning directory bank (R36, R86); a request where EN = 0 meets none (R84). -/
def bankTarget (h : Header) (s : State) : Target :=
  if gx CW_CTRL.EN 0 s = 1 || !cwRequest h.opcode.toNat then .uni (.bank (bankOfAddr h.addr)) else .cwOff

/-- Stages 2 and 3: the destination of a packet, with the group and member chosen for class 7. A memory request goes by its
REGION first, whatever EP holds (R36), a VC4 packet of REGION 15 to its bank whatever DST_EP holds (R86); the rest by the
orders of Table 5-2 (R102). -/
def resolve (e : Entry) (h : Header) (s : State) : Target × Option (Nat × Nat) :=
  let o := h.opcode.toNat
  let mine := h.dstEp.toNat == gx FWD_CTRL.OX9_EP 0 s
  let r15 := regionOf h == 15
  let vc4 := h.vc == 4
  match e with
  | .dieClass7 d => routeTarget d.val h s
  | _ =>
    if h.mc then (.group h.mcg.toNat (gx MCG_CTL.MODE h.mcg.toNat s == 1) (groupPorts e h h.mcg.toNat s), none)
    else if o == opRCONTRIB && mine then (.uni (.luna (lunaDieOf h s)), none)
    else if o == opCTL && mine then (.uni .monarch, none)
    else if gwRegion h then (skipTarget e h s, none)
    else if r15 && (isMem o || vc4) then (bankTarget h s, none)
    else if mine && !vc4 && !r15 then (.noRoute, none)
    else if (skipOfEp h.dstEp.toNat s).isSome then (skipTarget e h s, none)
    else if vc4 || (isRsp o && r15) then (bankTarget h s, none)
    else routeTarget (entryDie e s) h s

/-- Directory bank `b`. -/
def cwBank (b : Nat) (s : State) : CwBank := SMap.get (fun _ => CwBank.reset) s.cw b

/-- What a directory bank takes into space reserved for it, whatever is held: COH_WB, COH_DATA and COH_ACK (R90). -/
def cohReserved (o : Nat) : Bool := o == opWB || o == opDATA || o == opACK

/-- The packets admitted for a directory bank, or a Skipper, that have not reached it. -/
def comingTo (k : Nat) (s : State) : Nat := SMap.get (fun _ => 0) s.fwd.coming k

/-- The state with their number set. -/
def setComing (k n : Nat) (s : State) : State :=
  { s with fwd := { s.fwd with coming := SMap.set (fun _ => 0) s.fwd.coming k n } }

/-- A request at a directory bank, which may have to wait there (R90, R92). -/
def bankWaits (h : Header) : Bool := !cohReserved h.opcode.toNat && !isRsp h.opcode.toNat

/-- A segment of a transfer between stages (R322, R323). -/
def isSegment (h : Header) (s : State) : Bool :=
  gwRegion h && (gx GW_REGION.MODE (regionOf h) s == 1 || gx GW_REGION.MODE (regionOf h) s == 3)

/-- A segment that its arrival Skipper records in the remote table (R323). -/
def recorded (h : Header) (s : State) : Bool :=
  gwRegion h && gx GW_REGION.MODE (regionOf h) s == 3 && nonPosted h.opcode.toNat

/-- A request for a directory bank whose wait queue is full, the places of the requests on their way to it taken (R90, R92). -/
def bankFull (t : Target) (h : Header) (s : State) : Bool :=
  match t with
  | .uni (.bank b) => bankWaits h && decide (2048 ≤ (cwBank b s).queue.length + comingTo b s)
  | _ => false

/-- An admitted request or segment is on its way to the queue of its bank, or to the store and the remote table of its
Skipper. -/
def noteComing (t : Target) (h : Header) (s : State) : State :=
  match t with
  | .uni (.bank b) => if bankWaits h then setComing b (comingTo b s + 1) s else s
  | .uni (.skip k) =>
    let s1 := if isSegment h s then setComing (16 + k) (comingTo (16 + k) s + 1) s else s
    if recorded h s then setComing (18 + k) (comingTo (18 + k) s1 + 1) s1 else s1
  | _ => s

/-- A packet that was on its way to a bank or a Skipper has come. -/
def hasCome (k : Nat) (s : State) : State := setComing k (comingTo k s - 1) s

/-! ### Marking and echoes (R142, R143) -/

/-- The mark of a packet that joins the queue of port `p` (R142). -/
def markLevel (p v : Nat) (s : State) : Nat :=
  let d := queueCells p v s
  if gx PORT_CMARK.EN p s = 0 then 0
  else if d ≥ gx PORT_CMARK.LVL3 p s then 3
  else if d ≥ gx PORT_CMARK.LVL2 p s then 2
  else if d ≥ gx PORT_CMARK.LVL1 p s then 1
  else 0

/-- The three bytes of an echo (Table 6-8). -/
def echoBytes (dst vc lvl : Nat) : List Byte :=
  [BitVec.ofNat 8 dst, BitVec.ofNat 8 (dst / 256 % 16 + vc % 8 * 16), BitVec.ofNat 8 (lvl % 4)]

/-- The cache of a port withholds an echo: the same pair within the last 1 µs, at the same or a higher level. -/
def echoCovered (p dst vc lvl : Nat) (s : State) : Bool :=
  (SMap.get (fun _ => []) s.obs.echoCache p).any fun e =>
    e.dst == dst && e.vc == vc && decide (lvl ≤ e.level) && decide (locOf .ox9 s ≤ e.sentFt + 2500)

/-- An echo formed at a port: withheld by the cache, or pending in place of an earlier one for the pair (R143). -/
def echoForm (p dst vc lvl : Nat) (s : State) : State :=
  if echoCovered p dst vc lvl s then countPort p .echoSuppressed 1 s
  else
    let q := (SMap.get (fun _ => []) s.obs.echoPend p).filter fun e => !(e.dst == dst && e.vc == vc)
    { s with obs := { s.obs with
      echoPend := SMap.set (fun _ => []) s.obs.echoPend p (q ++ [⟨dst, vc, lvl, locOf .ox9 s⟩]) } }

/-- A packet admitted to port `p` is marked and its echo formed (R142). -/
def mark (e : Entry) (p : Nat) (h : Header) (s : State) : State :=
  let v := h.vc.toNat
  let lvl := markLevel p v s
  if h.mc || !(v == 0 || v == 3) || lvl = 0 then s
  else
    let s1 := cmapMax CMAP_REC.MAX_LEVEL p lvl (cmapAdd CMAP_REC.MARKS p s)
    match e with
    | .port q => echoForm q.val h.dstEp.toNat v lvl s1
    | .die d => if dieRole d.val = 3 then emit (.skipEcho (d.val - 60) (echoBytes h.dstEp.toNat v lvl)) s1 else s
    | .dieClass7 d => if dieRole d.val = 3 then emit (.skipEcho (d.val - 60) (echoBytes h.dstEp.toNat v lvl)) s1 else s

/-! ### Sampling (R124, R125) -/

/-- One step of the Galois LFSR of x^32 + x^22 + x^2 + x + 1 (R124); it shifts right, a direction the rule does not state (log
entry 88, DESIGN CHOICE). -/
def lfsrStep (x : Nat) : Nat := if x % 2 = 1 then Nat.xor (x / 2) 0x80200003 else x / 2

/-- The selector of a port and direction; it starts from SEED, a SEED of zero from 1 (R124). -/
def selector (p dir : Nat) (s : State) : Nat :=
  SMap.get (fun _ => max 1 (gx SAMPLE_CTL.SEED p s)) s.obs.lfsr (2 * p + dir)

/-- The samples the Monarch's buffer holds, a number the spec does not state (log entry 3, DESIGN CHOICE); never more than its
16 MiB hold records of 96 bytes, less what its fenced rows take (R30, R34). -/
def sampleCap (s : State) : Nat := min Config.sampleCap ((2 ^ 24 - fencedSpan (activeMonarch s) 0 s) / 96)

/-- A sample delivered to the Monarch's buffer, or dropped beyond 2 × 10^8 a second or where the buffer is full (R125), or during
a Monarch switch (R389), which the model counts in the same way (log entry 134, DESIGN CHOICE). -/
def takeSample (p dir : Nat) (pk : Packet) (s : State) : State :=
  let win := ft s / 2500
  let n := if s.obs.sampleWin = win then s.obs.sampleCount else 0
  let s1 := { s with obs := { s.obs with sampleWin := win, sampleCount := n + 1 } }
  let drops := SMap.get (fun _ => 0) s.obs.sampleDrops (2 * p + dir)
  if n ≥ 200 || s.obs.samples.length ≥ sampleCap s || switching s then
    countG .sampleDrop { s1 with obs := { s1.obs with
      sampleCount := n, sampleDrops := SMap.set (fun _ => 0) s.obs.sampleDrops (2 * p + dir) (min (drops + 1) (2 ^ 32 - 1)) } }
  else
    { s1 with obs := { s1.obs with
      samples := s1.obs.samples ++ [{ ft := ft s, port := p, egress := dir == 1, part := pk.hdr.part.toNat
                                      pktLen := packetBytes pk.hdr, qual := qualOf .ox9 s, drops := drops
                                      bytes := pk.bytes.take 64 }]
      sampleDrops := SMap.set (fun _ => 0) s.obs.sampleDrops (2 * p + dir) 0 } }

/-- A packet passes a port in a direction (0 in, 1 out): the selector steps and may pick it (R124). -/
def sample (p dir : Nat) (pk : Packet) (s : State) : State :=
  let en := if dir = 0 then gx SAMPLE_CTL.EN_IN p s else gx SAMPLE_CTL.EN_OUT p s
  if en = 0 then s
  else
    let x := lfsrStep (selector p dir s)
    let s1 := { s with obs := { s.obs with
      lfsr := SMap.set (fun _ => max 1 (gx SAMPLE_CTL.SEED p s)) s.obs.lfsr (2 * p + dir) x } }
    if x % 2 ^ gx SAMPLE_CTL.RATE_LOG2 p s = 0 then takeSample p dir pk s1 else s1

/-! ### Admission (stage 4) -/

/-- How the lookup of a packet ends: admitted or discarded; failed with the status a non-posted request receives; held. -/
inductive Fate where
  | done (s : State)
  | fail (st : Nat) (s : State)
  | held (x : Held) (s : State)
deriving DecidableEq, Repr

/-- The shaper check applies (R146). -/
def shaped (e : Entry) (h : Header) (s : State) : Bool :=
  let v := h.vc.toNat
  gx PART_SHAPE.EN h.part.toNat s == 1 &&
    (v == 0 || v == 3 ||
      (h.opcode.toNat == opRCONTRIB && match e with | .port p => gx PORT_BIND.ROLE p.val s == 0 | _ => false))

/-- The governor's holds are in force and pick this packet; which ones it picks the spec leaves open (R452, log entry 3, DESIGN CHOICE). -/
def govPicks (h : Header) (s : State) : Bool :=
  gb GOV_STAT.HOLDING 0 s && (h.vc == 0 || h.vc == 2 || h.vc == 3) && freeVal s % 2 == 1

/-- The cells of a packet charged to its pool (R109, R110, R112): a response takes those of its request's reservation, else
free space of VC1's. -/
def chargeCells (die : Nat) (h : Header) (n : Nat) (pre : Option Charge) (s : State) : Option (State × Charge) :=
  let v := h.vc.toNat
  match pre with
  | some c => some (s, c)
  | none =>
    if v = 0 || v = 2 || v = 3 then
      let p := h.part.toNat
      if n ≤ grantOf die p s then some (setGrant die p (grantOf die p s - n) s, .part p) else none
    else if isResponse h.opcode.toNat then
      if ((trackFor h s).map (fun t => !t.rspIn)).getD false then some (s, .resv) else chargeVc 1 n s
    else chargeVc v n s

/-- The admission counters of a partition (Table 18-4). -/
def countAdmit (h : Header) (n : Nat) (s : State) : State :=
  let p := h.part.toNat
  let s1 := countN .ox9 (.part p) .cellsAdmitted n s
  if h.vc == 0 || h.vc == 3 then countP p .pktsAdmitted s1 else if h.vc == 2 then countP p .contribsAdmitted s1 else s1

/-- The payload rate of an entry in lanes: a die counts as arriving at the egress port's rate (R107). -/
def entryWidth (e : Entry) (egress : Nat) (s : State) : Nat :=
  match e with
  | .port q => portWidth q.val s
  | _ => portWidth egress s

/-- Cut-through is allowed from an entry to a port (R107). -/
def cutOk (e : Entry) (p : Nat) (s : State) : Bool := decide (portWidth p s ≤ entryWidth e p s)

/-- The tracking entry and the reservation of a non-posted request; none where its bank is full or no cells are free. A
request that a die forwards keeps the entry it has, which takes its egress (R53). -/
def makeTrack (e : Entry) (h : Header) (egress : Option Nat) (s : State) : Except HoldWhy State :=
  if !nonPosted h.opcode.toNat then .ok s
  else if (trackOf h s).any (fun t => t.egress.isNone) then
    .ok { s with fwd := { s.fwd with
      tracks := s.fwd.tracks.map fun x => if some x = trackOf h s then { x with egress := egress } else x } }
  else if liveBanks s = [] || bankCount (bankFor h s) s ≥ 8192 then .error .tracking
  else
    match chargeVc 1 (rspCells h) s with
    | some (s1, .vc _ r sh) =>
      .ok { s1 with fwd := { s1.fwd with
        tracks := s1.fwd.tracks ++ [{ bank := bankFor h s, srcEp := h.srcEp.toNat, tag := h.tag.toNat, part := h.part.toNat
                                      opcode := h.opcode.toNat, addr := h.addr, ingress := e, egress := egress
                                      resv := r, resvShared := sh, rspIn := false, hdr := h }] } }
    | _ => .error .reservation

/-- A response's tracking entry notes that it arrives (R379). -/
def noteRsp (h : Header) (s : State) : State :=
  if isResponse h.opcode.toNat then
    match trackFor h s with
    | some t => { s with fwd := { s.fwd with
        tracks := s.fwd.tracks.map fun x => if x = t then { t with rspIn := true } else x } }
    | none => s
  else s

/-! ### Marked tails (R31, R33, R108) -/

/-- The traces of a tail marked at its entry (R108); the causes are numbered by log entry 24. -/
def tailMark (e : Entry) (part cause : Nat) (s : State) : State :=
  let s1 := countP part .tailMarked s
  match e with
  | .port p => raisePort .tailMark true p.val [na cause] (countPort p.val .tailMarked 1 s1)
  | _ => raiseDie .tailMark true (entryDie e s) [na cause] (countD (entryDie e s) .tailMarked s1)

/-- A packet whose EOP cell came at a length other than its header's is mended and its tail marked (R108). -/
def mend (e : Entry) (pk : Packet) (tl : Tail) (s : State) : Packet × Tail × State :=
  if !tl.eop || pk.lengthOk then (pk, tl, s)
  else (pk.fitted, { tl with bad := true, cause := 2 }, tailMark e pk.hdr.part.toNat 2 s)

/-- Bytes kept to `n`, zeros after (R108). -/
def zeroFrom (n : Nat) (bs : List Byte) : List Byte := bs.take n ++ List.replicate (bs.length - n) 0

/-- A packet brought to its header's length with the cells from cell `i` on zero-filled (R108). -/
def zeroCells (pk : Packet) (i : Nat) : Packet :=
  let f := pk.fitted
  let body := zeroFrom (112 * i - 32) (f.payload ++ f.trailer)
  { f with payload := body.take f.payload.length, trailer := body.drop f.payload.length }

/-- A stored packet's cells from cell `i` on zero-filled and its tail marked for a cause (R108). -/
def cutPacket (b : BufPkt) (i cause : Nat) : BufPkt :=
  { b with pkt := zeroCells b.pkt i, tail := { b.tail with eop := true, bad := true, cells := b.cells, cause := cause } }

/-- The SRAM read of a cell (R31, R33): an uncorrectable word marks the packet's tail (R108). -/
def readCell (b : BufPkt) (i : Nat) (r : SramRead) (s : State) : BufPkt × State :=
  let d := 36 + nth b.stripe i
  match r with
  | .clean | .atRow _ _ => (b, s)
  | .corrected bank row => (b, sramCorrected d bank row s)
  | .uncorrectable bank row =>
    let b := { b with tail := { b.tail with bad := true } }
    (b, countP b.pkt.hdr.part.toNat .tailMarked (countD d .tailMarked (sramUncorrectable d bank row (setBuf b s))))

/-! ### Packets in their place -/

/-- The stored form of a packet. -/
def store (e : Entry) (pk : Packet) (tl : Tail) (stripe : List Nat) (c : Charge) (copies : Nat) (ox7 : List Nat)
    (dest : Option Dest) (s : State) : State :=
  { s with fwd := { s.fwd with
    nextPid := s.fwd.nextPid + 1
    bufs := s.fwd.bufs ++ [{ pid := s.fwd.nextPid, pkt := pk, src := e, cells := packetCells pk.hdr, stripe := stripe
                             tail := { tl with reads := [] }, copies := copies, ox7 := ox7, charge := c
                             wait := !ox7.isEmpty || dest.isSome, dest := dest }] } }

/-- The traces of a multicast packet, or of a copy, that its group or a member's port does not permit (R118, R356). -/
def mcgDenyTraces (d : Nat) (h : Header) (g : Nat) (s : State) : State :=
  raise .ox9 { Event.mk0 .ox9 .partDeny false d 10 h.part.toNat [na h.part.toNat, na g] s with
    part := some h.part.toNat } (countP h.part.toNat .mcgDeny (countD d .mcgDeny s))

/-- The ports of a group that receive copies: up and permitted; with the counters of those that do not (R118, R356). -/
def mcMembers (e : Entry) (h : Header) (g : Nat) (ps : List (Nat × Bool)) (s : State) : List Nat × State :=
  ps.foldl (fun (acc : List Nat × State) p =>
    if !portUp p.1 acc.2 then (acc.1, countN .ox9 (.die (portDie p.1 acc.2)) .mcCopySkipped 1 acc.2)
    else if !p.2 then (acc.1, mcgDenyTraces (entryDie e s) h g acc.2)
    else (acc.1 ++ [p.1], acc.2)) ([], s)

/-- One native copy: ready members start at once, the others receive a residue entry (R119). -/
def mcCopy (e : Entry) (pid v : Nat) (p : Nat) (s : State) : State :=
  let ready := (queueOf p v s).isEmpty && decide (nth (getAux p s).credits v ≥ 1) && cutOk e p s
  enqueue p v { pid := pid, cut := cutOk e p s, started := ready, sent := 0, since := ft s } s

/-- A CTL comes in at the Monarch (R431). -/
def ctlArrives (pk : Packet) (bad : Bool) (s : State) : State :=
  { s with monarch := { s.monarch with ctlIn := s.monarch.ctlIn ++ [(pk, bad)] } }

/-- A response that a Skipper or the Monarch takes has left forwarding: its request's tracking entry frees. -/
def delivered (dst : Dest) (pk : Packet) (bad : Bool) (s : State) : State :=
  let h := pk.hdr
  let s1 := if dst = .monarch && h.opcode.toNat = opCTL then ctlArrives pk bad s else s
  match dst with
  | .skip _ | .monarch =>
    if isResponse h.opcode.toNat then (match trackFor h s1 with | some t => freeTrack t s1 | none => s1) else s1
  | _ => s1

/-- A die takes a stored packet whose EOP cell is in, a Luna die the rest of one that streams to it (R107). The reads of its
cells may mark its tail; where a row is being copied, it waits (R32, R108). -/
def handOver (pid : Nat) (reads : List (Nat × SramRead)) (s : State) : State :=
  match bufOf pid s with
  | none => s
  | some b =>
    match b.dest with
    | none => s
    | some dst =>
      if !b.tail.eop || reads.any (fun r => rowStalled (36 + nth b.stripe r.1) r.2 s) then s
      else
        let (b, s1) := reads.foldl (fun (a : BufPkt × State) r => readCell a.1 r.1 r.2 a.2) (b, s)
        delivered dst b.pkt b.tail.bad (copyDone pid (emit
          (if b.wait then .deliver dst b.pkt b.tail.bad else .deliverTail dst b.pkt.hdr b.tail.bad) s1))

/-- A packet for a die is stored until its EOP cell is in; a Luna die takes its cells as they arrive (R107). -/
def sendToDie (dst : Dest) (pk : Packet) (tl : Tail) (pid : Nat) (s : State) : State :=
  if tl.eop then handOver pid tl.reads s
  else
    match dst, bufOf pid s with
    | .luna _, some b => setBuf { b with wait := false } (emit (.deliver dst pk false) s)
    | _, _ => s

/-- A packet given its stripe, its tracking entry and its place (R105, R53, R119). -/
def place (x : Held) (t : Target) (c : Charge) (s : State) : Except HoldWhy State :=
  let e := x.src
  let h := x.pkt.hdr
  let d := entryDie e s
  let n := packetCells h
  let st := stripeList (stripePtr d s) n s
  let egress := match t with | .uni (.port p) => some p | _ => none
  match makeTrack e h egress s with
  | .error w => .error w
  | .ok s1 =>
    let s2 := noteComing t h (countAdmit h n (noteRsp h (moveStripe d n s1)))
    let pid := s2.fwd.nextPid
    match t with
    | .uni dst =>
      let (pk, tl, s3) := mend e x.pkt x.tail s2
      .ok (match dst with
        | .port p =>
          let s4 := mark e p h s3
          enqueue p h.vc.toNat { pid := pid, cut := cutOk e p s4, started := false, sent := 0, since := 0 }
            (store e pk tl st c 1 [] none s4)
        | _ => sendToDie dst pk tl pid (store e pk tl st c 1 [] (some dst) s3))
    | .group g ox7 ps =>
      let (ms, s3) := mcMembers e h g ps s2
      if ms.isEmpty then .ok (uncharge c n s3)
      else if ox7 then .ok (store e x.pkt x.tail st c ms.length ms none s3)
      else
        let (pk, tl, s4) := mend e x.pkt x.tail s3
        .ok (ms.foldl (fun s p => mcCopy e pid h.vc.toNat p s) (store e pk tl st c ms.length [] none s4))
    | _ => .ok s2

/-- A Skipper that cannot take a packet: its store of waiting segments is full, with the places of those on their way to it
taken, or its remote table for a non-posted segment (R322, R323). -/
def skipFull (t : Target) (h : Header) (s : State) : Option HoldWhy :=
  match t with
  | .uni (.skip k) =>
    if 8192 ≤ (skipOf k s).waiting.length + comingTo (16 + k) s then some .skipper
    else if recorded h s && decide (32768 ≤ (skipOf k s).remote.length + comingTo (18 + k) s) then some .remote
    else none
  | _ => none

/-- The counter of a hold, once per packet held. A packet that finds no cells of its VC's reserve or of the remainder counts
nothing (log entry 89, DESIGN CHOICE). -/
def countHold (d : Nat) (x : Held) (w : HoldWhy) (s : State) : State :=
  let p := x.pkt.hdr.part.toNat
  match w, x.target with
  | .quota, _ => countP p .quotaHold (countD d .quotaHold s)
  | .shape, _ => countP p .shapeHold (countD d .shapeHold s)
  | .governor, _ => countD d .govHold s
  | .skipper, some (.uni (.skip k)) => countD (60 + k) .gwHold s
  | _, _ => s

/-- A packet is held for a reason, counted the first time. -/
def holdFor (x : Held) (w : HoldWhy) (s : State) : Fate :=
  if x.noted.contains w then .held { x with why := w } s
  else .held { x with why := w, noted := x.noted ++ [w] } (countHold (entryDie x.src s) x w s)

/-- Whether the governor holds a packet; a free value is drawn where the spec leaves open which packets it holds (R452). -/
def governed (h : Header) (s : State) : State :=
  if gb GOV_STAT.HOLDING 0 s && (h.vc == 0 || h.vc == 2 || h.vc == 3) then draw s else s

/-- The space a directory bank reserves for what it never holds (R90). -/
def bankSpace (t : Target) (h : Header) (s : State) : Option (State × Charge) :=
  match t with
  | .uni (.bank _) => if cohReserved h.opcode.toNat then some (s, .resv) else none
  | _ => none

/-- Stage 4 after the age check: shaper, governor, buffer, stripe and tracking, in this order (R146). The tokens leave as the
shaper check passes. A VC1 packet or response that finds no cells is discarded (R110); a VC4 or VC5 packet waits for cells, with no
credit withheld (log entry 89, DESIGN CHOICE). -/
def admitTo (x : Held) (t : Target) (s : State) : Fate :=
  let h := x.pkt.hdr
  let d := entryDie x.src s
  let p := h.part.toNat
  let n := packetCells h
  let due := x.shape && !x.paid
  if due && decide (tokensOf d p s < 1) then holdFor x .shape s
  else
    let y := { x with paid := x.paid || due }
    let s1 := if due then setTokens d p (tokensOf d p s - n) s else s
    if govPicks h s1 then holdFor y .governor (governed h s1)
    else
      let s2 := governed h s1
      match (if bankFull t h s2 then some HoldWhy.bank else skipFull t h s2) with
      | some w => holdFor y w s2
      | none =>
        match (chargeCells d h n x.pre s2).or (bankSpace t h s2) with
        | none =>
          if h.vc == 1 || isResponse h.opcode.toNat then .done (countD d .rspNoSpace s2)
          else holdFor y (if h.vc == 4 || h.vc == 5 then .room else .quota) s2
        | some (s3, c) =>
          match place x t c s3 with
          | .error w => holdFor y w s2
          | .ok s4 => .done s4

/-! ### Discards and their traces -/

/-- The traces of a packet that ages out, at the die that discards it (R117). -/
def agedTraces (d : Nat) (h : Header) (s : State) : State :=
  raise .ox9 { Event.mk0 .ox9 .aged true d 2 h.srcEp.toNat [na h.srcEp.toNat, na h.part.toNat] s with
    part := some h.part.toNat, srcEp := some h.srcEp.toNat }
    (countP h.part.toNat .agedPkt (countD d .agedPkt s))

/-- The traces of a packet without a destination (R103). -/
def noRouteTraces (d : Nat) (h : Header) (s : State) : State :=
  raise .ox9 { Event.mk0 .ox9 .noRoute true d 2 h.dstEp.toNat [na h.dstEp.toNat, na (regionOf h)] s with
    dstEp := some h.dstEp.toNat } (countP h.part.toNat .noRoutePkt (countD d .noRoutePkt s))

/-- NO_ROUTE raised without the NO_ROUTE_PKT counter (R84, R324). -/
def raiseNoRoute (d : Nat) (h : Header) (s : State) : State :=
  raise .ox9 { Event.mk0 .ox9 .noRoute true d 2 h.dstEp.toNat [na h.dstEp.toNat, na (regionOf h)] s with
    dstEp := some h.dstEp.toNat } s

/-- An entry's held packets of a VC keep all its credit back: those of VC0, VC2 and VC3 (R139). -/
def holdsCredit (e : Entry) (v : Nat) (s : State) : Bool :=
  (v == 0 || v == 2 || v == 3) && s.fwd.held.any fun x => x.src = e && x.pkt.hdr.vc.toNat == v

/-- The VC4 credits that an entry keeps back: those of the requests held for a full bank, one cell each (R90). -/
def bankHolds (e : Entry) (s : State) : Nat :=
  ((s.fwd.held.filter fun x => x.src = e && x.pkt.hdr.vc == 4 && x.why = .bank).map fun x => packetCells x.pkt.hdr).sum

/-- The owed and the withheld credits of a VC with up to `n` of their sum withheld. -/
def shiftOwed (v n : Nat) (x : LinkAux) : LinkAux :=
  let sum := nth x.owed v + nth x.withheld v
  { x with owed := setAt x.owed v (sum - min n sum), withheld := setAt x.withheld v (min n sum) }

/-- The credit of a VC as an entry's held packets leave it: a held packet's entry withholds its VC's credit, what is owed of it
with it, until none of its packets keeps it back (R53, R114); of VC4 the credit of the requests held for a full bank alone, that
of COH_WB, COH_DATA and COH_ACK never (R90). -/
def settleCredits (e : Entry) (v : Nat) (s : State) : State :=
  match e with
  | .port p =>
    let x := getAux p.val s
    if v = 4 then setAux p.val (shiftOwed 4 (bankHolds e s) x) s
    else setAux p.val (shiftOwed v (if holdsCredit e v s then nth x.owed v + nth x.withheld v else 0) x) s
  | _ => s

/-- The state with a packet held at its entry, the last of its entry and VC. -/
def hold (x : Held) (s : State) : State :=
  settleCredits x.src x.pkt.hdr.vc.toNat { s with fwd := { s.fwd with held := s.fwd.held ++ [x] } }

/-- A held packet keeps a later one of its entry and VC behind it (R114): on VC4 one that is held for a full bank keeps back the
requests of that bank alone (R90). -/
def keepsBehind (x : Held) (h : Header) : Bool :=
  x.why ≠ .bank || h.vc != 4 || bankOfAddr x.pkt.hdr.addr == bankOfAddr h.addr

/-- A packet waits behind others of its entry and VC (R114); what a directory bank never holds does not (R90). -/
def waitsBehind (e : Entry) (h : Header) (s : State) : Bool :=
  !cohReserved h.opcode.toNat && s.fwd.held.any fun x => x.src = e && x.pkt.hdr.vc == h.vc && keepsBehind x h

/-- Why a packet waits behind others: on VC4 a request behind those of its bank waits for the bank as they do (R90). -/
def behindWhy (e : Entry) (h : Header) (s : State) : HoldWhy :=
  if h.vc == 4 && s.fwd.held.any (fun x => x.src = e && x.pkt.hdr.vc == 4 && x.why = .bank && keepsBehind x h) then .bank
  else .behind

/-- A packet as it comes to stage 2. -/
def arrival (e : Entry) (pk : Packet) (tl : Tail) : Held :=
  { src := e, pkt := pk, tail := tl, why := .behind, target := none, limit := 0, shape := false, paid := false, pre := none
    noted := [] }

/-- The tail of a packet that has come whole. -/
def Tail.whole (pk : Packet) (bad : Bool) : Tail :=
  { eop := true, bad := bad, inBad := bad, cells := packetCells pk.hdr, cause := 0, reads := [] }

/-- Stage 4: the age check, then admission (R116, R146). A stamp ahead counts where the packet is first checked. -/
def stage4 (x : Held) (t : Target) (s : State) : Fate :=
  let h := x.pkt.hdr
  let d := entryDie x.src s
  if agedPast x.limit h s then .fail stAged (agedTraces d h s)
  else admitTo x t (if x.why = .behind then countAhead d h s else s)

/-- Stages 2 and 3 of a packet: it keeps what they found for it, but for a port that is down (R132, R322, R426); a choice is
noted at once in its die's pointer. -/
def choose (x : Held) (s : State) : Target × State :=
  let d := entryDie x.src s
  let (t, grp) :=
    match x.target with
    | some (.uni (.port p)) => if portUp p s then (.uni (.port p), none) else againTarget x.src x.pkt.hdr s
    | some t => (t, none)
    | none => resolve x.src x.pkt.hdr s
  (t, match grp with | some (g, i) => movePtr d g i s | none => s)

/-- A packet with what stages 2 and 3 found for it, and with the configuration that stage 4 goes by: that in force as it first
comes to them (R426; log entry 118, DEDUCED). -/
def noteTarget (x : Held) (t : Target) (s : State) : Held :=
  if x.limit ≠ 0 then { x with target := some t }
  else { x with target := some t, limit := ageLimit s, shape := shaped x.src x.pkt.hdr s }

/-- Stages 2 to 4 (R101). -/
def stages (x : Held) (s : State) : Fate :=
  let h := x.pkt.hdr
  let d := entryDie x.src s
  let (t, s1) := choose x s
  let x := noteTarget x t s
  match t with
  | .noRoute => .fail stNoRoute (noRouteTraces d h s1)
  | .cwOff => .fail stNoRoute (raiseNoRoute d h (countG .cwDisabled s1))
  | .noTransit k => .fail stNoRoute (raiseNoRoute d h (countD (60 + k) .gwNoTransit s1))
  | .group g _ ps =>
    if x.why = .behind && (gx MCG_CTL.PART g s1 != h.part.toNat || gx MCG_CTL.VALID g s1 == 0) then .done (mcgDenyTraces d h g s1)
    else if ps.isEmpty then .done (countD d .mcgEmpty s1)
    else stage4 x t s1
  | .uni _ => stage4 x t s1

/-- A response replaced by one that says AGED (R117), synthesised here (R49). -/
def agedRsp (pk : Packet) (s : State) : Packet :=
  { hdr := { pk.hdr with status := BitVec.ofNat 4 stAged, srcEp := BitVec.ofNat 12 (gx FWD_CTRL.OX9_EP 0 s), len := 0
                         enc := false, keySlot := 0, seq := 0, ageStamp := stampNow s }
    payload := [], trailer := [] }

/-- A response is discarded: the cells it already has return, and its request's entry frees (R381). -/
def dropRsp (x : Held) (s : State) : State :=
  let s1 := match x.pre with | some c => uncharge c 0 s | none => s
  if isResponse x.pkt.hdr.opcode.toNat && x.pre.isNone then
    match trackFor x.pkt.hdr s1 with | some t => freeTrack t s1 | none => s1
  else s1

/-- A packet that the OX9 forms, with the cells it already has, enters at an entry by stages 2 to 4, and is lost where they
fail. -/
def inject (e : Entry) (pk : Packet) (pre : Option Charge) (s : State) : State :=
  let x := { arrival e pk (Tail.whole pk false) with pre := pre }
  if waitsBehind e pk.hdr s then hold { x with why := behindWhy e pk.hdr s } s
  else
    match stages x s with
    | .done s1 => s1
    | .fail _ s1 => dropRsp x s1
    | .held y s1 => hold y s1

/-- The answer to a request that fails, formed here, with the cell it has of the reservation; none for a posted packet. The
request's tracking entry frees (R49, R110, chapter 17). -/
def answerTo (h : Header) (st : Nat) (s : State) : Option (Packet × Option Charge) × State :=
  if cohRequest h.opcode.toNat then (some (synthCoh h st s, none), s)
  else if !nonPosted h.opcode.toNat then (none, s)
  else
    let (c, s1) := takeReserved h s
    (some (synthRsp h st s1, c), s1)

/-- A synthesised response enters forwarding at a die. -/
def respond (d : Nat) (h : Header) (st : Nat) (s : State) : State :=
  match answerTo h st s with
  | (some a, s1) => inject (.die (Fin.ofNat 64 d)) a.1 a.2 s1
  | (none, s1) => s1

/-- A synthesised response leaves by the port its request came from, whatever partitions the port permits (R39; log entry 90,
DEDUCED). -/
def respondBy (p : Nat) (h : Header) (st : Nat) (s : State) : State :=
  match answerTo h st s with
  | (some a, s1) =>
    let x := noteTarget { arrival (.die (Fin.ofNat 64 (portDie p s))) a.1 (Tail.whole a.1 false) with pre := a.2 }
      (.uni (.port p)) s1
    if waitsBehind x.src a.1.hdr s1 then hold x s1
    else
      match stage4 x (.uni (.port p)) s1 with
      | .done s2 => s2
      | .fail _ s2 => dropRsp x s2
      | .held y s2 => hold y s2
  | (none, s1) => s1

/-- What a packet that fails leaves: the response a non-posted request receives, the one that replaces an aged response; one
discarded for another reason frees its request's entry (R381). -/
def failed (x : Held) (st : Nat) (s : State) : State :=
  let d := entryDie x.src s
  if isResponse x.pkt.hdr.opcode.toNat then
    if st = stAged then inject (.die (Fin.ofNat 64 d)) (agedRsp x.pkt s) x.pre s else dropRsp x s
  else respond d x.pkt.hdr st s

/-- A packet comes to stage 2: behind others of its entry and VC that are held, or through stages 2 to 4. -/
def arrive (x : Held) (s : State) : State :=
  if waitsBehind x.src x.pkt.hdr s then hold { x with why := behindWhy x.src x.pkt.hdr s } s
  else
    match stages x s with
    | .done s1 => s1
    | .fail st s1 => failed x st s1
    | .held y s1 => hold y s1

/-- A packet that has come whole enters by stages 2 to 4. -/
def enter (e : Entry) (pk : Packet) (bad : Bool) (s : State) : State := arrive (arrival e pk (Tail.whole pk bad)) s

/-- The packet held of an entry and VC that is tried next: the first, on VC4 the first that does not wait for a bank that is
still full (R90). -/
def heldHead (e : Entry) (v : Nat) (s : State) : Option Held :=
  let l := s.fwd.held.filter fun x => x.src = e && x.pkt.hdr.vc.toNat == v
  if v = 4 then
    (l.find? fun x => !(x.why = .bank && bankFull (.uni (.bank (bankOfAddr x.pkt.hdr.addr))) x.pkt.hdr s)).or l.head?
  else l.head?

/-- The state without a held packet. -/
def unhold (x : Held) (s : State) : State := { s with fwd := { s.fwd with held := s.fwd.held.erase x } }

/-- The first `x` of a list replaced. -/
def replaceFirst {α : Type} [DecidableEq α] (x y : α) : List α → List α
  | [] => []
  | z :: zs => if z = x then y :: zs else z :: replaceFirst x y zs

/-- A held packet tried again: it is admitted, or fails, or keeps its place. -/
def retryHeld (x : Held) (s : State) : State :=
  let v := x.pkt.hdr.vc.toNat
  match stages x s with
  | .done s1 => settleCredits x.src v (unhold x s1)
  | .fail st s1 => settleCredits x.src v (failed x st (unhold x s1))
  | .held y s1 => settleCredits x.src v { s1 with fwd := { s1.fwd with held := replaceFirst x y s1.fwd.held } }

/-- The EOP cell of a stored packet arrives: a length that differs from its header's is mended and marks the tail (R108). -/
def eopArrive (pid : Nat) (bad : Bool) (reads : List (Nat × SramRead)) (s : State) : State :=
  match bufOf pid s with
  | none => s
  | some b =>
    if b.wait && b.dest.isNone then s
    else if b.tail.eop then handOver pid reads s
    else
      let tl := { b.tail with eop := true, bad := b.tail.bad || bad, inBad := bad, cells := b.cells }
      let (pk, tl, s1) := mend b.src b.pkt tl s
      handOver pid reads (setBuf { b with pkt := pk, tail := tl } s1)

end Sys2Proof.Machine
end

