-- ==== Sys2Proof/Machine/Ingress.lean ====
section
/-! DEFINITION. The commands of the ingress side of the forwarding core: lookup, holds, ageing at ingress, EOP arrival,
buffer grants and shaper tokens (chapters 5 and 6). -/

namespace Sys2Proof.Machine

/-- The OX9 is fabric-ready (R444). -/
def fabricReady (s : State) : Bool := gb START_STAT.FABRIC_READY 0 s

/-- The stamping checks of R39 fail: SRC_EP on a port whose partner is an OEB, PART on every port (R356). -/
def stampDenied (p : Nat) (h : Header) (s : State) : Bool :=
  (gx PORT_BIND.ROLE p s == 0 && gx PORT_BIND.EP p s != h.srcEp.toNat) || !permitted p h.part.toNat s

/-- The traces of a malformed packet (R44). -/
def malformedTraces (p : Nat) (h : Header) (s : State) : State :=
  raisePort .malformedPkt false p [na h.srcEp.toNat, na h.opcode.toNat] (countN .ox9 (.die (portDie p s)) .malformedPkt 1 s)

/-- The traces of a stamping failure (R39). -/
def denyTraces (p : Nat) (h : Header) (s : State) : State :=
  let d := portDie p s
  raise .ox9 { Event.mk0 .ox9 .partDeny true d 1 p [na p, na h.srcEp.toNat, na h.part.toNat] s with
    oep := some (gx PORT_BIND.EP p s), part := some h.part.toNat, srcEp := some h.srcEp.toNat } (countP h.part.toNat .ingressPartDeny (countD d .ingressPartDeny s))

/-- The traces of a packet that meets an OX9 not fabric-ready (R445). -/
def notReadyTraces (p : Nat) (s : State) : State :=
  let d := portDie p s
  raise .ox9 { Event.mk0 .ox9 .notReady true d 1 p [na p] s with
    oep := some (gx PORT_BIND.EP p s) } (countD d .notReadyPkt s)

/-- The tail of a packet at its lookup. Without its EOP flit, one cell has come by a port; a die's packet counts as arriving at
the egress port's rate, so only its EOP cell is still to come (R107). -/
def tailAt (src : Entry) (pk : Packet) (eop bad : Bool) (reads : List (Nat × SramRead)) : Tail :=
  let n := packetCells pk.hdr
  { eop := eop, bad := bad, inBad := bad, cause := 0, reads := reads
    cells := if eop then n else match src with | .port _ => min 1 (n - 1) | _ => n - 1 }

/-- The lookup of a packet that enters by a port: stage 1, then stages 2 to 4 (R101, R44, R39, R445). Of two conditions that
fail it the first answers, and the other counts (R9). -/
def portLookup (p : Port) (pk : Packet) (tl : Tail) (s : State) : State :=
  let h := pk.hdr
  let s1 := sample p.val 0 pk s
  let early := !fabricReady s1 && !(h.opcode.toNat == opCTL && h.dstEp.toNat == gx FWD_CTRL.OX9_EP 0 s1)
  if malformed h then malformedTraces p.val h s1
  else if stampDenied p.val h s1 then
    respondBy p.val h stPartDeny (denyTraces p.val h (if early then countD (portDie p.val s1) .notReadyPkt s1 else s1))
  else if early then respond (portDie p.val s1) h stNotReady (notReadyTraces p.val s1)
  else arrive (arrival (.port p) pk tl) s1

/-- INGRESS_LOOKUP's effect (R101, R102). -/
def ingressLookup (src : Entry) (pk : Packet) (eop bad : Bool) (reads : List (Nat × SramRead)) (s : State) : State :=
  let tl := tailAt src pk eop bad reads
  match src with
  | .port p => portLookup p pk tl s
  | e => arrive (arrival e pk tl) s

/-- INGRESS_LOOKUP (R101). -/
def execIngressLookup (src : Entry) (pk : Packet) (eop bad : Bool) (reads : List (Nat × SramRead)) (s : State) :
    Host.Outcome State Fault Refusal :=
  live (ingressLookup src pk eop bad reads) s

/-- A held packet tried again, with what the reads of its cells find where a die takes it. -/
def retryReads (x : Held) (reads : List (Nat × SramRead)) (s : State) : State :=
  let y := { x with tail := { x.tail with reads := reads } }
  retryHeld y { s with fwd := { s.fwd with held := replaceFirst x y s.fwd.held } }

/-- The first request held for an entry of a tracking bank or its reservation is tried again (R53). -/
def trackingRelease (b : Nat) (reads : List (Nat × SramRead)) (s : State) : State :=
  match s.fwd.held.find? fun x => (x.why = .tracking || x.why = .reservation) && bankFor x.pkt.hdr s == b with
  | none => s
  | some x => retryReads x reads s

/-- TRACKING_HOLD_RELEASE (R53). -/
def execTrackingHoldRelease (bank : Slice) (reads : List (Nat × SramRead)) (s : State) : Host.Outcome State Fault Refusal :=
  live (trackingRelease bank.val reads) s

/-- The packets that the governor holds. -/
def govHeld (s : State) : List Held := s.fwd.held.filter fun x => x.why = .governor

/-- The die whose held packets the governor's holds release next: the first with one in the rotating order of R113, from the
die after the one last served (R452). -/
def govNext (s : State) : Option Nat :=
  (rotate s.fwd.lastGov ((govHeld s).map fun x => (entryDie x.src s, 0))).head?.map (·.1)

/-- The die of a packet that a retry lets past the governor becomes the one last served (R452). -/
def noteGov (x : Held) (n : Nat) (s : State) : State :=
  if x.why = .governor && decide ((govHeld s).length < n) then { s with fwd := { s.fwd with lastGov := entryDie x.src s } } else s

/-- The first packet held of an entry and VC is tried again (R114); of those that the governor holds only one of the die whose
turn it is (R452). -/
def heldAdmit (src : Entry) (v : Nat) (reads : List (Nat × SramRead)) (s : State) : State :=
  match heldHead src v s with
  | none => s
  | some x =>
    if x.why = .governor && govNext s ≠ some (entryDie x.src s) then s
    else noteGov x (govHeld s).length (retryReads x reads s)

/-- HELD_PACKET_ADMIT (R114). -/
def execHeldPacketAdmit (src : Entry) (vc : Vc) (reads : List (Nat × SramRead)) (s : State) : Host.Outcome State Fault Refusal :=
  live (heldAdmit src vc.val reads) s

/-- The first packet held of an entry and VC is discarded once it has aged out (R116, R117). -/
def heldAgeOut (src : Entry) (v : Nat) (s : State) : State :=
  match heldHead src v s with
  | none => s
  | some x =>
    let h := x.pkt.hdr
    if !agedPast (if x.limit = 0 then ageLimit s else x.limit) h s then s
    else settleCredits src v (failed x stAged (agedTraces (entryDie src s) h (unhold x s)))

/-- HELD_PACKET_AGE_OUT (R117). -/
def execHeldPacketAgeOut (src : Entry) (vc : Vc) (s : State) : Host.Outcome State Fault Refusal :=
  live (heldAgeOut src vc.val) s

/-- A bad packet in OX7 multicast mode is discarded with no copies; TAIL_MARK names its cause, 0 where it only arrived with
BAD = 1 (R120; log entry 24, DESIGN CHOICE). -/
def mcDiscard (b : BufPkt) (cause : Nat) (s : State) : State :=
  let d := entryDie b.src s
  let s1 := countD d .mcOx7Discard
    (uncharge b.charge b.cells { s with fwd := { s.fwd with bufs := s.fwd.bufs.filter fun x => x.pid ≠ b.pid } })
  match b.src with
  | .port p => raisePort .tailMark true p.val [na cause] s1
  | _ => raiseDie .tailMark true d [na cause] s1

/-- The EOP cell of a packet in OX7 multicast mode arrives: a bad packet is discarded, a good one queues one copy per
member (R120). -/
def mcOx7Eop (pid : Nat) (bad : Bool) (s : State) : State :=
  match bufOf pid s with
  | none => s
  | some b =>
    if !b.wait || b.dest.isSome then s
    else if !b.pkt.lengthOk then mcDiscard b 2 s
    else if bad || b.tail.bad then mcDiscard b b.tail.cause s
    else
      b.ox7.foldl (fun s p => enqueue p b.pkt.hdr.vc.toNat { pid := pid, cut := false, started := false, sent := 0, since := 0 } s)
        (setBuf { b with tail := { b.tail with eop := true, cells := b.cells }, wait := false } s)

/-- MC_OX7_EOP (R120). -/
def execMcOx7Eop (pid : Nat) (bad : Bool) (s : State) : Host.Outcome State Fault Refusal := live (mcOx7Eop pid bad) s

/-- EOP_CELL_BUFFERED (R107). -/
def execEopCellBuffered (pid : Nat) (bad : Bool) (reads : List (Nat × SramRead)) (s : State) : Host.Outcome State Fault Refusal :=
  live (eopArrive pid bad reads) s

/-- A die's request for a block of buffer cells reaches the accountant, which serves it or keeps it pending (R112, R113). -/
def bufGrantRequest (d p : Nat) (s : State) : State :=
  if grantOf d p s ≥ 64 then s
  else
    let s1 := if s.fwd.grantReqs.contains (d, p) then s
              else { s with fwd := { s.fwd with grantReqs := s.fwd.grantReqs ++ [(d, p)] } }
    serveGrants p s1

/-- BUF_GRANT_REQUEST (R112). -/
def execBufGrantRequest (die : Die) (part : Part) (s : State) : Host.Outcome State Fault Refusal :=
  live (bufGrantRequest die.val part.val) s

/-- A block of a grant that has gone unused returns to the accountant (R112). -/
def bufGrantReturn (d p : Nat) (s : State) : State :=
  let n := min 64 (grantOf d p s)
  returnPart p n (setGrant d p (grantOf d p s - n) s)

/-- BUF_GRANT_RETURN (R112). -/
def execBufGrantReturn (die : Die) (part : Part) (s : State) : Host.Outcome State Fault Refusal :=
  live (bufGrantReturn die.val part.val) s

/-- A die's request for a block of 16 tokens, while its holding is below 16 (R147). -/
def tokenRequest (d p : Nat) (s : State) : State :=
  if gx PART_SHAPE.EN p s = 0 || tokensOf d p s ≥ 16 then s
  else
    let s1 := if s.fwd.tokenReqs.contains (d, p) then s
              else { s with fwd := { s.fwd with tokenReqs := s.fwd.tokenReqs ++ [(d, p)] } }
    serveTokens p s1

/-- TOKEN_BLOCK_REQUEST (R147). -/
def execTokenBlockRequest (die : Die) (part : Part) (s : State) : Host.Outcome State Fault Refusal :=
  live (tokenRequest die.val part.val) s

/-- The unused positive part of a token block returns; LEVEL never exceeds BURST (R147). -/
def tokenReturn (d p : Nat) (s : State) : State :=
  let n := max 0 (min 16 (tokensOf d p s))
  serveTokens p (setLevel p (min (levelOf p s + n * 65536) (gx PART_SHAPE.BURST p s * 65536))
    (setTokens d p (tokensOf d p s - n) s))

/-- TOKEN_BLOCK_RETURN (R147). -/
def execTokenBlockReturn (die : Die) (part : Part) (s : State) : Host.Outcome State Fault Refusal :=
  live (tokenReturn die.val part.val) s

end Sys2Proof.Machine
end

