-- ==== Sys2Proof/Machine/Rs.lean ====
section
/-! DEFINITION. The RS(128,120) code of the links over GF(2^8) (R297): parity, and decoding of errors with erasures. -/

namespace Sys2Proof.Machine

/-- A product in GF(2^8) with the polynomial x^8 + x^4 + x^3 + x^2 + 1, over `n` bits of `b`. -/
def gfMulN : Nat → Nat → Nat → Nat
  | 0, _, _ => 0
  | n + 1, a, b =>
    Nat.xor (if b % 2 = 1 then a else 0)
      (gfMulN n (if a ≥ 128 then Nat.xor (a * 2 - 256) 0x1D else a * 2) (b / 2))

/-- A product in GF(2^8). -/
def gfMul (a b : Nat) : Nat := gfMulN 8 a b

/-- A power in GF(2^8). -/
def gfPow (a : Nat) : Nat → Nat
  | 0 => 1
  | n + 1 => gfMul a (gfPow a n)

/-- α^n. -/
def alpha (n : Nat) : Nat := gfPow 2 (n % 255)

/-- The inverse of a nonzero element, a^254, by squarings. -/
def gfInv (a : Nat) : Nat :=
  let a2 := gfMul a a
  let a4 := gfMul a2 a2
  let a8 := gfMul a4 a4
  let a16 := gfMul a8 a8
  let a32 := gfMul a16 a16
  let a64 := gfMul a32 a32
  let a128 := gfMul a64 a64
  gfMul a128 (gfMul a64 (gfMul a32 (gfMul a16 (gfMul a8 (gfMul a4 a2)))))

/-- A polynomial, constant term first, at `x`. -/
def polyAt (p : List Nat) (x : Nat) : Nat := p.foldr (fun c acc => Nat.xor c (gfMul acc x)) 0

/-- The sum of two polynomials. -/
def polyAdd : List Nat → List Nat → List Nat
  | [], q => q
  | p, [] => p
  | a :: p, b :: q => Nat.xor a b :: polyAdd p q

/-- A polynomial times a constant. -/
def polyScale (c : Nat) (p : List Nat) : List Nat := p.map (gfMul c)

/-- The product of two polynomials. -/
def polyMul : List Nat → List Nat → List Nat
  | [], _ => []
  | a :: p, q => polyAdd (polyScale a q) (0 :: polyMul p q)

/-- The degree of a polynomial; 0 for the zero polynomial. -/
def polyDeg (p : List Nat) : Nat :=
  ((List.range p.length).filter fun i => decide (p.getD i 0 ≠ 0)).foldl max 0

/-- The syndrome S_j: the received word at α^j, byte 0 the coefficient of x^127. -/
def syndrome (bs : List Nat) (j : Nat) : Nat := bs.foldl (fun acc b => Nat.xor (gfMul acc (alpha j)) b) 0

/-- The eight syndromes. -/
def syndromes (bs : List Nat) : List Nat := (List.range 8).map (syndrome bs)

/-- The generator polynomial of R297, highest power first, its leading 1 left out. -/
def rsGen : List Nat := ((List.range 8).foldl (fun p i => polyMul p [alpha i, 1]) [1]).reverse.drop 1

/-- The remainder of the data polynomial times x^8, by shifting bytes through eight cells. -/
def rsRemainder (bs : List Nat) : List Nat :=
  bs.foldl (fun r b =>
    let f := Nat.xor b (r.headD 0)
    List.zipWith (fun x g => Nat.xor x (gfMul f g)) (r.drop 1 ++ [0]) rsGen) (List.replicate 8 0)

/-- The eight parity bytes of 120 data bytes (R297). -/
def rsParity (bs : List Byte) : List Byte := (rsRemainder (bs.map (·.toNat))).map (BitVec.ofNat 8)

/-- The locator of byte `i`. -/
def locator (i : Nat) : Nat := alpha (127 - i)

/-- The state of the search for the error locator: locator, helper, length. -/
structure RsSearch where
  lam : List Nat
  b : List Nat
  len : Nat
deriving DecidableEq, Repr

/-- The search of Berlekamp and Massey, begun from `s` erasures, over syndromes `s` to 7. -/
def rsSearch (synd : List Nat) (s : Nat) : Nat → RsSearch → RsSearch
  | 0, x => x
  | n + 1, x =>
    let r := 8 - n
    let d := (List.range x.lam.length).foldl (fun acc i =>
      if i + 1 ≤ r then Nat.xor acc (gfMul (x.lam.getD i 0) (synd.getD (r - 1 - i) 0)) else acc) 0
    let y :=
      if d = 0 then { x with b := 0 :: x.b }
      else
        let t := polyAdd x.lam (polyScale d (0 :: x.b))
        if 2 * x.len + 1 ≤ r + s then { lam := t, b := polyScale (gfInv d) x.lam, len := r + s - x.len }
        else { lam := t, b := 0 :: x.b, len := x.len }
    rsSearch synd s n y

/-- The word with each located byte corrected (Forney). -/
def rsFix (bs : List Nat) (lam om : List Nat) (pos : List Nat) : List Nat :=
  let dLam := (List.range lam.length).map fun i => if i % 2 = 0 then lam.getD (i + 1) 0 else 0
  (List.range bs.length).map fun i =>
    let b := bs.getD i 0
    if pos.contains i then
      let x := locator i
      let xi := gfInv x
      Nat.xor b (gfMul x (gfMul (polyAt om xi) (gfInv (polyAt dLam xi))))
    else b

/-- Decoding of 128 received bytes with the erased places: the corrected bytes, or none where the word is
uncorrectable. More than 8 erasures are uncorrectable without decoding (R297). -/
def rsDecode (bytes : List Byte) (erased : List Nat) : Option (List Byte) :=
  let bs := bytes.map (·.toNat)
  let er := erased.eraseDups.filter (· < 128)
  let synd := syndromes bs
  if bytes.length ≠ 128 || er.length > 8 then none
  else if synd.all (· == 0) then some bytes
  else
    let gam := er.foldl (fun p i => polyMul p [1, locator i]) [1]
    let s := er.length
    let x := rsSearch synd s (8 - s) { lam := gam, b := gam, len := s }
    let pos := (List.range 128).filter fun i => polyAt x.lam (gfInv (locator i)) = 0
    let om := (polyMul synd x.lam).take 8
    let fixed := rsFix bs x.lam om pos
    if polyDeg x.lam = pos.length && decide (2 * pos.length ≤ 8 + s) && (syndromes fixed).all (· == 0) then
      some (fixed.map (BitVec.ofNat 8))
    else none

end Sys2Proof.Machine
end

