-- ==== Sys2Proof/Machine/LineCode.lean ====
section
/-! DEFINITION. The line code of the links (R289, R293 to R296): PAM4 symbols, 8b/10b code groups with running disparity,
the special code groups, what a transmitter puts on its lanes and what a receiver makes of them. -/

namespace Sys2Proof.Machine

/-! ### Symbols (R289) -/

/-- The two bits of a symbol, Gray-coded, the first the more significant. -/
def pamBits : Pam4 → Nat
  | .m3 => 0
  | .m1 => 1
  | .p1 => 3
  | .p3 => 2

/-- The symbol of two bits. -/
def pamOfBits (n : Nat) : Pam4 := if n = 0 then .m3 else if n = 1 then .m1 else if n = 2 then .p3 else .p1

/-- A symbol as an inverted lane delivers it (R305). -/
def pamNeg : Pam4 → Pam4
  | .m3 => .p3
  | .m1 => .p1
  | .p1 => .m1
  | .p3 => .m3

/-- The ten bits of a code group as a number, bit a the most significant; five symbols that are none spell no code group. -/
def symWord (g : List Pam4) : Nat := if g.length = 5 then g.foldl (fun n x => n * 4 + pamBits x) 0 else 1023

/-- The five symbols of a code group, bit a first. -/
def wordSyms (n : Nat) : List Pam4 := [256, 64, 16, 4, 1].map fun k => pamOfBits (n / k % 4)

/-! ### 8b/10b (R289; log entry 105, PRESUMED: the tables are the standard's) -/

/-- The special code groups of Table 13-1. -/
inductive Special where
  | com | tsk | nrdy | start | skip | echo | breeze | idle | gust | swap | down
deriving DecidableEq, Repr

/-- What a code group says: a byte, or a special. -/
inductive Code where
  | data (b : Byte)
  | special (k : Special)
deriving DecidableEq, Repr

/-- The bits set among the low `n`. -/
def onesOf (n w : Nat) : Nat := ((List.range n).map fun i => w / 2 ^ i % 2).sum

/-- abcdei of D.x at negative disparity. -/
def sixNeg : List Nat := [0b100111, 0b011101, 0b101101, 0b110001, 0b110101, 0b101001, 0b011001, 0b111000,
  0b111001, 0b100101, 0b010101, 0b110100, 0b001101, 0b101100, 0b011100, 0b010111,
  0b011011, 0b100011, 0b010011, 0b110010, 0b001011, 0b101010, 0b011010, 0b111010,
  0b110011, 0b100110, 0b010110, 0b110110, 0b001110, 0b101110, 0b011110, 0b101011]

/-- fghj of D.x.y at negative disparity, y = 7 in its primary form. -/
def fourNeg : List Nat := [0b1011, 0b1001, 0b0101, 0b1100, 0b1101, 0b1010, 0b0110, 0b1110]

/-- abcdei of D.x; `rd` is true at positive disparity. -/
def sixOf (rd : Bool) (x : Nat) : Nat :=
  let w := nth sixNeg x
  if rd && (onesOf 6 w ≠ 3 || w = 0b111000) then 63 - w else w

/-- fghj of D.x.y, in the alternate form of y = 7 where the standard asks for it. -/
def fourOf (rd : Bool) (x y : Nat) : Nat :=
  if y = 7 && (if rd then x = 11 || x = 13 || x = 14 else x = 17 || x = 18 || x = 20) then (if rd then 0b1000 else 0b0111)
  else
    let w := nth fourNeg y
    if rd && (onesOf 4 w ≠ 2 || w = 0b1100) then 15 - w else w

/-- Running disparity after a six-bit sub-block. -/
def sixRd (rd : Bool) (w : Nat) : Bool :=
  let n := onesOf 6 w
  if 3 < n || w = 0b000111 then true else if n < 3 || w = 0b111000 then false else rd

/-- Running disparity after a four-bit sub-block. -/
def fourRd (rd : Bool) (w : Nat) : Bool :=
  let n := onesOf 4 w
  if 2 < n || w = 0b0011 then true else if n < 2 || w = 0b1100 then false else rd

/-- Running disparity after a code group. -/
def groupRd (rd : Bool) (w : Nat) : Bool := fourRd (sixRd rd (w / 16)) (w % 16)

/-- The special code groups with their ten bits at negative disparity (Table 13-1). -/
def specials : List (Special × Nat) :=
  [(.skip, 0b0011110100), (.tsk, 0b0011111001), (.echo, 0b0011110101), (.breeze, 0b0011110011), (.nrdy, 0b0011110010),
   (.com, 0b0011111010), (.idle, 0b0011110110), (.gust, 0b1110101000), (.start, 0b1101101000), (.swap, 0b1011101000),
   (.down, 0b0111101000)]

/-- The ten bits of a special at negative disparity. -/
def specialNeg (k : Special) : Nat := ((specials.find? fun x => x.1 = k).map (·.2)).getD 0

/-- The ten bits of a code at a disparity. -/
def codeWord (rd : Bool) : Code → Nat
  | .special k => if rd then 1023 - specialNeg k else specialNeg k
  | .data b =>
    let x := b.toNat % 32
    let six := sixOf rd x
    six * 16 + fourOf (sixRd rd six) x (b.toNat / 32)

/-- The code that ten bits spell at a disparity. -/
def decodeAt (rd : Bool) (w : Nat) : Option Code :=
  match specials.find? fun x => (if rd then 1023 - x.2 else x.2) = w with
  | some x => some (.special x.1)
  | none =>
    match (List.range 32).find? fun x => sixOf rd x = w / 16 with
    | none => none
    | some x =>
      let r := sixRd rd (w / 16)
      ((List.range 8).find? fun y => fourOf r x y = w % 16).map fun y => .data (BitVec.ofNat 8 (32 * y + x))

/-- A code group as received: what it says, none where it is invalid; whether it breaks running disparity. -/
structure RxGroup where
  code : Option Code
  brk : Bool
deriving DecidableEq, Repr

/-- A code group received at a disparity, and the disparity after it. A receiver that knows none yet accepts either, until the
first COM sets it (R289). -/
def decodeGroup (rd : Option Bool) (w : Nat) : RxGroup × Option Bool :=
  match rd with
  | some r =>
    let x : RxGroup := match decodeAt r w with
      | some c => { code := some c, brk := false }
      | none => { code := decodeAt (!r) w, brk := (decodeAt (!r) w).isSome }
    (x, some (groupRd r w))
  | none =>
    let rd := if w = specialNeg .com then some (groupRd false w) else if w = 1023 - specialNeg .com then some (groupRd true w)
      else none
    ({ code := (decodeAt false w).or (decodeAt true w), brk := false }, rd)

/-! ### Lanes (R293) -/

/-- Codes put on `w` lanes in turn from lane `j`, each lane at its own disparity: the code groups, and the disparities
after. -/
def codeLine (w : Nat) : List Bool → Nat → List Code → Line × List Bool
  | rds, _, [] => ([], rds)
  | rds, j, c :: cs =>
    let rd := (rds[j]?).getD false
    let n := codeWord rd c
    let (l, r) := codeLine w (setAt rds j (groupRd rd n)) (if j + 1 = w then 0 else j + 1) cs
    (wordSyms n :: l, r)

/-- Code groups received on `w` lanes in turn from lane `j`. -/
def decodeLine (w : Nat) : List (Option Bool) → Nat → List Nat → List RxGroup × List (Option Bool)
  | rds, _, [] => ([], rds)
  | rds, j, n :: ns =>
    let (x, rd) := decodeGroup ((rds[j]?).getD none) n
    let (l, r) := decodeLine w (setAt rds j rd) (if j + 1 = w then 0 else j + 1) ns
    (x :: l, r)

/-- The lane an element of a line travels on. -/
def slotLane (w i : Nat) : Nat := i % max 1 w

/-- The lanes of each slot taken in reverse (R305). -/
def unreverse (w : Nat) (l : List RxGroup) : List RxGroup :=
  (List.range l.length).filterMap fun i => l[i / max 1 w * w + (w - 1 - slotLane w i)]?

/-- Bytes as codes. -/
def dataCodes (bs : List Byte) : List Code := bs.map .data

/-- A body striped over `w` lanes: the unused positions of its last slot carry D0.0 (R293). -/
def bodyCodes (w : Nat) (body : List Byte) : List Code :=
  dataCodes (fit (ceilDiv body.length (max 1 w) * w) body)

/-- A special on every lane in one slot. -/
def onLanes (w : Nat) (k : Special) : List Code := List.replicate w (.special k)

/-- `n` slots of specials on every lane, alternating. -/
def slotsOf (w n : Nat) (k1 k2 : Special) : List Code :=
  ((List.range n).map fun i => onLanes w (if i % 2 = 0 then k1 else k2)).flatten

/-- A training sequence, sent on every lane separately: COM, TSK and the lane's 14 bytes (R302). -/
def tsCodes (w : Nat) (bytes : Nat → List Byte) : List Code :=
  onLanes w .com ++ onLanes w .tsk ++
    ((List.range 14).map fun i => (List.range w).map fun j => Code.data (((bytes j)[i]?).getD 0)).flatten

/-! ### What a receiver makes of a slot and of a flit (R295, R296) -/

/-- The special a slot carries on at least half its lanes; of two, the one on the lower-numbered lane (R295). -/
def voted (w : Nat) (slot : List RxGroup) : Option Special :=
  let ks := slot.filterMap fun x => match x.code with | some (.special k) => some k | _ => none
  ks.find? fun k => decide (ceilDiv w 2 ≤ (ks.filter fun x => x = k).length)

/-- The slots of a line. -/
def slotAt (w : Nat) (l : List RxGroup) (i : Nat) : List RxGroup := (l.drop (w * i)).take w

/-- The byte of a code group, 0 where it carries none. -/
def RxGroup.byte (x : RxGroup) : Byte := match x.code with | some (.data b) => b | _ => 0

/-- The code group carries no byte: it is invalid, or a special. -/
def RxGroup.noByte (x : RxGroup) : Bool := match x.code with | some (.data _) => false | _ => true

/-- The erasures of striped bytes: those whose code group carries no byte or breaks running disparity, and the byte before a
break on its lane (R296). -/
def erasures (w : Nat) (l : List RxGroup) : List Nat :=
  (List.range l.length).filter fun i =>
    let at_ := fun (k : Nat) (f : RxGroup → Bool) => match l[k]? with | some x => f x | none => false
    at_ i (fun x => x.noByte || x.brk) || at_ (i + w) (·.brk)

/-- Body bytes received after an insert's first slot, none where one of them is an erasure (R295). -/
def rxBody (w n : Nat) (l : List RxGroup) : Option (List Byte) :=
  let b := l.drop w
  if b.length < n || (erasures w b).any (fun i => decide (i < n)) then none else some ((b.take n).map (·.byte))

/-! ### Counters and state of a link end -/

/-- A counter of the port die window, or of the OEB. -/
def countLink (e : LinkEnd) (c : Ctr) (s : State) : State :=
  match e with
  | .ox p => countPort p.val c 1 s
  | .oeb side _ => countO side c s

/-- A link end changed. -/
def modLink (e : LinkEnd) (f : Link → Link) (s : State) : State := setLink (linkKey e) (f (getLink (linkKey e) s)) s

/-- Its credits and progress changed. -/
def modAux (e : LinkEnd) (f : LinkAux → LinkAux) (s : State) : State := setAux (linkKey e) (f (getAux (linkKey e) s)) s

/-! ### A link end's lanes -/

/-- The lanes of a link end. -/
def linkWidth (e : LinkEnd) (s : State) : Nat :=
  match e with
  | .ox p => portWidth p.val s
  | .oeb side q => 2 ^ (gf (.oeb side) PORT_CFG.WIDTH q.val s + 1)

/-- Codes leave on the lanes of a link end: the code groups, and the state with the disparities after them. -/
def sendCodes (e : LinkEnd) (cs : List Code) (s : State) : Line × State :=
  let w := linkWidth e s
  let x := getAux (linkKey e) s
  let (l, r) := codeLine w (x.txRd ++ List.replicate (w - x.txRd.length) false) 0 cs
  (l, setAux (linkKey e) { x with txRd := r } s)

/-- A lane's symbols as its receiver takes them, turned where the lane is inverted (R305). -/
def polarised (pol w : Nat) (l : Line) : List Nat :=
  l.zipIdx.map fun x => symWord (if bits pol (slotLane w x.2) 1 = 1 then x.1.map pamNeg else x.1)

/-- Code groups arrive on the lanes of a link end, from lane 0: what its receiver makes of them with the lanes of `pol` inverted,
in the partner's lane order, and the state with the disparities after them (log entry 106, DESIGN CHOICE: polarity and disparity
are a receive lane's, before the remap of R305). -/
def receiveAs (e : LinkEnd) (pol : Nat) (rev : Bool) (line : Line) (s : State) : List RxGroup × State :=
  let w := linkWidth e s
  let x := getAux (linkKey e) s
  let (gs, r) := decodeLine w (x.rxRd ++ List.replicate (w - x.rxRd.length) none) 0 (polarised pol w line)
  (if rev then unreverse w gs else gs, setAux (linkKey e) { x with rxRd := r } s)

/-- The lanes of a line whose COM arrives inverted (R305). -/
def invertedLanes (w : Nat) (line : Line) : Nat :=
  ((line.take w).zipIdx.map fun x =>
    let n := symWord (x.1.map pamNeg)
    if n = specialNeg .com || n = 1023 - specialNeg .com then 2 ^ x.2 else 0).sum

/-- Code groups as the receiver of a link end takes them: in DETECT and ALIGN it inverts the lanes whose COM is inverted, later
those it found so in ALIGN (R305; log entry 106). -/
def receive (e : LinkEnd) (line : Line) (s : State) : List RxGroup × State :=
  let l := getLink (linkKey e) s
  if l.st ≤ 2 then receiveAs e (invertedLanes (linkWidth e s) line) false line s else receiveAs e l.polarity l.rxReversed line s

/-- A transmitter leaves electrical idle: every lane starts at negative disparity (R289). -/
def txWake (e : LinkEnd) (s : State) : State :=
  modAux e (fun x => { x with txRd := [] }) s

/-- A receiver whose partner leaves electrical idle, or that trains anew, accepts either disparity (R289). -/
def rxWake (e : LinkEnd) (s : State) : State :=
  modAux e (fun x => { x with rxRd := [] }) s

/-! ### Inserts and training sequences sent (R294, R295, R302) -/

/-- The receive credits a link end advertises: those of Table 6-5 for its width, an OEB's with 4 for VC5 (R134, R246). -/
def ownCredits (e : LinkEnd) (s : State) : List Nat :=
  let w := linkWidth e s
  [16 * w, 16 * w, 24 * w, 16 * w, 4 * w, match e with | .ox _ => 2 * w | .oeb _ _ => 4]

/-- The 14 bytes of a training sequence with its CRC-8 (Table 13-3). -/
def tsBytes (b : List Byte) : List Byte := fit 13 b ++ [BitVec.ofNat 8 (crc8 (fit 13 b))]

/-- Bytes 0 to 5 of a TS1 or TS2 of lane `j`: kind, lane and width, endpoint and role, the one of byte 4, the lanes passed. -/
def tsHead (e : LinkEnd) (kind j passed : Nat) (s : State) : List Byte :=
  let w := linkWidth e s
  let (ep, role) := match e with
    | .ox _ => (gx FWD_CTRL.OX9_EP 0 s, 0)
    | .oeb side _ => (gf (.oeb side) OEB_ID.EP 0 s, 1)
  [BitVec.ofNat 8 kind, BitVec.ofNat 8 (j + (if w = 2 then 0 else if w = 4 then 1 else 2) * 2 ^ 3)] ++
    toLE 2 (ep + role * 2 ^ 12) ++ [1, BitVec.ofNat 8 passed]

/-- The bytes of a TSC: six 12-bit credit counts from byte 1 on (Table 13-3). -/
def tscBytes (e : LinkEnd) (s : State) : List Byte :=
  tsBytes ([4] ++ toLE 9 ((ownCredits e s).zipIdx.map fun x => x.1 % 4096 * 2 ^ (12 * x.2)).sum)

/-- The NR pattern on `w` lanes: COM and 15 NRDY (R304). -/
def nrCodes (w : Nat) : List Code := onLanes w .com ++ slotsOf w 15 .nrdy .nrdy

/-- What an insert, a burst or a training sequence puts on the lanes of a link end; `body` is that of a bodied insert or of a
TSO, and of a TS2 its byte 5, every lane passed where it is not given. -/
def insertCodes (e : LinkEnd) (k : InsertKind) (body : List Byte) (s : State) : List Code :=
  let w := linkWidth e s
  match k with
  | .skip => onLanes w .skip
  | .echo => onLanes w .echo ++ bodyCodes w body
  | .breeze => onLanes w .breeze ++ bodyCodes w body
  | .idle => slotsOf w 4 .idle .idle
  | .swap => slotsOf w 4 .swap .swap
  | .down => slotsOf w 4 .down .down
  | .gust => slotsOf w 128 .gust .com
  | .start => onLanes w .start
  | .nr => nrCodes w
  | .ts1 => tsCodes w fun j => tsBytes (tsHead e 1 j 0 s)
  | .ts2 => tsCodes w fun j => tsBytes (tsHead e 2 j ((body.head?.map (·.toNat)).getD (2 ^ w - 1)) s)
  | .tso => tsCodes w fun _ => body
  | .tsc => tsCodes w fun _ => tscBytes e s

/-- A transmitter runs in skip mode: its PLLs run from the holdover oscillator, or a SKIP was received within the last 1 ms
(R292). -/
def inSkipMode (e : LinkEnd) (s : State) : Bool :=
  gf (linkUnit e) TIME_STAT.SRC_OSC 0 s == 1 || (getLink (linkKey e) s).skipHeard

/-- The place of an insert at a flit boundary: SKIP, BREEZE, ECHO in that order, each once; the others last (R295). -/
def insertRank : InsertKind → Nat
  | .skip => 1
  | .breeze => 2
  | .echo => 3
  | .idle => 4
  | .swap => 4
  | .down => 4
  | _ => 0

/-- The NR pattern leaves on the lanes of the port dies of a list, half by half: no profile has numbered their ports yet (R304,
R443; log entry 109, DESIGN CHOICE). -/
def sendNr (dies : List Nat) (s : State) : State :=
  let line := (codeLine 8 (List.replicate 8 false) 0 (nrCodes 8)).1
  (dies.flatMap fun d => [2 * d, 2 * d + 1]).foldl (fun s h => emit (.nrPattern h line) s) s

/-- An insert of a rank may still be placed at the boundary a transmitter stands at. -/
def boundaryOpen (e : LinkEnd) (k : InsertKind) (s : State) : Bool := decide ((getAux (linkKey e) s).boundary < insertRank k)

/-- An insert leaves a link end. -/
def sendInsert (e : LinkEnd) (k : InsertKind) (body : List Byte) (s : State) : State :=
  let (line, s1) := sendCodes e (insertCodes e k body s) s
  emit (.insert (linkKey e) k body line) (modAux e (fun x => { x with boundary := insertRank k }) s1)

/-- The 128 bytes of a flit leave, parity last (R56, R297). -/
def putFlit (e : LinkEnd) (f : Flit) (s : State) : State :=
  let bs := flitData f
  let (line, s1) := sendCodes e (dataCodes (bs ++ rsParity bs)) s
  emit (.flit (linkKey e) f line) (modAux e (fun x => { x with boundary := 0 }) s1)

/-! ### Training sequences received (R302) -/

/-- The code groups of lane `j` of a line on `w` lanes. -/
def laneGroups (w j : Nat) (gs : List RxGroup) : List RxGroup := (List.range (gs.length / max 1 w)).filterMap fun i => gs[w * i + j]?

/-- The first code groups of a lane are some specials that keep disparity. -/
def startsWith (ks : List Special) (gs : List RxGroup) : Bool :=
  (gs.take ks.length).map (fun x => (x.code, x.brk)) == ks.map fun k => (some (Code.special k), false)

/-- The 14 bytes of a valid training sequence on a lane: COM, TSK and 14 bytes, every code group valid and keeping disparity,
the last byte the CRC-8 of the others (R302). -/
def tsLane (gs : List RxGroup) : Option (List Byte) :=
  let bs := (gs.drop 2).map (·.byte)
  if gs.length = 16 && startsWith [.com, .tsk] gs && (gs.drop 2).all (fun x => !x.noByte && !x.brk) &&
      crc8 (bs.take 13) = nth (bs.map (·.toNat)) 13 then some bs
  else none

/-- The bytes of each lane of a training sequence that is valid on every lane and of kind `k` (R302, R303). -/
def tsLanes (k w : Nat) (gs : List RxGroup) : Option (List (List Byte)) :=
  let ls := (List.range w).map fun j => tsLane (laneGroups w j gs)
  if ls.all (fun x => (x.map fun b => nth (b.map (·.toNat)) 0) == some k) then some (ls.filterMap id) else none

/-- A field of a training sequence's bytes, from bit `i` of byte 0 on (Table 13-3). -/
def tsField (bs : List (List Byte)) (i n : Nat) : Nat := bits (ofLE (bs.headD [])) i n

/-- A training sequence of kind `k` arrives in training: its bytes by lane where it is valid, and the run of consecutive valid
ones of its kind (R303). -/
def tsIn (e : LinkEnd) (k : Nat) (line : Line) (s : State) : Option (List (List Byte)) × State :=
  let (gs, s1) := receive e line s
  match tsLanes k (linkWidth e s) gs with
  | some bs =>
    (some bs, modAux e (fun x => { x with tsRun := if x.tsKind = k then x.tsRun + 1 else 1, tsKind := k, tsLast := bs }) s1)
  | none => (none, modAux e (fun x => { x with tsRun := 0, tsKind := 0 }) s1)

/-! ### Inserts received (R295) -/

/-- A special that has a use in ACTIVE (Table 13-1). -/
def usedInActive : Special → Bool
  | .start | .skip | .echo | .breeze | .idle | .swap | .down => true
  | .com | .tsk | .nrdy | .gust => false

/-- A line arrives at a flit boundary in ACTIVE, from its first slot on: `ins` where that slot is an insert, which counts where
ACTIVE has no use for it; `flit` where it is none and begins a flit (R295). -/
def atBoundary (e : LinkEnd) (line : Line) (ins : Special → List RxGroup → State → State) (flit : List RxGroup → State → State)
    (s : State) : State :=
  if (getLink (linkKey e) s).st ≠ 6 then s
  else
    let (gs, s1) := receive e line s
    match voted (linkWidth e s) (slotAt (linkWidth e s) gs 0) with
    | some k => if usedInActive k then ins k gs s1 else countLink e .insertBad s1
    | none => flit gs s1

/-- An insert of one kind arrives in ACTIVE (log entry 107, DESIGN CHOICE: another insert, or the start of a flit, is no such
insert and has no effect by the command that names one). -/
def insertIn (e : LinkEnd) (k : Special) (line : Line) (f : List RxGroup → State → State) (s : State) : State :=
  atBoundary e line (fun j gs s => if j = k then f gs s else s) (fun _ s => s) s

/-- A bodied insert: its `n` bytes where no erasure is among them and the last is the CRC-8 of the others (R295). -/
def bodied (e : LinkEnd) (n : Nat) (gs : List RxGroup) (s : State) : Option (List Byte) :=
  match rxBody (linkWidth e s) n gs with
  | some b => if crc8 (b.take (n - 1)) = nth (b.map (·.toNat)) (n - 1) then some b else none
  | none => none

end Sys2Proof.Machine
end

