-- ==== Sys2Proof/Machine/Egress.lean ====
section
/-! DEFINITION. The commands of the egress side: the queue head, the flit slot with its arbiter and credit returns, the
cut-through stall, echoes and source slow-down, mirror copies and sample records, congestion maps (chapters 5, 6, 18). -/

namespace Sys2Proof.Machine

/-! ### The head of an egress queue (R116, R117) -/

/-- All but one of the cells charged to an aged response return: its replacement has one (R115, R117). -/
def keepOneCell (b : BufPkt) (s : State) : BufPkt × State :=
  match b.charge with
  | .vc v r sh =>
    let k := oneCell r sh
    ({ b with charge := .vc v k.1 k.2 }, uncharge (.vc v (r - k.1) (sh - k.2)) 0 s)
  | .resv =>
    match trackFor b.pkt.hdr s with
    | some t =>
      let k := oneCell t.resv t.resvShared
      (b, uncharge (.vc 1 (t.resv - k.1) (t.resvShared - k.2)) 0 { s with fwd := { s.fwd with
        tracks := replaceFirst t { t with resv := k.1, resvShared := k.2 } s.fwd.tracks } })
    | none => (b, s)
  | .part _ => (b, s)

/-- An aged packet at the head of a queue is discarded: a request is answered, a response replaced, that copy alone. The
replacement has one cell of those the response had, and starts at once. -/
def egressAged (p v : Nat) (c : Copy) (b : BufPkt) (s : State) : State :=
  let h := b.pkt.hdr
  let d := portDie p s
  let s1 := agedTraces d h s
  if isResponse h.opcode.toNat && b.copies ≤ 1 then
    let pk := agedRsp b.pkt s1
    let (b, s2) := keepOneCell b s1
    let s3 := setBuf { b with pkt := pk, cells := 1, tail := Tail.whole pk false } s2
    setQueue p v ({ c with started := true, since := ft s } :: (queueOf p v s3).tail) s3
  else
    let s2 := copyDone c.pid (setQueue p v (queueOf p v s1).tail s1)
    respond d h stAged s2

/-- A packet at the head of its queue is age-checked and starts to leave: at once where it may cut through, else once
its EOP cell is buffered (R107, R116). -/
def egressHead (p v : Nat) (s : State) : State :=
  match queueOf p v s with
  | [] => s
  | c :: rest =>
    match bufOf c.pid s with
    | none => s
    | some b =>
      if c.started then s
      else if agedOut b.pkt.hdr s then egressAged p v c b s
      else if (c.cut || b.tail.eop) && !b.wait then
        countAhead (portDie p s) b.pkt.hdr (setQueue p v ({ c with started := true, since := ft s } :: rest) s)
      else s

/-- EGRESS_QUEUE_HEAD (R116). -/
def execEgressQueueHead (p : Port) (vc : Vc) (s : State) : Host.Outcome State Fault Refusal :=
  live (egressHead p.val vc.val) s

/-! ### The flit slot (R140) -/

/-- The next flit of a VC is ready: its packet has started and its cell has arrived (R106). -/
def flitReady (p v : Nat) (s : State) : Bool :=
  match queueOf p v s with
  | [] => false
  | c :: _ =>
    match bufOf c.pid s with
    | none => false
    | some b => c.started && decide (c.sent < b.tail.cells)

/-- The number of a link end among its unit's ports. -/
def endIdx : LinkEnd → Nat
  | .ox p => p.val
  | .oeb _ q => q.val

/-- The next flit of a VC is ready at a link end; an OEB holds its packets whole. -/
def endReady (e : LinkEnd) (v : Nat) (s : State) : Bool :=
  match e with
  | .ox p => flitReady p.val v s
  | .oeb _ _ => (getAux (linkKey e) s).txq.any fun x => x.pkt.hdr.vc.toNat = v

/-- A VC is eligible in a slot: a flit ready and a credit (R140). The cell of VC `blocked` cannot be read yet (R32, R106). -/
def eligible (e : LinkEnd) (blocked : Option Nat) (v : Nat) (s : State) : Bool :=
  blocked ≠ some v && endReady e v s && decide (1 ≤ nth (getAux (linkKey e) s).credits v)

/-- The weight of a VC in wrr (Table 6-6). -/
def vcWeight (e : LinkEnd) (v : Nat) (s : State) : Nat :=
  gf (linkUnit e) (if v = 0 then PORT_ARB.W0 else if v = 1 then PORT_ARB.W1 else if v = 3 then PORT_ARB.W3 else PORT_ARB.W4)
    (endIdx e) s

/-- The VCs after `v` in the circular order VC1, VC4, VC0, VC3 (R140), `v` last. -/
def wrrAfter (v : Nat) : List Nat :=
  if v = 1 then [4, 0, 3, 1] else if v = 4 then [0, 3, 1, 4] else if v = 0 then [3, 1, 4, 0] else [1, 4, 0, 3]

/-- wrr of R140: the VC served now and the turn left to it. -/
def wrrPick (e : LinkEnd) (others : List Nat) (x : LinkAux) (s : State) : Nat × LinkAux :=
  if others.contains x.wrrVc && x.wrrLeft > 0 then (x.wrrVc, { x with wrrLeft := x.wrrLeft - 1 })
  else
    let v := ((wrrAfter x.wrrVc).find? fun v => others.contains v).getD x.wrrVc
    (v, { x with wrrVc := v, wrrLeft := vcWeight e v s - 1 })

/-- One pass of the pseudocode of R140: the VC whose flit is sent, none for a NULL flit. The OEB's ports follow it too (R141). -/
def arbitrate (e : LinkEnd) (blocked : Option Nat) (s : State) : Option Nat × LinkAux :=
  let x := getAux (linkKey e) s
  let gap := gf (linkUnit e) PORT_ARB.VC5_GAP (endIdx e) s
  let g := min (x.g + 1) gap
  let others := [1, 4, 0, 3].filter fun v => eligible e blocked v s
  let f := if others.isEmpty then x.f else min (x.f + gf (linkUnit e) PORT_ARB.FLOOR (endIdx e) s) 100
  let x := { x with g := g, f := f }
  if eligible e blocked 5 s && g = gap then (some 5, { x with g := 0 })
  else if eligible e blocked 2 s && !(!others.isEmpty && f = 100) then (some 2, x)
  else if !others.isEmpty then
    let x := if eligible e blocked 2 s then { x with f := 0 } else x
    let (v, x) := wrrPick e others x s
    (some v, x)
  else (none, x)

/-- The credit return of the next flit: the VC after the one last returned that has credits pending, at most 255 (R136). -/
def creditReturn (x : LinkAux) : Nat × Nat × LinkAux :=
  match ((List.range 6).map fun i => (x.lastOwed + 1 + i) % 6).find? fun v => nth x.owed v > 0 with
  | none => (0, 0, x)
  | some v =>
    let n := min 255 (nth x.owed v)
    (v, n, { x with owed := setAt x.owed v (nth x.owed v - n), lastOwed := v })

/-- A flit given its link fields, kept in the replay buffer and sent (R298, R299). -/
def sendFlit (e : LinkEnd) (f : Flit) (s : State) : State :=
  let k := linkKey e
  let l := getLink k s
  let (v, n, x) := creditReturn (getAux k s)
  let f := { f with fseq := BitVec.ofNat 12 l.nextFseq, ack := BitVec.ofNat 12 l.a, nak := l.nak
                    crVc := BitVec.ofNat 3 v, crCnt := BitVec.ofNat 8 n }
  putFlit e f (setAux k x (setLink k { l with
    nextFseq := (l.nextFseq + 1) % 4096, nak := false, held := l.held ++ [(f, 1)] } s))

/-- Flit `i` of a packet of `n` flits (R57, R100). -/
def packetFlit (pk : Packet) (n : Nat) (bad : Bool) (i v : Nat) : Flit :=
  let last := i + 1 == n
  let body := (pk.bytes.drop (112 * i)).take 112
  { fvc := BitVec.ofNat 3 v, sop := i == 0, eop := last, bad := last && bad
    valid := BitVec.ofNat 7 (if last then packetBytes pk.hdr - 112 * i else 112), null := false, fseq := 0, ack := 0
    nak := false, crVc := 0, crCnt := 0, body := fit 112 body }

/-- The EOP flit of a packet has left: its cells return, a response's tracking entry frees (R115, R379). -/
def packetSent (p : Nat) (b : BufPkt) (s : State) : State :=
  let d := portDie p s
  let h := b.pkt.hdr
  let s1 := countP h.part.toNat .pktsDelivered (countPort p .pktsTx 1 s)
  let s2 := if b.tail.inBad then countD d .tailMarkPassed s1 else s1
  let s3 := if isResponse h.opcode.toNat then (match trackFor h s2 with | some t => freeTrack t s2 | none => s2) else s2
  copyDone b.pid s3

/-- One flit of VC `v` leaves port `p`. An egress sample is taken as a packet's first flit leaves (R402). -/
def sendVc (p v : Nat) (x : LinkAux) (r : SramRead) (s : State) : State :=
  match queueOf p v s with
  | [] => s
  | c :: rest =>
    match bufOf c.pid s with
    | none => s
    | some b0 =>
      let (b, s1) := readCell b0 c.sent r s
      let f := packetFlit b.pkt b.cells b.tail.bad c.sent v
      let s2 := setAux p { x with credits := setAt x.credits v (nth x.credits v - 1) } s1
      let s3 := cmapAdd CMAP_REC.FLITS_OUT p (countPort p .flitsTx 1
        (countPort p .bytesTx f.valid.toNat (sendFlit (.ox (Fin.ofNat 288 p)) f
          (if c.sent = 0 then sample p 1 b.pkt s2 else s2))))
      if f.eop then packetSent p b (setQueue p v rest s3)
      else setQueue p v ({ c with sent := c.sent + 1, since := ft s } :: rest) s3

/-- One flit of VC `v` leaves an OEB port, and spends a credit (R133). -/
def sendOebVc (e : LinkEnd) (v : Nat) (x : LinkAux) (s : State) : State :=
  match x.txq.find? fun y => y.pkt.hdr.vc.toNat = v with
  | none => s
  | some y =>
    let n := packetCells y.pkt.hdr
    sendFlit e (packetFlit y.pkt n false y.sent v) (setAux (linkKey e) { x with
      credits := setAt x.credits v (nth x.credits v - 1)
      txq := if y.sent + 1 < n then replaceFirst y { y with sent := y.sent + 1 } x.txq else x.txq.erase y } s)

/-- A port's slots since its last echo, which count to 16 (R143). -/
def echoSlot (p : Nat) (s : State) : State :=
  { s with obs := { s.obs with
    echoSlots := SMap.set (fun _ => 16) s.obs.echoSlots p (min 16 (SMap.get (fun _ => 16) s.obs.echoSlots p + 1)) } }

/-- The next cell of a VC lies in a row that is being copied (R32). -/
def cellStalled (p v : Nat) (r : SramRead) (s : State) : Bool :=
  match queueOf p v s with
  | [] => false
  | c :: _ => match bufOf c.pid s with | none => false | some b => rowStalled (36 + nth b.stripe c.sent) r s

/-- A flit of the VC chosen leaves a link end, or a NULL flit; a cell whose row is being copied waits while another VC goes
(R106). -/
def slotFlit (e : LinkEnd) (r : SramRead) (s : State) : State :=
  let k := linkKey e
  match e, arbitrate e none s with
  | _, (none, x) => sendFlit e Flit.nul (setAux k x s)
  | .oeb _ _, (some v, x) => sendOebVc e v x s
  | .ox p, (some v, x) =>
    if cellStalled p.val v r s then
      match arbitrate e (some v) s with
      | (some w, y) => sendVc p.val w y .clean s
      | (none, y) => sendFlit e Flit.nul (setAux k y s)
    else sendVc p.val v x r s

/-- A flit slot of a link end that is up and drives; a SKIP insert while the replay buffer is full (R140, R141, R299). -/
def flitSlot (e : LinkEnd) (r : SramRead) (s : State) : State :=
  let l := getLink (linkKey e) s
  if !linkUp l || l.txIdle then s
  else
    let s := match e with | .ox p => echoSlot p.val s | .oeb _ _ => s
    if l.held.length ≥ 1024 then sendInsert e .skip [] s else slotFlit e r s

/-- The next cell of a started packet misses CT_STALL_LIMIT (R108). -/
def ctStall (p v : Nat) (s : State) : State :=
  match queueOf p v s with
  | [] => s
  | c :: _ =>
    match bufOf c.pid s with
    | none => s
    | some b =>
      if !c.started || flitReady p v s || ft s < c.since + 256 * gx FWD_CTRL.CT_STALL_LIMIT 0 s then s
      else raisePort .tailMark true p [na 3] (countPort p .ctStallAbort 1 (setBuf (cutPacket b b.tail.cells 3) s))

/-- CT_STALL_ABORT (R108). -/
def execCtStallAbort (p : Port) (vc : Vc) (s : State) : Host.Outcome State Fault Refusal := live (ctStall p.val vc.val) s

/-! ### Credits that stay away (R138) -/

/-- A VC's credits stay at 0 for 100 µs with a flit waiting: counted and raised. -/
def creditStall (e : LinkEnd) (v : Nat) (s : State) : State :=
  let k := linkKey e
  if !linkUp (getLink k s) then s
  else if nth (getAux k s).credits v ≠ 0 then s
  else
    if !endReady e v s then s
    else match e with
      | .ox p => raisePort .creditStall true p.val [na v] (countPort p.val .creditStall 1 s)
      | .oeb side q => raiseO side .creditStall true 1 q.val [na q.val, na v] (countO side .creditStall s)

/-- CREDIT_STALL (R138). -/
def execCreditStall (e : LinkEnd) (vc : Vc) (s : State) : Host.Outcome State Fault Refusal :=
  liveAt (linkUnit e) (creditStall e vc.val) s

/-! ### Echoes (R143 to R145) -/

/-- A pending echo of a port is sent between flits, at most one in 16 slots, unless the cache now covers it (R143). -/
def echoSend (p : Nat) (s : State) : State :=
  match SMap.get (fun _ => []) s.obs.echoPend p with
  | [] => s
  | e :: rest =>
    let port : LinkEnd := .ox (Fin.ofNat 288 p)
    if !linkUp (getLink p s) || (getLink p s).txIdle || SMap.get (fun _ => 16) s.obs.echoSlots p < 16 || !boundaryOpen port .echo s then s
    else
      let s1 := { s with obs := { s.obs with echoPend := SMap.set (fun _ => []) s.obs.echoPend p rest } }
      if echoCovered p e.dst e.vc e.level s then countPort p .echoSuppressed 1 s1
      else
        let body := echoBytes e.dst e.vc e.level
        let old := (SMap.get (fun _ => []) s.obs.echoCache p).filter fun x => !(x.dst == e.dst && x.vc == e.vc)
        let kept := if old.length ≥ 64 then old.tail else old
        countPort p .echoSent 1 (sendInsert port .echo (body ++ [BitVec.ofNat 8 (crc8 body)])
          { s1 with obs := { s1.obs with
            echoSlots := SMap.set (fun _ => 16) s1.obs.echoSlots p 0
            echoCache := SMap.set (fun _ => []) s1.obs.echoCache p (kept ++ [{ e with sentFt := locOf .ox9 s }]) } })

/-- ECHO_SEND (R143). -/
def execEchoSend (p : Port) (s : State) : Host.Outcome State Fault Refusal := live (echoSend p.val) s

/-- The key of a unit's rate entries. -/
def rateKey : RateUnit → Nat
  | .oeb side => side.val
  | .skipper k => 2 + k.val

/-- The rate entries of a unit. -/
def ratesOf (u : RateUnit) (s : State) : List RateEnt := SMap.get (fun _ => []) s.rates (rateKey u)

/-- The state with a unit's rate entries set. -/
def setRates (u : RateUnit) (l : List RateEnt) (s : State) : State :=
  { s with rates := SMap.set (fun _ => []) s.rates (rateKey u) l }

/-- The local clock a rate unit measures its intervals by (R352). -/
def rateFt (u : RateUnit) (s : State) : Nat :=
  match u with
  | .oeb side => locOf (.oeb side) s
  | .skipper _ => locOf .ox9 s

/-- Sends of a pair kept while they lie within the last 1 µs (R145). -/
def recentSends (now : Nat) (l : List (Nat × Nat)) : List (Nat × Nat) := l.filter fun x => decide (now < x.1 + 2500)

/-- The rate limit lets one more packet of a pair leave: over the 1 µs that ends now it has sent less than r ÷ 256 of P
(R145, with its tolerance of one packet). `sends` are the unit's sends of the pair, `rate` is P in bytes a µs. -/
def rateFree (u : RateUnit) (dst vc rate : Nat) (sends : List (Nat × Nat)) (s : State) : Bool :=
  match (ratesOf u s).find? fun x => x.dst == dst && x.vc == vc with
  | none => true
  | some x => decide (((recentSends (rateFt u s) sends).map (·.2)).sum * 256 < x.r * rate)

/-- The decrease of Table 6-9, never below 8. -/
def lowerRate (r lvl : Nat) : Nat := max 8 (if lvl = 1 then r * 7 / 8 else if lvl = 2 then r * 3 / 4 else r / 2)

/-- Entry `x` before `y` when one must be replaced: the highest r, then the lowest DST_EP (R145). -/
def evictBefore (x y : RateEnt) : Bool := decide (y.r < x.r) || (x.r == y.r && decide (x.dst < y.dst))

/-- The entry an OEB's full table gives up (R145). Of two that differ in VC alone it is the first in the table (log entry 128,
DESIGN CHOICE). -/
def evictRate : List RateEnt → Option RateEnt
  | [] => none
  | x :: xs => some (xs.foldl (fun b y => if evictBefore y b then y else b) x)

/-- An echo applied to a unit's entry for the pair (R144). -/
def applyEcho (u : RateUnit) (dst vc lvl : Nat) (s : State) : State :=
  let l := ratesOf u s
  let now := rateFt u s
  match l.find? fun x => x.dst == dst && x.vc == vc with
  | some x =>
    if now < x.lastFt + 5000 && lvl ≤ x.lastLevel then s
    else setRates u (l.map fun y => if y = x then { x with r := lowerRate x.r lvl, lastFt := now, lastLevel := lvl } else y) s
  | none =>
    let l := if l.length ≥ 1024 && rateKey u < 2 then (match evictRate l with | some y => l.erase y | none => l) else l
    setRates u (l ++ [⟨dst, vc, lowerRate 256 lvl, now, lvl⟩]) s

/-- The bytes of an echo applied (Table 6-8). -/
def echoBody (u : RateUnit) (body : List Byte) (s : State) : State :=
  let b := body.map (·.toNat)
  applyEcho u (nth b 0 + nth b 1 % 16 * 256) (nth b 1 / 16 % 8) (nth b 2 % 4) s

/-- An echo received: acted on only where its body has no erasure and its CRC-8 matches (R144, R295). A port of the OX9 keeps no
rate entries. One for a Skipper comes inside the OX9 and meets the CRC-8 alone. -/
def echoRx (x : EchoIn) (s : State) : State :=
  match x with
  | .ox p line =>
    insertIn (.ox p) .echo line (fun gs s => if (bodied (.ox p) 4 gs s).isSome then s else countPort p.val .echoRxBad 1 s) s
  | .oeb side q line =>
    insertIn (.oeb side q) .echo line (fun gs s =>
      match bodied (.oeb side q) 4 gs s with
      | some b => echoBody (.oeb side) b s
      | none => countO side .echoRxBad s) s
  | .skipper k body =>
    if body.length = 4 && crc8 (body.take 3) = nth (body.map (·.toNat)) 3 then echoBody (.skipper k) body s
    else countD (60 + k.val) .echoRxBad s

/-- ECHO_RX (R144). -/
def execEchoRx (x : EchoIn) (s : State) : Host.Outcome State Fault Refusal :=
  match x with
  | .ox _ _ => live (echoRx x) s
  | .oeb _ _ _ => run (echoRx x) s
  | .skipper _ _ => live (echoRx x) s

/-- 4 µs pass with no echo applied to an entry: r rises by 8, and an entry at 256 is freed (R145). -/
def rateRecover (u : RateUnit) (dst vc : Nat) (s : State) : State :=
  let l := ratesOf u s
  match l.find? fun x => x.dst == dst && x.vc == vc with
  | none => s
  | some x =>
    if x.r + 8 ≥ 256 then setRates u (l.erase x) s
    else setRates u (l.map fun y => if y = x then { x with r := x.r + 8 } else y) s

/-- RATE_RECOVERY (R145). -/
def execRateRecovery (u : RateUnit) (dst : BitVec 12) (vc : Vc) (s : State) : Host.Outcome State Fault Refusal :=
  match u with
  | .oeb _ => run (rateRecover u dst.toNat vc.val) s
  | .skipper _ => live (rateRecover u dst.toNat vc.val) s

/-! ### Mirror copies (R122, R404) -/

/-- A packet meets a session's enabled match fields (Table 5-10). -/
def mirrorMatches (i : Nat) (p : Nat) (egress : Bool) (h : Header) (s : State) : Bool :=
  let dir := gx MIRROR_MATCH.DIR i s
  gb MIRROR_MATCH.EN i s && (dir == 2 || dir == (if egress then 1 else 0)) &&
    bits (gx MIRROR_PORTS.PORTS (8 * i + p / 64) s) (p % 64) 1 == 1 &&
    (gx MIRROR_MATCH.FLOW i s == 0 ||
      ((gx MIRROR_MATCH.M_PART_EN i s == 0 || gx MIRROR_MATCH.M_PART i s == h.part.toNat) &&
       (gx MIRROR_MATCH.M_EP_EN i s == 0 ||
         gx MIRROR_MATCH.M_EP i s == (if gx MIRROR_MATCH.M_EP_DST i s = 1 then h.dstEp.toNat else h.srcEp.toNat)) &&
       (gx MIRROR_MATCH.M_OPCODE_EN i s == 0 || gx MIRROR_MATCH.M_OPCODE i s == h.opcode.toNat)))

/-- The fragments of a record of L bytes (R404). -/
def mirrorFrags (l : Nat) : Nat := 1 + ceilDiv (l - 224) 256

/-- The 32-byte mirror header (Table 18-8). -/
def mirrorHeader (sopFt p : Nat) (egress bad : Bool) (l qual drops : Nat) : List Byte :=
  toLE 8 sopFt ++ toLE 8 (p + egress.toNat * 2 ^ 9 + bad.toNat * 2 ^ 10 + l % 2 ^ 13 * 2 ^ 11 +
    mirrorFrags l % 32 * 2 ^ 24 + qual * 2 ^ 29 + drops * 2 ^ 32) ++ List.replicate 16 0

/-- The bytes of fragment `k` (R404). -/
def mirrorFragBytes (hd bs : List Byte) (k : Nat) : List Byte :=
  if k = 0 then hd ++ bs.take 224 else (bs.drop (224 + 256 * (k - 1))).take 256

/-- One fragment as a MSG to the analyzer (R122, R404). -/
def mirrorFrag (i rec k n : Nat) (bytes : List Byte) (s : State) : Packet :=
  let aep := gx MIRROR_DEST.A_EP i s
  let cookie := i + rec % 2 ^ 24 * 2 ^ 3 + k % 32 * 2 ^ 27 + (if k + 1 = n then 2 ^ 32 else 0)
  { hdr := { Header.zero with
      opcode := BitVec.ofNat 6 opMSG, vc := 0, part := BitVec.ofNat 12 (gx MIRROR_DEST.A_PART i s)
      srcEp := BitVec.ofNat 12 (gx FWD_CTRL.OX9_EP 0 s), dstEp := BitVec.ofNat 12 aep
      w1 := BitVec.ofNat 64 (mkAddr 0 aep cookie), len := BitVec.ofNat 13 bytes.length, scope := 2
      subop := BitVec.ofNat 8 (gx MIRROR_DEST.A_QUEUE i s), ageStamp := stampNow s }
    payload := bytes, trailer := [] }

/-- Every fragment admitted at once, or none (R122). -/
def admitAll (e : Entry) : List Packet → State → Option State
  | [], s => some s
  | pk :: pks, s =>
    let x := arrival e pk (Tail.whole pk false)
    match choose x s with
    | (.uni d, s1) =>
      match admitTo (noteTarget x (.uni d) s1) (.uni d) s1 with
      | .done s2 => admitAll e pks s2
      | _ => none
    | _ => none

/-- A mirror session forms the copy of a packet whose EOP has passed (R404): FT and the time quality are those of its SOP. A copy
formed during a Monarch switch is dropped (R389). -/
def mirrorCopy (i p : Nat) (egress : Bool) (pk : Packet) (bad : Bool) (sopFt sopQual : Nat) (s : State) : State :=
  if !mirrorMatches i p egress pk.hdr s then s
  else
    let l := packetBytes pk.hdr
    let n := mirrorFrags l
    let rec' := SMap.get (fun _ => 0) s.obs.mirrorRec i
    let drops := SMap.get (fun _ => 0) s.obs.mirrorDrops i
    let hd := mirrorHeader sopFt p egress bad l sopQual drops
    let frags := (List.range n).map fun k => mirrorFrag i rec' k n (mirrorFragBytes hd pk.bytes k) s
    match (if switching s then none else admitAll (.die (Fin.ofNat 64 (activeMonarch s))) frags s) with
    | some s1 => { s1 with obs := { s1.obs with
        mirrorRec := SMap.set (fun _ => 0) s1.obs.mirrorRec i ((rec' + 1) % 2 ^ 24)
        mirrorDrops := SMap.set (fun _ => 0) s1.obs.mirrorDrops i 0 } }
    | none => countG .mirrorDrop { s with obs := { s.obs with
        mirrorDrops := SMap.set (fun _ => 0) s.obs.mirrorDrops i (min (drops + 1) (2 ^ 32 - 1)) } }

/-- MIRROR_COPY (R404). -/
def execMirrorCopy (sess : Fin 8) (p : Port) (egress : Bool) (pk : Packet) (bad : Bool) (sopFt : Nat) (sopQual : Fin 8)
    (s : State) : Host.Outcome State Fault Refusal :=
  live (mirrorCopy sess.val p.val egress pk bad sopFt sopQual.val) s

/-! ### Sample records (R402, R403) -/

/-- The 96 bytes of a sample record (Table 18-6). -/
def sampleRecord (x : Sample) : List Byte :=
  toLE 8 x.ft ++ toLE 8 (x.port + x.egress.toNat * 2 ^ 9 + x.part * 2 ^ 10 + x.pktLen % 2 ^ 13 * 2 ^ 22 + x.qual * 2 ^ 35)
    ++ toLE 4 x.drops ++ List.replicate 12 0 ++ fit 64 x.bytes

/-- A record written to a domain's sample ring, or dropped for it where the ring is full (R403). -/
def writeSample (d : Nat) (bs : List Byte) (s : State) : State :=
  if gx SMP_RING.EN d s = 0 then s
  else
    let size := 2 ^ gx SMP_RING.LOG2 d s
    let prod := gx SMP_RING.PROD d s
    if (prod + 2 ^ 32 - gx SMP_RING.CONS d s) % 2 ^ 32 < size then
      sx SMP_RING.PROD d (prod + 1)
        (emit (.hostWrite d (gx SMP_RING.BASE d s * 4096 + 96 * (prod % size)) bs) s)
    else countG .sampleRingDrop s

/-- The domain that holds TELEMETRY (R415). -/
def telemetryDom (s : State) : Option Nat := (List.range 8).find? fun d => gx DOM_RIGHTS.TELEMETRY d s == 1

/-- A sample is written to the ring of every domain entitled to it (R403). -/
def writeRecord (x : Sample) (rest : List Sample) (s : State) : State :=
  let bs := sampleRecord x
  let s1 := { s with obs := { s.obs with samples := rest } }
  let own := gx PART_SEC.DOM x.part s1
  let s2 := match telemetryDom s1 with | some d => writeSample d bs s1 | none => s1
  if gx PART_SEC.VALID x.part s1 = 1 && telemetryDom s1 ≠ some own then writeSample own bs s2 else s2

/-- The oldest sample is read from the Monarch's store and written, while the management port serves; a read of a row that is being copied waits, a lost word
leaves the packet bytes of the record free (R31 to R33; log entry 3, DESIGN CHOICE). -/
def sampleWrite (r : SramRead) (s : State) : State :=
  match s.obs.samples with
  | [] => s
  | x :: rest =>
    if rowStalled (activeMonarch s) r s || !hostServed s then s
    else
      let s1 := sramRead (activeMonarch s) r s
      if readLost r then writeRecord { x with bytes := toLE x.bytes.length (freeVal s1) } rest (draw s1)
      else writeRecord x rest s1

/-- SAMPLE_RECORD_WRITE (R403). -/
def execSampleRecordWrite (sram : SramRead) (s : State) : Host.Outcome State Fault Refusal := live (sampleWrite sram) s

/-! ### Congestion maps (R149) -/

/-- The records of map buffer `b` cleared. -/
def cmapClear (b : Nat) (s : State) : State :=
  { s with ox := { s.ox with regs := s.ox.regs.filter fun e =>
    !(e.1 / 2 ^ 27 == Reg.cmapRec.ctorIdx && e.1 / 2 ^ 7 % 2 ^ 20 / 288 == b) } }

/-- A new map starts with the depths that stand at its boundary (Table 6-14). -/
def cmapStart (s : State) : State :=
  (List.range (ports s).length).foldl (fun s p => cmapPeak p 3 (cmapPeak p 2 (cmapPeak p 0 s))) s

/-- A boundary of the map period: the map completes, the buffers swap, a change of CMAP_CTL takes effect (R149). -/
def cmapBoundary (s : State) : State :=
  let per := max 1 s.obs.cmapPeriod * 2500
  if ft s / per ≤ s.obs.cmapIdx then s
  else
    let cur := cmapBuf s
    let s1 := if s.obs.cmapOn then
        cmapClear (1 - cur) (sx CMAP_CTL.MAP_SEQ 0 (gx CMAP_CTL.MAP_SEQ 0 s + 1)
          (sx CMAP_TIME.FT 0 (ft s / per * per) (sx CMAP_CTL.DONE_BUF 0 cur s)))
      else s
    let per' := gx CMAP_CTL.PERIOD 0 s
    cmapStart { s1 with obs := { s1.obs with
      cmapOn := gb CMAP_CTL.EN 0 s, cmapPeriod := per', cmapIdx := ft s / (max 1 per' * 2500), starved := [] } }

/-- CMAP_BOUNDARY (R149). -/
def execCmapBoundary (s : State) : Host.Outcome State Fault Refusal := live cmapBoundary s

end Sys2Proof.Machine
end

