-- ==== Sys2Proof/Machine/TimeOps.lean ====
section
/-! DEFINITION. Fabric time: quality, the upstream, Doldrums, Breeze markers, the pulse servo and the pulses
(chapter 15), except what a forward step of ft fires. -/

namespace Sys2Proof.Machine

/-! ### Small pieces -/

/-- The state with a unit's time replaced. -/
def setTime (u : UnitId) (t : TimeUnit) (s : State) : State := s.setUnit u { s.unit u with time := t }

/-- A counter of a unit's own group: the global group of the OX9, the group of an OEB. -/
def countU (u : UnitId) (c : Ctr) (s : State) : State :=
  match u with
  | .ox9 => countG c s
  | .oeb side => countO side c s

/-- A unit is the time root: an OX9 with ROOT = 1 (R336). -/
def isRoot (u : UnitId) (s : State) : Bool := u = .ox9 && gx TIME_CFG.ROOT 0 s == 1

/-- An event of a unit with no origin. -/
def raiseU (u : UnitId) (code : EvCode) (folded : Bool) (args : List (Bool × Nat)) (s : State) : State :=
  raise u (Event.mk0 u code folded (if u = .ox9 then activeMonarch s else 0) 0 0 args s) s

/-- Pulse output k: the number of the last edge, its ft, the level. -/
def ppsOutOf (k : Nat) (s : State) : Nat × Nat × Bool := (s.ox.time.ppsOut[k]?).getD (0, 0, false)

/-- How many period instants of output k there are up to the time `t` (R349). -/
def ppsIndex (k t : Nat) (s : State) : Nat :=
  let ph := gx PPS_OUT_CFG.PHASE k s
  if t < ph then 0 else (t - ph) / (max 1 (gx PPS_OUT_CFG.PERIOD k s) * 2500) + 1

/-- Output k waits for its first instant from now on: none before counts as missed (log entry 113, DEDUCED). A pulse in
progress began no later than now. -/
def ppsArm (k : Nat) (s : State) : State :=
  let (_, f, high) := ppsOutOf k s
  let n := if ft s = 0 then 0 else ppsIndex k (ft s - 1) s
  setTime .ox9 { s.ox.time with ppsOut := setAt s.ox.time.ppsOut k (n, min f (ft s), high) } s

/-- Both outputs armed. -/
def ppsArmAll (s : State) : State := ppsArm 1 (ppsArm 0 s)

/-- The snapshots of a unit. -/
def snapOf (u : UnitId) (s : State) : SnapSt :=
  match u with
  | .ox9 => s.tele.ox
  | .oeb 0 => s.tele.oebA
  | .oeb _ => s.tele.oebB

/-- The state with a unit's snapshots replaced. -/
def setSnap (u : UnitId) (x : SnapSt) (s : State) : State :=
  match u with
  | .ox9 => { s with tele := { s.tele with ox := x } }
  | .oeb 0 => { s with tele := { s.tele with oebA := x } }
  | .oeb _ => { s with tele := { s.tele with oebB := x } }

/-- After a step back the instants of PERIOD that lie ahead again will fall again (R396). -/
def snapRewind (u : UnitId) (s : State) : State :=
  let x := snapOf u s
  setSnap u { x with idx := min x.idx (ftOf u s / (max 1 x.period * 2500)) } s

/-- The quality set; a change is counted and raised with the old and new codes (R343). An OX9 whose time was UNSET drives its
pulses from the next instant on (R349). -/
def setQual (u : UnitId) (q : Nat) (s : State) : State :=
  let old := qualOf u s
  if old = q then s
  else
    let s1 := raiseU u .timeQuality true [na old, na q] (countU u .timeQualChange (sf u TIME_STAT.QUAL 0 q s))
    if u = .ox9 then refreshReady (if old = 0 then ppsArmAll s1 else s1) else s1

/-- A signed number as an argument of 64 bits. -/
def signedArg (z : Int) : Bool × Nat := wa (unsigned 64 z)

/-- The time unit moves its ft by `m`: it counts and raises TIME_STEP with the signed size (R337, R341). After a backward step
of the OX9 its pulses come at the instants from then on (R349). -/
def stepFt (u : UnitId) (m : Int) (s : State) : State :=
  let t := (s.unit u).time
  let s1 := raiseU u .timeStep false [signedArg m] (countU u .timeStep
    (setTime u { t with ft := ((t.ft : Int) + m).toNat % 2 ^ 64, r := 0, hist := [] } s))
  if decide (m < 0) then snapRewind u (if u = .ox9 then ppsArmAll s1 else s1) else s1

/-! ### The upstream (R341) -/

/-- The age a marker may have, in ft. -/
def markerWindow (u : UnitId) (s : State) : Nat := gf u TIME_CFG.MARKER_LOSS 0 s * gf u TIME_CFG.MARKER_INT 0 s * 2500

/-- A source of markers is ACTIVE: a port, or chain link q − 288 of an OX9. -/
def sourceActive (u : UnitId) (q : Nat) (s : State) : Bool :=
  match u with
  | .ox9 => if q < 288 then (getLink q s).st == 6 else gx CHAIN_STAT.UP (q - 288) s == 1
  | .oeb side => (getLink (288 + 16 * side.val + q) s).st == 6

/-- The last valid marker of a source. -/
def markerOf (u : UnitId) (q : Nat) (s : State) : Option Marker := SMap.get (fun _ => none) (s.unit u).time.markers q

/-- A source is eligible (R341). -/
def eligibleSrc (u : UnitId) (q : Nat) (s : State) : Bool :=
  sourceActive u q s &&
    match markerOf u q s with
    | none => false
    | some m => decide (ftOf u s ≤ m.rxFt + markerWindow u s) && decide (3 ≤ m.qual) && decide (m.hops ≤ 14) && !m.up

/-- Source `a` is taken before `b`: higher QUAL, then fewer HOPS, then the lower number (R341). -/
def srcBefore (a b : Nat × Marker) : Bool :=
  decide (b.2.qual < a.2.qual) ||
    (a.2.qual == b.2.qual && (decide (a.2.hops < b.2.hops) || (a.2.hops == b.2.hops && decide (a.1 < b.1))))

/-- The eligible sources with their markers. -/
def candidates (u : UnitId) (s : State) : List (Nat × Marker) :=
  (s.unit u).time.markers.filterMap fun e => if eligibleSrc u e.1 s then e.2.map fun m => (e.1, m) else none

/-- The best candidate. -/
def bestSrc : List (Nat × Marker) → Option (Nat × Marker)
  | [] => none
  | x :: xs => some (xs.foldl (fun b y => if srcBefore y b then y else b) x)

/-- The upstream's number in the source numbering; none for 0x1FF (Table 15-5). -/
def upstream (u : UnitId) (s : State) : Option Nat :=
  let v := gf u TIME_STAT.UPSTREAM 0 s
  if v = 0x1FF then none else if v = 0x1F0 then some 288 else if v = 0x1F1 then some 289 else some v

/-- The code of an upstream (Table 15-5). -/
def upstreamCode : Option Nat → Nat
  | none => 0x1FF
  | some q => if q = 288 then 0x1F0 else if q = 289 then 0x1F1 else q

/-- The upstream set; a change clears the offset history (R341). -/
def setUpstream (u : UnitId) (q : Option Nat) (s : State) : State :=
  if upstream u s = q then s
  else
    let s1 := sf u TIME_STAT.UPSTREAM 0 (upstreamCode q) s
    setTime u { (s1.unit u).time with hist := [] } s1

/-- The upstream that R341 takes now. -/
def chooseUpstream (u : UnitId) (s : State) : Option Nat :=
  let best := bestSrc (candidates u s)
  match upstream u s with
  | none => best.map (·.1)
  | some q =>
    if !eligibleSrc u q s then best.map (·.1)
    else
      match best, markerOf u q s with
      | some (b, mb), some mq =>
        if mq.qual < mb.qual || (mq.qual == mb.qual && mb.hops + 2 ≤ mq.hops) then some b else some q
      | _, _ => some q

/-- The entry to Doldrums (R347). -/
def enterDoldrums (u : UnitId) (s : State) : State :=
  let q := qualOf u s
  if isRoot u s || q = 0 || q = 1 || q = 2 then s
  else
    let t := (s.unit u).time
    let s1 := setTime u { t with r := 0, heldQual := q, demotedFt := none } s
    let s2 := sf u TIME_STAT.DOLDRUMS_FT 0 (ftOf u s1) (countU u .doldrumsEntry s1)
    setQual u (if gf u TIME_STAT.SRC_OSC 0 s2 = 1 then 1 else 2) s2

/-- The upstream chosen again; a follower left without one enters Doldrums (R341, R347). -/
def reselect (u : UnitId) (s : State) : State :=
  if isRoot u s then s
  else
    let c := chooseUpstream u s
    let s1 := setUpstream u c s
    match c with
    | some _ => s1
    | none =>
      match (s1.unit u).time.demotedFt with
      | some f => if ftOf u s1 > f + markerWindow u s1 then enterDoldrums u s1 else s1
      | none => enterDoldrums u s1

/-- The quality of a follower that tracks: by its remaining correction and its upstream's report (Table 15-4). -/
def trackQual (r : Int) (up : Nat) : Nat :=
  if (250 * 2 ^ 32 : Int) < r || r < (-(250 * 2 ^ 32) : Int) then 3
  else if up = 7 || up = 5 then 5 else if up = 6 || up = 4 then 4 else 3

/-- A tracking follower's quality follows its remaining correction (Table 15-4). -/
def refreshQual (u : UnitId) (s : State) : State :=
  let q := qualOf u s
  if isRoot u s || q < 3 then s
  else
    match upstream u s with
    | none => s
    | some src => match markerOf u src s with | some m => setQual u (trackQual (s.unit u).time.r m.qual) s | none => s

/-! ### Markers -/

/-- The mean of offsets, to the nearest ft, halves away from zero (R341). -/
def roundMean (l : List Int) : Int :=
  let n : Int := l.length
  let sum := l.sum
  if n = 0 then 0 else if sum ≥ 0 then (2 * sum + n) / (2 * n) else -((2 * (-sum) + n) / (2 * n))

/-- DELAY of a source: PORT_LINK.DELAY of a port, CHAIN_STAT.DELAY of a chain link (R340). -/
def srcDelay (u : UnitId) (q : Nat) (s : State) : Nat :=
  match u with
  | .ox9 => if q < 288 then (getLink q s).delay else gx CHAIN_STAT.DELAY (q - 288) s
  | .oeb side => (getLink (288 + 16 * side.val + q) s).delay

/-- A marker's offset: TX_FT + DELAY + TIME_ASYM − la (R340). -/
def markerOffset (u : UnitId) (q txFt : Nat) (s : State) : Int :=
  (txFt : Int) + srcDelay u q s + signed 16 (gf u TIME_ASYM.ASYM q s) - ftOf u s

/-- What a follower of quality `held` does with the offset of a marker from its upstream (R341). The second part is the
forward step it made, from and to. -/
def followMarker (u : UnitId) (held : Nat) (m : Marker) (off : Int) (s : State) : State × Option (Nat × Nat) :=
  let t := (s.unit u).time
  let hist := (off :: t.hist).take 8
  let mean := roundMean hist
  let f0 := t.ft
  let s1 := sf u TIME_STAT.OFFSET 0 (unsigned 32 (clampInt mean (-(2 ^ 31)) (2 ^ 31 - 1)))
    (sf u TIME_STAT.HOPS 0 (min 15 (m.hops + 1)) (sf u TIME_STAT.RATE 0 (unsigned 16 m.rate)
      (setTime u { t with hist := hist, demotedFt := none } s)))
  if held = 0 then
    let t1 := (s1.unit u).time
    let s2 := countU u .timeLock (setTime u { t1 with ft := ((t1.ft : Int) + mean).toNat % 2 ^ 64, r := 0, hist := [] } s1)
    (setQual u (trackQual 0 m.qual) s2, none)
  else if mean > 25000 && gf u TIME_CFG.STEP_EN 0 s1 = 1 then
    let s2 := stepFt u mean s1
    (setQual u (trackQual 0 m.qual) s2, some (f0, ftOf u s2))
  else
    let r := mean * 2 ^ 32
    (setQual u (trackQual r m.qual) (setTime u { (s1.unit u).time with r := r } s1), none)

/-- A valid marker arrives from a source (R340 to R342). It may make its own source ineligible, which the choice of the upstream
then shows in this clock (R341, R347). A follower leaves Doldrums at the first one of an eligible upstream
with SRC_OSC = 0, handled with the quality it held before (R348). -/
def markerRx (u : UnitId) (q : Nat) (txFt : Nat) (m : Marker) (s : State) : State × Option (Nat × Nat) :=
  let t := (s.unit u).time
  let s1 := setTime u { t with markers := SMap.set (fun _ => none) t.markers q (some m) } s
  if isRoot u s1 then
    if 6 ≤ m.qual && m.hops = 0 then
      (raise u { Event.mk0 u .timeRootConflict true (if q < 288 then portDie q s1 else activeMonarch s1) 1 q [na q] s1 with
        oep := some (gx PORT_BIND.EP q s1) } (countU u .timeRootConflict s1), none)
    else (s1, none)
  else
    let s2 := reselect u s1
    let off := markerOffset u q txFt s2
    if upstream u s2 ≠ some q then (s2, none)
    else if qualOf u s2 = 1 || qualOf u s2 = 2 then
      if gf u TIME_STAT.SRC_OSC 0 s2 = 0 && eligibleSrc u q s2 then
        let t2 := (s2.unit u).time
        followMarker u t2.heldQual m off (setTime u { t2 with hist := [] } s2)
      else
        let t2 := (s2.unit u).time
        let hist := (off :: t2.hist).take 8
        (sf u TIME_STAT.OFFSET 0 (unsigned 32 (clampInt (roundMean hist) (-(2 ^ 31)) (2 ^ 31 - 1)))
          (setTime u { t2 with hist := hist } s2), none)
    else followMarker u (qualOf u s2) m off s2

/-- The marker that 11 body bytes spell (Table 15-2). -/
def markerOfBytes (la : Nat) (bs : List Byte) : Nat × Marker :=
  let b10 := nth (bs.map (·.toNat)) 10
  (ofLE (bs.take 8),
    { rxFt := la, qual := b10 % 8, hops := b10 / 8 % 16, up := b10 / 128 == 1
      rate := signed 16 (ofLE ((bs.drop 8).take 2)) })

/-- The 11 bytes of a marker a unit sends on a source's link (Table 15-2). -/
def markerBytes (u : UnitId) (q : Nat) (s : State) : List Byte :=
  let hops := if isRoot u s then 0 else gf u TIME_STAT.HOPS 0 s
  toLE 8 (ftOf u s) ++ toLE 2 (gf u TIME_STAT.RATE 0 s) ++
    [BitVec.ofNat 8 (qualOf u s + hops * 8 + (if upstream u s = some q then 128 else 0))]

/-- MARKER_LOSS's effect: the upstream's window has run out (R347). -/
def markerLoss (u : UnitId) (s : State) : State :=
  match upstream u s with
  | some q => if eligibleSrc u q s then s else reselect u s
  | none => if (s.unit u).time.demotedFt.isSome then reselect u s else s

/-- MARKER_LOSS (R347). -/
def execMarkerLoss (u : UnitId) (s : State) : Host.Outcome State Fault Refusal := liveAt u (markerLoss u) s

/-! ### The root's pulse servo (R338, R350) -/

/-- The root's RATE: RATE_SET + FREQ, within ±32,767 (R337). -/
def rootRate (s : State) : Int :=
  clampInt (signed 16 (gx TIME_CFG.RATE_SET 0 s) + s.ox.time.freq) (-32767) 32767

/-- The state with the root's RATE in effect. -/
def setRootRate (s : State) : State := sx TIME_STAT.RATE 0 (unsigned 16 (rootRate s)) s

/-- `x` wrapped into (−1,250,000,000, +1,250,000,000] (R338). -/
def wrapPps (x : Int) : Int :=
  let y := x % 2500000000
  if y > 1250000000 then y - 2500000000 else y

/-- An edge falls within 1 ms of the time due; the first after enable or loss always does (R338). -/
def ppsValid (s : State) : Bool :=
  match s.ox.time.ppsPrevFt with
  | none => true
  | some f => decide (f + 2500000000 ≤ ft s + 2500000) && decide (ft s ≤ f + 2500000000 + 2500000)

/-- A valid edge at a disciplined root (R338). The second part is the forward step made. -/
def ppsServo (s : State) : State × Option (Nat × Nat) :=
  let t := s.ox.time
  let e := wrapPps ((gx TIME_CFG.PPS_PHASE 0 s : Int) - (t.ft % 2500000000 : Nat))
  let freq := match t.ppsPrevE with
    | none => t.freq
    | some prev => clampInt (t.freq + (e - prev + t.ppsSlewed / 2 ^ 32).tdiv 1000) (-2000) 2000
  let good := if e ≤ 250 && -250 ≤ e then t.ppsGood + 1 else 0
  let f0 := t.ft
  let s1 := sx PPS_IN_EDGE.FT 0 f0 (setRootRate (setTime .ox9
    { t with freq := freq, ppsPrevE := some e, ppsPrevFt := some f0, ppsSlewed := 0, ppsGood := min 4 good } s))
  let s2 := if good ≥ 4 then setQual .ox9 7 s1 else s1
  if e > 25000 && gx TIME_CFG.STEP_EN 0 s2 = 1 then
    let s3 := stepFt .ox9 e s2
    (setTime .ox9 { s3.ox.time with ppsPrevFt := some (ft s3) } s3, some (f0, ft s3))
  else (setTime .ox9 { s2.ox.time with r := e * 2 ^ 32 } s2, none)

/-- A rising edge of TIME_PPS_IN (R338, R350). -/
def ppsIn (s : State) : State × Option (Nat × Nat) :=
  if isRoot .ox9 s && gx TIME_CFG.PPS_EN 0 s = 1 then
    if ppsValid s then ppsServo s else (countG .ppsInBad s, none)
  else (sx PPS_IN_EDGE.FT 0 (ft s) s, none)

/-- No valid edge for 2 s: the next edge is a first one, and ROOT_PPS drops to ROOT_FREE (R338). -/
def ppsLost (s : State) : State :=
  match s.ox.time.ppsPrevFt with
  | none => s
  | some f =>
    if !(isRoot .ox9 s) || gx TIME_CFG.PPS_EN 0 s = 0 || ft s < f + 5000000000 then s
    else
      let s1 := countG .ppsInLost (setTime .ox9 { s.ox.time with ppsPrevFt := none, ppsPrevE := none, ppsGood := 0 } s)
      if qualOf .ox9 s1 = 7 then setQual .ox9 6 s1 else s1

/-- PPS_IN_LOST (R338). -/
def execPpsInLost (s : State) : Host.Outcome State Fault Refusal := live ppsLost s

/-! ### Pulses (R349) -/

/-- TIME_PPS_OUT rises once at each period instant of ft. -/
def ppsRise (k : Nat) (s : State) : State :=
  let n := ppsIndex k (ft s) s
  if gx PPS_OUT_CFG.EN k s = 0 || qualOf .ox9 s = 0 || n ≤ (ppsOutOf k s).1 then s
  else emit (.ppsOut k true) (setTime .ox9 { s.ox.time with ppsOut := setAt s.ox.time.ppsOut k (n, ft s, true) } s)

/-- PPS_OUT_EDGE (R349). -/
def execPpsOutEdge (k : Fin 2) (s : State) : Host.Outcome State Fault Refusal := live (ppsRise k.val) s

/-- TIME_PPS_OUT falls (QUAL + 1) × 10 µs after its edge. -/
def ppsFall (k : Nat) (s : State) : State :=
  let (n, f, high) := ppsOutOf k s
  if !high || ft s < f + (qualOf .ox9 s + 1) * 25000 then s
  else emit (.ppsOut k false) (setTime .ox9 { s.ox.time with ppsOut := setAt s.ox.time.ppsOut k (n, f, false) } s)

/-- PPS_OUT_FALL (R349). -/
def execPpsOutFall (k : Fin 2) (s : State) : Host.Outcome State Fault Refusal := live (ppsFall k.val) s

end Sys2Proof.Machine
end

