-- ==== Sys2Proof/Machine/Keys.lean ====
section
/-! DEFINITION. Key slots, owners, device sets, rotation, SEQ counters (R48, R364 to R367, R372), the random number
generator (R373): KEY_SET, KEY_ROTATE, KEY_ERASE, KEY_QUERY, DEVSET_SET, KEY_ROTATION_TIME, KEY_OVERLAP_END,
SEQ_EXHAUSTED, TRNG_STARTUP_DONE, TRNG_HEALTH_FAIL, DRBG_RESEED, TRNG_STAT_READ. -/

namespace Sys2Proof.Machine

/-! ### The security engine of a unit -/

/-- The number of a unit: 0 the OX9, 1 and 2 the OEBs. -/
def unitIdx : UnitId → Nat
  | .ox9 => 0
  | .oeb side => 1 + side.val

/-- A unit's security engine. -/
def keySec (u : UnitId) (s : State) : KeySec := SMap.get (fun _ => KeySec.reset) s.keys (unitIdx u)

/-- The state with a unit's security engine replaced. -/
def setKeySec (u : UnitId) (x : KeySec) (s : State) : State :=
  { s with keys := SMap.set (fun _ => KeySec.reset) s.keys (unitIdx u) x }

/-- The contents of a slot; none where it is empty. -/
def keySlot (u : UnitId) (n : Nat) (s : State) : Option KeySlot := SMap.get (fun _ => none) (keySec u s).slots n

/-- The state with a slot's contents set. -/
def setKeySlot (u : UnitId) (n : Nat) (k : Option KeySlot) (s : State) : State :=
  let x := keySec u s
  noteChange (setKeySec u { x with slots := SMap.set (fun _ => none) x.slots n k } s)

/-- KIND of a slot; 0 empty. -/
def slotKind (u : UnitId) (n : Nat) (s : State) : Nat := gf u KS_INFO.KIND n s
/-- PART of a slot. -/
def slotPart (u : UnitId) (n : Nat) (s : State) : Nat := gf u KS_INFO.PART n s

/-- The slots a unit holds. -/
def heldSlots (u : UnitId) (s : State) : List Nat := (keySec u s).slots.map (·.1)

/-- The owner of a partition at a unit (R365). -/
def ownerOf (u : UnitId) (p : Nat) (s : State) : Option (BitVec 384) := SMap.get (fun _ => none) (keySec u s).owners p

/-- The SEQ counters of a slot are set to 0 (R48). -/
def resetSeqs (u : UnitId) (n : Nat) (s : State) : State :=
  let x := keySec u s
  setKeySec u { x with seqs := x.seqs.filter fun e => e.1 / 2 ^ 11 ≠ n } s

/-- The SEQ value an emitting unit of a slot uses now, none once 2^48 values have been issued; the counter moves on (R48).
-/
def takeSeq (u : UnitId) (n unit : Nat) (s : State) : Option (Nat × State) :=
  let x := keySec u s
  let c := SMap.get (fun _ => 0) x.seqs (n * 2 ^ 11 + unit)
  if c < 2 ^ 48 then some (c, setKeySec u { x with seqs := SMap.set (fun _ => 0) x.seqs (n * 2 ^ 11 + unit) (c + 1) } s)
  else none

/-- A die or unit finds the last value issued: counted and raised once (R48). -/
def seqExhausted (u : UnitId) (n unit : Nat) (s : State) : State :=
  let x := keySec u s
  let k := n * 2 ^ 11 + unit
  if SMap.get (fun _ => 0) x.seqs k ≠ 2 ^ 48 then s
  else
    raise u (Event.mk0 u .seqExhausted false (if u = .ox9 then activeMonarch s else 0) 6 n [na n] s)
      (countU u .seqExhausted (setKeySec u { x with seqs := SMap.set (fun _ => 0) x.seqs k (2 ^ 48 + 1) } s))

/-- SEQ_EXHAUSTED (R48). -/
def execSeqExhausted (u : UnitId) (slot : BitVec 13) (unit : Nat) (s : State) : Host.Outcome State Fault Refusal :=
  liveAt u (seqExhausted u slot.toNat unit) s

/-- The collective slots of a partition counted in PART_SEC (Table 16-3). -/
def refreshPart (p : Nat) (s : State) : State :=
  let n := ((heldSlots .ox9 s).filter fun k => slotPart .ox9 k s = p).length
  sx PART_SEC.NKEYS p n (sx PART_SEC.INR p (if n = 0 then 0 else 1) s)

/-- A slot is erased: key and state in one clock; its partition's owner goes with its last slot (R365, R367). -/
def eraseSlot (u : UnitId) (n : Nat) (s : State) : State :=
  let p := slotPart u n s
  let s1 := resetSeqs u n (setW u .ksInfo n 1 0 (setW u .ksInfo n 0 0 (setKeySlot u n none s)))
  let x := keySec u s1
  let s2 := if (heldSlots u s1).any fun k => slotPart u k s1 = p then s1
            else setKeySec u { x with owners := SMap.del x.owners p } s1
  match u with
  | .ox9 => refreshPart p s2
  | .oeb _ => s2

/-- Every slot that passes a test is erased. -/
def eraseSlots (u : UnitId) (p : Nat → Bool) (s : State) : State :=
  ((heldSlots u s).filter p).foldl (fun s n => eraseSlot u n s) s

/-! ### Key commands (Tables 16-9, 16-10) -/

/-- The key commands. -/
inductive KeyOp where
  | set | rotate | erase | query | devset
deriving DecidableEq, Repr

/-- The OP byte. -/
def KeyOp.code : KeyOp → Nat
  | .set => 1
  | .rotate => 2
  | .erase => 3
  | .query => 4
  | .devset => 5

/-- The TRNG of a unit: its register file entry and readiness (R373). -/
def trngIdx (u : UnitId) (s : State) : Nat := match u with | .ox9 => activeMonarch s | .oeb _ => 0

/-- The unit's TRNG is ready. -/
def rngReady (u : UnitId) (s : State) : Bool := gf u TRNG_STAT.READY (trngIdx u s) s == 1

/-- A session of a unit. -/
def sessionOf (u : UnitId) (id : Nat) (s : State) : Option Session :=
  (keySec u s).sessions.find? fun x => x.id = id && x.established

/-- The command breaks its form (code 0x01). -/
def keyFormatBad (op : KeyOp) (c : KeyCmd) : Bool :=
  let kind := c.kindOrIndex.toNat
  let enforce := bits c.part.toNat 12 1 == 1
  let ov := c.overlap.toNat
  let arg := c.arg.toNat
  let kindBad := match op with
    | .set => !(1 ≤ kind && kind ≤ 3)
    | .devset => !(kind ≤ 15)
    | _ => kind != 0
  let ovBad := match op with
    | .set => !(10 ≤ ov && ov ≤ 16000)
    | _ => ov != 0
  let argBad := match op with
    | .rotate => false
    | .set => if kind = 3 then decide (2 ^ 32 ≤ arg) else arg != 0
    | .devset => decide (2 ^ 32 ≤ arg)
    | _ => arg != 0
  !c.lenOk || !c.rsvZero || bits c.slot.toNat 13 3 != 0 || bits c.part.toNat 13 3 != 0 || kindBad || ovBad || argBad ||
    (enforce && !(op = .set && kind == 1))

/-- Another requester owns what the command touches (code 0x06). -/
def keyNotOwner (u : UnitId) (op : KeyOp) (me : BitVec 384) (c : KeyCmd) (s : State) : Bool :=
  let other := fun (o : Option (BitVec 384)) => match o with | some x => x ≠ me | none => false
  let n := c.slot.toNat % 8192
  let dev := match SMap.get (fun _ => none) (keySec u s).devsets c.kindOrIndex.toNat with
    | some (_, o) => o ≠ me
    | none => false
  other (ownerOf u (c.part.toNat % 4096) s) || ((keySlot u n s).isSome && other (ownerOf u (slotPart u n s) s)) ||
    (op = .devset && dev)

/-- RESULT: the first code of Table 16-10 whose condition applies. -/
def keyResult (u : UnitId) (op : KeyOp) (sess : Session) (c : KeyCmd) (s : State) : Nat :=
  let n := c.slot.toNat % 8192
  let p := c.part.toNat % 4096
  let kind := c.kindOrIndex.toNat
  let empty := (keySlot u n s).isNone
  let onSlot := op = .rotate || op = .erase || op = .query
  let st := gf u KS_INFO.STATE n s
  match sess.owner with
  | none => if keyFormatBad op c then 1 else 2
  | some me =>
    if keyFormatBad op c then 1
    else if !rngReady u s then 3
    else if u = .ox9 && ((op = .set && (kind == 1 || kind == 3)) || op = .devset) then 4
    else if p = 0 || (u = .ox9 && gx PART_SEC.VALID p s == 0) then 5
    else if keyNotOwner u op me c s then 6
    else if op = .set && !empty then 7
    else if onSlot && empty then 8
    else if onSlot && slotPart u n s ≠ p then 0xC
    else if op = .set && kind == 2 && u = .ox9 && !(1 ≤ c.nmeas.toNat && c.nmeas.toNat ≤ 4) then 9
    else if op = .rotate && (st == 2 || st == 3) then 0xA
    else if op = .rotate && (decide (c.arg.toNat ≤ ftOf u s) || qualOf u s == 0) then 0xB
    else 0

/-- The effect of KEY_SET. -/
def keySetEffect (u : UnitId) (me : BitVec 384) (c : KeyCmd) (s : State) : State :=
  let n := c.slot.toNat % 8192
  let p := c.part.toNat % 4096
  let kind := c.kindOrIndex.toNat
  let m := if kind = 2 && u = .ox9 then c.nmeas.toNat else 0
  let s1 := resetSeqs u n (setKeySlot u n (some { key := c.key, next := none, old := none, meas := c.meas.take m
                                                  devset := if kind = 3 then c.arg.toNat else 0 }) s)
  let s2 := sf u KS_INFO.ROT_AT n 0 (sf u KS_INFO.OVERLAP n c.overlap.toNat (sf u KS_INFO.NMEAS n (m - 1)
    (sf u KS_INFO.ENFORCE n (bits c.part.toNat 12 1) (sf u KS_INFO.GEN n (gf u KS_INFO.GEN n s + 1)
      (sf u KS_INFO.STATE n 1 (sf u KS_INFO.PART n p (sf u KS_INFO.KIND n kind s1)))))))
  let x := keySec u s2
  let s3 := if (ownerOf u p s2).isNone then setKeySec u { x with owners := SMap.set (fun _ => none) x.owners p (some me) } s2 else s2
  match u with
  | .ox9 => refreshPart p s3
  | .oeb _ => s3

/-- The effect of KEY_ROTATE: the next key waits for T (R372). -/
def keyRotateEffect (u : UnitId) (c : KeyCmd) (s : State) : State :=
  let n := c.slot.toNat % 8192
  match keySlot u n s with
  | none => s
  | some k => sf u KS_INFO.ROT_AT n c.arg.toNat (sf u KS_INFO.STATE n 2 (setKeySlot u n (some { k with next := (some c.key) }) s))

/-- The effect of DEVSET_SET; a device set of 0 clears the entry (R365). -/
def devsetEffect (u : UnitId) (me : BitVec 384) (c : KeyCmd) (s : State) : State :=
  let x := keySec u s
  let v := c.arg.toNat % 2 ^ 32
  let e := if v = 0 then none else some (v, me)
  setKeySec u { x with devsets := SMap.set (fun _ => none) x.devsets c.kindOrIndex.toNat e } s

/-- What an OK command does. -/
def keyEffect (u : UnitId) (op : KeyOp) (sess : Session) (c : KeyCmd) (s : State) : State :=
  match op, sess.owner with
  | .set, some me => keySetEffect u me c s
  | .rotate, _ => keyRotateEffect u c s
  | .erase, _ => eraseSlot u (c.slot.toNat % 8192) s
  | .devset, some me => devsetEffect u me c s
  | _, _ => s

/-- The 16 bytes of a key command's response, by its OP byte, RESULT and SLOT (R364). -/
def keyResponse (u : UnitId) (op r slot : Nat) (s : State) : List Byte :=
  let n := slot % 8192
  [BitVec.ofNat 8 (op + 0x80), BitVec.ofNat 8 r] ++ toLE 2 slot ++ toLE 2 (gf u KS_INFO.GEN n s) ++ [0, 0] ++
    toLE 8 (getW u .ksInfo n 0 s).toNat

/-- Response code of an SPDM ERROR, and of a vendor-defined response (log entry 16, PRESUMED). -/
def spdmError : Nat := 0x7F

/-- An SPDM ERROR with an error code leaves the unit. -/
def spdmFail (u : UnitId) (code : Nat) (s : State) : State := emit (.spdm (unitIdx u) spdmError [BitVec.ofNat 8 code]) s

/-- A unit answers SPDM: an OEB, and an OX9 that is powered and has a live Monarch (R443). -/
def spdmLive (u : UnitId) (s : State) : Bool :=
  match u with
  | .oeb _ => true
  | .ox9 => !dark s && monarchLive s

/-- An SPDM request at a unit; one that cannot answer does nothing. -/
def spdmAt (u : UnitId) (f : State → State) (s : State) : Host.Outcome State Fault Refusal :=
  if spdmLive u s then .next (f s) else .next s

/-- A frozen OX9 refuses key commands (R411). -/
def keysFrozen (u : UnitId) (s : State) : Bool := u = .ox9 && gb CALM_STAT.CALM 0 s

/-- A key command executed: a non-OK result counts and has no effect (R364, R366). A session that the unit does not hold is
answered with ERROR InvalidSession; in Calm the command is refused with ERROR ResponseNotReady, since Table 16-10 has no result of
that meaning (R411; log entry 73, DESIGN CHOICE). -/
def keyCommand (u : UnitId) (op : KeyOp) (sess : Nat) (c : KeyCmd) (s : State) : State :=
  match sessionOf u sess s with
  | none => spdmFail u 2 s
  | some x =>
    if keysFrozen u s then spdmFail u 0x42 s
    else
    let r := keyResult u op x c s
    let s1 := if r = 0 then keyEffect u op x c s else countU u .keyCmdRefused s
    emit (.spdm (unitIdx u) 0x7E (keyResponse u op.code r c.slot.toNat s1)) s1

/-- KEY_SET (R364). -/
def execKeySet (u : UnitId) (sess : Nat) (c : KeyCmd) (s : State) : Host.Outcome State Fault Refusal :=
  spdmAt u (keyCommand u .set sess c) s
/-- KEY_ROTATE (R372). -/
def execKeyRotate (u : UnitId) (sess : Nat) (c : KeyCmd) (s : State) : Host.Outcome State Fault Refusal :=
  spdmAt u (keyCommand u .rotate sess c) s
/-- KEY_ERASE (R367). -/
def execKeyErase (u : UnitId) (sess : Nat) (c : KeyCmd) (s : State) : Host.Outcome State Fault Refusal :=
  spdmAt u (keyCommand u .erase sess c) s
/-- KEY_QUERY (R364). -/
def execKeyQuery (u : UnitId) (sess : Nat) (c : KeyCmd) (s : State) : Host.Outcome State Fault Refusal :=
  spdmAt u (keyCommand u .query sess c) s
/-- DEVSET_SET (R365). -/
def execDevsetSet (u : UnitId) (sess : Nat) (c : KeyCmd) (s : State) : Host.Outcome State Fault Refusal :=
  spdmAt u (keyCommand u .devset sess c) s

/-- The length Table 16-9 gives a command. -/
def keyLen (u : UnitId) (op : KeyOp) (kind nmeas : Nat) : Nat :=
  match op with
  | .set => if kind = 2 && u = .ox9 then 52 + 48 * nmeas else 48
  | .rotate => 48
  | _ => 16

/-- The fields of a key command (Table 16-9). -/
def keyCmdOf (u : UnitId) (op : KeyOp) (b : List Byte) : KeyCmd :=
  let fld := fun o n => ofLE ((b.drop o).take n)
  let kind := fld 1 1
  let nm := fld 48 1
  let meas := kind = 2 && u = .ox9 && op = .set
  { kindOrIndex := BitVec.ofNat 8 kind, slot := BitVec.ofNat 16 (fld 2 2), part := BitVec.ofNat 16 (fld 4 2)
    overlap := BitVec.ofNat 16 (fld 6 2), arg := BitVec.ofNat 64 (fld 8 8), key := BitVec.ofNat 256 (fld 16 32)
    nmeas := BitVec.ofNat 8 nm
    meas := if meas then (List.range nm).map fun i => BitVec.ofNat 384 (fld (52 + 48 * i) 48) else []
    rsvZero := !meas || fld 49 3 == 0
    lenOk := b.length == keyLen u op kind nm }

/-- The command an OP byte names. -/
def keyOpOf : Nat → Option KeyOp
  | 1 => some .set
  | 2 => some .rotate
  | 3 => some .erase
  | 4 => some .query
  | 5 => some .devset
  | _ => none

/-- A key command as the payload of a vendor-defined request; a reserved OP answers FORMAT (R364). -/
def keyPayload (u : UnitId) (sess : Nat) (b : List Byte) (s : State) : State :=
  match keyOpOf (ofLE (b.take 1)) with
  | some op => keyCommand u op sess (keyCmdOf u op b) s
  | none =>
    if keysFrozen u s then spdmFail u 0x42 s
    else emit (.spdm (unitIdx u) 0x7E (keyResponse u (ofLE (b.take 1)) 1 (ofLE ((b.drop 2).take 2)) s)) (countU u .keyCmdRefused s)

/-! ### Rotation (R372) -/

/-- ft reaches T: the next key seals, SEQ resets, GEN rises, the old key still checks. -/
def rotationTime (u : UnitId) (n : Nat) (s : State) : State :=
  match keySlot u n s with
  | none => s
  | some k =>
    match k.next with
    | none => s
    | some nk =>
      if gf u KS_INFO.STATE n s ≠ 2 || ftOf u s < gf u KS_INFO.ROT_AT n s then s
      else
        sf u KS_INFO.STATE n 3 (sf u KS_INFO.GEN n (gf u KS_INFO.GEN n s + 1)
          (resetSeqs u n (setKeySlot u n (some { k with key := nk, next := none, old := some k.key }) s)))

/-- KEY_ROTATION_TIME (R372). -/
def execKeyRotationTime (u : UnitId) (slot : BitVec 13) (s : State) : Host.Outcome State Fault Refusal :=
  liveAt u (rotationTime u slot.toNat) s

/-- ft reaches T + OVERLAP: the old key is erased. -/
def overlapEnd (u : UnitId) (n : Nat) (s : State) : State :=
  match keySlot u n s with
  | none => s
  | some k =>
    if gf u KS_INFO.STATE n s ≠ 3 || ftOf u s < gf u KS_INFO.ROT_AT n s + gf u KS_INFO.OVERLAP n s * 2500 then s
    else sf u KS_INFO.STATE n 1 (setKeySlot u n (some { k with old := none }) s)

/-- KEY_OVERLAP_END (R372). -/
def execKeyOverlapEnd (u : UnitId) (slot : BitVec 13) (s : State) : Host.Outcome State Fault Refusal :=
  liveAt u (overlapEnd u slot.toNat) s

/-! ### The random number generator (R373) -/

/-- The unit and the register entry of a TRNG. -/
def trngAt : TrngUnit → UnitId × Nat
  | .monarch d => (.ox9, 62 + d.val)
  | .oeb side => (.oeb side, 0)

/-- The requests a DRBG of a unit has served since its last seed. -/
def requestsOf (i : Nat) (x : KeySec) : Nat := SMap.get (fun _ => 0) x.drbgReqs i
/-- The seeds a DRBG of a unit has had. -/
def seedsOf (i : Nat) (x : KeySec) : Nat := SMap.get (fun _ => 0) x.drbgSeeds i

/-- Output `r` of a DRBG since its `n`-th seed: the DRBG of the OX9's entry `i`, or the OEB's (log entry 9, DESIGN CHOICE). -/
def drbgWord (u : UnitId) (i n r : Nat) : BitVec 64 := Config.drbg (unitIdx u + 4 * i) (n * 2 ^ 21 + r)

/-- A DRBG is seeded anew. -/
def seedDrbg (i : Nat) (x : KeySec) : KeySec :=
  { x with drbgReqs := SMap.set (fun _ => 0) x.drbgReqs i 0, drbgSeeds := SMap.set (fun _ => 0) x.drbgSeeds i (seedsOf i x + 1) }

/-- The package key is drawn from the TRNG of the OX9 that is ready first after a reset: the first four words of its DRBG (R362;
log entry 115, DESIGN CHOICE). -/
def drawPackage (u : UnitId) (i : Nat) (x : KeySec) : KeySec :=
  if u = .ox9 && x.package.isNone then
    { x with
      package := some (BitVec.ofNat 256 (ofLE ((List.range 4).map fun r => toLE 8 (drbgWord u i (seedsOf i x) r).toNat).flatten))
      drbgReqs := SMap.set (fun _ => 0) x.drbgReqs i 4 }
  else x

/-- Start-up tests end: READY, or one more try; the third failure in a row sets FAILED until reset. -/
def trngStartup (t : TrngUnit) (pass : Bool) (s : State) : State :=
  let (u, i) := trngAt t
  if gf u TRNG_STAT.READY i s = 1 || gf u TRNG_STAT.FAILED i s = 1 then s
  else if pass then
    let s1 := sf u TRNG_STAT.TRIES i 0 (sf u TRNG_STAT.READY i 1 s)
    setKeySec u (drawPackage u i (seedDrbg i (keySec u s1))) s1
  else
    let n := gf u TRNG_STAT.TRIES i s + 1
    let s1 := sf u TRNG_STAT.TRIES i n s
    if n ≥ 3 then sf u TRNG_STAT.FAILED i 1 s1 else s1

/-- TRNG_STARTUP_DONE (R373). -/
def execTrngStartupDone (u : TrngUnit) (pass : Bool) (s : State) : Host.Outcome State Fault Refusal :=
  liveAt (trngAt u).1 (trngStartup u pass) s

/-- A continuous test fails: READY clears, the failure is counted and raised. -/
def trngHealth (t : TrngUnit) (apt : Bool) (s : State) : State :=
  let (u, i) := trngAt t
  if gf u TRNG_STAT.READY i s = 0 then s
  else
    let s1 := satAdd u (if apt then TRNG_STAT.APT_FAILS else TRNG_STAT.RCT_FAILS) i 1 (sf u TRNG_STAT.READY i 0 s)
    raise u (Event.mk0 u .trngFail false (if u = .ox9 then i else 0) 0 0 [] s1) (countU u .trngHealthFail s1)

/-- TRNG_HEALTH_FAIL (R373). -/
def execTrngHealthFail (u : TrngUnit) (apt : Bool) (s : State) : Host.Outcome State Fault Refusal :=
  liveAt (trngAt u).1 (trngHealth u apt) s

/-- The DRBG reseeds after 2^20 requests. -/
def drbgReseed (t : TrngUnit) (s : State) : State :=
  let (u, i) := trngAt t
  let x := keySec u s
  if gf u TRNG_STAT.READY i s = 1 && decide (2 ^ 20 ≤ requestsOf i x) then setKeySec u (seedDrbg i x) s else s

/-- DRBG_RESEED (R373). -/
def execDrbgReseed (u : TrngUnit) (s : State) : Host.Outcome State Fault Refusal := liveAt (trngAt u).1 (drbgReseed u) s

/-- One request of the output of a unit's DRBG, at the OX9 that of the active Monarch die. -/
def drbgUse (u : UnitId) (s : State) : State :=
  let x := keySec u s
  let i := trngIdx u s
  setKeySec u { x with drbgReqs := SMap.set (fun _ => 0) x.drbgReqs i (requestsOf i x + 1) } s

end Sys2Proof.Machine
end

