-- ==== Sys2Proof/Machine/Seal.lean ====
section
/-! DEFINITION. Sealing and opening packets under key slots (R47, R48, R367, R368, R372), the chunk digest (R164). -/

namespace Sys2Proof.Machine

/-- The header as the AAD takes it: DST_EP, STATUS and AGE_STAMP zero (R47). -/
def aadBytes (h : Header) : List Byte := headerBytes { h with dstEp := 0, status := 0, ageStamp := 0 }

/-- The 96-bit IV, most significant byte first (R47). -/
def ivBytes (src part slot unit seq : Nat) : List Byte :=
  (toLE 12 (seq % 2 ^ 48 + unit % 2 ^ 11 * 2 ^ 48 + slot % 2 ^ 13 * 2 ^ 59 + part % 2 ^ 12 * 2 ^ 72 +
    src % 2 ^ 12 * 2 ^ 84)).reverse

/-- The IV of a packet; `unit` is the UNIT bits. -/
def ivOf (h : Header) (unit : Nat) : List Byte :=
  ivBytes h.srcEp.toNat h.part.toNat h.keySlot.toNat unit h.seq.toNat

/-- The UNIT bits of a received packet's IV; those of a step report name its die besides (`openReport`). -/
def ivUnit (h : Header) : Nat := if isRed h.opcode.toNat then h.unit else 0

/-- Bytes encrypted or decrypted in counter mode from position `n` on (log entry 8, PRESUMED). -/
def gcmXor (key : BitVec 256) (iv : List Byte) : Nat → List Byte → List Byte
  | _, [] => []
  | n, b :: bs => (b ^^^ Config.gcmStream key iv n) :: gcmXor key iv (n + 1) bs

/-- The packet encrypted under a key, with its tag. -/
def sealWith (key : BitVec 256) (unit : Nat) (h : Header) (payload : List Byte) : Packet :=
  let iv := ivOf h unit
  let ct := gcmXor key iv 0 payload
  { hdr := h, payload := ct, trailer := fit 16 (Config.gcmTag key iv (aadBytes h) ct) }

/-- A packet's tag verifies under a key with the UNIT bits `unit`. -/
def tagOk (key : BitVec 256) (unit : Nat) (p : Packet) : Bool :=
  p.trailer == fit 16 (Config.gcmTag key (ivOf p.hdr unit) (aadBytes p.hdr) p.payload)

/-- The plaintext of a packet under a key. -/
def openWith (key : BitVec 256) (unit : Nat) (p : Packet) : List Byte := gcmXor key (ivOf p.hdr unit) 0 p.payload

/-- A packet opened under the contents of a slot with the UNIT bits of one of `units`: under the key, or under the old key of
an overlap, which counts (R372). None where the check fails. -/
def openFrom (u : UnitId) (k : Option KeySlot) (units : List Nat) (p : Packet) (s : State) : Option (List Byte) × State :=
  match k with
  | none => (none, s)
  | some k =>
    match units.find? fun n => tagOk k.key n p with
    | some n => (some (openWith k.key n p), s)
    | none =>
      match k.old.bind fun o => (units.find? fun n => tagOk o n p).map fun n => openWith o n p with
      | some data => (some data, countU u .keyOldAccept s)
      | none => (none, s)

/-- A packet opened under the slot it names, of a kind and of its partition. -/
def openUnder (u : UnitId) (kind : Nat) (units : List Nat) (p : Packet) (s : State) : Option (List Byte) × State :=
  let n := p.hdr.keySlot.toNat
  openFrom u (if slotKind u n s = kind && slotPart u n s = p.hdr.part.toNat then keySlot u n s else none) units p s

/-- A packet opened under the slot it names with the UNIT bits of its kind (R47). -/
def openPacket (u : UnitId) (kind : Nat) (p : Packet) (s : State) : Option (List Byte) × State :=
  openUnder u kind [ivUnit p.hdr] p s

/-- A step report opened under its collective slot: its IV carries 0x7F8 + d, and no header field says d, so each of the
eight dies is tried (R47, R168; log entry 104, DEDUCED). -/
def openReport (u : UnitId) (p : Packet) (s : State) : Option (List Byte) × State :=
  openUnder u 2 ((List.range 8).map fun d => 0x7F8 + d) p s

/-- A packet sealed under its slot by an emitting unit of `u`: the slot is of a kind and of the packet's partition, and the
unit's SEQ is not exhausted. None where it cannot be (R48, R367, R368). -/
def sealPacket (u : UnitId) (kind emitter unit : Nat) (h : Header) (payload : List Byte) (s : State) :
    Option (Packet × State) :=
  let n := h.keySlot.toNat
  if slotKind u n s ≠ kind || slotPart u n s ≠ h.part.toNat then none
  else
    match keySlot u n s, takeSeq u n emitter s with
    | some k, some (q, s1) => some (sealWith k.key unit { h with seq := BitVec.ofNat 48 q } payload, s1)
    | _, _ => none

/-! ### The chunk digest (R164) -/

/-- The reflected ECMA-182 polynomial. -/
def crc64Poly : Nat := 0xC96C5795D7870F42

/-- CRC-64 of R164. -/
def crc64 (bs : List Byte) : Nat :=
  Nat.xor 0xFFFFFFFFFFFFFFFF
    (bs.foldl (fun c b => crcStepR crc64Poly 8 (Nat.xor c b.toNat)) 0xFFFFFFFFFFFFFFFF)

/-- The digest of a packet in clear. -/
def chunkDigest (h : Header) (payload : List Byte) : List Byte := toLE 8 (crc64 (aadBytes h ++ payload))

/-- A reduction packet in clear with its digest. -/
def clearRed (h : Header) (payload : List Byte) : Packet := { hdr := h, payload := payload, trailer := chunkDigest h payload }

end Sys2Proof.Machine
end

