-- ==== Sys2Proof/Machine/OebOps.lean ====
section
/-! DEFINITION. What every operation of an OEB uses (chapter 11): completions on ARSP, requests on MREQ, landing counters
(R63 to R68), the choice of a port (R247), the sealing and sending of a packet, answers to inbound packets (R49). -/

namespace Sys2Proof.Machine

/-! ### An OEB's state -/

/-- An OEB. -/
def oebOf (side : Side) (s : State) : Oeb := SMap.get (fun _ => Oeb.reset) s.oebs side.val
/-- The state with an OEB replaced. -/
def setOeb (side : Side) (o : Oeb) (s : State) : State :=
  { s with oebs := SMap.set (fun _ => Oeb.reset) s.oebs side.val o }
/-- The state with an OEB changed. -/
def modOeb (side : Side) (f : Oeb → Oeb) (s : State) : State := setOeb side (f (oebOf side s)) s

/-- A field of an OEB's register file. -/
def go (side : Side) (f : Fld) (i : Nat) (s : State) : Nat := gf (.oeb side) f i s
/-- The state with such a field set. -/
def so (side : Side) (f : Fld) (i v : Nat) (s : State) : State := sf (.oeb side) f i v s

/-- A number not used before in this OEB. -/
def freshId (side : Side) (s : State) : Nat × State :=
  ((oebOf side s).nextId, modOeb side (fun o => { o with nextId := o.nextId + 1 }) s)

/-- The fabric time of an OEB. -/
def ftO (side : Side) (s : State) : Nat := ftOf (.oeb side) s

/-- An event of an OEB with the partition and endpoints it names (R375). -/
def raiseOF (side : Side) (code : EvCode) (folded : Bool) (okind origin : Nat) (args : List (Bool × Nat))
    (part src dst : Option Nat) (s : State) : State :=
  raise (.oeb side) { Event.mk0 (.oeb side) code folded 0 okind origin args s with part := part, srcEp := src, dstEp := dst } s

/-! ### Completions (R242, R245) -/

/-- A non-OK completion is recorded in its context (Table 11-6). -/
def ctxError (side : Side) (x st : Nat) (s : State) : State :=
  if st = 0 then s
  else
    let s1 := if go side CTX_CFG.ERR x s = 0 then so side CTX_CFG.ERR_STATUS x st s else s
    satAdd (.oeb side) CTX_CFG.ERR_COUNT x 1 (so side CTX_CFG.ERR x 1 s1)

/-- One ARSP leaves, its context's error record with it. -/
def arsp (side : Side) (ctx atag st value subop : Nat) (data : List Byte) (s : State) : State :=
  emit (.arsp side.val (atag % 2 ^ 14 + st % 16 * 2 ^ 14 + data.length % 2 ^ 13 * 2 ^ 18 + ctx % 2 ^ 10 * 2 ^ 31 +
    subop % 2 ^ 8 * 2 ^ 41) value data) (ctxError side ctx st s)

/-- The data beats of a non-OK LOAD: LEN bytes of ERR_BYTE (R249). -/
def errData (side : Side) (n : Nat) (s : State) : List Byte :=
  List.replicate n (BitVec.ofNat 8 (go side OEB_CFG.ERR_BYTE 0 s))

/-- An AOP outside Table 11-4. -/
def aopReserved (a : Nat) : Bool := a = 0 || a = 7 || (decide (0x0C < a) && decide (a < 0x10)) || decide (0x13 < a)

/-- What R241 asks of every descriptor: an AOP of Table 11-4, rsv zero. -/
def headBad (d : Areq) : Bool := d.rsv != 0 || aopReserved d.aop.toNat

/-- A descriptor completes without a request: a LOAD carries ERR_BYTE data. -/
def arspFail (side : Side) (aop : Aop) (d : Areq) (st : Nat) (s : State) : State :=
  arsp side d.ctx.val d.atag.toNat st 0 0
    (if aop = .load && !aopReserved d.aop.toNat then errData side d.len.toNat s else []) s

/-! ### MREQ (R243) -/

/-- The MOP of a purpose (Table 11-5). -/
def MPurp.mop : MPurp → Nat
  | .inRead _ _ => 1
  | .inWrite _ _ => 2
  | .msg _ => 7
  | .atom _ _ _ => 3
  | .unlock _ _ _ => 4
  | .walk _ => 1
  | .contrib _ _ => 1
  | .result _ _ => 2
  | .dmaRd _ _ _ _ => 1
  | .dmaWr _ _ _ => 2
  | .crec _ => 2
  | .ring _ _ => 1
  | .snpInv _ _ => 5
  | .snpRecall _ _ => 6
  | .homeRead _ _ => 1
  | .homeWrite _ _ => 2

/-- The lowest MTAG that no MREQ without its MRSP holds (log entry 30, DESIGN CHOICE). -/
def freeMtag (side : Side) (s : State) : Option Nat :=
  firstBelow 16384 fun t => !((oebOf side s).mreqs.any fun m => m.mtag = t)

/-- An MREQ leaves under an MTAG. -/
def mreqSend (side : Side) (w : MreqWait) (tag : Nat) (s : State) : State :=
  let m : Mreq := { mid := w.mid, mtag := tag, purp := w.purp, ctx := w.ctx, sent := locOf (.oeb side) s, late := false }
  emit (.mreq side.val (w.purp.mop + tag * 2 ^ 4 + w.len % 2 ^ 13 * 2 ^ 18 + w.poison.toNat * 2 ^ 31 + w.queue % 256 * 2 ^ 32)
    w.addr w.data) (modOeb side (fun o => { o with mreqs := o.mreqs ++ [m] }) s)

/-- The context of an AREQ in progress, 1,024 where there is none. -/
def joinCtx (side : Side) (jid : Nat) (s : State) : Nat :=
  (((oebOf side s).joins.find? fun j => j.jid = jid).map fun j => j.d.ctx.val).getD 1024

/-- The context whose translation gave an MREQ its address, 1,024 where none did (R276). -/
def purpCtx (side : Side) (p : MPurp) (s : State) : Nat :=
  match p with
  | .atom _ _ (some jid) => joinCtx side jid s
  | .unlock _ _ x => x
  | .contrib jid _ => joinCtx side jid s
  | .dmaRd c _ _ _ => go side DMA_CH.CTX c s
  | .dmaWr c _ _ => go side DMA_CH.CTX c s
  | .crec c => go side DMA_CH.CTX c s
  | .ring c _ => go side DMA_CH.CTX c s
  | _ => 1024

/-- An MREQ is issued, or waits behind those that wait until an MTAG is free (R244: no MTAG is reused before its MRSP). -/
def mreq (side : Side) (purp : MPurp) (addr len : Nat) (poison : Bool) (queue : Nat) (data : List Byte) (s : State) : State :=
  let (mid, s1) := freshId side s
  let w : MreqWait := { mid := mid, purp := purp, ctx := purpCtx side purp s, addr := addr, len := len, poison := poison, queue := queue, data := data }
  match (if (oebOf side s1).mreqQ.isEmpty then freeMtag side s1 else none) with
  | some tag => mreqSend side w tag s1
  | none => modOeb side (fun o => { o with mreqQ := o.mreqQ ++ [w] }) s1

/-- The first MREQ that waits for an MTAG leaves once one is free. -/
def mreqNext (side : Side) (s : State) : State :=
  match (oebOf side s).mreqQ, freeMtag side s with
  | w :: rest, some tag => mreqSend side w tag (modOeb side (fun o => { o with mreqQ := rest }) s)
  | _, _ => s

/-- The accelerator address of an exposed offset (R251). -/
def expAddr (side : Side) (off : Nat) (s : State) : Nat := (go side EXP_BASE.BASE 0 s + off) % 2 ^ 64

/-! ### Landing counters (R63 to R68) -/

/-- The waits on a counter are tested (R68, R252). EN and PART are tested where LC_WAIT is issued; a wait runs on whatever is
written to them later (log entry 99, DESIGN CHOICE). -/
def lcTest (side : Side) (n : Nat) (s : State) : State :=
  let c := go side LC_ENTRY.COUNT n s
  let (done, rest) := (oebOf side s).waits.partition fun w => !w.dma && w.idx = n && decide (subMod 32 c w.target < 2 ^ 31)
  done.foldl (fun s w => arsp side w.ctx w.atag 0 0 0 [] s) (modOeb side (fun o => { o with waits := rest }) s)

/-- An advance of a counter by the bytes landed (R64, R66, R67). -/
def lcAdvance (side : Side) (n len : Nat) (poisoned : Bool) (s : State) : State :=
  let s1 := so side LC_ENTRY.COUNT n (go side LC_ENTRY.COUNT n s + len) s
  lcTest side n (if poisoned then so side LC_ENTRY.POISONED n 1 s1 else s1)

/-- What R65 says of a write that carries LC_ADV. -/
inductive LcCheck where
  | off | deny | ok
deriving DecidableEq, Repr

/-- The check of R65. -/
def lcCheck (side : Side) (n part : Nat) (s : State) : LcCheck :=
  if go side LC_ENTRY.EN n s = 0 then .off else if go side LC_ENTRY.PART n s ≠ part then .deny else .ok

/-- The traces of an advance with EN = 0. -/
def lcOff (side : Side) (s : State) : State := raiseO side .lcAdvDisabled true 0 0 [] (countO side .lcAdvDisabled s)

/-- The traces of a refused advance: DENIED is set. -/
def lcDeny (side : Side) (n src part : Nat) (s : State) : State :=
  raiseOF side .partDeny false 2 src [na src, na part, na n] (some part) (some src) none
    (countO side .lcPartDeny (so side LC_ENTRY.DENIED n 1 s))

/-! ### Ports (R246, R247) -/

/-- A port of an OEB is up. -/
def oPortUp (side : Side) (q : Nat) (s : State) : Bool := linkUp (getLink (288 + 16 * side.val + q) s)

/-- The up ports that pass a test. -/
def oPorts (side : Side) (f : Nat → Bool) (s : State) : List Nat := (List.range 16).filter fun q => oPortUp side q s && f q

/-- The plane of a line (R86; log entry 31, DESIGN CHOICE, names where n comes from). -/
def linePlane (addr : Nat) (s : State) : Nat := bits addr 6 (gx CW_CTRL.NPLANES_LOG2 0 s)

/-- The OEB has a port on a plane (Table 11-2). -/
def hasPlane (side : Side) (pl : Nat) (s : State) : Bool :=
  (List.range 16).any fun q => go side PORT_CFG.EN q s == 1 && go side PORT_CFG.PLANE q s == pl

/-- The ports a packet may leave by (R247). -/
def portCandidates (side : Side) (r : Req) (s : State) : List Nat :=
  match r.plane with
  | some pl => oPorts side (fun q => go side PORT_CFG.PLANE q s == pl) s
  | none =>
    match r.inPort with
    | some q => if oPortUp side q s then [q] else oPorts side (fun _ => true) s
    | none => oPorts side (fun _ => true) s

/-- The flits of a VC that wait at a port of an OEB. -/
def txFlits (side : Side) (q v : Nat) (s : State) : Nat :=
  (((getAux (288 + 16 * side.val + q) s).txq.filter fun x => x.pkt.hdr.vc.toNat = v).map fun x => packetCells x.pkt.hdr - x.sent).sum

/-- The candidate whose queue for the VC holds the fewest flits; of tied ones the first at or after the rotating pointer
(R247). -/
def pickPort (side : Side) (l : List Nat) (v : Nat) (s : State) : Option Nat :=
  let best := l.foldl (fun n q => min n (txFlits side q v s)) (2 ^ 40)
  let tied := l.filter fun q => txFlits side q v s = best
  let p := (oebOf side s).rotPort
  match tied.find? fun q => decide (p ≤ q) with
  | some q => some q
  | none => tied.head?

/-- The queue of an OEB port. -/
def txQueue (side : Side) (q : Nat) (s : State) : List TxPkt := (getAux (288 + 16 * side.val + q) s).txq

/-- A packet of a request joins the queue of an OEB port (R247). -/
def oebQueue (side : Side) (q rid : Nat) (pk : Packet) (s : State) : State :=
  let k := 288 + 16 * side.val + q
  let x := getAux k s
  emit (.oebTx side.val q pk) (setAux k { x with txq := x.txq ++ [{ pkt := pk, sent := 0, rid := rid }] } s)

/-- The payload bytes per µs of a port's width (Table 0-3). -/
def oPortRate (side : Side) (q : Nat) (s : State) : Nat := 39200 * 2 ^ go side PORT_CFG.WIDTH q s

/-- P of R145. -/
def oRate (side : Side) (s : State) : Nat := ((oPorts side (fun _ => true) s).map fun q => oPortRate side q s).sum

/-- The rate limit lets one more packet of a pair leave (R145). -/
def rateAllows (side : Side) (dst vc : Nat) (s : State) : Bool :=
  rateFree (.oeb side) dst vc (oRate side s) (SMap.get (fun _ => []) (oebOf side s).sent (dst * 8 + vc)) s

/-- Bytes of a pair noted as sent now. -/
def rateNote (side : Side) (dst vc n : Nat) (s : State) : State :=
  modOeb side (fun o =>
    let l := recentSends (rateFt (.oeb side) s) (SMap.get (fun _ => []) o.sent (dst * 8 + vc))
    { o with sent := SMap.set (fun _ => []) o.sent (dst * 8 + vc) (l ++ [(rateFt (.oeb side) s, n)]) }) s

/-! ### Requests -/

/-- The header an OEB writes (R38, R42, R128): PART and the key slot come from the translation; `w1` is word 1. -/
def oebHeader (side : Side) (op vc part dst tag len scope lc slot subop : Nat) (enc : Bool) (w1 : Nat) (s : State) : Header :=
  { Header.zero with
    opcode := BitVec.ofNat 6 op, vc := BitVec.ofNat 3 vc, part := BitVec.ofNat 12 part
    srcEp := BitVec.ofNat 12 (go side OEB_ID.EP 0 s), dstEp := BitVec.ofNat 12 dst, tag := BitVec.ofNat 14 tag, enc := enc
    w1 := BitVec.ofNat 64 w1, len := BitVec.ofNat 13 len, scope := BitVec.ofNat 2 scope, lcId := BitVec.ofNat 12 lc
    keySlot := BitVec.ofNat 13 (if enc then slot else 0), subop := BitVec.ofNat 8 subop }

/-- A request or answer joins the issue queue. -/
def enqueueReq (side : Side) (r : Req) (s : State) : State := modOeb side (fun o => { o with queue := o.queue ++ [r] }) s

/-- A memory access to region 15 and a VC4 packet go by the line's plane (R247). -/
def planeOf (op addr : Nat) (s : State) : Option Nat :=
  if isCoh op || (isMem op && op ≠ opMSG && addrRegion addr = 15) || (isRsp op && addrRegion addr = 15) then some (linePlane addr s)
  else none

/-- An answer to an inbound packet: opcode, destination, status, SUBOP, data (R49). -/
def answer (side : Side) (h : Header) (q op dst st subop : Nat) (data : List Byte) (s : State) : State :=
  let (rid, s1) := freshId side s
  let data := if st = 0 then data else []
  let hd := oebHeader side op (if isCoh op then 4 else 1) h.part.toNat dst h.tag.toNat data.length h.scope.toNat 0
    h.keySlot.toNat subop h.enc h.w1.toNat s1
  enqueueReq side { rid := rid, ctx := 1024, src := .answer, hdr := { hd with status := BitVec.ofNat 4 st }, data := data
                    acc := ftO side s1, retries := 0, inPort := some q, plane := planeOf op h.addr s1 } s1

/-- The response of R49 to a non-posted request; a posted packet is dropped without one (R52). -/
def respondIn (side : Side) (h : Header) (q st : Nat) (data : List Byte) (s : State) : State :=
  if nonPosted h.opcode.toNat then answer side h q (rspOf h.opcode.toNat) h.srcEp.toNat st 0 data s else s

end Sys2Proof.Machine
end

