-- ==== Sys2Proof/Machine/Xlat.lean ====
section
/-! DEFINITION. Translation at an OEB (R262 to R273): the caches, the walks of the shared RISC-V tables and of the mirrored
format, the checks at the sender, the traces of a fault. XLAT_FAULT_COUNT_READ and CTX_CFG_ERR_COUNT_READ. -/

namespace Sys2Proof.Machine

/-! ### What a request asks of a leaf (Table 12-7) -/

/-- The Needs column and the output kind as one number: 1 R, 2 W, 4 ATOM; the output kind times 8: 0 either, 1 local,
2 fabric, 3 fabric in region 15. -/
def needOf (r w atom : Bool) (out : Nat) : Nat := r.toNat + w.toNat * 2 + atom.toNat * 4 + out * 8

/-- R. -/
def Need.r (n : Nat) : Bool := bits n 0 1 == 1
/-- W. -/
def Need.w (n : Nat) : Bool := bits n 1 1 == 1
/-- ATOM. -/
def Need.atom (n : Nat) : Bool := bits n 2 1 == 1
/-- The output kind. -/
def Need.out (n : Nat) : Nat := n / 8

/-- The output address of an address through a leaf. -/
def Leaf.addr (l : Leaf) (va : Nat) : Nat := l.base + va % 2 ^ l.size

/-- The cause a leaf fails a request with, 0 where it passes (R268, R272, R353). -/
def leafCause (side : Side) (x need : Nat) (l : Leaf) (s : State) : Nat :=
  let outOk := match Need.out need with
    | 0 => true
    | 1 => !l.fabric
    | 2 => l.fabric
    | _ => l.fabric && addrRegion l.base == 15
  if Need.w need && !l.d then 5
  else if (Need.r need && !l.r) || (Need.w need && !l.w) || (Need.atom need && !l.atom) then 6
  else if !l.ok || !outOk then 7
  else if l.fabric && (l.part ≠ go side CTX_CFG.PART x s || l.part = 0) then 8
  else 0

/-- The status of a fault cause (Table 12-8). -/
def causeStatus (c : Nat) : Nat := if c = 9 then stPoison else stPartDeny

/-- The traces of a fault (R267, R273). -/
def xlatFault (side : Side) (x va eng cause : Nat) (s : State) : State :=
  let s1 := if go side XLAT_FAULT.FAULTED x s = 0 then
      so side XLAT_FAULT.FVA x va (so side XLAT_FAULT.CAUSE x cause (so side XLAT_FAULT.ENGINE x eng (so side XLAT_FAULT.FAULTED x 1 s)))
    else s
  raiseO side .xlatFault true 5 x [na x, wa va, na eng, na cause]
    (countO side .xlatFault (satAdd (.oeb side) XLAT_FAULT.COUNT x 1 s1))

/-! ### Caches (R263) -/

/-- The list with an entry in front, cut to the cache's size: least recently used entries leave. -/
def lru {α : Type} [DecidableEq α] (n : Nat) (e : α) (l : List α) : List α := (e :: l.erase e).take n

/-- The L2 set of an address. -/
def l2Set (asid va : Nat) : Nat := Nat.xor (bits va 12 10) (asid % 1024)

/-- An entry holds the leaf of an address. -/
def TlbEnt.holds (e : TlbEnt) (asid va : Nat) : Bool := e.asid == asid && e.page == va / 2 ^ e.leaf.size

/-- An entry is put into an engine's L1. -/
def installL1 (side : Side) (eng : Nat) (e : TlbEnt) (s : State) : State :=
  modOeb side (fun o => { o with l1 := SMap.set (fun _ => []) o.l1 eng (lru 64 e (SMap.get (fun _ => []) o.l1 eng)) }) s

/-- An entry is put into L2. -/
def installL2 (side : Side) (asid va : Nat) (e : TlbEnt) (s : State) : State :=
  let k := l2Set asid va
  modOeb side (fun o => { o with l2 := SMap.set (fun _ => []) o.l2 k (lru 8 e (SMap.get (fun _ => []) o.l2 k)) }) s

/-- The 4 KiB part of a leaf that an address lies in. -/
def Leaf.part4k (l : Leaf) (va : Nat) : Leaf := { l with base := l.base + va % 2 ^ l.size / 4096 * 4096, size := 12 }

/-- A lookup in L1, then L2; a hit is used most recently, an L2 hit enters that L1. -/
def tlbLookup (side : Side) (eng asid va : Nat) (s : State) : Option Leaf × State :=
  let o := oebOf side s
  match (SMap.get (fun _ => []) o.l1 eng).find? fun e => e.holds asid va with
  | some e => (some e.leaf, installL1 side eng e s)
  | none =>
    match (SMap.get (fun _ => []) o.l2 (l2Set asid va)).find? fun e => e.holds asid va with
    | some e => (some e.leaf, installL1 side eng e (installL2 side asid va e s))
    | none => (none, s)

/-! ### Asking for a translation -/

/-- What a request learns at once. -/
inductive XAns where
  | hit (l : Leaf) (addr : Nat)
  | fault (cause : Nat)
  | miss

/-- The number of translated bits of a mode. -/
def vaBits (mode : Nat) : Nat := if mode = 1 || mode = 3 then 48 else 57

/-- Canonical form (R268). -/
def canonical (mode va : Nat) : Bool :=
  let b := vaBits mode
  let top := va / 2 ^ (b - 1)
  top == 0 || top == 2 ^ (65 - b) - 1

/-- The entries of a page leave every cache: the next request to it walks again (R273). -/
def dropPage (side : Side) (asid va : Nat) (s : State) : State :=
  let keep := fun (m : SMap (List TlbEnt)) =>
    (m.map fun e => (e.1, e.2.filter fun t => !t.holds asid va)).filter fun e => !e.2.isEmpty
  modOeb side (fun o => { o with l1 := keep o.l1, l2 := keep o.l2 }) s

/-- A walk for the page of a miss is in progress. -/
def walking (side : Side) (asid va : Nat) (s : State) : Bool :=
  (oebOf side s).walks.any fun w => w.asid = asid && w.page = va / 4096

/-- A miss joins the walk of its page, waits for a walker, or is held in its engine's issue queue where 512 misses wait
already (R264). -/
def missIn (side : Side) (asid : Nat) (m : XMiss) (s : State) : State :=
  if walking side asid m.va s then
    modOeb side (fun o => { o with walks := o.walks.map fun w =>
      if w.asid = asid && w.page = m.va / 4096 then { w with waiters := w.waiters ++ [m] } else w }) s
  else if (oebOf side s).missQ.length < 512 then modOeb side (fun o => { o with missQ := o.missQ ++ [m] }) s
  else modOeb side (fun o => { o with xhold := o.xhold ++ [m] }) s

/-- A translation looked up: a miss goes the way of R264, a fault's traces are left here; a cached leaf that fails the request
is dropped, for no fault is cached (R273). -/
def lookUp (side : Side) (m : XMiss) (s : State) : XAns × State :=
  let mode := go side XLAT_CFG.MODE m.ctx s
  let asid := go side XLAT_CFG.ASID m.ctx s
  let bad := fun c s => (XAns.fault c, xlatFault side m.ctx m.va m.eng c s)
  if mode = 0 || mode > 4 then bad 1 s
  else if !canonical mode m.va then bad 2 s
  else
    match tlbLookup side m.eng asid m.va s with
    | (some l, s1) =>
      let c := leafCause side m.ctx m.need l s1
      if c = 0 then (.hit l (l.addr m.va), s1) else bad c (dropPage side asid m.va s1)
    | (none, s1) => (.miss, missIn side asid m s1)

/-- A translation asked for by an engine, whose issue queue is in order: behind a request held there it is held too (R264). -/
def translate (side : Side) (m : XMiss) (s : State) : XAns × State :=
  if (oebOf side s).xhold.any fun x => x.eng = m.eng then (.miss, modOeb side (fun o => { o with xhold := o.xhold ++ [m] }) s)
  else lookUp side m s

/-- Requests held in issue queues go on, in order, while the queue of misses has room; what each learns at once. -/
def xlatRelease (side : Side) : Nat → List (XMiss × XAns) × State → List (XMiss × XAns) × State
  | 0, x => x
  | k + 1, (l, s) =>
    match (oebOf side s).xhold with
    | [] => (l, s)
    | m :: rest =>
      if (oebOf side s).missQ.length ≥ 512 then (l, s)
      else
        match lookUp side m (modOeb side (fun o => { o with xhold := rest }) s) with
        | (.miss, s1) => xlatRelease side k (l, s1)
        | (a, s1) => xlatRelease side k (l ++ [(m, a)], s1)

/-! ### Walks (R264, R268, R270) -/

/-- The bytes of a table entry. -/
def pteBytes (mode : Nat) : Nat := if mode ≤ 2 then 8 else 16

/-- The read of a walk's current entry. -/
def walkRead (side : Side) (w : Walk) (s : State) : State :=
  let idx := bits (w.page * 4096) (12 + 9 * w.level) 9
  mreq side (.walk w.id) ((w.table + pteBytes w.mode * idx) % 2 ^ 64) (pteBytes w.mode) false 0 [] s

/-- A walk reads its first entry. -/
def walkFrom (side : Side) (w : Walk) (s : State) : State :=
  walkRead side w (modOeb side (fun o => { o with walks := (o.walks.filter fun x => x.id ≠ w.id) ++ [w] }) s)

/-- A walk at the root: how one starts, and how one that a purge met starts again (R275). -/
def walkRoot (side : Side) (w : Walk) (s : State) : State :=
  walkFrom side { w with level := if vaBits w.mode = 48 then 3 else 4, table := w.root, glob := false, again := false } s

/-- A walk at the last-level table the page-walk cache holds, or at the root. -/
def walkBegin (side : Side) (w : Walk) (s : State) : State :=
  let o := oebOf side s
  match o.pwc.find? fun e => e.asid = w.asid && e.page = w.page / 512 with
  | some e => walkFrom side { w with level := 0, table := e.table, glob := e.glob, again := false } (setOeb side { o with pwc := lru 256 e o.pwc } s)
  | none => walkRoot side w s

/-- A queued miss takes a free walker, or joins a walk of its page. -/
def walkStart (side : Side) (s : State) : State :=
  let o := oebOf side s
  match o.missQ with
  | [] => s
  | m :: rest =>
    if o.walks.length ≥ 32 then s
    else
      let asid := go side XLAT_CFG.ASID m.ctx s
      let s1 := setOeb side { o with missQ := rest } s
      if walking side asid m.va s1 then missIn side asid m s1
      else
        let (id, s2) := freshId side s1
        walkBegin side { id := id, asid := asid, page := m.va / 4096, mode := go side XLAT_CFG.MODE m.ctx s
                         apt := go side XLAT_CFG.APT m.ctx s, root := go side XLAT_CFG.ROOT m.ctx s * 4096, level := 0
                         table := 0, glob := false, again := false, waiters := [m] } s2


/-- What a table entry says: the next table, a leaf, a fault. -/
inductive Pte where
  | next (table : Nat) (glob : Bool)
  | leaf (l : Leaf)
  | bad (cause : Nat)

/-- A shared RISC-V entry at a level (R268, R269). -/
def pteShared (side : Side) (w : Walk) (e : Nat) (s : State) : Pte :=
  let v := bits e 0 1 == 1
  let r := bits e 1 1 == 1
  let wr := bits e 2 1 == 1
  let x := bits e 3 1 == 1
  let g := bits e 5 1 == 1 || w.glob
  let a := bits e 6 1 == 1
  let d := bits e 7 1 == 1
  let ppn := bits e 10 44
  let sz := 12 + 9 * w.level
  if !v || (wr && !r) then .bad 3
  else if bits e 63 1 = 1 then .bad 10
  else if bits e 54 7 ≠ 0 then .bad 3
  else if !r && !x then
    if w.level = 0 || a || d then .bad 3 else .next (ppn * 4096) g
  else if ppn % 2 ^ (9 * w.level) ≠ 0 then .bad 4
  else if !a then .bad 5
  else
    let oa := ppn * 4096
    let i := 256 * w.apt + oa / 2 ^ 48
    let kind := go side APT.KIND i s
    .leaf { fabric := kind == 2, ok := kind == 1 || kind == 2, size := sz, part := go side APT.PART i s
            base := if kind = 2 then mkAddr (go side APT.REGION i s) (go side APT.EP i s) oa else oa
            enc := kind == 2 && go side APT.ENC i s == 1, slot := go side APT.KEY_SLOT i s
            r := r, w := wr, atom := go side APT.ATOM_OK i s == 1, d := d, glob := g, apt := some w.apt }

/-- A mirrored entry at a level (R270). -/
def pteMirror (w : Walk) (w0 w1 : Nat) : Pte :=
  let f := fun i => bits w0 i 1 == 1
  let frame := w1 / 4096 * 4096
  let sz := 12 + 9 * w.level
  if !f 0 || bits w0 33 31 ≠ 0 || w1 % 4096 ≠ 0 then .bad 3
  else if !f 4 then
    if w.level = 0 || f 1 || f 2 || f 3 || f 5 || f 7 || bits w0 8 12 ≠ 0 then .bad 3 else .next frame (w.glob || f 6)
  else if frame % 2 ^ sz ≠ 0 then .bad 4
  else
    .leaf { fabric := !f 5, ok := true, base := frame, size := sz, part := bits w0 8 12, enc := f 7, slot := bits w0 20 13
            r := f 1, w := f 2, atom := f 3, d := true, glob := w.glob || f 6, apt := none }

/-- A walk's leaf enters the caches for a request that waited for it. -/
def walkInstall (side : Side) (w : Walk) (l : Leaf) (m : XMiss) (s : State) : State :=
  installL2 side w.asid m.va { asid := w.asid, page := m.va / 4096, leaf := l.part4k m.va }
    (installL1 side m.eng { asid := w.asid, page := m.va / 2 ^ l.size, leaf := l } s)

/-- A waiter of a walk faults: its traces, and the page leaves every cache, for the next request to it walks again (R273). -/
def walkFault (side : Side) (w : Walk) (m : XMiss) (c : Nat) (s : State) : State :=
  dropPage side w.asid m.va (xlatFault side m.ctx m.va m.eng c s)

/-- A walk ends: its leaf is installed where every request that waits for it passes its checks (log entry 33, DEDUCED); each waiter
with what it learns, the traces of each fault left here. -/
def walkEnd (side : Side) (w : Walk) (res : Except Nat Leaf) (s : State) : List (XMiss × XAns) × State :=
  let s0 := modOeb side (fun o => { o with walks := o.walks.filter fun x => x.id ≠ w.id }) s
  let all := fun (l : Leaf) => w.waiters.all fun m => leafCause side m.ctx m.need l s0 = 0
  w.waiters.foldl (fun (acc : List (XMiss × XAns) × State) m =>
    match res with
    | .error c => (acc.1 ++ [(m, .fault c)], walkFault side w m c acc.2)
    | .ok l =>
      let c := leafCause side m.ctx m.need l acc.2
      if c = 0 then (acc.1 ++ [(m, .hit l (l.addr m.va))], if all l then walkInstall side w l m acc.2 else acc.2)
      else (acc.1 ++ [(m, .fault c)], walkFault side w m c acc.2)) ([], s0)

/-- The MRSP of a walk's read. -/
def walkMrsp (side : Side) (id st : Nat) (data : List Byte) (s : State) : List (XMiss × XAns) × State :=
  match (oebOf side s).walks.find? fun w => w.id = id with
  | none => ([], s)
  | some w =>
    if w.again then ([], walkRoot side w s)
    else if st ≠ 0 then walkEnd side w (.error 9) s
    else
      let e := if w.mode ≤ 2 then pteShared side w (ofLE (data.take 8)) s
               else pteMirror w (ofLE (data.take 8)) (ofLE ((data.drop 8).take 8))
      match e with
      | .bad c => walkEnd side w (.error c) s
      | .leaf l => walkEnd side w (.ok l) s
      | .next t g =>
        let w1 := { w with level := w.level - 1, table := t, glob := g }
        let s1 := modOeb side (fun o =>
          { o with walks := o.walks.map (fun x => if x.id = id then w1 else x)
                   pwc := if w1.level = 0 then lru 256 { asid := w.asid, page := w.page / 512, glob := g, table := t } o.pwc else o.pwc }) s
        ([], walkRead side w1 s1)

/-- A read of XLAT_FAULT word 1 returns COUNT and clears it (R7, R267). -/
def xlatFaultRead (side : Side) (x : Nat) (s : State) : State :=
  so side XLAT_FAULT.COUNT x 0 (emit (.readData (getW (.oeb side) .xlatFault x 1 s).toNat) s)

/-- XLAT_FAULT_COUNT_READ (R267). -/
def execXlatFaultCountRead (side : Side) (x : Ctx) (s : State) : Host.Outcome State Fault Refusal := run (xlatFaultRead side x.val) s

/-- A read of CTX_CFG word 1 returns ERR_COUNT and clears it (R7, R245). -/
def ctxCfgRead (side : Side) (x : Nat) (s : State) : State :=
  so side CTX_CFG.ERR_COUNT x 0 (emit (.readData (getW (.oeb side) .ctxCfg x 1 s).toNat) s)

/-- CTX_CFG_ERR_COUNT_READ (R245). -/
def execCtxCfgErrCountRead (side : Side) (x : Ctx) (s : State) : Host.Outcome State Fault Refusal := run (ctxCfgRead side x.val) s

end Sys2Proof.Machine
end

