-- ==== Sys2Proof/Machine/Attach.lean ====
section
/-! DEFINITION. The attach interface (R239 to R245, R252, R255, R71 to R73) and the atomic unit with its journal (R77 to
R80, R256, R257): LOAD, STORE, STORE_NP, ATOMIC, MSG_SEND, CONTRIB, CW_GET_S, CW_GET_M, CW_UPG, CW_WB, FENCE_SYS,
FENCE_SYS_COMPLETE, LC_WAIT, LC_WAIT_TIMEOUT, LC_RD, LC_WR. -/

namespace Sys2Proof.Machine

/-! ### AREQs in progress -/

/-- The bytes of data pieces in ascending offset. -/
def joinBytes (l : List (Nat × List Byte)) : List Byte := ((l.mergeSort fun a b => a.1 ≤ b.1).map (·.2)).flatten

/-- What a fence waits on resolves with a status (R73). -/
def fenceNote (side : Side) (id st : Nat) (s : State) : State :=
  let note := fun (f : Fence) =>
    if f.rids.contains id then { f with rids := f.rids.erase id, status := worse f.status st } else f
  modOeb side (fun o => { o with fences := o.fences.map note }) s

/-- An AREQ completes: its one ARSP (R242). -/
def joinEnd (side : Side) (j : Join) (s : State) : State :=
  let s1 := modOeb side (fun o => { o with joins := o.joins.filter fun x => x.jid ≠ j.jid }) s
  let data := match j.aop with
    | .load => if j.status = 0 then joinBytes j.data else errData side j.d.len.toNat s
    | .getS => if j.status = 0 then joinBytes j.data else []
    | .getM => if j.status = 0 then joinBytes j.data else []
    | .upg => if j.status = 0 then joinBytes j.data else []
    | _ => []
  fenceNote side j.jid j.status
    (arsp side j.d.ctx.val j.d.atag.toNat j.status (if j.status = 0 then j.value else 0) j.subop data s1)

/-- A part of an AREQ ends; the last one completes it with the worst status of all (R9). -/
def joinPart (side : Side) (jid off st value subop : Nat) (data : List Byte) (s : State) : State :=
  match (oebOf side s).joins.find? fun j => j.jid = jid with
  | none => s
  | some j =>
    let j1 := { j with left := j.left - 1, status := worse j.status st, value := value, subop := subop
                       data := if data.isEmpty then j.data else j.data ++ [(off, data)] }
    if j1.left = 0 then joinEnd side j1 s
    else modOeb side (fun o => { o with joins := o.joins.map fun x => if x.jid = jid then j1 else x }) s

/-! ### The atomic unit -/

/-- The new value of an atomic on operands of `n` bytes; none where nothing is written (R77). -/
def atomNew (aop n old op swap : Nat) : Option Nat :=
  let m := 2 ^ (8 * n)
  let lt := signed (8 * n) old < signed (8 * n) op
  match aop with
  | 0 => some ((old + op) % m)
  | 1 => some (Nat.land old op)
  | 2 => some (Nat.lor old op)
  | 3 => some (Nat.xor old op)
  | 4 => some (if lt then old else op)
  | 5 => some (if lt then op else old)
  | 6 => some (min old op)
  | 7 => some (max old op)
  | 8 => some op
  | _ => if old = op then some swap else none

/-- The journal hold in units of 256 ft. -/
def jrnlHold (side : Side) (s : State) : Nat := ceilDiv (go side OEB_CFG.JRNL_HOLD 0 s * 10000) 1024

/-- The unit of 256 ft a stamp lies in. -/
def stampUnit (side : Side) (stamp : Nat) (s : State) : Nat := ftO side s / 256 - ageOf stamp (ftO side s)

/-- A unit of 256 ft is still within hold. -/
def jrnlLive (side : Side) (unit : Nat) (s : State) : Bool := decide (ftO side s / 256 - unit ≤ jrnlHold side s)

/-- A journal entry is written; with 8,192 live ones the oldest leaves and sets the floor (R257). -/
def jrnlWrite (side : Side) (h : Header) (st : Nat) (old : List Byte) (s : State) : State :=
  let live := (oebOf side s).journal.filter fun e => jrnlLive side e.unit s
  let e : Jent := { ep := h.srcEp.toNat, tag := h.tag.toNat, stamp := h.ageStamp.toNat, status := st, old := old
                    unit := stampUnit side h.ageStamp.toNat s }
  if live.length < 8192 then modOeb side (fun o => { o with journal := live ++ [e] }) s
  else
    match live with
    | [] => s
    | x :: xs =>
      let v := xs.foldl (fun (b : Jent) y => if y.unit < b.unit then y else b) x
      raiseO side .journalPressure true 0 0 [] (countO side .jrnlEarlyEvict
        (modOeb side (fun o => { o with journal := live.erase v ++ [e], floor := some v.unit }) s))

/-- What the journal says of a fabric ATOM (R256): performed, or answered without being performed. -/
inductive JrnlRow where
  | unknown | aged | hit (st : Nat) (old : List Byte) | perform

/-- The rows of R256 in order. -/
def jrnlRow (side : Side) (h : Header) (s : State) : JrnlRow :=
  let age := ageOf h.ageStamp.toNat (ftO side s)
  let o := oebOf side s
  if age > jrnlHold side s then (if bits h.subop.toNat 7 1 = 1 then .unknown else .aged)
  else
    match o.journal.find? fun e => jrnlLive side e.unit s && e.ep = h.srcEp.toNat && e.tag = h.tag.toNat && e.stamp = h.ageStamp.toNat with
    | some e => .hit e.status e.old
    | none =>
      match o.floor with
      | some u => if jrnlLive side u s && decide (stampUnit side h.ageStamp.toNat s ≤ u) then .unknown else .perform
      | none => .perform

/-- The accelerator address of an atomic's operand. -/
def atomAddr (side : Side) (p : Packet) (s : State) : Nat := expAddr side (addrOffset p.hdr.addr) s

/-- The 64-byte block of an atomic. -/
def atomBlock (side : Side) (p : Packet) (s : State) : Nat := atomAddr side p s / 64 * 64

/-- The bytes an atomic reads and locks: its block, and the next one where an EXP_BASE that is no multiple of the operand's
size puts the operand across two (log entry 103, DESIGN CHOICE). -/
def atomSpan (side : Side) (p : Packet) (s : State) : Nat :=
  if 64 < atomAddr side p s % 64 + atomSize p.hdr then 128 else 64

/-- Two atomics take a byte in common. -/
def atomsMeet (side : Side) (p q : Packet) (s : State) : Bool :=
  decide (atomBlock side p s < atomBlock side q s + atomSpan side q s) &&
    decide (atomBlock side q s < atomBlock side p s + atomSpan side p s)

/-- An atomic that would take the same bytes is in progress. -/
def atomBusy (side : Side) (p : Packet) (s : State) : Bool :=
  let o := oebOf side s
  let meets := fun (x : MPurp) => match x with
    | .atom q _ _ => atomsMeet side p q s
    | _ => false
  (o.mreqs.any fun m => !m.late && meets m.purp) || o.mreqQ.any fun w => meets w.purp

/-- The first queued atomic whose bytes no atomic in progress and no earlier queued one takes (R79): `before` are those already
passed over. -/
def atomFirst (side : Side) (s : State) : List Packet → List (Packet × Nat × Option Nat) → Option (Packet × Nat × Option Nat)
  | _, [] => none
  | before, x :: rest =>
    if atomBusy side x.1 s || before.any (fun p => atomsMeet side x.1 p s) then atomFirst side s (before ++ [x.1]) rest else some x

/-- An atomic's outcome goes to its requester: a response, or the ARSP of the attach interface. -/
def atomReply (side : Side) (p : Packet) (q : Nat) (jid : Option Nat) (st : Nat) (old : List Byte) (s : State) : State :=
  match jid with
  | some j => joinPart side j 0 st (ofLE old) 0 [] s
  | none => respondIn side p.hdr q st old s

/-- An atomic whose turn has come: answered by the journal, or its block is read and locked. -/
def atomStart (side : Side) (p : Packet) (q : Nat) (jid : Option Nat) (s : State) : State :=
  let h := p.hdr
  let go1 := mreq side (.atom p q jid) (atomBlock side p s) (atomSpan side p s) false 0 []
  match jid with
  | some _ => go1 s
  | none =>
    match jrnlRow side h s with
    | .perform => go1 s
    | .unknown =>
      atomReply side p q jid stUnknown [] (raiseOF side .unknownOutcome true 2 h.srcEp.toNat [na h.srcEp.toNat, na h.part.toNat]
        (some h.part.toNat) (some h.srcEp.toNat) none (countO side .jrnlUnknown s))
    | .aged => atomReply side p q jid stAged [] (raiseO side .aged true 0 0 [] (countO side .jrnlAged s))
    | .hit st old => atomReply side p q jid st old (countO side .jrnlHit s)

/-- Queued atomics whose bytes are free start; those that share a byte go in arrival order (R79). -/
def atomDrain (side : Side) : Nat → State → State
  | 0, s => s
  | k + 1, s =>
    let o := oebOf side s
    match atomFirst side s [] o.atomQ with
    | none => s
    | some x => atomDrain side k (atomStart side x.1 x.2.1 x.2.2 (setOeb side { o with atomQ := o.atomQ.erase x } s))

/-- An atomic arrives at the unit. -/
def atomArrive (side : Side) (p : Packet) (q : Nat) (jid : Option Nat) (s : State) : State :=
  let s1 := modOeb side (fun o => { o with atomQ := o.atomQ ++ [(p, q, jid)] }) s
  atomDrain side (oebOf side s1).atomQ.length s1

/-- The block of an atomic arrives: it is performed, the block written and unlocked, the journal written (R77, R80). -/
def atomPerform (side : Side) (p : Packet) (q : Nat) (jid : Option Nat) (st : Nat) (data : List Byte) (s : State) : State :=
  let h := p.hdr
  let blk := atomBlock side p s
  let off := atomAddr side p s % 64
  let n := atomSize h
  let old := (data.drop off).take n
  let jr := fun st old s => if jid.isSome then s else jrnlWrite side h st old s
  let unlock := MPurp.unlock h.srcEp.toNat h.part.toNat ((jid.map fun j => joinCtx side j s).getD 1024)
  let s1 :=
    if st ≠ 0 then
      let s1 := raiseOF side .atomPoison false 2 h.srcEp.toNat [na h.srcEp.toNat, na h.part.toNat] (some h.part.toNat)
        (some h.srcEp.toNat) none (countO side .atomPoison s)
      atomReply side p q jid stPoison [] (jr stPoison [] (mreq side unlock blk 0 false 0 [] s1))
    else
      let op := ofLE (p.payload.take n)
      let new := atomNew (bits h.subop.toNat 0 4) n (ofLE old) op (ofLE ((p.payload.drop n).take n))
      let s1 := match new with
        | some v => mreq side unlock blk (atomSpan side p s) false 0 (data.take off ++ toLE n v ++ data.drop (off + n)) s
        | none => mreq side unlock blk 0 false 0 [] s
      atomReply side p q jid 0 old (jr 0 old s1)
  atomDrain side (oebOf side s1).atomQ.length s1

/-! ### Descriptors (R241, Table 11-4) -/

/-- The operation is one of the coherence requests. -/
def Aop.coh : Aop → Bool
  | .getS => true
  | .getM => true
  | .upg => true
  | .wb => true
  | _ => false

/-- A descriptor that R241 calls malformed. -/
def areqBad (aop : Aop) (d : Areq) : Bool :=
  let len := d.len.toNat
  let so := d.subop.toNat
  let a := bits so 0 4
  let w2 := d.w2.toNat
  let w3 := d.w3.toNat
  let range := decide (1 ≤ len) && decide (len ≤ 4096)
  let body := match aop with
    | .load => range && so == 0 && w2 == 0 && w3 == 0
    | .store => range && decide (so < 2) && decide (w2 < 2 ^ 12) && w3 == 0
    | .storeNp => range && decide (so < 2) && decide (w2 < 2 ^ 12) && w3 == 0
    | .atomic =>
      decide (so ≤ 9) && w2 == 0 && w3 == 0 && (if a = 9 then len == 8 || len == 16 else len == 4 || len == 8) &&
        d.addr.toNat % (if a = 9 then max 1 (len / 2) else max 1 len) == 0
    | .msg => decide (1 ≤ len) && decide (len ≤ 256) && decide (w2 < 2 ^ 48) && w3 == 0
    | .contrib => range && decide (a ≤ 7) && decide (so < 32) && decide (w2 < 2 ^ 44) && decide (w3 < 2 ^ 40) && decide (bits w2 40 4 < 13)
    | .getS => (len == 0 || len == 64) && so == 0 && w2 == 0 && w3 == 0
    | .getM => (len == 0 || len == 64) && so == 0 && w2 == 0 && w3 == 0
    | .upg => (len == 0 || len == 64) && so == 0 && w2 == 0 && w3 == 0
    | .wb => len == 64 && so == 0 && w2 == 0 && w3 == 0
  headBad d || !body

/-- The pieces of `len` bytes at `a` that do not cross a multiple of `b`: offset and length, `fuel` pieces at most. -/
def pieces (b : Nat) : Nat → Nat → Nat → Nat → List (Nat × Nat)
  | 0, _, _, _ => []
  | fuel + 1, a, len, off =>
    if len = 0 then []
    else
      let n := min len (b - a % b)
      (off, n) :: pieces b fuel (a + n) (len - n) (off + n)

/-- The parts of a descriptor: requests of at most 256 bytes within a 256-byte block (R37), pages of a contribution. -/
def areqParts (aop : Aop) (d : Areq) : List (Nat × Nat) :=
  match aop with
  | .load => pieces 256 17 d.addr.toNat d.len.toNat 0
  | .store => pieces 256 17 d.addr.toNat d.len.toNat 0
  | .storeNp => pieces 256 17 d.addr.toNat d.len.toNat 0
  | .contrib => pieces 4096 2 d.addr.toNat d.len.toNat 0
  | _ => [(0, d.len.toNat)]

/-- What Table 12-7 asks for an operation. -/
def aopNeed : Aop → Nat
  | .load => needOf true false false 2
  | .store => needOf false true false 2
  | .storeNp => needOf false true false 2
  | .msg => needOf false true false 2
  | .atomic => needOf true true true 2
  | .getS => needOf true false false 3
  | .getM => needOf true true false 3
  | .upg => needOf true true false 3
  | .wb => needOf true true false 3
  | .contrib => needOf true false false 1

/-- The packet type an operation emits (Table 11-4). -/
def aopOpcode : Aop → Nat
  | .load => opRD
  | .store => opWRP
  | .storeNp => opWRNP
  | .atomic => opATOM
  | .msg => opMSG
  | .contrib => opRCONTRIB
  | .getS => opGETS
  | .getM => opGETM
  | .upg => opUPG
  | .wb => opWB

/-- The request is one this OEB should issue (Table 11-2). -/
def steered (side : Side) (a : Nat) (s : State) : Bool :=
  let ep := addrEp a
  match addrRegion a with
  | 0 => bits (go side SIDE_MAP.BITS (ep / 64) s) (ep % 64) 1 == go side OEB_ID.SIDE 0 s
  | 15 => hasPlane side (linePlane a s) s
  | _ => go side OEB_CFG.GW_SIDE 0 s == go side OEB_ID.SIDE 0 s

/-- A descriptor's data of a part. -/
def partData (d : Areq) (off n : Nat) : List Byte := fit n (d.data.drop off)

/-- A part translated to the fabric becomes a request, or goes to this OEB's own atomic unit (R78). A request that another
OEB should issue is counted once, whatever the number of its parts (R239). -/
def partFabric (side : Side) (j : Join) (r : Req) (l : Leaf) (a : Nat) (s : State) : State :=
  let d := j.d
  match r.src with
  | .attach jid off =>
    if !steered side a s then
      joinPart side jid off stNoRoute 0 0 [] (if j.astray then s
        else countO side .attachMissteer (modOeb side (fun o =>
          { o with joins := o.joins.map fun x => if x.jid = jid then { x with astray := true } else x }) s))
    else
      let n := r.hdr.len.toNat
      let reg := addrRegion a
      let vc := if j.aop.coh then 4 else if (j.aop = .load || j.aop = .store || j.aop = .storeNp) && 1 ≤ reg && reg ≤ 14 then 3 else 0
      let adv := (j.aop = .store || j.aop = .storeNp) && d.subop.toNat = 1
      let w1 := if j.aop = .msg then a / 2 ^ 48 * 2 ^ 48 + d.w2.toNat % 2 ^ 48 else a
      let len := if j.aop = .getS || j.aop = .getM || j.aop = .upg then 0 else n
      let h := oebHeader side (aopOpcode j.aop) vc l.part (addrEp a) 0 len
        (if j.aop = .atomic then d.scope.toNat else 2) (if adv then d.w2.toNat % 4096 else 0) l.slot d.subop.toNat l.enc w1 s
      let data := if j.aop = .load || j.aop = .getS || j.aop = .getM || j.aop = .upg then [] else partData d off n
      if j.aop = .atomic && reg = 0 && addrEp a = go side OEB_ID.EP 0 s then
        atomArrive side { hdr := h, payload := data, trailer := [] } 0 (some jid) s
      else enqueueReq side { r with hdr := h, data := data, plane := planeOf h.opcode.toNat a s } s
  | _ => s

/-- The translation entry of the first byte of a contribution's source gives its PART (R38; log entry 132, DESIGN CHOICE). -/
def joinPartition (side : Side) (jid part : Nat) (s : State) : State :=
  modOeb side (fun o => { o with joins := o.joins.map fun j => if j.jid = jid then { j with part := part } else j }) s

/-- What a part learns of its translation. -/
def partXlat (side : Side) (r : Req) (x : XAns) (s : State) : State :=
  match r.src with
  | .attach jid off =>
    match (oebOf side s).joins.find? fun j => j.jid = jid with
    | none => s
    | some j =>
      match x with
      | .miss => modOeb side (fun o => { o with waiting := o.waiting ++ [r] }) s
      | .fault c => joinPart side jid off (causeStatus c) 0 0 [] s
      | .hit l a =>
        if j.aop = .contrib then
          mreq side (.contrib jid off) a r.hdr.len.toNat false 0 [] (if off = 0 then joinPartition side jid l.part s else s)
        else partFabric side j r l a s
  | _ => s

/-- A part of a descriptor is made and its translation asked for. -/
def partMake (side : Side) (j : Join) (off n : Nat) (s : State) : State :=
  let (rid, s1) := freshId side s
  let va := (j.d.addr.toNat + off) % 2 ^ 64
  let r : Req := { rid := rid, ctx := j.d.ctx.val, src := .attach j.jid off, hdr := { Header.zero with len := BitVec.ofNat 13 n }
                   data := [], acc := j.acc, retries := 0, inPort := none, plane := none }
  let (x, s2) := translate side { who := .part rid, eng := if j.aop = .contrib then 3 else 0, ctx := j.d.ctx.val, va := va, need := aopNeed j.aop } s1
  partXlat side r x s2

/-- A descriptor of a context accepted: in its form and by a valid context (R241, R245); both failing, PART_DENY is
returned and the other counted (R9). -/
def areqGate (side : Side) (bad : Bool) (d : Areq) (fail : Nat → State → State) (f : State → State) (s : State) : State :=
  let s1 := if bad then countO side .attachMalformed s else s
  if go side CTX_CFG.VALID d.ctx.val s = 0 then fail stPartDeny s1
  else if bad then fail stCheckFail s1
  else f s1

/-- The chunk mapping of R228 for a global chunk: plane, place on the plane, trees; none where no plane serves it. -/
def chunkPlace (planes p g : Nat) : Option (Nat × Nat) :=
  let l := (List.range 16).filter fun k => bits planes k 1 = 1
  if p = 0 then none else (l[g % p]?).map fun pl => (pl, g / p)

/-- The planes of a receive entry, counted. -/
def collPlanes (side : Side) (r : Nat) (s : State) : Nat :=
  ((List.range 16).filter fun k => bits (go side COLL_RX.PLANES r s) k 1 = 1).length

/-- An operation of the attach interface that emits packets. -/
def attach (side : Side) (aop : Aop) (d : Areq) (s : State) : State :=
  areqGate side (areqBad aop d) d (fun st s => arspFail side aop d st s) (fun s =>
    let parts := areqParts aop d
    let (jid, s1) := freshId side s
    let j : Join := { jid := jid, aop := aop, d := d, left := parts.length, status := 0, value := 0, subop := 0, data := []
                      acc := ftO side s, astray := false, part := 0 }
    let s2 := modOeb side (fun o => { o with joins := o.joins ++ [j] }) s1
    if aop = .contrib then
      let r := bits d.w2.toNat 0 10
      let entryOk := go side COLL_RX.VALID r s = 1 && go side COLL_RX.PART r s = go side CTX_CFG.PART d.ctx.val s && go side COLL_RX.SEND r s = 1
      if !entryOk then joinEnd side { j with status := stPartDeny } s2
      else
        match chunkPlace (go side COLL_RX.PLANES r s) (collPlanes side r s) (bits d.w2.toNat 10 30) with
        | none => joinEnd side { j with status := stNoRoute } (countO side .attachMissteer s2)
        | some (pl, _) =>
          if !hasPlane side pl s then joinEnd side { j with status := stNoRoute } (countO side .attachMissteer s2)
          else parts.foldl (fun s p => partMake side j p.1 p.2 s) s2
    else parts.foldl (fun s p => partMake side j p.1 p.2 s) s2) s

/-- LOAD (R241). -/
def execLoad (side : Side) (d : Areq) (s : State) : Host.Outcome State Fault Refusal := run (attach side .load d) s
/-- STORE (R241). -/
def execStore (side : Side) (d : Areq) (s : State) : Host.Outcome State Fault Refusal := run (attach side .store d) s
/-- STORE_NP (R241). -/
def execStoreNp (side : Side) (d : Areq) (s : State) : Host.Outcome State Fault Refusal := run (attach side .storeNp d) s
/-- ATOMIC (R241). -/
def execAtomic (side : Side) (d : Areq) (s : State) : Host.Outcome State Fault Refusal := run (attach side .atomic d) s
/-- MSG_SEND (R241). -/
def execMsgSend (side : Side) (d : Areq) (s : State) : Host.Outcome State Fault Refusal := run (attach side .msg d) s
/-- CONTRIB (R255). -/
def execContrib (side : Side) (d : Areq) (s : State) : Host.Outcome State Fault Refusal := run (attach side .contrib d) s
/-- CW_GET_S (R241). -/
def execCwGetS (side : Side) (d : Areq) (s : State) : Host.Outcome State Fault Refusal := run (attach side .getS d) s
/-- CW_GET_M (R241). -/
def execCwGetM (side : Side) (d : Areq) (s : State) : Host.Outcome State Fault Refusal := run (attach side .getM d) s
/-- CW_UPG (R241). -/
def execCwUpg (side : Side) (d : Areq) (s : State) : Host.Outcome State Fault Refusal := run (attach side .upg d) s
/-- CW_WB (R241). -/
def execCwWb (side : Side) (d : Areq) (s : State) : Host.Outcome State Fault Refusal := run (attach side .wb d) s

/-! ### Contributions (R228, R255) -/

/-- The send window of an entry on a plane and tree: base position and the positions set past it. -/
def windowKey (r pl tree : Nat) : Nat := r * 32 + pl * 2 + tree
/-- A send window. -/
def windowOf (side : Side) (k : Nat) (s : State) : Nat × List Nat := SMap.get (fun _ => (0, [])) (oebOf side s).windows k

/-- The base past every set position. -/
def windowSlide : Nat → Nat × List Nat → Nat × List Nat
  | 0, x => x
  | k + 1, (b, l) => if l.contains b then windowSlide k (b + 1, l.erase b) else (b, l)

/-- A position is set; the base moves past every set one. -/
def windowSet (side : Side) (k q : Nat) (s : State) : State :=
  modOeb side (fun o =>
    let (b, l) := SMap.get (fun _ => (0, [])) o.windows k
    let l1 := insertSorted q l
    { o with windows := SMap.set (fun _ => (0, [])) o.windows k (windowSlide l1.length (b, l1)) }) s

/-- The trees and the CHUNK of a place on a plane (R228). -/
def chunkTrees (verify : Bool) (h : Nat) : List Nat × Nat := if verify then ([0, 1], h) else ([h % 2], h / 2)

/-- The chunk's data is read: its RCONTRIB on each tree joins the issue queue (R255). -/
def contribSend (side : Side) (j : Join) (s : State) : State :=
  let w2 := j.d.w2.toNat
  let r := bits w2 0 10
  let step := j.d.w3.toNat % 2 ^ 40
  match chunkPlace (go side COLL_RX.PLANES r s) (collPlanes side r s) (bits w2 10 30) with
  | none => joinEnd side { j with status := stNoRoute } s
  | some (pl, h) =>
    let (trees, chunk) := chunkTrees (go side COLL_RX.VERIFY r s == 1) h
    let dst := ((oPorts side (fun q => go side PORT_CFG.PLANE q s == pl) s).head?.map fun q =>
      (getLink (288 + 16 * side.val + q) s).partnerEp).getD 0
    let s1 := modOeb side (fun o => { o with joins := o.joins.map fun x =>
      if x.jid = j.jid then { j with left := trees.length, data := [], value := 1 } else x }) s
    trees.foldl (fun s t =>
      let (rid, s1) := freshId side s
      let hd := oebHeader side opRCONTRIB 2 j.part dst 0 j.d.len.toNat 2 0 (go side COLL_RX.KEY_SLOT r s)
        j.d.subop.toNat (go side COLL_RX.ENC r s == 1)
        (mkChunkWord (go side COLL_RX.COMM r s) chunk t (step % 256) 0 (bits w2 40 4)) s
      enqueueReq side { rid := rid, ctx := j.d.ctx.val, src := .attach j.jid 0, hdr := hd, data := fit j.d.len.toNat (joinBytes j.data)
                        acc := j.acc, retries := 0, inPort := none, plane := some pl } s1) s1

/-- A piece of a contribution's source arrives. -/
def contribRead (side : Side) (jid off st : Nat) (data : List Byte) (s : State) : State :=
  match (oebOf side s).joins.find? fun j => j.jid = jid with
  | none => s
  | some j =>
    let j1 := { j with left := j.left - 1, status := worse j.status st, data := j.data ++ [(off, data)] }
    let s1 := modOeb side (fun o => { o with joins := o.joins.map fun x => if x.jid = jid then j1 else x }) s
    if j1.left ≠ 0 then s1 else if j1.status ≠ 0 then joinEnd side { j1 with data := [] } s1 else contribSend side j1 s1

/-! ### Fences (R71 to R73) -/

/-- The form of a descriptor whose words 2 and 3 are zero and that carries nothing. -/
def plainBad (d : Areq) : Bool := headBad d || d.subop != 0 || d.w2 != 0 || d.w3 != 0 || d.len != 0

/-- FENCE_SYS at an OEB: it waits on the context's open AREQs and its channels' requests. -/
def fenceSys (side : Side) (d : Areq) (s : State) : State :=
  areqGate side (plainBad d) d (fun st s => arsp side d.ctx.val d.atag.toNat st 0 0 [] s) (fun s =>
    let o := oebOf side s
    let x := d.ctx.val
    let isDma := fun (r : Req) => r.ctx = x && match r.src with | .dma _ _ _ _ => true | _ => false
    let rids := ((o.joins.filter fun j => j.d.ctx.val = x).map (·.jid)) ++
      (((o.queue ++ o.posted ++ o.outst.filterMap (·.2)).filter isDma).map (·.rid))
    let (id, s1) := freshId side s
    modOeb side (fun o => { o with fences := o.fences ++
      [{ ctx := x, atag := d.atag.toNat, after := id, rids := rids, status := 0 }] }) s1) s

/-- FENCE_SYS (R71). -/
def execFenceSys (side : Side) (d : Areq) (s : State) : Host.Outcome State Fault Refusal := run (fenceSys side d) s

/-- The oldest fence of a context and tag at an OEB. -/
def fenceOf (side : Side) (ctx atag : Nat) (s : State) : Option Fence :=
  (oebOf side s).fences.find? fun f => f.ctx = ctx && f.atag = atag

/-- One OEB's completion of a fence with the status of both. FENCE_ERR is counted by the OEB whose own requests failed (log
entry 100, DESIGN CHOICE). -/
def fenceEnd (side : Side) (f : Fence) (st : Nat) (s : State) : State :=
  let s1 := modOeb side (fun o => { o with fences := o.fences.erase f }) s
  arsp side f.ctx f.atag st 0 0 [] (if f.status ≠ 0 then countO side .fenceErr s1 else s1)

/-- Both OEBs' parts are resolved: the fence completes at both with the worse status (Table 11-2, R73). -/
def fenceComplete (ctx atag : Nat) (s : State) : State :=
  match fenceOf 0 ctx atag s, fenceOf 1 ctx atag s with
  | some f, some g =>
    if f.rids.isEmpty && g.rids.isEmpty then
      let st := worse f.status g.status
      fenceEnd 1 g st (fenceEnd 0 f st s)
    else s
  | _, _ => s

/-- FENCE_SYS_COMPLETE (R73). -/
def execFenceSysComplete (ctx : Ctx) (atag : BitVec 14) (s : State) : Host.Outcome State Fault Refusal :=
  run (fenceComplete ctx.val atag.toNat) s

/-! ### Landing counters on the attach interface (R68, R252) -/

/-- A context's access to a counter: it must be in use and of the context's partition. -/
def lcAccess (side : Side) (d : Areq) (f : Nat → State → State) (s : State) : State :=
  let n := d.w2.toNat % 4096
  if go side LC_ENTRY.EN n s = 1 && go side LC_ENTRY.PART n s = go side CTX_CFG.PART d.ctx.val s then f n s
  else
    arsp side d.ctx.val d.atag.toNat stPartDeny 0 0 []
      (raiseO side .partDeny false 0 0 [] (countO side .lcPartDeny s))

/-- The form of an LC operation. -/
def lcBad (d : Areq) (w2Bits w3Bits : Bool) : Bool := headBad d || d.subop != 0 || d.len != 0 || !w2Bits || !w3Bits

/-- LC_WAIT (R68): satisfied at once, or it waits. -/
def lcWait (side : Side) (d : Areq) (s : State) : State :=
  let w2 := d.w2.toNat
  let tmo := bits w2 32 14
  let form := bits w2 12 20 == 0 && bits w2 46 18 == 0 && decide (1 ≤ tmo) && decide (tmo ≤ 16000)
  areqGate side (lcBad d form (decide (d.w3.toNat < 2 ^ 32))) d (fun st s => arsp side d.ctx.val d.atag.toNat st 0 0 [] s)
    (lcAccess side d fun n s =>
      lcTest side n (modOeb side (fun o => { o with waits := o.waits ++
        [{ dma := false, ctx := d.ctx.val, atag := d.atag.toNat, idx := n, target := d.w3.toNat, deadline := ftO side s + 2500 * tmo }] }) s)) s

/-- LC_WAIT (R68). -/
def execLcWait (side : Side) (d : Areq) (s : State) : Host.Outcome State Fault Refusal := run (lcWait side d) s

/-- A wait reaches its timeout. -/
def waitTimeout (side : Side) (dma : Bool) (ctx atag : Nat) (s : State) : State :=
  let o := oebOf side s
  match o.waits.find? fun w => w.dma == dma && w.ctx = ctx && w.atag = atag with
  | none => s
  | some w =>
    if ftO side s < w.deadline then s
    else
      let s1 := setOeb side { o with waits := o.waits.erase w } s
      let s2 := if dma then raiseO side .dmaWaitTimeout true 0 0 [] (countO side .dmaWaitTimeout s1)
                else raiseO side .lcWaitTimeout true 0 0 [] (countO side .lcWaitTimeout s1)
      arsp side ctx atag stTimeout 0 0 [] s2

/-- LC_WAIT_TIMEOUT (R68). -/
def execLcWaitTimeout (side : Side) (ctx : Ctx) (atag : BitVec 14) (s : State) : Host.Outcome State Fault Refusal :=
  run (waitTimeout side false ctx.val atag.toNat) s

/-- LC_RD (R252). -/
def lcRd (side : Side) (d : Areq) (s : State) : State :=
  areqGate side (lcBad d (decide (d.w2.toNat < 2 ^ 12)) (d.w3 == 0)) d (fun st s => arsp side d.ctx.val d.atag.toNat st 0 0 [] s)
    (lcAccess side d fun n s => arsp side d.ctx.val d.atag.toNat 0 (getW (.oeb side) .lcEntry n 0 s).toNat 0 [] s) s

/-- LC_RD (R252). -/
def execLcRd (side : Side) (d : Areq) (s : State) : Host.Outcome State Fault Refusal := run (lcRd side d) s

/-- LC_WR (R252): COUNT is written, POISONED and DENIED cleared where asked, the waits tested. -/
def lcWr (side : Side) (d : Areq) (s : State) : State :=
  let w3 := d.w3.toNat
  areqGate side (lcBad d (decide (d.w2.toNat < 2 ^ 12)) (bits w3 32 13 == 0 && bits w3 47 17 == 0)) d
    (fun st s => arsp side d.ctx.val d.atag.toNat st 0 0 [] s)
    (lcAccess side d fun n s =>
      let s1 := so side LC_ENTRY.COUNT n (bits w3 0 32) s
      let s2 := if bits w3 45 1 = 1 then so side LC_ENTRY.POISONED n 0 s1 else s1
      let s3 := if bits w3 46 1 = 1 then so side LC_ENTRY.DENIED n 0 s2 else s2
      lcTest side n (arsp side d.ctx.val d.atag.toNat 0 0 0 [] s3)) s

/-- LC_WR (R252). -/
def execLcWr (side : Side) (d : Areq) (s : State) : Host.Outcome State Fault Refusal := run (lcWr side d) s

end Sys2Proof.Machine
end

