-- ==== Sys2Proof/Machine/ChainOps.lean ====
section
/-! DEFINITION. The Monarch chain's framing (R418), positions (R417), delay samples, and the start of a Calm with its
notice (R407, R408). The bodies of frames are packed as log entry 15, DESIGN CHOICE, says. -/

namespace Sys2Proof.Machine

/-! ### Links and frames (R418) -/

/-- A chain link. -/
def chainLink (i : Nat) (s : State) : ChainLink := if i = 0 then s.chain.link0 else s.chain.link1

/-- The state with a chain link replaced. -/
def setChainLink (i : Nat) (l : ChainLink) (s : State) : State :=
  if i = 0 then { s with chain := { s.chain with link0 := l } } else { s with chain := { s.chain with link1 := l } }

/-- A chain link is up. -/
def chainUp (i : Nat) (s : State) : Bool := gx CHAIN_STAT.UP i s == 1

/-- The position of this OX9. -/
def chainPos (s : State) : Nat := gx CHAIN_STAT.POS 0 s

/-- This OX9 is the head. -/
def isHead (s : State) : Bool := gx CHAIN_STAT.HEAD 0 s == 1

/-- The 64 bytes of a frame. -/
def chainFrame (kind dest seq ack : Nat) (body : List Byte) : List Byte :=
  let b := [BitVec.ofNat 8 kind, BitVec.ofNat 8 dest, BitVec.ofNat 8 seq, BitVec.ofNat 8 ack] ++ fit 56 body
  b ++ toLE 4 (crc32 b)

/-- A frame sent on a link; it is held until acknowledged. A link that is down sends nothing. -/
def sendFrame (i kind dest : Nat) (body : List Byte) (s : State) : State :=
  if !chainUp i s then s
  else
    let l := chainLink i s
    let f := chainFrame kind dest l.txSeq l.rxSeq body
    emit (.chain i f) (setChainLink i { l with txSeq := (l.txSeq + 1) % 256, unacked := l.unacked ++ [(l.txSeq, f)] } s)

/-- A frame sent on both links. -/
def sendBoth (kind dest : Nat) (body : List Byte) (s : State) : State :=
  sendFrame 1 kind dest body (sendFrame 0 kind dest body s)

/-- A frame sent to a position: by CHAIN0 toward the head, by CHAIN1 away from it. -/
def sendTo (pos kind : Nat) (body : List Byte) (s : State) : State :=
  sendFrame (if pos < chainPos s then 0 else 1) kind pos body s

/-- Byte `i` of a frame as a number. -/
def frameByte (i : Nat) (f : List Byte) : Nat := nth (f.map (·.toNat)) i

/-- The body of a frame. -/
def frameBody (f : List Byte) : List Byte := (f.drop 4).take 56

/-- A frame of 64 bytes whose CRC holds. -/
def frameOk (f : List Byte) : Bool := f.length == 64 && ofLE (f.drop 60) == crc32 (f.take 60)

/-- What an arriving frame is to this OX9. -/
inductive FrameFate where
  | drop
  | take
  | pass
  | both
deriving DecidableEq, Repr

/-- A frame arrives: a bad one, and one out of sequence, is discarded; its acknowledgement frees what it covers; then it
is taken, forwarded, or both, by its destination (R418). -/
def frameArrives (i : Nat) (f : List Byte) (s : State) : FrameFate × State :=
  if !frameOk f || !chainUp i s then (.drop, s)
  else
    let l := chainLink i s
    let l1 := { l with unacked := l.unacked.filter fun x => decide (128 ≤ (frameByte 3 f + 256 - x.1) % 256) }
    if frameByte 2 f ≠ (l.rxSeq + 1) % 256 then (.drop, setChainLink i l1 s)
    else
      let s1 := setChainLink i { l1 with rxSeq := frameByte 2 f } s
      let dest := frameByte 1 f
      if dest = 0xFF then (.both, s1)
      else if dest = chainPos s then (.take, s1)
      else (.pass, s1)

/-- A completion record or RD result to the head; it waits while the link is lost (R419). -/
def sendCpl (body : List Byte) (s : State) : State :=
  if chainUp 0 s then sendFrame 0 3 0 body s else { s with chain := { s.chain with heldCpl := s.chain.heldCpl ++ [body] } }

/-- A frame passed on by a link; a record on its way to the head waits while that link is lost (R419). -/
def passFrame (i : Nat) (f : List Byte) (s : State) : State :=
  if i = 0 && frameByte 0 f = 3 && frameByte 1 f = 0 then sendCpl (frameBody f) s
  else sendFrame i (frameByte 0 f) (frameByte 1 f) (frameBody f) s

/-- A chain link drops: its exchange starts afresh. The records that it has not acknowledged wait for it (R419). -/
def linkLost (i : Nat) (s : State) : State :=
  let kept := if i = 0 then ((chainLink 0 s).unacked.filter fun x => frameByte 0 x.2 = 3 && frameByte 1 x.2 = 0).map fun x => frameBody x.2 else []
  setChainLink i { ChainLink.reset with breezeFt := (chainLink i s).breezeFt }
    (sx CHAIN_STAT.UP i 0 { s with chain := { s.chain with heldCpl := kept ++ s.chain.heldCpl } })

/-- A frame handled: forwarded on the other link, taken, or both. -/
def onFrame (i : Nat) (f : List Byte) (take : State → State) (s : State) : State :=
  match frameArrives i f s with
  | (.drop, s1) => s1
  | (.take, s1) => take s1
  | (.pass, s1) => passFrame (1 - i) f s1
  | (.both, s1) => take (sendFrame (1 - i) (frameByte 0 f) 0xFF (frameBody f) s1)

/-- An unacknowledged frame is sent again (R418). -/
def chainResend (i : Nat) (s : State) : State :=
  if chainUp i s then (chainLink i s).unacked.foldl (fun s x => emit (.chain i x.2) s) s else s

/-- CHAIN_FRAME_RESEND (R418). -/
def execChainFrameResend (link : Fin 2) (s : State) : Host.Outcome State Fault Refusal := manned (chainResend link.val) s

/-! ### Positions (R417) -/

/-- This OX9 takes a position below 64 and sends ENUM on CHAIN1. One that is told a position beyond them has received an ENUM, and
waits for none (R417). -/
def takePos (n : Nat) (head : Bool) (s : State) : State :=
  if n ≥ 64 then
    raise0 .chainTooLong false (activeMonarch s) [na n] (countG .chainTooLong { s with chain := { s.chain with waiting := false } })
  else
    let s1 := sx CHAIN_STAT.POS 1 n (sx CHAIN_STAT.POS 0 n s)
    let s2 := sx CHAIN_STAT.HEAD 1 head.toNat (sx CHAIN_STAT.HEAD 0 head.toNat s1)
    sendFrame 1 1 0xFF [BitVec.ofNat 8 n] { s2 with chain := { s2.chain with posTaken := true, waiting := false } }

/-- An ENUM on CHAIN0: the frame's position plus 1. ENUM is not forwarded; each OX9 sends its own (R417). -/
def enumRx (f : List Byte) (s : State) : State :=
  match frameArrives 0 f s with
  | (.drop, s1) => s1
  | (_, s1) => if frameByte 0 f = 1 then takePos (frameByte 4 f + 1) false s1 else s1

/-- ENUM_FRAME_RX (R417). -/
def execEnumFrameRx (frame : List Byte) (s : State) : Host.Outcome State Fault Refusal := manned (enumRx frame) s

/-- CHAIN_HEAD_TIMEOUT's effect: no ENUM within 1 ms of training: this OX9 is the head, at position 0 (R417). -/
def headTimeout (s : State) : State := if s.chain.waiting then takePos 0 true s else s

/-- CHAIN_HEAD_TIMEOUT (R417). -/
def execChainHeadTimeout (s : State) : Host.Outcome State Fault Refusal := manned headTimeout s

/-! ### Delay samples (R307, R418) -/

/-- DELAY frame `k`, laid out as a TSO. -/
def sendDelay (i k rxFt rxIdx : Nat) (s : State) : State :=
  let t := ft s % 2 ^ 40
  let l := chainLink i s
  sendFrame i 8 0xFF (toLE 5 t ++ toLE 5 rxFt ++ [BitVec.ofNat 8 k, BitVec.ofNat 8 rxIdx])
    (setChainLink i { l with dSent := k, dSentFt := l.dSentFt ++ [t] } s)

/-- Twice a delay sample, modulo 2^40: (t4 − t1) − (t3 − t2) (R307). -/
def delaySample (t1 t2 t3 t4 : Nat) : Int := signed 40 (unsigned 40 ((t4 : Int) - t1 - (t3 - t2)))

/-- The mean of samples held doubled, to the nearest ft, halves away from zero (R307). -/
def delayMean (twice : List Int) : Nat :=
  let n : Int := 2 * twice.length
  let sum := twice.sum
  if n = 0 then 0 else unsigned 16 (if sum ≥ 0 then (2 * sum + n) / (2 * n) else -((2 * (-sum) + n) / (2 * n)))

/-- A DELAY frame arrives: the partner's next yields a sample and is answered; the sixteenth sets DELAY. A DELAY frame
goes no further than one hop. -/
def delayRx (i : Nat) (f : List Byte) (arrival : Nat) (s : State) : State :=
  match frameArrives i f s with
  | (.drop, s1) => s1
  | (_, s1) =>
    let b := frameBody f
    let txFt := ofLE (b.take 5)
    let rxFt := ofLE ((b.drop 5).take 5)
    let txIdx := frameByte 14 f
    let rxIdx := frameByte 15 f
    let l := chainLink i s1
    if frameByte 0 f ≠ 8 || 16 < txIdx then s1
    else
      let l1 := { l with
        dRcvd := txIdx
        samples := if rxIdx = 0xFF then l.samples
                   else match l.dSentFt[rxIdx]? with
                     | some t1 => l.samples ++ [delaySample t1 rxFt txFt arrival]
                     | none => l.samples }
      let s2 := setChainLink i l1 s1
      let s3 := if txIdx < 16 then sendDelay i (txIdx + 1) arrival txIdx s2 else s2
      if l1.samples.length = 16 then sx CHAIN_STAT.DELAY i (delayMean l1.samples) s3 else s3

/-- DELAY_FRAME_RX (R418). -/
def execDelayFrameRx (link : Fin 2) (frame : List Byte) (arrival : BitVec 40) (s : State) : Host.Outcome State Fault Refusal :=
  manned (delayRx link.val frame arrival.toNat) s

/-! ### The log mirror -/

/-- A member's log record reaches the head's log mirror. -/
def eventFrameRx (i : Nat) (f : List Byte) (s : State) : State :=
  onFrame i f (fun s =>
    if frameByte 0 f = 7 && isHead s then
      let b := frameBody f
      let ws := (List.range 7).map fun k => ofLE ((b.drop (8 * k)).take 8)
      { s with chain := { s.chain with mirror := s.chain.mirror ++ [(i, ws)] } }
    else s) s

/-- EVENT_FRAME_RX (R418). -/
def execEventFrameRx (link : Fin 2) (frame : List Byte) (s : State) : Host.Outcome State Fault Refusal :=
  manned (eventFrameRx link.val frame) s

/-! ### The start of a Calm (R407, R408) -/

/-- A start recorded: its cause, event and trigger time, the clock it fell in and its place there. -/
def recordStart (cause event trig clock rank : Nat) (s : State) : State :=
  let s1 := sx CALM_STAT.TRIG_FT 0 trig (sx CALM_STAT.EVENT 0 event (sx CALM_STAT.CAUSE 0 cause s))
  { s1 with tele := { s1.tele with start := clock, rank := rank } }

/-- The stop time of a start set. -/
def putStop (stop : Nat) (late : Bool) (s : State) : State := { s with tele := { s.tele with stop := some stop, late := late } }

/-- A start at `clock`: the stop time set, or replaced by an earlier one; the first start is recorded, of several in one clock the
command, or the lowest trigger; a notice comes last (R407). -/
def setStop (cause event trig stop clock rank : Nat) (late : Bool) (s : State) : State :=
  match s.tele.stop with
  | some old =>
    let s1 := if clock = s.tele.start && decide (rank < s.tele.rank) then recordStart cause event trig clock rank s else s
    if stop < old then putStop stop late s1 else s1
  | none => putStop stop late (recordStart cause event trig clock rank s)

/-- A Calm started here: with CHAIN_OUT = 1 a notice of it leaves on both links (R408). -/
def startCalm (cause event trig stop rank : Nat) (late : Bool) (s : State) : State :=
  if gb CALM_STAT.CALM 0 s then s
  else
    let s1 := setStop cause event trig stop trig rank late s
    if gb CALM_CTL.CHAIN_OUT 0 s then sendBoth 6 0xFF (toLE 8 trig ++ toLE 8 stop ++ toLE 2 event) s1 else s1

/-- The stop time of a start: TRIG_FT + DELAY, or the clock after the trigger with SYNC = 0 (R407): fabric time is past TRIG_FT
there. -/
def calmStop (trig : Nat) (s : State) : Nat :=
  if gb CALM_CTL.SYNC 0 s then trig + gx CALM_CTL.DELAY 0 s * 2500 else trig + 1

/-- A Calm notice from the chain is obeyed with CHAIN_IN = 1 and passed on (R408). -/
def calmFrameRx (i : Nat) (f : List Byte) (s : State) : State :=
  onFrame i f (fun s =>
    if frameByte 0 f = 6 && gb CALM_CTL.CHAIN_IN 0 s && !gb CALM_STAT.CALM 0 s then
      let b := frameBody f
      let stop := ofLE ((b.drop 8).take 8)
      setStop 3 (ofLE ((b.drop 16).take 2)) (ofLE (b.take 8)) stop (ft s) 9 (decide (stop < ft s)) s
    else s) s

/-- CALM_FRAME_RX (R408). -/
def execCalmFrameRx (link : Fin 2) (frame : List Byte) (s : State) : Host.Outcome State Fault Refusal :=
  manned (calmFrameRx link.val frame) s

end Sys2Proof.Machine
end

