-- ==== Sys2Proof/Machine/Cw.lean ====
section
/-! DEFINITION. The Common-window directory (chapter 4): membership, the flows of Table 4-5, eviction, members that do
not answer; CW_BANK_REQUEST, COH_WB_AT_BANK, COH_DATA_AT_BANK, COH_ACK_AT_BANK, CW_ACK_TIMEOUT. -/

namespace Sys2Proof.Machine

/-! ### Banks and lines (R86, R96) -/

/-- The die that runs bank `b` (R18): its own slice die where no bank set holds it (R29). -/
def bankDie (b : Nat) (s : State) : Nat := 36 + (if bankAt b s < 16 then bankAt b s else b)

/-- Bank `b` is lost: its lines were (R388), or no bank set holds it (R29). -/
def bankLost (b : Nat) (s : State) : Bool := s.slices.lostDir.contains b || decide (16 ≤ bankAt b s)

/-- The state with bank `b` replaced. -/
def setCwBank (b : Nat) (x : CwBank) (s : State) : State := { s with cw := SMap.set (fun _ => CwBank.reset) s.cw b x }

/-- The address of a line. -/
def lineAddr (a : Nat) : Nat := a / 64 * 64

/-- The set of a line (R86). -/
def cwSet (a : Nat) : Nat := Nat.xor (bits a 14 12) (bits a 48 12)

/-- The entry of a line. -/
def cwLine (b a : Nat) (s : State) : Option CwLine := (cwBank b s).lines.find? fun l => l.addr = lineAddr a

/-- The state with a line's entry set, most recently used. -/
def setLine (b : Nat) (l : CwLine) (s : State) : State :=
  let x := cwBank b s
  setCwBank b { x with clock := x.clock + 1
                       lines := x.lines.filter (fun y => y.addr ≠ l.addr) ++ [{ l with used := x.clock + 1 }] } s

/-- The line is I: it has no entry. -/
def delLine (b a : Nat) (s : State) : State :=
  let x := cwBank b s
  setCwBank b { x with lines := x.lines.filter fun y => y.addr ≠ lineAddr a } s

/-- S and M are stable. -/
def CwSt.stable (t : CwSt) : Bool := t = .s || t = .m

/-- The open transactions of a bank (R96). -/
def cwOpen (b : Nat) (s : State) : Nat := ((cwBank b s).lines.filter fun l => !l.st.stable).length

/-- The entries in the set of an address. -/
def cwWays (b a : Nat) (s : State) : List CwLine := (cwBank b s).lines.filter fun l => cwSet l.addr = cwSet a

/-! ### Members (R82, R85) -/

/-- The member whose endpoint is `ep`. -/
def memberOf (ep : Nat) (s : State) : Option Nat :=
  (List.range 64).find? fun m => gx CW_MEMBER.VALID m s == 1 && gx CW_MEMBER.EP m s == ep

/-- A member no longer valid that the directory still awaits (R84): its index. -/
def goneOf (ep : Nat) (s : State) : Option Nat := (s.cwGone.find? fun g => g.2.1 = ep).map (·.1)

/-- The member index of a packet's sender, one no longer valid included. -/
def senderOf (h : Header) (s : State) : Option Nat := (memberOf h.srcEp.toNat s).or (goneOf h.srcEp.toNat s)

/-- The endpoint and the partition of member `m`: those it had where it is no longer valid. -/
def memberAt (m : Nat) (s : State) : Nat × Nat :=
  match s.cwGone.find? fun g => g.1 = m with
  | some g => g.2
  | none => (gx CW_MEMBER.EP m s, gx CW_MEMBER.PART m s)

/-- A request fails the check of R85. -/
def cwDenied (h : Header) (s : State) : Bool :=
  let who := match memberOf h.srcEp.toNat s with
    | none => true
    | some m => gx CW_MEMBER.SUSPENDED m s == 1 || gx CW_MEMBER.PART m s != h.part.toNat
  let home := match memberOf (addrEp h.addr) s with
    | none => true
    | some m => gx CW_MEMBER.HOME m s == 0
  who || home || decide (2 ^ gx CW_CTRL.SIZE_LOG2 0 s ≤ addrOffset h.addr)

/-! ### What the bank sends (R87) -/

/-- A packet the bank forwards or emits: it enters at its slice for class 7 (R87, R102). -/
def cwSend (b : Nat) (pk : Packet) (s : State) : State := enter (.dieClass7 (Fin.ofNat 64 (bankDie b s))) pk false s

/-- A header-only coherence packet of the bank's own. -/
def cohPacket (op dst part tag scope addr subop st : Nat) (s : State) : Packet :=
  { hdr := { Header.zero with
      opcode := BitVec.ofNat 6 op, vc := 4, status := BitVec.ofNat 4 st, part := BitVec.ofNat 12 part
      srcEp := BitVec.ofNat 12 (gx FWD_CTRL.OX9_EP 0 s), dstEp := BitVec.ofNat 12 dst, tag := BitVec.ofNat 14 tag
      w1 := BitVec.ofNat 64 addr, scope := BitVec.ofNat 2 scope, subop := BitVec.ofNat 8 subop, ageStamp := stampNow s }
    payload := [], trailer := [] }

/-- COH_INV or COH_RECALL of a line to a member. -/
def cwSnoop (op b m addr cause : Nat) (s : State) : State :=
  cwSend b (cohPacket op (memberAt m s).1 (memberAt m s).2 0 0 (lineAddr addr) cause 0 s) s

/-- COH_INV to each of several members. -/
def cwInvAll (b addr cause : Nat) (ms : List Nat) (s : State) : State :=
  ms.foldl (fun s m => cwSnoop opINV b m addr cause s) s

/-- A COH_ACK of the bank's own to a requester. -/
def cwAck (b kind : Nat) (h : Header) (s : State) : State :=
  cwSend b (cohPacket opACK h.srcEp.toNat h.part.toNat h.tag.toNat h.scope.toNat (lineAddr h.addr) kind 0 s) s

/-- A request answered by the bank with a status (R85, R388, R98). -/
def cwAnswer (b : Nat) (h : Header) (st : Nat) (s : State) : State :=
  if cohRequest h.opcode.toNat then cwSend b (synthCoh h st s) s
  else if nonPosted h.opcode.toNat then
    let (c, s1) := takeReserved h s
    inject (.dieClass7 (Fin.ofNat 64 (bankDie b s))) (synthRsp h st s1) c s1
  else s

/-- The traces of a denied request (R85). -/
def cwDenyTraces (b : Nat) (h : Header) (s : State) : State :=
  let d := bankDie b s
  raise .ox9 { Event.mk0 .ox9 .partDeny false d 2 h.srcEp.toNat [na h.srcEp.toNat, na h.part.toNat, wa h.addr] s with
    part := some h.part.toNat, srcEp := some h.srcEp.toNat } (countD d .cwDeny s)

/-- A request completes: the rotating pointer passes its member (R91). -/
def cwDone (b : Nat) (h : Header) (s : State) : State :=
  match senderOf h s with
  | some m => setCwBank b { cwBank b s with ptr := (m + 1) % 64 } s
  | none => s

/-! ### Serving a request (Table 4-5) -/

/-- A line with an open transaction. -/
def cwTxn (a : Nat) (st : CwSt) (owner : Nat) (sharers : List Nat) (req : Option Packet) (acks : List Nat) (asked : Bool) :
    CwLine :=
  { addr := lineAddr a, st := st, owner := owner, sharers := sharers, used := 0, req := req, acks := acks, data := none
    asked := asked, poison := false, notHeld := false, since := 0 }

/-- A request to a line that is I goes to the home. A WR_P completes at its forwarding. A COH_UPG treated as GET_M goes on
unchanged, and the home serves it as a GET_M (R87, R89; log entry 119, DESIGN CHOICE). -/
def cwServeI (b : Nat) (pk : Packet) (s : State) : State :=
  let h := pk.hdr
  if h.opcode.toNat = opWRP then cwDone b h (cwSend b pk (delLine b h.addr s))
  else cwSend b pk (setLine b (cwTxn h.addr .bFetch 0 [] (some pk) [] true) s)

/-- A request to a line in S. -/
def cwServeS (b : Nat) (pk : Packet) (l : CwLine) (s : State) : State :=
  let h := pk.hdr
  let o := h.opcode.toNat
  let m := (senderOf h s).getD 64
  let others := l.sharers.filter (· ≠ m)
  if o = opGETS then cwSend b pk (setLine b { l with st := .bFetch, req := some pk, asked := true } s)
  else if o = opUPG && l.sharers.contains m then
    if others.isEmpty then
      cwDone b h (cwAck b 2 h (setLine b { l with st := .m, owner := m, sharers := [], req := none } s))
    else cwInvAll b h.addr 0 others (setLine b { l with st := .bInv, since := ft s, req := some pk, acks := others, asked := false } s)
  else if o = opGETM || o = opUPG then
    if others.isEmpty then cwSend b pk (setLine b { l with st := .bFetch, req := some pk, asked := true } s)
    else
      cwSend b pk (cwInvAll b h.addr 0 others
        (setLine b { l with st := .bInv, since := ft s, req := some pk, acks := others, asked := true } s))
  else if l.sharers.isEmpty then cwServeI b pk s
  else cwInvAll b h.addr 0 l.sharers (setLine b { l with st := .bInv, since := ft s, req := some pk, acks := l.sharers, asked := false } s)

/-- A request to a line in M. -/
def cwServeM (b : Nat) (pk : Packet) (l : CwLine) (s : State) : State :=
  let h := pk.hdr
  let o := h.opcode.toNat
  let m := (senderOf h s).getD 64
  if (o = opGETS || o = opGETM || o = opUPG) && l.owner = m then cwDone b h (cwAck b 3 h (setLine b l s))
  else cwSnoop opRECALL b l.owner h.addr 0 (setLine b { l with st := .bRecall, notHeld := false, since := ft s, req := some pk } s)

/-- The least recently used of some entries (R97). -/
def lruOf : List CwLine → Option CwLine
  | [] => none
  | x :: xs => some (xs.foldl (fun b y => if y.used < b.used then y else b) x)

/-- A stable line is made I, as in an eviction (R97, R84). -/
def cwEvictLine (b : Nat) (l : CwLine) (s : State) : State :=
  let x := cwBank b s
  let put := fun (l' : CwLine) => setCwBank b { x with lines := x.lines.map fun y => if y.addr = l.addr then l' else y } s
  if l.st = .m then
    cwSnoop opRECALL b l.owner l.addr 1 (put { l with st := .bRecall, notHeld := false, since := ft s, req := none })
  else if l.sharers.isEmpty then delLine b l.addr s
  else cwInvAll b l.addr 1 l.sharers (put { l with st := .bInv, since := ft s, req := none, acks := l.sharers, asked := false })

/-- The least recently used stable way of an address's set is evicted and counted (R97). -/
def cwEvict (b a : Nat) (s : State) : State :=
  match lruOf ((cwWays b a s).filter fun l => l.st.stable) with
  | none => s
  | some l => cwEvictLine b l (countD (bankDie b s) (if l.st = .m then .cwEvictM else .cwEvictS) s)

/-- A request of a bank that is lost (R388). -/
def cwLostAnswer (b : Nat) (h : Header) (s : State) : State :=
  cwAnswer b h stPoison (raise0 .cwBankLost false (bankDie b s) [] (countD (bankDie b s) .cwBankLost s))

/-- A writeback of a line waits for a place among the open transactions. -/
def cwWbWaits (b a : Nat) (s : State) : Bool := (cwBank b s).wbs.any fun q => lineAddr q.hdr.addr = lineAddr a

/-- A request taken up: answered or served, or none where it must wait (R85, R89, R91, R96, R97). One queued while the window
is switched off is denied (R84). A request that is denied here leaves the rotating pointer of R91 where it was (log entry 122,
DESIGN CHOICE). -/
def cwTry (b : Nat) (pk : Packet) (s : State) : Option State :=
  let h := pk.hdr
  if bankLost b s then some (cwLostAnswer b h s)
  else if cwDenied h s || gx CW_CTRL.EN 0 s = 0 then some (cwAnswer b h stPartDeny (cwDenyTraces b h s))
  else if cwOpen b s ≥ 512 || cwWbWaits b h.addr s then none
  else
    match cwLine b h.addr s with
    | some l => if l.st = .s then some (cwServeS b pk l s) else if l.st = .m then some (cwServeM b pk l s) else none
    | none => if (cwWays b h.addr s).length ≥ 16 then none else some (cwServeI b pk s)

/-- A request with no entry for its line and no free way starts an eviction. -/
def cwNeedsWay (b a : Nat) (s : State) : Bool :=
  (cwLine b a s).isNone && decide ((cwWays b a s).length ≥ 16) && decide (cwOpen b s < 512)

/-- A request joins the tail of the wait queue (R92). Admission keeps the requests there and on their way to it at 2,048 at
most (`bankFull`), and none is dropped (R90). -/
def cwQueue (b : Nat) (pk : Packet) (s : State) : State :=
  let x := cwBank b s
  setCwBank b { x with queue := x.queue ++ [pk] } s

/-- A writeback goes to the home: the line waits for WB_DONE. -/
def cwForwardWb (b : Nat) (l : CwLine) (pk : Packet) (s : State) : State :=
  cwSend b pk (setLine b { l with st := .bWb, poison := false } s)

/-- A COH_WB taken up: from the owner of a line in M it opens a transaction, for which it may wait (R96); in B_RECALL it is the
recall's answer (R93). -/
def cwTakeWb (b : Nat) (pk : Packet) (s : State) : State :=
  let from' := senderOf pk.hdr s
  match cwLine b pk.hdr.addr s with
  | some l =>
    if l.st = .m && from' = some l.owner then
      if cwOpen b s ≥ 512 then setCwBank b { cwBank b s with wbs := (cwBank b s).wbs ++ [pk] } s
      else cwForwardWb b { l with req := none } pk s
    else if l.st = .bRecall && from' = some l.owner then cwForwardWb b l pk s
    else cwSend b pk s
  | none => cwSend b pk s

/-- A stable line is to go (R84): all of the bank's are, or a member no longer valid holds or owns it. -/
def cwLeaves (b : Nat) (l : CwLine) (s : State) : Bool :=
  let gone := fun m => s.cwGone.any fun g => g.1 = m
  l.st.stable && ((cwBank b s).flush || (l.st = .m && gone l.owner) || (l.st = .s && l.sharers.any gone))

/-- Lines that are to go are invalidated or recalled, as in an eviction, while transactions may open (R84, R96). -/
def cwFlushBank (b : Nat) (s : State) : State :=
  let s1 := ((cwBank b s).lines.filter fun l => cwLeaves b l s).foldl
    (fun s l => if cwOpen b s < 512 then cwEvictLine b l s else s) s
  let x := cwBank b s1
  if x.flush && x.lines.isEmpty then setCwBank b { x with flush := false } s1 else s1

/-- The directory forgets a member no longer valid once no line awaits it. -/
def cwForget (s : State) : State :=
  let needs := fun (g : Nat × Nat × Nat) (l : CwLine) =>
    l.owner = g.1 && l.st ≠ .s || l.sharers.contains g.1 || l.acks.contains g.1 ||
      (match l.req with | some r => r.hdr.srcEp.toNat == g.2.1 | none => false)
  { s with cwGone := s.cwGone.filter fun g => s.cw.any fun e => e.2.lines.any (needs g) }

/-- One waiting request tried in its turn: it waits on while an earlier one of its line does (R92). -/
def cwRetry (b : Nat) (pk : Packet) (s : State) : State :=
  if (cwBank b s).queue.any fun q => lineAddr q.hdr.addr = lineAddr pk.hdr.addr then cwQueue b pk s
  else
    match cwTry b pk s with
    | some s1 => s1
    | none =>
      if cwNeedsWay b pk.hdr.addr s && !((cwWays b pk.hdr.addr s).any fun l => !l.st.stable && l.req.isNone) then
        cwQueue b pk (cwEvict b pk.hdr.addr s)
      else cwQueue b pk s

/-- What waits at a bank goes on: writebacks, lines that are to go, then the wait queue, first in, first out (R84, R91, R92). -/
def cwDrain (b : Nat) (s : State) : State :=
  let s1 := (cwBank b s).wbs.foldl (fun s pk => cwTakeWb b pk s) (setCwBank b { cwBank b s with wbs := [] } s)
  let s2 := cwFlushBank b s1
  cwForget ((cwBank b s2).queue.foldl (fun s pk => cwRetry b pk s) (setCwBank b { cwBank b s2 with queue := [] } s2))

/-- A request reaches the bank (R89, R92, R97). -/
def cwRequestAt (b : Nat) (pk : Packet) (s : State) : State :=
  let a := pk.hdr.addr
  if (cwBank b s).queue.any fun q => lineAddr q.hdr.addr = lineAddr a then cwQueue b pk s
  else
    match cwTry b pk s with
    | some s1 => cwDrain b s1
    | none =>
      let s1 := if cwNeedsWay b a s then cwEvict b a s else s
      cwDrain b (cwQueue b pk s1)

/-- A request that CW_BANK_REQUEST may bring to a bank: GET_S, GET_M, UPG or an uncached request. -/
def bankRequest (o : Nat) : Bool :=
  o == opGETS || o == opGETM || o == opUPG || o == opRD || o == opWRP || o == opWRNP || o == opATOM

/-! ### Writebacks (R89, R93) -/

/-- COH_WB_AT_BANK's effect. A recalled line's owner answers though it is no longer a valid member (R84). -/
def cohWbAtBank (pk : Packet) (s : State) : State :=
  let h := pk.hdr
  let b := bankOfAddr h.addr
  let recalled := match cwLine b h.addr s, goneOf h.srcEp.toNat s with
    | some l, some m => (l.st = .bRecall || l.st = .m) && l.owner = m
    | _, _ => false
  if h.opcode.toNat ≠ opWB then s
  else if bankLost b s then cwLostAnswer b h s
  else if !recalled && cwDenied h s then cwAnswer b h stPartDeny (cwDenyTraces b h s)
  else cwTakeWb b pk s

/-- COH_WB_AT_BANK (R93). -/
def execCohWbAtBank (pk : Packet) (s : State) : Host.Outcome State Fault Refusal := live (cohWbAtBank pk) s

/-! ### Home data (R89) -/

/-- The home's answer passes to the requester and the transaction completes. Only an OK answer grants the line. -/
def cwGrant (b : Nat) (l : CwLine) (req pk : Packet) (s : State) : State :=
  let o := req.hdr.opcode.toNat
  let m := (senderOf req.hdr s).getD 64
  let ok := pk.hdr.status == 0
  let s1 :=
    if o = opGETS then
      let sh := if ok then insertSorted m l.sharers else l.sharers
      if sh.isEmpty then delLine b l.addr s else setLine b { l with st := .s, sharers := sh, req := none, data := none } s
    else if (o = opGETM || o = opUPG) && ok then
      setLine b { l with st := .m, owner := m, sharers := [], req := none, data := none } s
    else delLine b l.addr s
  cwDrain b (cwDone b req.hdr (cwSend b pk s1))

/-- COH_DATA_AT_BANK's effect: COH_DATA, or the home's response to an uncached request (Table 5-2, order 6). -/
def cohDataAtBank (pk : Packet) (s : State) : State :=
  let h := pk.hdr
  let b := bankOfAddr h.addr
  if h.opcode.toNat ≠ opDATA && !isRsp h.opcode.toNat then s
  else
    match cwLine b h.addr s with
    | some l =>
      match l.req with
      | some req =>
        if req.hdr.srcEp = h.dstEp && req.hdr.tag = h.tag && l.asked then
          if l.st = .bFetch || (l.st = .bInv && l.acks.isEmpty) then cwGrant b l req pk s
          else if l.st = .bInv then setLine b { l with data := some pk } s
          else cwSend b pk s
        else cwSend b pk s
      | none => cwSend b pk s
    | none => cwSend b pk s

/-- COH_DATA_AT_BANK (R89). -/
def execCohDataAtBank (pk : Packet) (s : State) : Host.Outcome State Fault Refusal := live (cohDataAtBank pk) s

/-! ### Answers (R87, R93) -/

/-- Every awaited INV_ACK has come. -/
def cwAcked (b : Nat) (l : CwLine) (s : State) : State :=
  match l.req with
  | none => cwDrain b (delLine b l.addr s)
  | some req =>
    let o := req.hdr.opcode.toNat
    if l.asked then
      match l.data with
      | some pk => cwGrant b l req pk s
      | none => setLine b l s
    else if o = opUPG then
      cwDrain b (cwDone b req.hdr (cwAck b 2 req.hdr
        (setLine b { l with st := .m, owner := (senderOf req.hdr s).getD 64, sharers := [], req := none } s)))
    else cwDrain b (cwServeI b req s)

/-- A member's INV_ACK has come, or is taken to have come (R98). -/
def cwInvAck (b : Nat) (l : CwLine) (m : Nat) (s : State) : State :=
  let l1 := { l with acks := l.acks.filter (· ≠ m), sharers := l.sharers.filter (· ≠ m) }
  if l1.acks.isEmpty then cwAcked b l1 s else setLine b l1 s

/-- WB_DONE has come: the line is I, and what waited for it goes on from there (R89, R98). -/
def cwWbDone (b : Nat) (l : CwLine) (s : State) : State :=
  match l.req with
  | none => cwDrain b (delLine b l.addr s)
  | some req =>
    if l.poison then cwDrain b (cwDone b req.hdr (cwAnswer b req.hdr stPoison (delLine b l.addr s)))
    else cwDrain b (cwServeI b req (delLine b l.addr s))

/-- COH_ACK_AT_BANK's effect. -/
def cohAckAtBank (pk : Packet) (s : State) : State :=
  let h := pk.hdr
  let b := bankOfAddr h.addr
  let kind := bits h.subop.toNat 0 2
  let mine := h.dstEp.toNat == gx FWD_CTRL.OX9_EP 0 s
  if h.opcode.toNat ≠ opACK then s
  else
    match cwLine b h.addr s with
    | none => if mine then s else cwSend b pk s
    | some l =>
      if kind = 0 then
        match senderOf h s with
        | some m => if l.st = .bInv && l.acks.contains m then cwInvAck b l m s else s
        | none => s
      else if kind = 3 then
        if !mine then cwSend b pk s
        else if l.st = .bRecall && senderOf h s = some l.owner then setLine b { l with notHeld := true } s
        else s
      else if kind = 1 && l.st = .bWb then
        if mine then (if l.poison then cwWbDone b l s else s) else cwWbDone b l (cwSend b pk s)
      else if mine then s
      else cwSend b pk s

/-- COH_ACK_AT_BANK (R93). -/
def execCohAckAtBank (pk : Packet) (s : State) : Host.Outcome State Fault Refusal := live (cohAckAtBank pk) s

/-! ### One bank cycle (R91) -/

/-- How far a request's member lies at or after the bank's rotating pointer, counting upward modulo 64. -/
def cwTurn (b : Nat) (h : Header) (s : State) : Nat := ((senderOf h s).getD 63 + 64 - (cwBank b s).ptr) % 64

/-- Requests in the order in which one cycle takes them: rotating member order from the pointer. -/
def cwOrder (b : Nat) (pks : List Packet) (s : State) : List Packet :=
  ((List.range 64).map fun i => pks.filter fun pk => cwTurn b pk.hdr s = i).flatten

/-- A packet that reaches its bank in a cycle: COH_WB of the line's owner (0), what may complete a transaction (1), a
request (2). -/
def cwRank (s : State) (pk : Packet) : Nat :=
  let o := pk.hdr.opcode.toNat
  if bankRequest o then 2
  else if o = opWB && (cwLine (bankOfAddr pk.hdr.addr) pk.hdr.addr s).any fun l => senderOf pk.hdr s = some l.owner then 0
  else 1

/-- The requests of a cycle have left the way to their banks. -/
def cwArrive (pks : List Packet) (s : State) : State :=
  pks.foldl (fun s pk => if bankWaits pk.hdr then hasCome (bankOfAddr pk.hdr.addr) s else s) s

/-- CW_BANK_REQUEST's effect: the packets that reach a bank in one cycle, in the order of R91. A packet that no rule of the
chapter gives a meaning at a bank, as a MSG of REGION 15, is dropped there (log entry 121, DESIGN CHOICE). -/
def cwBankCycle (pks : List Packet) (s : State) : State :=
  let s := cwArrive pks s
  let answer := fun (s : State) (pk : Packet) =>
    let o := pk.hdr.opcode.toNat
    if o = opWB then cohWbAtBank pk s else if o = opACK then cohAckAtBank pk s else cohDataAtBank pk s
  let s1 := (pks.filter fun pk => cwRank s pk = 0).foldl answer s
  let s2 := (pks.filter fun pk => cwRank s pk = 1).foldl answer s1
  let reqs := pks.filter fun pk => cwRank s pk = 2
  (List.range 16).foldl (fun s b =>
    (cwOrder b (reqs.filter fun pk => bankOfAddr pk.hdr.addr = b) s2).foldl (fun s pk => cwRequestAt b pk s) s) s2

/-- CW_BANK_REQUEST (R89, R91). -/
def execCwBankRequest (pks : List Packet) (s : State) : Host.Outcome State Fault Refusal := live (cwBankCycle pks) s

/-! ### Members that do not answer (R98) -/

/-- A member is suspended and leaves every sharer vector of the plane; one no longer valid has no SUSPENDED bit of its own. -/
def cwSuspend (m : Nat) (s : State) : State :=
  let s1 := noteChange (if s.cwGone.any fun g => g.1 = m then s else sx CW_MEMBER.SUSPENDED m 1 s)
  { s1 with cw := s1.cw.map fun e =>
      (e.1, { e.2 with lines := e.2.lines.map fun l => { l with sharers := l.sharers.filter (· ≠ m) } }) }

/-- The poisoned COH_WB the bank sends on a lost owner's behalf. -/
def cwPoisonWb (m addr : Nat) (s : State) : Packet :=
  let pk := cohPacket opWB (addrEp addr) (memberAt m s).2 0 0 addr 0 stPoison s
  { pk with hdr := { pk.hdr with len := 64 }, payload := List.replicate 64 0 }

/-- An answer of member `m` for a line is taken as missing. The origin of the events is the member's endpoint (log
entry 14, DEDUCED). -/
def cwMissing (b a m : Nat) (s : State) : State :=
  match cwLine b a s with
  | none => s
  | some l =>
    let d := bankDie b s
    let ep := (memberAt m s).1
    if l.st = .bInv && l.acks.contains m then
      let s1 := raise .ox9 (Event.mk0 .ox9 .cwMemberSilent true d 2 ep [na m] s) (countD d .cwAckTimeout (cwSuspend m s))
      match cwLine b a s1 with | some l1 => cwInvAck b l1 m s1 | none => s1
    else if l.st = .bRecall && l.owner = m then
      let s1 := raise .ox9 (Event.mk0 .ox9 .cwOwnerLost false d 2 ep [na m, wa l.addr] s) (countD d .cwOwnerLost (cwSuspend m s))
      cwSend b (cwPoisonWb m l.addr s1) (setLine b { l with st := .bWb, poison := true } s1)
    else s

/-- ACK_TIMEOUT has passed since the snoops of a line left. A member that answered NOT_HELD has answered: its COH_WB is in
flight (R93). -/
def cwAckTimeout (b a m : Nat) (s : State) : State :=
  match cwLine b a s with
  | none => s
  | some l => if ft s < l.since + 2500 * gx CW_CTRL.ACK_TIMEOUT 0 s || l.notHeld then s else cwMissing b a m s

/-- CW_ACK_TIMEOUT (R98). -/
def execCwAckTimeout (bank : Slice) (line : Nat) (member : Fin 64) (s : State) : Host.Outcome State Fault Refusal :=
  live (cwAckTimeout bank.val line member.val) s

/-- The lines of every bank that wait for member `m`. -/
def cwWaiting (m : Nat) (s : State) : List (Nat × Nat) :=
  (s.cw.map fun e => (e.2.lines.filter fun l =>
    (l.st = .bInv && l.acks.contains m) || (l.st = .bRecall && l.owner = m)).map fun l => (e.1, l.addr)).flatten

/-- The port to an endpoint goes down: each answer awaited from its member is missing at once (R98). Of a member with several
ports any one of them is such a port (log entry 120, DESIGN CHOICE). -/
def cwPortLost (ep : Nat) (s : State) : State :=
  match (memberOf ep s).or (goneOf ep s) with
  | none => s
  | some m => (cwWaiting m s).foldl (fun s x => cwMissing x.1 x.2 m s) s

/-- What waits at every bank goes on (R84, R92). -/
def cwDrainAll (s : State) : State := (List.range 16).foldl (fun s b => cwDrain b s) s

/-- Every line of every bank is to go (R84). -/
def cwFlushAll (s : State) : State :=
  { s with cw := s.cw.map fun e => (e.1, { e.2 with flush := !e.2.lines.isEmpty }) }

end Sys2Proof.Machine
end

