-- ==== Sys2Proof/Machine/Dma.lean ====
section
/-! DEFINITION. The DMA engine of an OEB (R277 to R288) and the decryption of weight blobs (R260, R261): DMA_RING_DOORBELL,
DMA_COMPLETION_WAIT, DMA_WAIT_TIMEOUT, DMA_TAIL_WRITE, DESCRIPTOR_FETCH, DMA_COPY, DMA_FILL, DMA_COMPARE, DMA_DECRYPT,
DMA_NO_OPERATION, DMA_BURST_ISSUE, DMA_TIMER_TRIGGER, DMA_DESCRIPTOR_COMPLETE, DMA_STOP, DMA_ERR_CLEAR,
DMA_CHANNEL_DISABLE. -/

namespace Sys2Proof.Machine

/-! ### Channels and descriptors -/

/-- A channel. -/
def chan (side : Side) (c : Nat) (s : State) : DmaCh := SMap.get (fun _ => DmaCh.reset) (oebOf side s).chans c
/-- The state with a channel replaced. -/
def setChan (side : Side) (c : Nat) (x : DmaCh) (s : State) : State :=
  modOeb side (fun o => { o with chans := SMap.set (fun _ => DmaCh.reset) o.chans c x }) s
/-- The state with a channel changed. -/
def modChan (side : Side) (c : Nat) (f : DmaCh → DmaCh) (s : State) : State := setChan side c (f (chan side c s)) s
/-- A field of DMA_CH. -/
def cf (side : Side) (f : Fld) (c : Nat) (s : State) : Nat := go side f c s
/-- The issuing context of a channel. -/
def chCtx (side : Side) (c : Nat) (s : State) : Nat := cf side DMA_CH.CTX c s
/-- The partition of a channel. -/
def chPart (side : Side) (c : Nat) (s : State) : Nat := go side CTX_CFG.PART (chCtx side c s) s

/-- A word of a descriptor. -/
def Desc.word (d : Desc) (k : Nat) : Nat := nth d.words k
/-- KIND. -/
def Desc.kind (d : Desc) : Nat := bits (d.word 0) 0 4
/-- LEN. -/
def Desc.len (d : Desc) : Nat := bits (d.word 3) 0 40
/-- A flag of word 0. -/
def Desc.flag (d : Desc) (i : Nat) : Bool := bits (d.word 0) i 1 == 1
/-- TRIG. -/
def Desc.trig (d : Desc) : Nat := bits (d.word 0) 8 2

/-- A descriptor that R286 fails for its form. -/
def Desc.bad (d : Desc) : Bool :=
  decide (4 < d.kind) || d.trig == 3 || bits (d.word 0) 10 54 != 0 || bits (d.word 3) 52 12 != 0 || d.word 7 != 0 || d.len == 0 ||
    (d.trig == 2 && bits (d.word 4) 6 26 != 0) || d.word 5 % 32 != 0

/-- Every burst of a descriptor has been issued. -/
def Desc.issued (d : Desc) : Bool :=
  d.stop || d.kind == 4 || (if d.kind = 3 then decide (d.len ≤ d.next) && d.wq.isEmpty && decide (0 < d.plain) &&
    decide (ceilDiv d.plain 4096 ≤ d.seg) else decide (d.len ≤ d.next))

/-- The state with a descriptor of a channel changed. -/
def modDesc (side : Side) (c n : Nat) (f : Desc → Desc) (s : State) : State :=
  modChan side c (fun x => { x with descs := x.descs.map fun d => if d.n = n then f d else d }) s

/-- A descriptor of a channel. -/
def descOf (side : Side) (c n : Nat) (s : State) : Option Desc := (chan side c s).descs.find? fun d => d.n = n

/-- The channel runs: enabled, not halted, not stopping. -/
def chRuns (side : Side) (c : Nat) (s : State) : Bool :=
  cf side DMA_CH.EN c s == 1 && cf side DMA_CH.STATE c s != 4 && cf side DMA_CH.STOP c s == 0

/-! ### Waits and halts -/

/-- The completion waits on a channel are tested (R279). -/
def dmaWaitTest (side : Side) (c : Nat) (s : State) : State :=
  let err := cf side DMA_CH.ERR c s == 1
  let dn := cf side DMA_CH.DONE_SEQ c s
  let (done, rest) := (oebOf side s).waits.partition fun w => w.dma && w.idx = c && (err || decide (subMod 32 dn w.target < 2 ^ 31))
  done.foldl (fun s w => arsp side w.ctx w.atag (if err then cf side DMA_CH.ERR_STATUS c s else 0) 0 0 [] s)
    (modOeb side (fun o => { o with waits := rest }) s)

/-- The channel halts with a status. -/
def chHalt (side : Side) (c st : Nat) (s : State) : State :=
  dmaWaitTest side c (so side DMA_CH.STOP c 0 (so side DMA_CH.STATE c 4 (so side DMA_CH.ERR_STATUS c st (so side DMA_CH.ERR c 1 s))))

/-- The traces of a failed descriptor (R286). -/
def dmaErrTraces (side : Side) (c n st : Nat) (s : State) : State :=
  raiseO side .dmaErr false 0 0 [na c, wa n, na st] (countO side .dmaErr s)

/-- The channel halts on a failure with its traces. -/
def chFail (side : Side) (c n st : Nat) (s : State) : State := chHalt side c st (dmaErrTraces side c n st s)

/-- A descriptor fails: no further burst, the worse status kept. -/
def descFail (side : Side) (c n st : Nat) (s : State) : State :=
  modDesc side c n (fun d => { d with status := worse d.status st, stop := true }) s

/-! ### Translations of the next burst -/

/-- The descriptor whose bursts come next: the first started one with bursts left. -/
def current (x : DmaCh) : Option Desc := x.descs.find? fun d => d.started && !d.issued

/-- A decrypt descriptor's next burst writes plaintext. -/
def Desc.writes (d : Desc) : Bool := d.kind == 3 && !d.wq.isEmpty

/-- A decrypt descriptor may read its next bytes: the header, or a segment once the header has passed. -/
def Desc.mayRead (d : Desc) : Bool := d.kind != 3 || decide (d.next < 64) || (decide (0 < d.plain) && decide (d.next < d.len))

/-- The next burst reads its source. -/
def Desc.needS (d : Desc) : Bool := (d.kind == 0 || d.kind == 2 || d.kind == 3) && !d.writes && d.mayRead
/-- The next burst uses its destination. -/
def Desc.needD (d : Desc) : Bool := d.kind == 0 || d.kind == 1 || d.kind == 2 || d.writes

/-- The source address of the next burst. -/
def Desc.srcVa (d : Desc) : Nat := (d.word 1 + d.next) % 2 ^ 64
/-- The destination offset of the next burst. -/
def Desc.dstOff (d : Desc) : Nat := if d.kind = 3 then (d.wq.head?.map (·.1)).getD 0 else d.next
/-- The destination address of the next burst. -/
def Desc.dstVa (d : Desc) : Nat := (d.word 2 + d.dstOff) % 2 ^ 64

/-- The length of the next burst (R282). -/
def Desc.burstLen (d : Desc) : Nat :=
  let s := 256 - d.srcVa % 256
  let t := 256 - d.dstVa % 256
  if d.kind = 3 then
    if d.writes then min t ((d.wq.head?.map (·.2.length)).getD 0)
    else
      let stop := if d.next < 64 then 64 else min d.len (64 + ((d.next - 64) / 4112 + 1) * 4112)
      min s (stop - d.next)
  else if d.kind = 1 then min t (d.len - d.next)
  else min (min s t) (d.len - d.next)

/-- What Table 12-7 asks of a destination. -/
def Desc.dstNeed (d : Desc) : Nat :=
  if d.kind = 2 then needOf true false false 0 else if d.kind = 3 then needOf false true false 1 else needOf false true false 0

/-- What a translation told the channel. -/
def XState.of : XAns → XState
  | .hit l a => .got l a
  | .miss => .asked
  | .fault _ => .none

/-- A translation is there. -/
def XState.isGot : XState → Bool
  | .got _ _ => true
  | _ => false

/-- The next burst becomes ready once its translations are there. -/
def readyTest (side : Side) (c : Nat) (s : State) : State :=
  let x := chan side c s
  match current x with
  | none => s
  | some d =>
    if (d.needS || d.needD) && (!d.needS || x.sx.isGot) && (!d.needD || x.dx.isGot) && x.ready.isNone then
      setChan side c { x with ready := some (ftO side s) } s
    else s

/-- The translations of the channel's next burst are asked for; a fault fails its descriptor. -/
def prepare (side : Side) (c : Nat) (s : State) : State :=
  match current (chan side c s) with
  | none => s
  | some d =>
    let ask := fun (eng va need : Nat) (who : XWho) s => translate side { who := who, eng := eng, ctx := chCtx side c s, va := va, need := need } s
    let s1 :=
      if d.needS && (chan side c s).sx = .none then
        match ask 1 d.srcVa (needOf true false false 0) (.src c d.n) s with
        | (.fault k, s1) => descFail side c d.n (causeStatus k) s1
        | (a, s1) => modChan side c (fun x => { x with sx := .of a }) s1
      else s
    let s2 :=
      if d.needD && (chan side c s1).dx = .none then
        match ask 2 d.dstVa d.dstNeed (.dst c d.n) s1 with
        | (.fault k, s2) => descFail side c d.n (causeStatus k) s2
        | (a, s2) => modChan side c (fun x => { x with dx := .of a }) s2
      else s1
    readyTest side c s2

/-- A new burst is prepared afresh. -/
def reprepare (side : Side) (c : Nat) (s : State) : State :=
  prepare side c (modChan side c (fun x => { x with sx := .none, dx := .none, ready := none }) s)

/-! ### Starting a descriptor (R281, R284, R285) -/

/-- The first descriptor that has not started, once every earlier one has issued its bursts. -/
def startable (x : DmaCh) : Option Desc :=
  match x.descs.find? fun d => !d.started with
  | none => none
  | some d => if x.descs.all (fun e => !e.started || e.issued) && d.status = 0 then some d else none

/-- A trigger is met (R285). -/
def trigMet (side : Side) (d : Desc) (s : State) : Bool :=
  match d.trig with
  | 1 => decide (d.word 4 ≤ ftO side s)
  | 2 => decide (subMod 32 (cf side DMA_CH.DONE_SEQ (bits (d.word 4) 0 6) s) (bits (d.word 4) 32 32) < 2 ^ 31)
  | _ => true

/-- The traces of a refused blob header (R261). -/
def weightDeny (side : Side) (c n slot devset : Nat) (s : State) : State :=
  descFail side c n stCheckFail (raiseO side .checkFail false 6 slot [na slot, wa devset] (countO side .weightDeny s))

/-- A descriptor starts. -/
def descStart (side : Side) (c : Nat) (d : Desc) (s : State) : State :=
  let s1 := so side DMA_CH.STATE c 1 (modDesc side c d.n (fun d => { d with started := true }) s)
  if d.kind = 3 && d.len < 64 then weightDeny side c d.n 0 0 s1
  else reprepare side c s1

/-- The next descriptor of a channel starts where its barrier and its trigger are met; otherwise the channel waits. -/
def startDesc (side : Side) (c kind : Nat) (s : State) : State :=
  if !chRuns side c s then s
  else
    match startable (chan side c s) with
    | none => s
    | some d =>
      if d.kind ≠ kind then s
      else if d.flag 4 && cf side DMA_CH.DONE_SEQ c s ≠ d.n then so side DMA_CH.STATE c 2 s
      else if !trigMet side d s then so side DMA_CH.STATE c 3 s
      else descStart side c d s

/-- DMA_COPY (R281). -/
def execDmaCopy (side : Side) (ch : Chan) (s : State) : Host.Outcome State Fault Refusal := run (startDesc side ch.val 0) s
/-- DMA_FILL (R281). -/
def execDmaFill (side : Side) (ch : Chan) (s : State) : Host.Outcome State Fault Refusal := run (startDesc side ch.val 1) s
/-- DMA_COMPARE (R281). -/
def execDmaCompare (side : Side) (ch : Chan) (s : State) : Host.Outcome State Fault Refusal := run (startDesc side ch.val 2) s
/-- DMA_DECRYPT (R281). -/
def execDmaDecrypt (side : Side) (ch : Chan) (s : State) : Host.Outcome State Fault Refusal := run (startDesc side ch.val 3) s
/-- DMA_NO_OPERATION (R281). -/
def execDmaNoOperation (side : Side) (ch : Chan) (s : State) : Host.Outcome State Fault Refusal := run (startDesc side ch.val 4) s

/-- The time test starts a descriptor that waits for it (R285). -/
def timerTrigger (side : Side) (c : Nat) (s : State) : State :=
  match startable (chan side c s) with
  | none => s
  | some d => if d.trig = 1 then startDesc side c d.kind s else s

/-- DMA_TIMER_TRIGGER (R285). -/
def execDmaTimerTrigger (side : Side) (ch : Chan) (s : State) : Host.Outcome State Fault Refusal := run (timerTrigger side ch.val) s

/-! ### Bursts -/

/-- A fabric request of a channel. -/
def dmaReq (side : Side) (c n off role : Nat) (op : Nat) (l : Leaf) (addr len lc : Nat) (adv : Bool) (st : Nat) (data : List Byte)
    (s : State) : State :=
  let (rid, s1) := freshId side s
  let h := oebHeader side op 3 l.part (addrEp addr) 0 len 2 (if adv then lc else 0) l.slot adv.toNat l.enc addr s
  enqueueReq side { rid := rid, ctx := chCtx side c s, src := .dma c n off role, hdr := { h with status := BitVec.ofNat 4 st }, data := data
                    acc := ftO side s, retries := 0, inPort := none, plane := planeOf op addr s } s1

/-- A burst's open record is removed. -/
def burstDrop (side : Side) (c n off : Nat) (s : State) : State :=
  modDesc side c n (fun d => { d with bursts := d.bursts.filter fun b => b.off ≠ off }) s

/-- A burst writes its bytes: a local write, or a fabric write of the descriptor's kind (R281, R282). A local write with
LC_ADV is checked against its counter before it is performed (R65). -/
def burstWrite (side : Side) (c : Nat) (d : Desc) (b : Burst) (poison : Bool) (data : List Byte) (s : State) : State :=
  let lc := bits (d.word 3) 40 12
  let adv := d.flag 6
  let mark := fun (landing : Bool) => modDesc side c d.n fun d => { d with bursts := d.bursts.map fun x =>
    if x.off = b.off then { x with writing := true, src := data, adv := landing } else x }
  let put := fun (landing : Bool) s => mreq side (.dmaWr c d.n b.off) b.addr data.length poison 0 data (mark landing s)
  if b.out.fabric then
    dmaReq side c d.n b.off 2 (if d.flag 5 then opWRNP else opWRP) b.out b.addr data.length lc adv (if poison then stPoison else 0) data
      (mark false s)
  else if !adv then put false s
  else
    match lcCheck side lc (chPart side c s) s with
    | .ok => put true s
    | .off => put false (lcOff side s)
    | .deny =>
      descFail side c d.n stPartDeny (burstDrop side c d.n b.off (lcDeny side lc (go side OEB_ID.EP 0 s) (chPart side c s) s))

/-- A write burst resolves: its bytes count as done where no read or write of it failed (Table 12-14), its counter
advances (R281). -/
def burstWritten (side : Side) (c n off st : Nat) (s : State) : State :=
  match descOf side c n s with
  | none => s
  | some d =>
    match d.bursts.find? fun b => b.off = off with
    | none => s
    | some b =>
      let len := b.src.length
      let s1 := burstDrop side c n off s
      if st ≠ 0 then descFail side c n st s1
      else
        let base := if d.kind = 3 then off - 2 ^ 48 else off
        let s2 := if b.failed then s1 else modDesc side c n (fun d => { d with spans := d.spans ++ [(base, len)] }) s1
        if b.adv then lcAdvance side (bits (d.word 3) 40 12) len b.failed s2 else s2

/-- The pattern of a fill from offset `off` (R281). -/
def fillBytes (pat off len : Nat) : List Byte := (List.range len).map fun k => BitVec.ofNat 8 (pat / 256 ^ ((off + k) % 8))

/-- The lowest index at which two byte lists differ. -/
def firstDiff (a b : List Byte) : Option Nat := (a.zip b).findIdx? fun x => x.1 ≠ x.2

/-! ### Weight blobs (R260, R261) -/

/-- A blob's segment: its index and the bytes of the blob it takes. -/
def segLen (plain i : Nat) : Nat := min 4096 (plain - 4096 * i) + 16

/-- A device set is among DEVSET[0..15]. -/
def devsetHeld (side : Side) (v : Nat) (s : State) : Bool :=
  (List.range 16).any fun i => match SMap.get (fun _ => none) (keySec (.oeb side) s).devsets i with | some (x, _) => x = v | none => false

/-- The blob header is complete: it passes, or nothing is written. -/
def blobHeader (side : Side) (c : Nat) (d : Desc) (h : List Byte) (s : State) : State :=
  let f := fun o n => ofLE ((h.drop o).take n)
  let slot := f 12 2
  let dev := f 8 4
  let plain := f 24 8
  let bound := match keySlot (.oeb side) slot s with | some k => k.devset == dev | none => false
  if f 0 4 = 0x57544231 && f 4 2 = 1 && f 6 2 = 0 && f 14 2 = 0 && f 32 32 = 0 && slot < 8192 && 1 ≤ plain && plain ≤ 2 ^ 40 &&
      slotKind (.oeb side) slot s = 3 && slotPart (.oeb side) slot s = chPart side c s && bound && devsetHeld side dev s &&
      d.len = 64 + plain + 16 * ceilDiv plain 4096 then
    modDesc side c d.n (fun d => { d with plain := plain, hdr := h, buf := [] }) s
  else weightDeny side c d.n (slot % 8192) dev s

/-- A segment whose bytes are all there is opened; the first one that fails ends the transfer. -/
def blobSegment (side : Side) (c : Nat) (d : Desc) (s : State) : State :=
  let i := d.seg
  let from_ := 64 + 4112 * i
  let n := segLen d.plain i
  let bs := joinBytes (d.buf.filter fun x => decide (from_ ≤ x.1) && decide (x.1 < from_ + n))
  if d.plain = 0 || d.plain ≤ 4096 * i || bs.length < n then s
  else
    let f := fun o k => ofLE ((d.hdr.drop o).take k)
    let iv := (toLE 12 (i % 2 ^ 32 + f 16 8 * 2 ^ 32)).reverse
    let ct := bs.take (n - 16)
    let tag := bs.drop (n - 16)
    let ok := fun (k : BitVec 256) => tag == fit 16 (Config.gcmTag k iv d.hdr ct)
    let plain := fun (k : BitVec 256) => gcmXor k iv 0 ct
    let pass := fun (p : List Byte) s => modDesc side c d.n (fun d => { d with seg := i + 1, wq := d.wq ++ [(4096 * i, p)] }) s
    let fail := fun s => descFail side c d.n stCheckFail (raiseO side .checkFail false 0 0 [] (countO side .weightTagFail s))
    match keySlot (.oeb side) (f 12 2) s with
    | none => fail s
    | some k =>
      if ok k.key then pass (plain k.key) s
      else
        match k.old with
        | some o => if ok o then pass (plain o) (countO side .keyOldAccept s) else fail s
        | none => fail s

/-- Every segment whose bytes are all there is opened, in order. -/
def blobSegments (side : Side) (c n : Nat) : Nat → State → State
  | 0, s => s
  | k + 1, s =>
    match descOf side c n s with
    | none => s
    | some d =>
      let s1 := blobSegment side c d s
      match descOf side c n s1 with
      | some e => if d.seg < e.seg then blobSegments side c n k s1 else s1
      | none => s1

/-- Bytes of a blob arrive; once a segment has failed, or the descriptor has stopped, no later one is opened (R261). -/
def blobRead (side : Side) (c n off : Nat) (data : List Byte) (s : State) : State :=
  let s1 := modDesc side c n (fun d => { d with buf := d.buf ++ [(off, data)] }) (burstDrop side c n off s)
  match descOf side c n s1 with
  | none => s1
  | some d =>
    if d.stop then s1
    else if d.plain = 0 then
      let h := joinBytes d.buf
      if h.length < 64 then s1 else reprepare side c (blobHeader side c d (h.take 64) s1)
    else reprepare side c (blobSegments side c n d.buf.length s1)

/-- A read of a burst resolves: role 0 its source, role 1 its destination. -/
def burstRead (side : Side) (c n off role st : Nat) (data : List Byte) (s : State) : State :=
  match descOf side c n s with
  | none => s
  | some d =>
    match d.bursts.find? fun b => b.off = off with
    | none => s
    | some b =>
      let b1 := { b with reads := b.reads - 1, src := if role = 0 then data else b.src, dst := if role = 1 then data else b.dst
                         failed := b.failed || st ≠ 0 }
      let s1 := modDesc side c n (fun d => { d with bursts := d.bursts.map fun x => if x.off = off then b1 else x }) s
      let s2 := if st ≠ 0 then descFail side c n st s1 else s1
      if b1.reads ≠ 0 then s2
      else
        match descOf side c n s2 with
        | none => s2
        | some d =>
          if d.kind = 0 && st = stPoison && data.length = b.len then burstWrite side c d b1 true data s2
          else if b1.failed then burstDrop side c n off s2
          else if d.kind = 0 then burstWrite side c d b1 false (fit b.len data) s2
          else if d.kind = 3 then blobRead side c n off (fit b.len data) s2
          else if b1.src.length ≠ b.len || b1.dst.length ≠ b.len then burstDrop side c n off s2
          else
            let s3 := modDesc side c n (fun d => { d with spans := d.spans ++ [(off, b.len)] }) (burstDrop side c n off s2)
            match firstDiff b1.src b1.dst with
            | none => s3
            | some k => modDesc side c n (fun d => { d with stop := true, diff := some (match d.diff with | some x => min x (off + k) | none => off + k) }) s3

/-- A read of a burst leaves: local, or a fabric RD. -/
def burstFetch (side : Side) (c n off role len : Nat) (l : Leaf) (addr : Nat) (s : State) : State :=
  if l.fabric then dmaReq side c n off role opRD l addr len 0 false 0 [] s
  else mreq side (.dmaRd c n off role) addr len false 0 [] s

/-- What a channel holds of a translation, or nothing usable. -/
def XState.pair : XState → Leaf × Nat
  | .got l a => (l, a)
  | _ => ({ fabric := false, ok := false, base := 0, size := 12, part := 0, enc := false, slot := 0, r := false, w := false
            atom := false, d := false, glob := false, apt := Option.none }, 0)

/-- The next burst of a channel is issued (R282). -/
def burstIssue (side : Side) (c : Nat) (s : State) : State :=
  let x := chan side c s
  match current x with
  | none => s
  | some d =>
    let len := d.burstLen
    let (sl, sa) := x.sx.pair
    let (dl, da) := x.dx.pair
    let off := if d.writes then 2 ^ 48 + d.dstOff else d.next
    let b : Burst := { off := off, len := len, reads := if d.kind = 2 then 2 else 1, src := [], dst := [], out := dl, addr := da
                       writing := false, adv := false, failed := false }
    let segOk := d.kind ≠ 3 || d.writes || d.next < 64 || (d.next - 64) % 4112 ≠ 0 || devsetHeld side (ofLE ((d.hdr.drop 8).take 4)) s
    if !segOk then reprepare side c (weightDeny side c d.n (ofLE ((d.hdr.drop 12).take 2)) (ofLE ((d.hdr.drop 8).take 4)) s)
    else
      let s1 := modDesc side c d.n (fun d => { d with bursts := d.bursts ++ [b] }) s
      let s2 :=
        if d.writes then
          match d.wq with
          | [] => s1
          | (o, p) :: rest =>
            let wq := if p.length ≤ len then rest else (o + len, p.drop len) :: rest
            burstWrite side c d b false (p.take len) (modDesc side c d.n (fun d => { d with wq := wq }) s1)
        else
          let s2 := modDesc side c d.n (fun d => { d with next := d.next + len }) s1
          if d.kind = 1 then burstWrite side c d b false (fillBytes (d.word 1) d.next len) s2
          else
            let s3 := burstFetch side c d.n off 0 len sl sa s2
            if d.kind = 2 then burstFetch side c d.n off 1 len dl da s3 else s3
      reprepare side c s2

/-- The channel the arbiter takes (R283), with the pointer's move. -/
def pickChan (side : Side) (s : State) : Option (Nat × Option Nat) :=
  let ready := (List.range 64).filterMap fun c =>
    if chRuns side c s && (current (chan side c s)).isSome then (chan side c s).ready.map fun t => (c, t) else none
  let now := ftO side s
  let starved := ready.filter fun x => decide (x.2 + go side DMA_CFG.STARVE 0 s * 2500 ≤ now)
  match starved with
  | x :: xs => some ((xs.foldl (fun (b : Nat × Nat) y => if y.2 < b.2 then y else b) x).1, none)
  | [] =>
    let top := ready.foldl (fun m x => max m (cf side DMA_CH.PRIO x.1 s)) 0
    let l := (ready.filter fun x => cf side DMA_CH.PRIO x.1 s = top).map (·.1)
    let p := SMap.get (fun _ => 0) (oebOf side s).prioPtr top
    match l.find? fun c => decide (p ≤ c) with
    | some c => some (c, some top)
    | none => l.head?.map fun c => (c, some top)

/-- One burst leaves (R283). -/
def dmaBurst (side : Side) (s : State) : State :=
  match pickChan side s with
  | none => s
  | some (c, some pr) => burstIssue side c (modOeb side (fun o => { o with prioPtr := SMap.set (fun _ => 0) o.prioPtr pr ((c + 1) % 64) }) s)
  | some (c, none) => burstIssue side c s

/-- DMA_BURST_ISSUE (R283). -/
def execDmaBurstIssue (side : Side) (s : State) : Host.Outcome State Fault Refusal := run (dmaBurst side) s

/-! ### Completion (R286) -/

/-- The bytes from the start covered in one run. -/
def runLen : Nat → Nat → List (Nat × Nat) → Nat
  | 0, n, _ => n
  | fuel + 1, n, l => match l.find? fun x => decide (x.1 ≤ n) && decide (n < x.1 + x.2) with
    | some x => runLen fuel (x.1 + x.2) l
    | none => n

/-- The completion record (Table 12-14). -/
def crecBytes (d : Desc) : List Byte :=
  toLE 8 ((d.n + 1) % 2 ^ 32 + d.status * 2 ^ 32 + (if d.diff.isSome then 2 ^ 36 else 0)) ++
    toLE 8 (runLen d.spans.length 0 d.spans % 2 ^ 40) ++ toLE 8 (d.diff.getD 0 % 2 ^ 40) ++ toLE 8 (d.word 6)

/-- A descriptor completes: DONE_SEQ advances, a failed one halts the channel. -/
def descDone (side : Side) (c : Nat) (d : Desc) (s : State) : State :=
  let s1 := so side DMA_CH.DONE_SEQ c (d.n + 1) (modChan side c (fun x => { x with descs := x.descs.filter fun e => e.n ≠ d.n }) s)
  if d.status ≠ 0 then chFail side c d.n d.status s1
  else
    let run := (chan side c s1).descs.any fun e => e.started
    prepare side c (dmaWaitTest side c (if cf side DMA_CH.STATE c s1 = 1 && !run then so side DMA_CH.STATE c 0 s1 else s1))

/-- The record's write ends with a status. -/
def crecDone (side : Side) (c st : Nat) (s : State) : State :=
  match (chan side c s).descs with
  | d :: _ => if d.crec = 1 then descDone side c { d with status := worse d.status st } s else s
  | [] => s

/-- The record is written at its translated address. -/
def crecWrite (side : Side) (c addr : Nat) (s : State) : State :=
  match (chan side c s).descs with
  | d :: _ => if d.crec = 1 then mreq side (.crec c) addr 32 false 0 (crecBytes d) s else s
  | [] => s

/-- The oldest descriptor, with every burst resolved, completes: its record first where it asks for one. -/
def descComplete (side : Side) (c : Nat) (s : State) : State :=
  match (chan side c s).descs with
  | [] => s
  | d :: _ =>
    if !(d.started || d.status ≠ 0) || !d.issued || !d.bursts.isEmpty || d.crec ≠ 0 || cf side DMA_CH.STATE c s = 4 then s
    else if !d.flag 7 || d.word 5 % 32 ≠ 0 then descDone side c d s
    else
      let s1 := modDesc side c d.n (fun d => { d with crec := 1 }) s
      match translate side { who := .crec c, eng := 2, ctx := chCtx side c s, va := d.word 5, need := needOf false true false 1 } s1 with
      | (.hit _ a, s2) => crecWrite side c a s2
      | (.miss, s2) => s2
      | (.fault k, s2) => crecDone side c (causeStatus k) s2

/-- DMA_DESCRIPTOR_COMPLETE (R286). -/
def execDmaDescriptorComplete (side : Side) (ch : Chan) (s : State) : Host.Outcome State Fault Refusal :=
  run (descComplete side ch.val) s

/-! ### The ring (R278) -/

/-- TAIL is too far ahead of DONE_SEQ. -/
def tailBad (side : Side) (c : Nat) (s : State) : Bool :=
  decide (2 ^ cf side DMA_CH.RING_LOG2 c s < subMod 32 (cf side DMA_CH.TAIL c s) (cf side DMA_CH.DONE_SEQ c s))

/-- TAIL is written; one too far ahead halts a running channel. -/
def tailWrite (side : Side) (c v : Nat) (s : State) : State :=
  let s1 := so side DMA_CH.TAIL c v s
  if cf side DMA_CH.EN c s = 1 && cf side DMA_CH.STATE c s ≠ 4 && tailBad side c s1 then chFail side c (cf side DMA_CH.DONE_SEQ c s) stCheckFail s1
  else s1

/-- DMA_TAIL_WRITE (R278). -/
def execDmaTailWrite (side : Side) (ch : Chan) (tail : BitVec 32) (s : State) : Host.Outcome State Fault Refusal :=
  run (tailWrite side ch.val tail.toNat) s

/-- A channel fetches its next descriptor. -/
def descFetch (side : Side) (c : Nat) (s : State) : State :=
  let hd := cf side DMA_CH.HEAD c s
  if !chRuns side c s then s
  else if tailBad side c s then chFail side c (cf side DMA_CH.DONE_SEQ c s) stCheckFail s
  else if hd = cf side DMA_CH.TAIL c s || (chan side c s).fetching || decide (8 < (chan side c s).descs.length) then s
  else
    let va := (cf side DMA_CH.RING_BASE c s * 64 + 64 * (hd % 2 ^ cf side DMA_CH.RING_LOG2 c s)) % 2 ^ 64
    let s1 := modChan side c (fun x => { x with fetching := true }) s
    let gen := (chan side c s).gen
    match translate side { who := .ring c gen, eng := 1, ctx := chCtx side c s, va := va, need := needOf true false false 1 } s1 with
    | (.hit _ a, s2) => mreq side (.ring c gen) a 64 false 0 [] s2
    | (.miss, s2) => s2
    | (.fault k, s2) => chFail side c hd (causeStatus k) (modChan side c (fun x => { x with fetching := false }) s2)

/-- DESCRIPTOR_FETCH (R278). -/
def execDescriptorFetch (side : Side) (ch : Chan) (s : State) : Host.Outcome State Fault Refusal := run (descFetch side ch.val) s

/-- A fetch ends: the descriptor joins the channel, or the channel halts with the fetch's status. A fetch from before EN was
cleared is no longer the channel's (R288). -/
def ringRead (side : Side) (c gen st : Nat) (data : List Byte) (s : State) : State :=
  let hd := cf side DMA_CH.HEAD c s
  let s1 := modChan side c (fun x => { x with fetching := false }) s
  if (chan side c s).gen ≠ gen then s
  else if st ≠ 0 then (if cf side DMA_CH.STATE c s = 4 then s1 else chFail side c hd st s1)
  else
    let ws := (List.range 8).map fun k => ofLE ((data.drop (8 * k)).take 8)
    let d : Desc := { n := hd, words := ws, started := false, next := 0, stop := false, status := 0, bursts := [], spans := [], diff := none
                      plain := 0, hdr := [], seg := 0, buf := [], wq := [], crec := 0 }
    let d := if d.bad then { d with status := stCheckFail, stop := true } else d
    so side DMA_CH.HEAD c (hd + 1) (modChan side c (fun x => { x with descs := x.descs ++ [d] }) s1)

/-- The next burst of a channel is the one that asked for a translation: the same descriptor, context and address. -/
def asksSrc (side : Side) (m : XMiss) (c n : Nat) (s : State) : Bool :=
  let x := chan side c s
  x.sx = .asked && m.ctx = chCtx side c s && match current x with | some d => d.n = n && d.srcVa = m.va | none => false

/-- The same of the destination. -/
def asksDst (side : Side) (m : XMiss) (c n : Nat) (s : State) : Bool :=
  let x := chan side c s
  x.dx = .asked && m.ctx = chCtx side c s && match current x with | some d => d.n = n && d.dstVa = m.va | none => false

/-- What a channel learns of a translation it waited for; an answer to a burst that is no longer its next one says nothing. -/
def dmaXlat (side : Side) (m : XMiss) (a : XAns) (s : State) : State :=
  match m.who, a with
  | .ring c g, .hit _ p => if (chan side c s).gen = g then mreq side (.ring c g) p 64 false 0 [] s else s
  | .ring c g, .fault k => ringRead side c g (causeStatus k) [] s
  | .crec c, .hit _ p => crecWrite side c p s
  | .crec c, .fault k => crecDone side c (causeStatus k) s
  | .src c n, a =>
    if !asksSrc side m c n s then s
    else
      match a with
      | .hit l p => readyTest side c (modChan side c (fun x => { x with sx := .got l p }) s)
      | .fault k => reprepare side c (descFail side c n (causeStatus k) s)
      | .miss => s
  | .dst c n, a =>
    if !asksDst side m c n s then s
    else
      match a with
      | .hit l p => readyTest side c (modChan side c (fun x => { x with dx := .got l p }) s)
      | .fault k => reprepare side c (descFail side c n (causeStatus k) s)
      | .miss => s
  | _, _ => s

/-! ### Doorbells, waits, stop (R279, R286 to R288) -/

/-- DMA_RING: a doorbell, or a completion wait. -/
def dmaRing (side : Side) (d : Areq) (s : State) : State :=
  let w2 := d.w2.toNat
  let c := bits w2 0 6
  let wait := bits w2 6 1 == 1
  let tmo := bits w2 10 14
  let bad := headBad d || d.subop != 0 || d.len != 0 || bits w2 7 3 != 0 || decide (2 ^ 24 ≤ w2) || decide (2 ^ 32 ≤ d.w3.toNat) ||
    (wait && !(decide (1 ≤ tmo) && decide (tmo ≤ 16000)))
  let rsp := fun st s => arsp side d.ctx.val d.atag.toNat st 0 0 [] s
  areqGate side bad d rsp (fun s =>
    if chCtx side c s ≠ d.ctx.val then rsp stPartDeny (raiseO side .partDeny false 0 0 [] (countO side .dmaRingDeny s))
    else if !wait then rsp 0 (tailWrite side c d.w3.toNat s)
    else
      dmaWaitTest side c (modOeb side (fun o => { o with waits := o.waits ++
        [{ dma := true, ctx := d.ctx.val, atag := d.atag.toNat, idx := c, target := d.w3.toNat, deadline := ftO side s + 2500 * tmo }] }) s)) s

/-- DMA_RING_DOORBELL (R279). -/
def execDmaRingDoorbell (side : Side) (d : Areq) (s : State) : Host.Outcome State Fault Refusal := run (dmaRing side d) s
/-- DMA_COMPLETION_WAIT (R279). -/
def execDmaCompletionWait (side : Side) (d : Areq) (s : State) : Host.Outcome State Fault Refusal := run (dmaRing side d) s
/-- DMA_WAIT_TIMEOUT (R279). -/
def execDmaWaitTimeout (side : Side) (ctx : Ctx) (atag : BitVec 14) (s : State) : Host.Outcome State Fault Refusal :=
  run (waitTimeout side true ctx.val atag.toNat) s

/-- STOP: an idle channel halts at once. The running descriptor, the last one started, ends with NOT_READY once its bursts
and those of the earlier ones have resolved (R287). -/
def dmaStop (side : Side) (c : Nat) (s : State) : State :=
  if cf side DMA_CH.STATE c s = 4 then s
  else
    match ((chan side c s).descs.filter fun d => d.started).getLast? with
    | none => chHalt side c stNotReady s
    | some d => so side DMA_CH.STOP c 1 (descFail side c d.n stNotReady s)

/-- DMA_STOP (R287). -/
def execDmaStop (side : Side) (ch : Chan) (s : State) : Host.Outcome State Fault Refusal := run (dmaStop side ch.val) s

/-- ERR cleared: the halt ends and the channel resumes. -/
def dmaErrClear (side : Side) (c : Nat) (s : State) : State :=
  if cf side DMA_CH.ERR c s = 0 then s
  else
    let run := (chan side c s).descs.any fun e => e.started
    reprepare side c (so side DMA_CH.STATE c (if run then 1 else 0) (so side DMA_CH.ERR c 0 s))

/-- DMA_ERR_CLEAR (R286). -/
def execDmaErrClear (side : Side) (ch : Chan) (s : State) : Host.Outcome State Fault Refusal := run (dmaErrClear side ch.val) s

/-- EN cleared: a halted or idle channel discards what it fetched. -/
def dmaDisable (side : Side) (c : Nat) (s : State) : State :=
  let st := cf side DMA_CH.STATE c s
  let s1 := so side DMA_CH.EN c 0 s
  if st = 0 || st = 4 then
    so side DMA_CH.HEAD c (cf side DMA_CH.DONE_SEQ c s)
      (modChan side c (fun x => { x with
        descs := x.descs.filter (·.started), sx := .none, dx := .none, ready := none, fetching := false, gen := x.gen + 1 }) s1)
  else s1

/-- DMA_CHANNEL_DISABLE (R288). -/
def execDmaChannelDisable (side : Side) (ch : Chan) (s : State) : Host.Outcome State Fault Refusal := run (dmaDisable side ch.val) s

end Sys2Proof.Machine
end

