-- ==== Sys2Proof/Machine/Rings.lean ====
section
/-! DEFINITION. Completion records and RD results, in the ring's window or on their way to the head (R420, R428, R429,
Tables 19-4a, 19-5); units under test as candidates for a spare (R392). -/

namespace Sys2Proof.Machine

/-- A completion record (Table 19-5). -/
structure ProgRec where
  pseq : Nat
  status : Nat
  reason : Nat
  st : Nat
  late : Bool
  word : Nat
  e : Nat
  first : Nat
deriving DecidableEq, Repr

/-- Word 0 of a record. -/
def ProgRec.word0 (r : ProgRec) : Nat :=
  r.pseq % 2 ^ 32 + r.status % 16 * 2 ^ 32 + r.reason % 256 * 2 ^ 36 + r.st % 4 * 2 ^ 44 + r.late.toNat * 2 ^ 46 +
    r.word % 2 ^ 16 * 2 ^ 48

/-- A word of a record slot of a domain. -/
def setRecWord (dom slot w v : Nat) (s : State) : State := setW .ox9 .ringRec (128 * dom + slot % 128) w (BitVec.ofNat 64 v) s

/-- A record in its slot; the change fires MSI-X vector 0 of the function. -/
def putRecord (dom : Nat) (r : ProgRec) (s : State) : State :=
  emit (.msix dom 0) (setRecWord dom r.pseq 3 0 (setRecWord dom r.pseq 2 (r.first % 2 ^ 32) (setRecWord dom r.pseq 1 r.e
    (setRecWord dom r.pseq 0 r.word0 s))))

/-- The body of a record's CPL frame (log entry 15, DESIGN CHOICE). -/
def cplRecord (dom : Nat) (r : ProgRec) : List Byte :=
  [0, BitVec.ofNat 8 dom] ++ toLE 2 r.pseq ++ toLE 8 r.word0 ++ toLE 8 r.e ++ toLE 8 r.first ++ toLE 8 0

/-- The body of an RD result's CPL frame. -/
def cplResult (dom slot v : Nat) : List Byte := [1, BitVec.ofNat 8 dom] ++ toLE 2 slot ++ toLE 8 v

/-- A program's record, written here or sent to the head. -/
def record (p : Prog) (status reason st : Nat) (late : Bool) (word : Nat) (s : State) : State :=
  let r : ProgRec := ⟨p.pseq, status, reason, st, late, word, p.e, p.first⟩
  if p.remote then sendCpl (cplRecord p.dom r) s else putRecord p.dom r s

/-- An RD result of a program. -/
def result (p : Prog) (slot v : Nat) (s : State) : State :=
  if p.remote then sendCpl (cplResult p.dom slot v) s
  else setW .ox9 .ringRd (3072 * p.dom + slot) 0 (BitVec.ofNat 64 v) s

/-- An action of a program ends: with the last one its record reaches STATE 3, with the first failure's STATUS (R429). -/
def finishAction (owner : Option Prog) (status : Nat) (s : State) : State :=
  match owner with
  | none => s
  | some p =>
    let held := if p.remote then 0 else gx RING_REC.STATUS (128 * p.dom + p.pseq % 128) s
    let st := if held = stOK then status else held
    let more := s.monarch.tests.any fun t => t.owner = some p
    if more then (if st = held then s else record p st 0 2 p.late 0xFFFF s) else record p st 0 3 p.late 0xFFFF s

/-- A unit is withdrawn by command: no fault was found, so its log counts no withdrawal (R391). -/
def logOut (k : UnitKind) (n : Nat) (s : State) : State := setUnitLog { unitLog k n s with out := true } s

/-- The state without a unit's test. -/
def dropTest (kind : UnitKind) (num : Nat) (s : State) : State :=
  { s with monarch := { s.monarch with tests := s.monarch.tests.filter fun t => !(t.kind = kind && t.num = num) } }

/-- The test or shadow of a unit. -/
def testOf (kind : UnitKind) (num : Nat) (s : State) : Option UnitTest :=
  s.monarch.tests.find? fun t => t.kind = kind && t.num = num

/-- A unit whose shadow runs and that passes a test. -/
def candidate (kind : UnitKind) (ok : Nat → Bool) (s : State) : Option Nat :=
  (s.monarch.tests.find? fun t => t.kind = kind && t.shadow && ok t.num).map (·.num)

/-- A candidate is taken as a spare: its shadow ends unfinished, and it does not count as withdrawn (R392). -/
def takeCandidate (kind : UnitKind) (num : Nat) (s : State) : State :=
  match testOf kind num s with
  | none => s
  | some t => finishAction t.owner stNotReady (setUnitLog { unitLog kind num s with out := false, counted := false } (dropTest kind num s))

end Sys2Proof.Machine
end

