-- ==== Sys2Proof/Machine/LinkOps.lean ====
section
/-! DEFINITION. What the link commands share (chapter 13): settings, lane sites and spares, replay, acknowledgements,
entry to ACTIVE, training failure, link drop with what it returns to requesters (R301, R312 to R316, R379, R380). -/

namespace Sys2Proof.Machine

/-! ### Settings and counters of a link end -/

/-- A field of LINK_CFG at a link end; an OEB holds the same fields. -/
def linkCfg (e : LinkEnd) (f : Fld) (s : State) : Nat := gf (linkUnit e) f 0 s


/-- An event of a link end with the port as its origin. -/
def raiseLink (e : LinkEnd) (code : EvCode) (folded : Bool) (args : List (Bool × Nat)) (s : State) : State :=
  match e with
  | .ox p => raisePort code folded p.val args s
  | .oeb side q => raiseO side code folded 1 q.val (na q.val :: args) s

/-- A Gust burst and START. -/
def gustBurst (e : LinkEnd) (s : State) : State := sendInsert e .start [] (sendInsert e .gust [] s)

/-- An idle transmitter drives again with a Gust burst and START, every lane from negative disparity (R289, R310). -/
def gustWake (e : LinkEnd) (s : State) : State := gustBurst e (txWake e (modLink e (fun l => { l with txIdle := false }) s))

/-- The transmitter of a link end drives the line in ACTIVE. -/
def txActive (l : Link) : Bool := linkUp l && !l.txIdle

/-! ### Power domains that hold a lane (R15, R16, R448, Table 20-7) -/

/-- A lane site of half `h` of its die (chapter 1). -/
def siteHalf (t : Nat) : Nat := if t % 18 < 8 then 2 * (t / 18) else if t % 18 < 16 then 2 * (t / 18) + 1 else 2 * (t / 18) + (t % 18 - 16)

/-- A site of half `t` stands in for a lane of half `l`, and half `h` is one of the two. -/
def bridges (t l h : Nat) : Bool := t != l && (t == h || l == h)

/-- A half is held ON under R15: a site of it carries a lane of the other half, or a lane of it is on the other's site, or a
live swap is about to bring that about. -/
def halfPinned (h : Nat) (s : State) : Bool :=
  (((List.range 18).map (18 * (h / 2) + ·)).any fun t =>
    gx LANE_STAT.IN_USE t s == 1 && bridges (siteHalf t) (gx LANE_STAT.LLANE t s / 8) h) ||
  s.links.swaps.any fun x => bridges (siteHalf x.spare) (gx LANE_STAT.LLANE x.old s / 8) h

/-- A write of HOST_CFG that sets EN waits for its Skipper to wake (R463). -/
def enWaits (k : Nat) (s : State) : Bool :=
  s.power.cocoonWrites.any fun x => x.1 = .hostCfg && x.2.1 == k && x.2.2.1 == HOST_CFG.EN.word && bits x.2.2.2 HOST_CFG.EN.lo 1 == 1

/-- A domain of a port-die half or a Skipper may be in Cocoon. -/
def mayCocoon (dom : Nat) (s : State) : Bool :=
  if 1 ≤ dom && dom ≤ 72 then
    gb COCOON_CTL.PORT_EN 0 s && nth s.links.layout (dom - 1) == 0 && !halfPinned (dom - 1) s
  else if dom = 161 || dom = 163 then
    gb COCOON_CTL.SKIP_EN 0 s && !(gwRegions.any fun r =>
      gx GW_REGION.MODE r s != 0 && gx GW_REGION.SKIPPER r s == (dom - 161) / 2)
  else if dom = 162 || dom = 164 then
    gb COCOON_CTL.SKIP_EN 0 s && gx HOST_CFG.EN ((dom - 162) / 2) s == 0 && !enWaits ((dom - 162) / 2) s
  else false

/-- One such domain follows its condition: it enters Cocoon, or wakes. -/
def settleDomain (dom : Nat) (s : State) : State :=
  let st := gx DOM_STAT.STATE dom s
  let s1 := if dom ≤ 72 then sx DOM_STAT.PINNED dom (halfPinned (dom - 1) s).toNat s else s
  if mayCocoon dom s && st == 1 then sx DOM_STAT.STATE dom 2 s1
  else if !mayCocoon dom s && st == 2 then satAdd .ox9 DOM_STAT.WAKES dom 1 (sx DOM_STAT.STATE dom 3 s1)
  else s1

/-- The two halves of a port die follow their conditions after a lane of it has changed its site: both stay powered, and are
shown PINNED, while a replacement of one by the other lasts (R15, R16). -/
def settleHalves (die : Nat) (s : State) : State := settleDomain (2 * die + 2) (settleDomain (2 * die + 1) s)

/-! ### Lane sites (R15, R26, Table 13-9) -/

/-- The site that carries a logical lane. -/
def siteOfLane (l : Nat) (s : State) : Option Nat :=
  ((List.range 18).map (18 * (l / 16) + ·)).find? fun t => gx LANE_STAT.IN_USE t s == 1 && gx LANE_STAT.LLANE t s == l

/-- The lowest unused spare site of a port die; without one, a site of the die whose shadow runs (R392). -/
def spareSite (die : Nat) (s : State) : Option Nat :=
  match ((List.range 18).map (18 * die + ·)).find? fun t => gx LANE_STAT.SPARE t s == 1 with
  | some t => some t
  | none => candidate .laneSite (fun t => t / 18 == die) s

/-- A site is an unused spare. -/
def isSpare (t : Nat) (s : State) : Bool := gx LANE_STAT.SPARE t s == 1

/-- A spare site is taken: SPARES_LEFT falls by one; a candidate's shadow ends unfinished, and no count falls. A unit under test
carries no traffic, so a test of the site ends with it (R392). -/
def spareTaken (t : Nat) (s : State) : State :=
  noteChange <| takeCandidate .laneSite t <|
    if isSpare t s then sx LANE_STAT.SPARE t 0 (sx DIE_INFO.SPARES_LEFT (t / 18) (gx DIE_INFO.SPARES_LEFT (t / 18) s - 1) s)
    else sx LANE_STAT.FAILED t 0 s

/-- SPARES_LEFT of a die raised by one. -/
def spareBack (die : Nat) (s : State) : State := noteChange <| sx DIE_INFO.SPARES_LEFT die (gx DIE_INFO.SPARES_LEFT die s + 1) s

/-- A site carries a logical lane, with its own EQ_F and that lane's EQ_U (R300). -/
def siteTakes (t l : Nat) (s : State) : State :=
  setW .ox9 .eqE t 0 (BitVec.ofNat 64 (eqDerive (getW .ox9 .eqF t 0 s).toNat (getW .ox9 .eqU l 0 s).toNat))
    (sx LANE_STAT.LLANE t l (sx LANE_STAT.IN_USE t 1 (sx LANE_STAT.SPARE t 0 s)))

/-- A site carries no lane. -/
def siteLeaves (t : Nat) (s : State) : State := sx LANE_STAT.IN_USE t 0 s

/-- A spare that is not used after all is as it was before it was taken: unused, or withdrawn where it was a candidate (R301,
R314, R392). -/
def spareReturns (t : Nat) (cand : Bool) (s : State) : State :=
  let s1 := siteLeaves t s
  if cand then logOut .laneSite t (sx LANE_STAT.FAILED t 1 s1) else spareBack (t / 18) (sx LANE_STAT.SPARE t 1 s1)

/-- A spare under check fails: the old site is restored and the spare returns unused (R301). -/
def subFailed (x : Nat × Nat × Bool) (s : State) : State :=
  settleHalves (x.1 / 18) (sx LANE_STAT.IN_USE x.1 1 (spareReturns x.2.1 x.2.2 s))

/-- Spares under check that have not passed in both directions are given back. -/
def subsRestored (e : LinkEnd) (s : State) : State :=
  match e with
  | .ox p => (getAux p.val s).subs.foldl (fun s y => subFailed y s) (modAux e (fun x => { x with subs := [] }) s)
  | .oeb _ _ => s

/-- The logical lanes of a port. -/
def portLanes (p : Nat) (s : State) : List Nat := (List.range (portWidth p s)).map (portLane p s + ·)

/-- At entry to ALIGN a port's sites take the EQ_U of their lanes (R300). -/
def alignEq (p : Nat) (s : State) : State :=
  (portLanes p s).foldl (fun s l => match siteOfLane l s with | some t => siteTakes t l s | none => s) s

/-! ### Acknowledgement and replay (R298, R299) -/

/-- A flit sent again: current ACK and NAK, its other contents as they were, the parity of what it now holds (R299). -/
def resend (e : LinkEnd) (a : Nat) (nak : Bool) (f : Flit) (s : State) : State :=
  putFlit e { f with ack := BitVec.ofNat 12 a, nak := nak } s

/-- The held flits sent again in order, from the flit after the last ACK; the first carries a NAK that is due. -/
def replay (e : LinkEnd) (s : State) : State :=
  let k := linkKey e
  let l := getLink k s
  let s1 := match l.held with
    | [] => s
    | x :: rest => rest.foldl (fun s y => resend e l.a false y.1 s) (resend e l.a l.nak x.1 s)
  setLink k { l with held := l.held.map fun x => (x.1, x.2 + 1), nak := l.nak && l.held.isEmpty
                     replayAck := some l.lastAck, replayFt := locOf (linkUnit e) s } s1

/-- How far FSEQ `a` lies ahead of `b`. -/
def seqAhead (a b : Nat) : Nat := (a + 4096 - b) % 4096

/-- An ACK applied where it is newer than the last, within half the sequence space: the flits it covers leave the replay
buffer (R298). -/
def applyAck (l : Link) (ack : Nat) : Link :=
  let d := seqAhead ack l.lastAck
  if 1 ≤ d && d < 2048 then
    { l with lastAck := ack
             held := l.held.filter fun x => decide (seqAhead x.1.fseq.toNat ack ≥ 1) && decide (seqAhead x.1.fseq.toNat ack < 2048) }
  else l

/-- A NAK received: a replay from the flit after ACK, unless a replay for the same ACK began less than REPLAY_TO ago
(R299). -/
def applyNak (e : LinkEnd) (ack : Nat) (s : State) : State :=
  let l := getLink (linkKey e) s
  let now := locOf (linkUnit e) s
  if l.replayAck = some ack && decide (now < l.replayFt + 40 * linkCfg e LINK_CFG.REPLAY_TO s) then s
  else if l.held.isEmpty then s
  else countLink e .replayNak (modLink e (fun l => { l with replayAck := some ack }) (replay e s))

/-- The link fields of a decoded flit applied: ACK, then NAK. -/
def applyAckNak (e : LinkEnd) (f : Flit) (s : State) : State :=
  let s1 := modLink e (fun l => applyAck l f.ack.toNat) s
  if f.nak then applyNak e f.ack.toNat s1 else s1

/-- Credits returned by an accepted flit, held at what the partner advertised (R133, R136, R137). -/
def applyCredits (e : LinkEnd) (v n : Nat) (s : State) : State :=
  let x := getAux (linkKey e) s
  let c := nth x.credits v + n
  let top := nth x.advert v
  if n = 0 then s
  else if c ≤ top then setAux (linkKey e) { x with credits := setAt x.credits v c } s
  else
    raiseLink e .creditOverflow false [na v]
      (countLink e .creditOverflow (setAux (linkKey e) { x with credits := setAt x.credits v top } s))

/-- The tail of a packet of `n` cells once one more has come; its EOP cell comes last. -/
def Tail.more (n : Nat) (t : Tail) : Tail := { t with cells := min (t.cells + 1) (n - 1) }

/-- The tail of a held packet of `n` cells once its EOP cell has come. -/
def Tail.closed (n : Nat) (bad : Bool) (t : Tail) : Tail := { t with eop := true, bad := t.bad || bad, inBad := bad, cells := n }

/-- A cell of the packet that is still arriving by a port on a VC has come (R106). The EOP cell of a stored packet has a command
of its own; a held one notes it here (R108). -/
def cellIn (p : Port) (f : Flit) (s : State) : State :=
  if f.sop then s
  else
    match s.fwd.held.find? fun x => x.src = .port p && x.pkt.hdr.vc = f.fvc && !x.tail.eop with
    | some x =>
      let n := packetCells x.pkt.hdr
      { s with fwd := { s.fwd with
        held := replaceFirst x { x with tail := if f.eop then x.tail.closed n f.bad else x.tail.more n } s.fwd.held } }
    | none =>
      if f.eop then s
      else
        match s.fwd.bufs.find? fun b => b.src = .port p && b.pkt.hdr.vc = f.fvc && !b.tail.eop with
        | some b => setBuf { b with tail := b.tail.more b.cells } s
        | none => s

/-- An accepted flit delivers its bytes and its credits; its receive slot frees (R136, R246). -/
def acceptFlit (e : LinkEnd) (f : Flit) (s : State) : State :=
  let k := linkKey e
  let v := f.fvc.toNat
  let s1 := applyCredits e f.crVc.toNat f.crCnt.toNat (modLink e (fun l => { l with
    a := f.fseq.toNat, e := (f.fseq.toNat + 1) % 4096, waitE := false, fecRun := 0 }) s)
  if f.null then s1
  else
    let x := getAux k s1
    let s2 := setAux k { x with owed := setAt x.owed v (nth x.owed v + 1) } s1
    match e with
    | .ox p =>
      let s3 := countPort p.val .bytesRx f.valid.toNat (countPort p.val .flitsRx 1 (settleCredits (.port p) v s2))
      emit (.accepted k f) (cellIn p f (if f.eop then countPort p.val .pktsRx 1 s3 else s3))
    | .oeb side _ => if v = 5 then countO side .rxVc5Discard s2 else emit (.accepted k f) s2

/-- A flit discarded: a NAK is due unless the receiver already waits for E (R298). -/
def nakOnce (e : LinkEnd) (s : State) : State :=
  modLink e (fun l => if l.waitE then l else { l with nak := true, waitE := true }) s

/-! ### Entry to ACTIVE, training failure -/

/-- Entry to ACTIVE (R133, R140, R298). The first credit return starts from VC0 (log entry 124, DESIGN CHOICE), and wrr from VC1
with no turn left (log entry 125, DESIGN CHOICE). -/
def enterActive (e : LinkEnd) (credits : List Nat) (s : State) : State :=
  let gap := match e with
    | .ox p => gx PORT_ARB.VC5_GAP p.val s
    | .oeb side q => gf (.oeb side) PORT_ARB.VC5_GAP q.val s
  let s1 := modLink e (fun l => { l with
    st := 6, txIdle := false, e := 0, a := 0xFFF, nak := false, waitE := false, nextFseq := 0, lastAck := 0xFFF, held := []
    replayAck := none, fecRun := 0, trainCount := min 255 (l.trainCount + 1) }) s
  let s2 := modAux e (fun x => { x with
    credits := credits, advert := credits, owed := [0, 0, 0, 0, 0, 0], withheld := [0, 0, 0, 0, 0, 0], lastOwed := 5, g := gap
    f := 0, wrrVc := 3, wrrLeft := 0, failRun := 0, failCause := 0, trainCause := 0, expectStart := false, tsRun := 0, tsKind := 0 }) s1
  sendInsert e .start [] s2

/-- A training failure: DOWN with its cause; the first of a run of one cause is raised, later ones folded (R303, R308). One for
credits counts CREDIT_ADV_LOW where the partner advertised too few (R135). -/
def trainFail (e : LinkEnd) (cause : Nat) (args : List (Bool × Nat)) (s : State) : State :=
  let x := getAux (linkKey e) s
  let same := x.failRun > 0 && x.failCause == cause
  let s1 := modAux e (fun x => { x with failRun := if same then x.failRun + 1 else 1, failCause := cause, trainCause := 0
                                        ownChecked := false, ownPass := none, ts2Ok := false, tsRun := 0, tsKind := 0
                                        rxRd := [] }) (subsRestored e s)
  let s2 := sendInsert e .down [] (modLink e (fun l => { l with st := 9, cause := cause }) s1)
  let s3 := if cause = 12 then countLink e .marginFail s2
            else if cause = 15 && x.trainCause = 15 then countLink e .creditAdvLow s2 else s2
  raiseLink e .linkTrainFail same (args ++ [na cause]) (countLink e .trainFail s3)

/-! ### Live lane swaps (R313, R314) -/

/-- The swap in progress on a port. -/
def swapOf (p : Nat) (s : State) : Option Swap := s.links.swaps.find? fun x => x.port = p

/-- The state without a port's swap. -/
def dropSwap (p : Nat) (s : State) : State :=
  { s with links := { s.links with swaps := s.links.swaps.filter fun x => x.port ≠ p } }

/-- A swap abandoned: the old site and the spare return to their states from before it (R314). -/
def abandonSwap (p : Nat) (s : State) : State :=
  match swapOf p s with
  | none => s
  | some x =>
    let s1 := sx LANE_STAT.LISTEN x.spare 0 (spareReturns x.spare x.cand s)
    settleHalves (x.old / 18) (dropSwap p (sx LANE_STAT.IN_USE x.old 1 s1))

/-- The state with a swap's steps done set. -/
def setSwapStep (p n : Nat) (s : State) : State :=
  { s with links := { s.links with swaps := s.links.swaps.map fun x => if x.port = p then { x with step := n } else x } }

/-- A swap of a site starts: the lowest unused spare listens. Without a spare the degraded site stays in use (Table
17-7). A transmitter in electrical idle is first woken by a Gust (R314). -/
def startSwap (p old : Nat) (s : State) : State :=
  match spareSite (old / 18) s with
  | none => s
  | some t =>
    let e : LinkEnd := .ox (Fin.ofNat 288 p)
    let s0 := if (getLink p s).txIdle then gustWake e s else s
    let s1 := sx LANE_STAT.LISTEN t 1 (spareTaken t s0)
    settleHalves (old / 18) { s1 with links := { s1.links with swaps := s1.links.swaps ++ [⟨p, old, t, !isSpare t s0, 1⟩] } }

/-- A swap requested for a site: one at a time on a port, in ascending order of old site; on a port in bring-up the
margin check decides instead (R314). -/
def requestSwap (site : Nat) (s : State) : State :=
  match portOfLane (gx LANE_STAT.LLANE site s) s with
  | none => s
  | some p =>
    if gx LANE_STAT.IN_USE site s = 0 || !linkUp (getLink p s) then s
    else if (swapOf p s).isSome then
      { s with links := { s.links with swapReqs := insertSorted site s.links.swapReqs } }
    else startSwap p site s

/-- The next swap waiting on a port starts. -/
def nextSwap (p : Nat) (s : State) : State :=
  match s.links.swapReqs.find? fun t => portOfLane (gx LANE_STAT.LLANE t s) s = some p with
  | none => s
  | some t => startSwap p t { s with links := { s.links with swapReqs := s.links.swapReqs.erase t } }

/-! ### Link drop (R315, R316, R379, R380) -/

/-- A link end in DOWN: replay buffer, credits and sequence state cleared. -/
def downLink (cause : Nat) (l : Link) : Link :=
  { l with st := 9, cause := cause, txIdle := false, e := 0, a := 0xFFF, nak := false, waitE := false, nextFseq := 0
           lastAck := 0xFFF, held := [], replayAck := none, fecRun := 0 }

/-- Its credits and progress cleared. What an OEB port has not begun to send stays in its queue (R247; log entry 131, DESIGN
CHOICE). -/
def downAux (x : LinkAux) : LinkAux :=
  { LinkAux.reset with failRun := x.failRun, failCause := x.failCause, txRd := x.txRd, txq := x.txq.filter fun y => y.sent = 0 }

/-- A partial packet from the dropped port is tail-marked, cause LINK_DOWN, its cells that have not come zero-filled; one that
waits for its EOP cell in OX7 mode is discarded (R108, R120, R316). -/
def cutPartial (b : BufPkt) (s : State) : State :=
  if b.tail.eop then s
  else if b.wait && b.dest.isNone then mcDiscard b 1 s
  else handOver b.pid [] (tailMark b.src b.pkt.hdr.part.toNat 1 (setBuf (cutPacket b b.tail.cells 1) s))

/-- A packet to a multicast group in OX7 mode. -/
def ox7Bound (h : Header) (s : State) : Bool := h.mc && gx MCG_CTL.MODE h.mcg.toNat s == 1

/-- A partial packet of the dropped port that is held at ingress: zero-filled and marked in the same way; one bound for OX7
multicast carries its cause to its discard. -/
def cutHeld (x : Held) (s : State) : State :=
  if x.tail.eop then s
  else
    let y := { x with
      pkt := zeroCells x.pkt x.tail.cells
      tail := { x.tail with eop := true, bad := true, cause := 1, cells := packetCells x.pkt.hdr } }
    let s1 := { s with fwd := { s.fwd with held := replaceFirst x y s.fwd.held } }
    if ox7Bound x.pkt.hdr s then s1 else tailMark x.src x.pkt.hdr.part.toNat 1 s1

/-- A LINK_DOWN event of a request or packet, folded under the port's cause entry, with the SRC_EP it names. -/
def linkDownFolded (p cause die : Nat) (h : Header) (s : State) : State :=
  raise .ox9 { Event.mk0 .ox9 .linkDown true die 1 p [na p, na cause, na h.srcEp.toNat] s with
    oep := some (gx PORT_BIND.EP p s), srcEp := some h.srcEp.toNat } s

/-- A copy queued for the dropped port whose first flit has not left, with no other member up (R380, R52). -/
def loseCopy (p cause : Nat) (c : Copy) (h : Header) (s : State) : State :=
  let d := portDie p s
  let s1 := linkDownFolded p cause d h (countPort p .linkDown 1 (copyDone c.pid s))
  if isResponse h.opcode.toNat then
    let s2 := countPort p .rspDiscardDown 1 s1
    match trackFor h s2 with | some t => freeTrack t s2 | none => s2
  else respond d h stLinkLost s1

/-- The tracking entry of a request notes its new egress. -/
def retrack (h : Header) (p' : Nat) (s : State) : State :=
  match trackOf h s with
  | none => s
  | some t => { s with fwd := { s.fwd with tracks := s.fwd.tracks.map fun x => if x = t then { t with egress := some p' } else x } }

/-- A copy in the queue of the dropped port: one whose first flit has left is lost with the link; another is resolved again,
once (R380). -/
def requeueCopy (p cause v : Nat) (c : Copy) (s : State) : State :=
  match bufOf c.pid s with
  | none => s
  | some b =>
    let h := b.pkt.hdr
    if 0 < c.sent then copyDone c.pid s
    else if h.mc then loseCopy p cause c h s
    else
      match againTarget b.src h s with
      | (.uni (.port p'), grp) =>
        let s1 := match grp with | some (g, i) => movePtr (entryDie b.src s) g i s | none => s
        retrack h p' (enqueue p' v { c with cut := cutOk b.src p' s1, started := false } s1)
      | _ => loseCopy p cause c h s

/-- Every copy queued for the dropped port. -/
def requeueAll (p cause : Nat) (s : State) : State :=
  (List.range 6).foldl (fun s v =>
    (queueOf p v s).foldl (fun s c => requeueCopy p cause v c s) (setQueue p v [] s)) s

/-- The tracking scan: each request that left by the port and has no response returns LINK_LOST (R379). -/
def trackScan (p cause : Nat) (s : State) : State :=
  (s.fwd.tracks.filter fun t => t.egress = some p && !t.rspIn).foldl (fun s t =>
    let d := bankDie t.bank s
    if s.fwd.tracks.contains t then
      respond d t.hdr stLinkLost (linkDownFolded p cause d t.hdr (countD d .linkLostSynth s))
    else s) s

/-- The swaps that wait on a port that drops are abandoned: the next margin check decides their sites (R314). -/
def dropSwapReqs (p : Nat) (s : State) : State :=
  { s with links := { s.links with
    swapReqs := s.links.swapReqs.filter fun t => portOfLane (gx LANE_STAT.LLANE t s) s ≠ some p } }

/-- An OX9 port enters DOWN (R316). -/
def dropOx (p cause : Nat) (s : State) : State :=
  let e : LinkEnd := .ox (Fin.ofNat 288 p)
  let s1 := sendInsert e .down [] (modAux e downAux (modLink e (downLink cause) (subsRestored e (abandonSwap p s))))
  let s2 := raisePort .linkDown false p [na cause] (countPort p .linkDown 1 s1)
  let mine := Entry.port (Fin.ofNat 288 p)
  let s3 := (s2.fwd.bufs.filter fun b => b.src = mine).foldl (fun s b => cutPartial b s) s2
  let s4 := (s3.fwd.held.filter fun x => x.src = mine).foldl (fun s x => cutHeld x s) s3
  let s5 := trackScan p cause (requeueAll p cause s4)
  reselect .ox9 (cwPortLost (gx PORT_BIND.EP p s5) (dropSwapReqs p s5))

/-- An OEB port enters DOWN (R316, R381). -/
def dropOeb (side : Side) (q : OPort) (cause : Nat) (s : State) : State :=
  let e : LinkEnd := .oeb side q
  let s1 := sendInsert e .down [] (modAux e downAux (modLink e (downLink cause) s))
  reselect (.oeb side) (raiseO side .linkDown false 1 q.val [na q.val, na cause] (countO side .linkDown s1))

/-- A link end drops with a cause of Table 13-7. -/
def dropLink (e : LinkEnd) (cause : Nat) (s : State) : State :=
  match e with
  | .ox p => dropOx p.val cause s
  | .oeb side q => dropOeb side q cause s

/-- A link end from ALIGN to GUST, in which a cause of Table 13-7 drops it (R315). -/
def trainsOrUp (l : Link) : Bool := decide (2 ≤ l.st) && decide (l.st ≤ 8)

/-- A port taken down with cause LOCAL and held in DISABLED (Table 13-7, R386). -/
def disablePort (p : Nat) (s : State) : State :=
  let e : LinkEnd := .ox (Fin.ofNat 288 p)
  let l := getLink p s
  let s1 := if trainsOrUp l then dropOx p 7 s else s
  let s2 := modLink e (fun l => { l with st := 0, cause := if l.st = 0 then l.cause else 7 }) s1
  { s2 with links := { s2.links with disabled := insertSorted p s2.links.disabled } }

end Sys2Proof.Machine
end

