-- ==== Sys2Proof/Machine/Links.lean ====
section
/-! DEFINITION. The commands of the link layer (chapter 13): flits and inserts received, replay, electrical idle and
Gust, drop, bring-up, the reference, lane degradation and swaps. -/

namespace Sys2Proof.Machine

/-! ### Flits received (R296 to R299) -/

/-- The erasures of a flit counted for the sites that receive them; a site's count runs within its second of fabric time
(R296, R312). On a reversed port byte i comes by the lane that stands for lane i mod w (R305). -/
def countErasures (p : Nat) (erased : List Nat) (s : State) : State :=
  erased.foldl (fun s i =>
    let w := portWidth p s
    let j := if (getLink p s).rxReversed then w - 1 - slotLane w i else slotLane w i
    match siteOfLane (portLane p s + j) s with
    | none => s
    | some t =>
      let win := ft s / 2500000000
      let old := if SMap.get (fun _ => 0) s.links.erasureWin t = win then SMap.get (fun _ => 0) s.links.erasures t else 0
      countD (t / 18) .erasures { s with links := { s.links with
        erasures := SMap.set (fun _ => 0) s.links.erasures t (old + 1)
        erasureCount := SMap.set (fun _ => 0) s.links.erasureCount t (SMap.get (fun _ => 0) s.links.erasureCount t + 1)
        erasureWin := SMap.set (fun _ => 0) s.links.erasureWin t win } }) s

/-- A flit that decoded (R298). -/
def flitDecoded (e : LinkEnd) (f : Flit) (s : State) : State :=
  let s1 := applyAckNak e f s
  let l := getLink (linkKey e) s1
  let d := seqAhead f.fseq.toNat l.e
  if d = 0 then acceptFlit e f s1
  else if d < 2048 then modLink e (fun l => { l with fecRun := 0 }) (nakOnce e s1)
  else modLink e (fun l => { l with fecRun := 0 }) s1

/-- The bytes of a flit with its erased places (R297, R298); an OEB has no lane sites and counts its erasures in one counter
(log entry 108, DESIGN CHOICE). -/
def flitBytesRx (e : LinkEnd) (bytes : List Byte) (erased : List Nat) (slip : Bool) (s : State) : State :=
  let s0 := match e with
    | .ox p => countErasures p.val erased s
    | .oeb side _ => countN (.oeb side) (.oeb side.val) .erasures erased.length s
  let s1 := if slip then countLink e .elasticSlip s0 else s0
  match (if slip then none else rsDecode bytes erased) with
  | none =>
    nakOnce e (modLink e (fun l => { l with fecRun := min 16 (l.fecRun + 1) }) (countLink e .fecUncorrectable s1))
  | some bs =>
    let s2 := if bs = bytes && erased.isEmpty then s1 else countLink e .fecCorrected s1
    flitDecoded e (flitOfBytes bs) s2

/-- FLIT_RX's effect: the code groups of a flit become its bytes, each from the lane and slot it is striped to (R293, R296). A
line whose first slot is an insert is no flit. -/
def flitRx (e : LinkEnd) (line : Line) (slip : Bool) (s : State) : State :=
  atBoundary e line (fun _ _ s => s)
    (fun gs s => flitBytesRx e (gs.map (·.byte)) (erasures (linkWidth e s) gs) slip s) s

/-- FLIT_RX (R298). -/
def execFlitRx (e : LinkEnd) (line : Line) (slip : Bool) (s : State) : Host.Outcome State Fault Refusal :=
  liveAt (linkUnit e) (flitRx e line slip) s

/-- A flit of the replay buffer has been sent REPLAY_MAX + 1 times (R315). -/
def replaySpent (e : LinkEnd) (s : State) : Bool :=
  (getLink (linkKey e) s).held.any fun x => decide (linkCfg e LINK_CFG.REPLAY_MAX s + 1 ≤ x.2)

/-- REPLAY_TIMEOUT's effect: flits unacknowledged and no ACK advance (R299). -/
def replayTimeout (e : LinkEnd) (s : State) : State :=
  let l := getLink (linkKey e) s
  if !txActive l || l.held.isEmpty then s
  else if replaySpent e s then dropLink e 4 s
  else countLink e .replayTimeout (replay e s)

/-- REPLAY_TIMEOUT (R299). -/
def execReplayTimeout (e : LinkEnd) (s : State) : Host.Outcome State Fault Refusal :=
  liveAt (linkUnit e) (replayTimeout e) s

/-- A receiver that waits for E makes a NAK due again (R298). -/
def nakResend (e : LinkEnd) (s : State) : State :=
  let l := getLink (linkKey e) s
  if linkUp l && l.waitE then modLink e (fun l => { l with nak := true }) s else s

/-- NAK_RESEND (R298). -/
def execNakResend (e : LinkEnd) (s : State) : Host.Outcome State Fault Refusal := liveAt (linkUnit e) (nakResend e) s

/-! ### Inserts (R292, R295, R339) -/

/-- A SKIP sent in skip mode, once at a boundary and before the other inserts (R292, R295). -/
def skipSend (e : LinkEnd) (s : State) : State :=
  if txActive (getLink (linkKey e) s) && inSkipMode e s && boundaryOpen e .skip s then sendInsert e .skip [] s else s

/-- SKIP_INSERT_SEND (R292). -/
def execSkipInsertSend (e : LinkEnd) (s : State) : Host.Outcome State Fault Refusal := liveAt (linkUnit e) (skipSend e) s

/-- A SKIP received keeps the transmitter of the other direction in skip mode (R292). -/
def skipRx (e : LinkEnd) (line : Line) (slip : Bool) (s : State) : State :=
  insertIn e .skip line (fun _ s =>
    let s1 := if slip then countLink e .elasticSlip s else s
    modLink e (fun l => { l with skipHeard := true }) s1) s

/-- SKIP_RX (R292). -/
def execSkipRx (e : LinkEnd) (line : Line) (slip : Bool) (s : State) : Host.Outcome State Fault Refusal :=
  liveAt (linkUnit e) (skipRx e line slip) s

/-- 1 ms after the last SKIP received: skip mode ends unless the unit's own PLLs run from the holdover oscillator. -/
def skipEnd (e : LinkEnd) (s : State) : State := modLink e (fun l => { l with skipHeard := false }) s

/-- SKIP_MODE_END (R292). -/
def execSkipModeEnd (e : LinkEnd) (s : State) : Host.Outcome State Fault Refusal := liveAt (linkUnit e) (skipEnd e) s

/-- The number of a link end in its unit's source numbering (R340). -/
def linkSource (e : LinkEnd) : Nat :=
  match e with
  | .ox p => p.val
  | .oeb _ q => q.val

/-- A BREEZE insert at the first boundary at or after a multiple of MARKER_INT while the transmitter is in ACTIVE (R339), once at
a boundary and before an ECHO (R295). One that falls due in electrical idle is not sent (R309). -/
def breezeSend (e : LinkEnd) (s : State) : State :=
  let u := linkUnit e
  let k := linkKey e
  let idx := ftOf u s / (max 1 (gf u TIME_CFG.MARKER_INT 0 s) * 2500)
  let l := getLink k s
  if !linkUp l || (getAux k s).breezeFt = idx || (!l.txIdle && !boundaryOpen e .breeze s) then s
  else
    let s1 := modAux e (fun x => { x with breezeFt := idx }) s
    if l.txIdle then s1
    else
      let body := markerBytes u (linkSource e) s1
      sendInsert e .breeze (body ++ [BitVec.ofNat 8 (crc8 body)]) s1

/-- The marker of a chain link, in the chain's own framing (R339, Table 19-3). -/
def breezeChain (i : Nat) (s : State) : State :=
  let idx := ft s / (max 1 (gx TIME_CFG.MARKER_INT 0 s) * 2500)
  let l := chainLink i s
  if !chainUp i s || l.breezeFt = idx then s
  else
    let body := markerBytes .ox9 (288 + i) s
    sendFrame i 5 0xFF (body ++ [BitVec.ofNat 8 (crc8 body)]) (setChainLink i { l with breezeFt := idx } s)

/-- BREEZE_SEND (R339). The chain keeps running in Calm (R410). -/
def execBreezeSend (e : MarkerEnd) (s : State) : Host.Outcome State Fault Refusal :=
  match e with
  | .link e => liveAt (linkUnit e) (breezeSend e) s
  | .chain i => served (breezeChain i.val) s

/-- The slots of a line that qualify as one special (R295). -/
def slotsVoted (e : LinkEnd) (k : Special) (gs : List RxGroup) (s : State) : Nat :=
  let w := linkWidth e s
  ((List.range 4).filter fun i => voted w (slotAt w gs i) = some k).length

/-- A four-slot insert in a state that `ok` admits: it takes effect where at least two of its slots qualify, and is discarded
where one does (R295). -/
def fourSlot (e : LinkEnd) (k : Special) (ok : Nat → Bool) (line : Line) (f : State → State) (s : State) : State :=
  if !ok (getLink (linkKey e) s).st then s
  else
    let (gs, s1) := receive e line s
    let n := slotsVoted e k gs s1
    if 2 ≤ n then f s1 else if n = 1 then countLink e .insertBad s1 else s1

/-- IDLE_RX's effect: the receiver of a stream, or of a keep-alive's burst (R311), enters IDLE, which is no longer
ACTIVE for the choice of an upstream (R347); after it either disparity is accepted. -/
def idleRx (e : LinkEnd) (line : Line) (s : State) : State :=
  fourSlot e .idle (fun st => st = 6 || st = 8) line
    (fun s => reselect (linkUnit e) (rxWake e (modLink e (fun l => { l with st := 7 }) s))) s

/-- IDLE_RX (R309). -/
def execIdleRx (e : LinkEnd) (line : Line) (s : State) : Host.Outcome State Fault Refusal := liveAt (linkUnit e) (idleRx e line) s

/-- SWAP_RX's effect: a burst follows, as after electrical idle (R313). -/
def swapRx (e : LinkEnd) (line : Line) (s : State) : State :=
  fourSlot e .swap (fun st => st = 6) line (modAux e (fun x => { x with expectStart := true, rxRd := [] })) s

/-- SWAP_RX (R313). -/
def execSwapRx (e : LinkEnd) (line : Line) (s : State) : Host.Outcome State Fault Refusal := liveAt (linkUnit e) (swapRx e line) s

/-- DOWN_RX's effect, in ACTIVE and in training once the lanes are aligned (R315, Table 13-1). -/
def downRx (e : LinkEnd) (line : Line) (s : State) : State :=
  fourSlot e .down (fun st => decide (2 ≤ st) && decide (st ≤ 8)) line (dropLink e 6) s

/-- DOWN_RX (R315). -/
def execDownRx (e : LinkEnd) (line : Line) (s : State) : Host.Outcome State Fault Refusal := liveAt (linkUnit e) (downRx e line) s

/-! ### Electrical idle and Gust (R309 to R311) -/

/-- What each slot of a line is voted to be. -/
def slotVotes (w : Nat) (gs : List RxGroup) : List (Option Special) :=
  (List.range (gs.length / max 1 w)).map fun i => voted w (slotAt w gs i)

/-- A Gust burst, with the START that ends it where it has come, reaches a receiver in IDLE, or one that expects it after SWAP. In
ACTIVE it is otherwise an insert without use (R295). -/
def gustRx (e : LinkEnd) (line : Line) (s : State) : State :=
  let l := getLink (linkKey e) s
  if l.st = 7 || l.st = 8 || (l.st = 6 && (getAux (linkKey e) s).expectStart) then
    let (gs, s1) := receive e line s
    let ks := slotVotes (linkWidth e s) gs
    if ks.getLast? = some (some .start) then
      modAux e (fun x => { x with expectStart := false }) (modLink e (fun l => { l with st := 6 }) s1)
    else if ks.contains (some .gust) then modLink e (fun l => { l with st := 8 }) s1
    else s1
  else insertIn e .gust line (fun _ s => s) s

/-- GUST_RX (R310). -/
def execGustRx (e : LinkEnd) (line : Line) (s : State) : Host.Outcome State Fault Refusal :=
  liveAt (linkUnit e) (gustRx e line) s

/-- A transmitter has a flit or a credit return pending. -/
def workPending (e : LinkEnd) (s : State) : Bool :=
  let owed := (getAux (linkKey e) s).owed.any (· > 0)
  match e with
  | .ox p => owed || (List.range 6).any fun v => !(queueOf p.val v s).isEmpty
  | .oeb _ _ => owed || !(getAux (linkKey e) s).txq.isEmpty

/-- The last valid marker received on the port carried UP = 1 (R339). -/
def heardUp (e : LinkEnd) (s : State) : Bool := ((markerOf (linkUnit e) (linkSource e) s).map (·.up)).getD false

/-- Entry to electrical idle (R309, R339). -/
def idleEntry (e : LinkEnd) (s : State) : State :=
  let l := getLink (linkKey e) s
  let swapping := match e with | .ox p => (swapOf p.val s).isSome | .oeb _ _ => false
  if !txActive l || linkCfg e LINK_CFG.IDLE_AFTER s = 0 || workPending e s || !l.held.isEmpty || swapping || heardUp e s then s
  else sendInsert e .idle [] (modLink e (fun l => { l with txIdle := true }) s)

/-- ELECTRICAL_IDLE_ENTRY (R309). -/
def execElectricalIdleEntry (e : LinkEnd) (s : State) : Host.Outcome State Fault Refusal :=
  liveAt (linkUnit e) (idleEntry e) s

/-- An idle transmitter with work pending drives again: a Gust burst and START (R310). -/
def gustExit (e : LinkEnd) (s : State) : State :=
  let l := getLink (linkKey e) s
  if linkUp l && l.txIdle && workPending e s then gustWake e s else s

/-- GUST_EXIT (R310). -/
def execGustExit (e : LinkEnd) (s : State) : Host.Outcome State Fault Refusal := liveAt (linkUnit e) (gustExit e) s

/-- A keep-alive of an idle transmitter: a Gust burst, then IDLE (R311). -/
def keepAlive (e : LinkEnd) (s : State) : State :=
  let l := getLink (linkKey e) s
  if linkUp l && l.txIdle then sendInsert e .idle [] (sendInsert e .gust [] (txWake e s)) else s

/-- IDLE_KEEPALIVE (R311). -/
def execIdleKeepalive (e : LinkEnd) (s : State) : Host.Outcome State Fault Refusal := liveAt (linkUnit e) (keepAlive e) s

/-! ### Drops (R315) -/

/-- A drop where the end is in a state in which the cause applies. -/
def dropWhere (p : Link → Bool) (cause : Nat) (e : LinkEnd) (s : State) : State :=
  if p (getLink (linkKey e) s) then dropLink e cause s else s

/-- LOS (R315): in any state from ALIGN to GUST other than IDLE. -/
def execLos (e : LinkEnd) (s : State) : Host.Outcome State Fault Refusal :=
  liveAt (linkUnit e) (dropWhere (fun l => decide (2 ≤ l.st) && decide (l.st ≤ 8) && decide (l.st ≠ 7)) 1 e) s

/-- LOS_IDLE (R311). -/
def execLosIdle (e : LinkEnd) (s : State) : Host.Outcome State Fault Refusal :=
  liveAt (linkUnit e) (dropWhere (fun l => l.st == 7) 2 e) s

/-- FEC_BURST (R315): sixteen consecutive uncorrectable flits. -/
def execFecBurst (e : LinkEnd) (s : State) : Host.Outcome State Fault Refusal :=
  liveAt (linkUnit e) (dropWhere (fun l => l.st == 6 && decide (16 ≤ l.fecRun)) 3 e) s

/-- REPLAY_MAX_EXCEEDED (R315). -/
def execReplayMaxExceeded (e : LinkEnd) (s : State) : Host.Outcome State Fault Refusal :=
  liveAt (linkUnit e) (fun s => if replaySpent e s then dropWhere linkUp 4 e s else s) s

/-- SILENT_TIMEOUT (R315). -/
def execSilentTimeout (e : LinkEnd) (s : State) : Host.Outcome State Fault Refusal :=
  liveAt (linkUnit e) (dropWhere (fun l => l.st == 6) 5 e) s

/-- GUST_TIMEOUT (R310). -/
def execGustTimeout (e : LinkEnd) (s : State) : Host.Outcome State Fault Refusal :=
  liveAt (linkUnit e) (dropWhere (fun l => l.st == 8) 8 e) s

/-- What a port in training sends over and over, once more: TS1 to MARGIN, there TS2 once its own check is done, TSC in CREDIT
(R303; log entry 126, DESIGN CHOICE: the sequences that repeat are shown as one at entry to a state and one at each that
arrives). -/
def sendTraining (e : LinkEnd) (s : State) : State :=
  let st := (getLink (linkKey e) s).st
  if st = 5 then modAux e (fun x => { x with tsSent := x.tsSent + 1 }) (sendInsert e .tsc [] s)
  else if st = 3 then
    match (getAux (linkKey e) s).ownPass with
    | some passed => sendInsert e .ts2 [BitVec.ofNat 8 passed] s
    | none => sendInsert e .ts1 [] s
  else if st = 1 || st = 2 then sendInsert e .ts1 [] s
  else s

/-- The hold of DOWN ends: the port returns to DETECT (R308). -/
def downEnd (e : LinkEnd) (s : State) : State :=
  let l := getLink (linkKey e) s
  if l.st = 9 then sendTraining e (txWake e (modLink e (fun l => { l with st := 1 }) s)) else s

/-- DOWN_HOLD_END (R308). -/
def execDownHoldEnd (e : LinkEnd) (s : State) : Host.Outcome State Fault Refusal := liveAt (linkUnit e) (downEnd e) s

/-! ### Bring-up (R303 to R307) -/

/-- A line of training arrives: `f` in the states from DETECT to CREDIT; in ACTIVE it is an insert without use (R295). -/
def trainingIn (e : LinkEnd) (line : Line) (f : State → State) (s : State) : State :=
  let st := (getLink (linkKey e) s).st
  if st = 6 then insertIn e .com line (fun _ s => s) s else if 1 ≤ st && st ≤ 5 then f s else s

/-- The NR pattern on every lane in DETECT: COM and 15 NRDY (R304). -/
def nrIn (e : LinkEnd) (line : Line) (s : State) : State :=
  let w := linkWidth e s
  let (gs, s1) := receive e line s
  let whole := (List.range w).all fun j =>
    (laneGroups w j gs).length == 16 && startsWith (.com :: List.replicate 15 .nrdy) (laneGroups w j gs)
  if whole && (getLink (linkKey e) s).st = 1 then modLink e (fun l => { l with partnerNr := true }) s1 else s1

/-- NR_PATTERN_RX's effect. -/
def nrPatternRx (e : LinkEnd) (line : Line) (s : State) : State := trainingIn e line (nrIn e line) s

/-- NR_PATTERN_RX (R304). -/
def execNrPatternRx (e : LinkEnd) (line : Line) (s : State) : Host.Outcome State Fault Refusal :=
  liveAt (linkUnit e) (nrPatternRx e line) s

/-- OEB_ID.NPORTS follows the EN bits of PORT_CFG (R238, Table 11-1). -/
def nportsSet (side : Side) (s : State) : State :=
  sf (.oeb side) OEB_ID.NPORTS 0 ((List.range 16).filter fun q => gf (.oeb side) PORT_CFG.EN q s = 1).length s

/-- OEB_PORT_ENABLE's effect: PORT_CFG.EN is 1 and the port sends TS1 in DETECT (R304). -/
def oebPortEnable (side : Side) (q : OPort) (s : State) : State :=
  let e : LinkEnd := .oeb side q
  let s1 := nportsSet side (sf (.oeb side) PORT_CFG.EN q.val 1 s)
  if (getLink (linkKey e) s1).st = 0 then sendInsert e .ts1 [] (modLink e (fun l => { l with st := 1 }) s1) else s1

/-- OEB_PORT_ENABLE (R304). -/
def execOebPortEnable (side : Side) (q : OPort) (s : State) : Host.Outcome State Fault Refusal := run (oebPortEnable side q) s

/-- The lane map of R305: lanes in order, reversed, or neither. -/
def laneMap (w : Nat) (js : List Nat) : Option Bool :=
  if js = List.range w then some false else if js = (List.range w).reverse then some true else none

/-- The spread of arrivals in ns. -/
def laneSkew (arrivals : List Nat) : Nat := arrivals.foldl max 0 - arrivals.foldl min (2 ^ 32)

/-- ALIGN's work (R305): a map or a skew that fails is the cause the timeout records. -/
def align (e : LinkEnd) (line : Line) (bs : List (List Byte)) (arrivals : List Nat) (s : State) : State :=
  let w := linkWidth e s
  match laneMap w (bs.map fun b => bits (nth (b.map (·.toNat)) 1) 0 3) with
  | none => modAux e (fun x => { x with trainCause := 11 }) s
  | some rev =>
    if laneSkew arrivals > 16 then modAux e (fun x => { x with trainCause := 10 }) s
    else
      modAux e (fun x => { x with trainCause := 0, ownChecked := false, ownPass := none, ts2Ok := false, subs := [], tsRun := 0 })
        (modLink e (fun l => { l with st := 3, rxReversed := rev, polarity := invertedLanes w line }) s)

/-- DETECT ends with the eighth TS1 (R303). -/
def detected (e : LinkEnd) (s : State) : State :=
  if (getAux (linkKey e) s).tsRun < 8 then s
  else
    let s1 := modAux e (fun x => { x with trainCause := 0, tsRun := 0 })
      (modLink e (fun l => { l with st := 2, partnerNr := false }) s)
    match e with | .ox p => alignEq p.val s1 | .oeb _ _ => s1

/-- A TS1 in training: DETECT ends, or ALIGN does its work (R303, R305). -/
def ts1In (e : LinkEnd) (line : Line) (arrivals : List Nat) (s : State) : State :=
  match tsIn e 1 line s with
  | (none, s1) => s1
  | (some bs, s1) =>
    let st := (getLink (linkKey e) s1).st
    sendTraining e (if st = 1 then detected e s1 else if st = 2 then align e line bs arrivals s1 else s1)

/-- TS1_RX's effect; `arrivals` are the ns at which the lanes' COMs come. -/
def ts1Rx (e : LinkEnd) (line : Line) (arrivals : List Nat) (s : State) : State := trainingIn e line (ts1In e line arrivals) s

/-- TS1_RX (R303). -/
def execTs1Rx (e : LinkEnd) (line : Line) (arrivals : List Nat) (s : State) : Host.Outcome State Fault Refusal :=
  liveAt (linkUnit e) (ts1Rx e line arrivals) s

/-- The bytes of a TSO (Table 13-3). -/
def tsoBytes (txFt rxFt txIdx rxIdx : Nat) : List Byte :=
  let b := [(3 : Byte)] ++ toLE 5 txFt ++ toLE 5 rxFt ++ [BitVec.ofNat 8 txIdx, BitVec.ofNat 8 rxIdx]
  b ++ [BitVec.ofNat 8 (crc8 b)]

/-- TSO `k` sent, naming the arrival of the partner's TSO `rxIdx` (R307). -/
def sendTso (e : LinkEnd) (k rxFt rxIdx : Nat) (s : State) : State :=
  let t := ftOf (linkUnit e) s % 2 ^ 40
  sendInsert e .tso (tsoBytes t rxFt k rxIdx) (modAux e (fun x => { x with tsoSent := k, tsoSentFt := x.tsoSentFt ++ [t] }) s)

/-- Entry to TIME: TSO 0 is sent (R307). -/
def enterTime (e : LinkEnd) (s : State) : State :=
  sendTso e 0 0 0xFF (modAux e (fun x => { x with tsoSent := 0, tsoRcvd := 0, tsoSentFt := [], samples := [], tsRun := 0 })
    (modLink e (fun l => { l with st := 4 }) s))

/-- A failed lane's site replaced by the die's lowest unused spare, under check (R301), or the port taken out of service
where there is none (R27). -/
def spareLane (p l : Nat) (s : State) : State :=
  let e : LinkEnd := .ox (Fin.ofNat 288 p)
  let d := portDie p s
  if (getLink p s).st ≠ 3 then s
  else
    match siteOfLane l s, spareSite d s with
    | some old, some t =>
      settleHalves d (modAux e (fun x => { x with
          subs := x.subs ++ [(old, t, !isSpare t s)], ownChecked := false, ownPass := none, ts2Ok := false, tsRun := 0 })
        (siteTakes t l (spareTaken t (siteLeaves old s))))
    | _, _ =>
      let s1 := raiseDie .spareExhausted false d [na p] (countPort p .portDownNoSpare 1 s)
      let s2 := modLink e (fun l => { l with st := 0 }) (subsRestored e s1)
      { s2 with links := { s2.links with disabled := insertSorted p s2.links.disabled } }

/-- The lanes of a port by ascending site number (R26). -/
def bySite (ls : List Nat) (s : State) : List Nat :=
  (List.range 648).filterMap fun t =>
    if gx LANE_STAT.IN_USE t s = 1 && ls.contains (gx LANE_STAT.LLANE t s) then some (gx LANE_STAT.LLANE t s) else none

/-- A lane's measurement passes (R301). -/
def eyePasses (e : LinkEnd) (y : EyeResult) (s : State) : Bool :=
  decide (linkCfg e LINK_CFG.EYE_H_MIN s ≤ y.height.toNat) && decide (linkCfg e LINK_CFG.EYE_W_MIN s ≤ y.width.toNat) &&
    !y.codeErrors

/-- The measurements of a port's lanes shown in LANE_STAT. -/
def showEyes (p : Nat) (eyes : List EyeResult) (s : State) : State :=
  eyes.zipIdx.foldl (fun s x =>
    match siteOfLane (portLane p s + x.2) s with
    | some t => sx LANE_STAT.EYE_H t x.1.height.toNat (sx LANE_STAT.EYE_W t x.1.width.toNat s)
    | none => s) s

/-- A spare under check passes: the old site is FAILED (R301). -/
def subPassed (p : Nat) (x : Nat × Nat × Bool) (s : State) : State :=
  let l := gx LANE_STAT.LLANE x.2.1 s
  raiseDie .laneSpared false (portDie p s) [na x.1, na x.2.1, na l] (countPort p .laneSpared 1 (sx LANE_STAT.FAILED x.1 1 s))

/-- The spares under check have passed in both directions (R301). -/
def subsPassed (e : LinkEnd) (s : State) : State :=
  match e with
  | .ox p => (getAux p.val s).subs.foldl (fun s y => subPassed p.val y s) (modAux e (fun x => { x with subs := [] }) s)
  | .oeb _ _ => s

/-- Of the spares under check those on the lanes of `bad` have failed; the others have passed (R301). -/
def subsFailed (p : Nat) (bad : List Nat) (s : State) : State :=
  (getAux p s).subs.foldl (fun s y => if bad.contains (gx LANE_STAT.LLANE y.2.1 s) then subFailed y s else subPassed p y s)
    (modAux (.ox (Fin.ofNat 288 p)) (fun x => { x with subs := [] }) s)

/-- Both directions are checked: TIME begins (R303). -/
def marginNext (e : LinkEnd) (s : State) : State :=
  let x := getAux (linkKey e) s
  if (getLink (linkKey e) s).st = 3 && x.ownChecked && x.ts2Ok then enterTime e (subsPassed e s) else s

/-- The margin check of an OX9 port ends (R301): a spare that its own receiver fails fails the port, another failing lane
takes a spare, which is then checked in both directions. -/
def marginOx (p : Nat) (eyes : List EyeResult) (s : State) : State :=
  let e : LinkEnd := .ox (Fin.ofNat 288 p)
  let s1 := showEyes p eyes s
  let bad := (eyes.zipIdx.filter fun x => !eyePasses e x.1 s1).map fun x => portLane p s1 + x.2
  let subs := (getAux p s1).subs
  let lost := subs.filter fun x => bad.contains (gx LANE_STAT.LLANE x.2.1 s1)
  match lost with
  | x :: _ =>
    let lane := gx LANE_STAT.LLANE x.2.1 s1
    trainFail e 12 [na (lane - portLane p s1)] (subsFailed p bad s1)
  | [] =>
    if bad.isEmpty then
      sendTraining e (modAux e (fun x => { x with ownChecked := true, ownPass := some (2 ^ portWidth p s1 - 1) }) s1)
    else (bySite bad s1).foldl (fun s l => spareLane p l s) s1

/-- The lanes that an OEB's receivers pass, as TS2 reports them (Table 13-3). -/
def passBits (e : LinkEnd) (eyes : List EyeResult) (s : State) : Nat :=
  (eyes.zipIdx.map fun x => if eyePasses e x.1 s then 2 ^ x.2 else 0).sum

/-- The margin check of an OEB port ends: TS2 reports its lanes. With one failing the port stays in MARGIN, where the state's
timeout names that cause, unless a spare at the partner's end makes a later check pass (R301; log entry 112, DEDUCED). -/
def marginOeb (e : LinkEnd) (eyes : List EyeResult) (s : State) : State :=
  sendTraining e (modAux e (fun x => { x with
    ownChecked := eyes.all (fun y => eyePasses e y s), ownPass := some (passBits e eyes s) }) s)

/-- MARGIN_CHECK_DONE's effect. -/
def marginDone (e : LinkEnd) (eyes : List EyeResult) (s : State) : State :=
  if (getLink (linkKey e) s).st ≠ 3 then s
  else
    match e with
    | .ox p => marginNext e (marginOx p.val eyes s)
    | .oeb _ _ => marginNext e (marginOeb e eyes s)

/-- MARGIN_CHECK_DONE (R301). -/
def execMarginCheckDone (e : LinkEnd) (eyes : List EyeResult) (s : State) : Host.Outcome State Fault Refusal :=
  liveAt (linkUnit e) (marginDone e eyes) s

/-- The identity checks of R306: an OX9 checks width, endpoint and role; an OEB the width alone. A TS names role 0 for an
OX9 and 1 for an OEB (Table 13-3); PORT_BIND.ROLE is 0 for an OEB and 1 for an OX9 (Table 16-1). -/
def identityOk (e : LinkEnd) (width ep role : Nat) (s : State) : Bool :=
  linkWidth e s == 2 ^ (width + 1) &&
    match e with
    | .ox p => gx PORT_BIND.EP p.val s == ep && gx PORT_BIND.ROLE p.val s + role == 1
    | .oeb _ _ => true

/-- The partner reports lanes that its receivers fail: a spare among them that this end has checked again fails the port;
another lane takes a spare (R301). A report on a spare not yet checked here is one from before it. -/
def ts2Bad (p : Nat) (bad : List Nat) (s : State) : State :=
  let e : LinkEnd := .ox (Fin.ofNat 288 p)
  let x := getAux p s
  let isSub := fun l => x.subs.any fun y => gx LANE_STAT.LLANE y.2.1 s == l
  match (if x.ownChecked then bad.find? isSub else none) with
  | some l => trainFail e 12 [na (l - portLane p s)] (subsFailed p bad s)
  | none => (bySite (bad.filter fun l => !isSub l) s).foldl (fun s l => spareLane p l s) s

/-- A TS2 that is valid arrives in MARGIN: the identity of R306, then the lanes the partner passed. The eighth in a row with
every lane bit set ends the partner's check (R301, R303). -/
def ts2In (e : LinkEnd) (bs : List (List Byte)) (s : State) : State :=
  let (width, ep, role, passed) := (tsField bs 11 2, tsField bs 16 12, tsField bs 28 2, tsField bs 40 8)
  let s1 := modLink e (fun l => { l with partnerEp := ep, partnerRole := role }) s
  let again := modAux e (fun x => { x with tsRun := 0 })
  if !identityOk e width ep role s1 then modAux e (fun x => { x with trainCause := 13, tsRun := 0 }) s1
  else
    let w := linkWidth e s1
    let bad := (List.range w).filter fun j => bits passed j 1 = 0
    if bad.isEmpty then
      if (getAux (linkKey e) s1).tsRun < 8 then s1
      else marginNext e (modAux e (fun x => { x with ts2Ok := true, trainCause := 0 }) s1)
    else
      match e with
      | .ox p => ts2Bad p.val (bad.map (portLane p.val s1 + ·)) (again s1)
      | .oeb _ _ => again s1

/-- TS2_RX's effect. -/
def ts2Rx (e : LinkEnd) (line : Line) (s : State) : State :=
  trainingIn e line (fun s =>
    match tsIn e 2 line s with
    | (none, s1) => s1
    | (some bs, s1) => if (getLink (linkKey e) s1).st = 3 then ts2In e bs (sendTraining e s1) else s1) s

/-- TS2_RX (R306). -/
def execTs2Rx (e : LinkEnd) (line : Line) (s : State) : Host.Outcome State Fault Refusal :=
  liveAt (linkUnit e) (ts2Rx e line) s

/-- Twice the delay sample of R307, modulo 2^40: (t4 − t1) − (t3 − t2). -/
def tsoSample (t1 t2 t3 t4 : Nat) : Int := signed 40 (unsigned 40 ((t4 : Int) - t1 - (t3 - t2)))

/-- The mean of the samples, to the nearest ft, halves away from zero (R307). -/
def delayOf (twice : List Int) : Nat :=
  let n : Int := 2 * twice.length
  let sum := twice.sum
  if n = 0 then 0 else unsigned 16 (if sum ≥ 0 then (2 * sum + n) / (2 * n) else -((2 * (-sum) + n) / (2 * n)))

/-- TIME ends once TX_IDX 16 has been sent and received: DELAY is recorded and TSC follow (R303, R307). -/
def timeNext (e : LinkEnd) (s : State) : State :=
  let x := getAux (linkKey e) s
  if x.tsoSent = 16 && x.tsoRcvd = 16 then
    sendTraining e (modAux e (fun x => { x with tsRun := 0, tsSent := 0 })
      (modLink e (fun l => { l with st := 5, delay := delayOf x.samples }) s))
  else s

/-- A valid TSO in TIME: the next of the partner in order yields a sample and is answered (R307). -/
def tsoIn (e : LinkEnd) (bs : List (List Byte)) (arrival : Nat) (s : State) : State :=
  let (txFt, rxFt, txIdx, rxIdx) := (tsField bs 8 40, tsField bs 48 40, tsField bs 88 8, tsField bs 96 8)
  let x := getAux (linkKey e) s
  let due := if x.samples.isEmpty && x.tsoRcvd = 0 && x.tsoSent = 0 then 0 else x.tsoRcvd + 1
  if txIdx ≠ due || 16 < txIdx then s
  else
    let s1 := modAux e (fun x => { x with
      tsoRcvd := txIdx
      samples := if rxIdx = 0xFF then x.samples
                 else match x.tsoSentFt[rxIdx]? with
                   | some t1 => x.samples ++ [tsoSample t1 rxFt txFt arrival]
                   | none => x.samples }) s
    timeNext e (if txIdx < 16 then sendTso e (txIdx + 1) arrival txIdx s1 else s1)

/-- TSO_RX's effect. -/
def tsoRx (e : LinkEnd) (line : Line) (arrival : Nat) (s : State) : State :=
  trainingIn e line (fun s =>
    match tsIn e 3 line s with
    | (none, s1) => s1
    | (some bs, s1) => if (getLink (linkKey e) s1).st = 4 then tsoIn e bs arrival s1 else s1) s

/-- TSO_RX (R307). -/
def execTsoRx (e : LinkEnd) (line : Line) (arrival : BitVec 40) (s : State) : Host.Outcome State Fault Refusal :=
  liveAt (linkUnit e) (tsoRx e line arrival.toNat) s

/-- An advertisement meets R135. -/
def creditsMeet (c : List Nat) : Bool :=
  c.length == 6 && c.all (· ≤ 4095) && (c.take 4).all (24 ≤ ·) && (c.drop 4).all (4 ≤ ·)

/-- A valid TSC in CREDIT: ACTIVE is entered with the eighth in a row that is identical and meets R135, once eight have been sent
(R133, R303). -/
def tscIn (e : LinkEnd) (bs : List (List Byte)) (s : State) : State :=
  let credits := (List.range 6).map fun v => tsField bs (8 + 12 * v) 12
  let x := getAux (linkKey e) s
  if !creditsMeet credits then modAux e (fun x => { x with trainCause := 15, tsRun := 0 }) s
  else if 8 ≤ x.tsRun && 8 ≤ x.tsSent then enterActive e credits s
  else s

/-- TSC_RX's effect: a TSC other than the last begins the count anew. -/
def tscRx (e : LinkEnd) (line : Line) (s : State) : State :=
  trainingIn e line (fun s =>
    let last := (getAux (linkKey e) s).tsLast
    match tsIn e 4 line s with
    | (none, s1) => s1
    | (some bs, s1) =>
      if (getLink (linkKey e) s1).st = 5 then
        tscIn e bs (sendTraining e (if bs = last then s1 else modAux e (fun x => { x with tsRun := 1 }) s1))
      else s1) s

/-- TSC_RX (R303). -/
def execTscRx (e : LinkEnd) (line : Line) (s : State) : Host.Outcome State Fault Refusal :=
  liveAt (linkUnit e) (tscRx e line) s

/-- A state's timeout: a training failure with the cause found, or the state's own (Table 13-4). -/
def stateTimeout (st own : Nat) (e : LinkEnd) (s : State) : State :=
  if (getLink (linkKey e) s).st ≠ st then s
  else
    let c := (getAux (linkKey e) s).trainCause
    trainFail e (if c = 0 then own else c) [] s

/-- ALIGN_TIMEOUT (R303). -/
def execAlignTimeout (e : LinkEnd) (s : State) : Host.Outcome State Fault Refusal := liveAt (linkUnit e) (stateTimeout 2 9 e) s
/-- MARGIN_TIMEOUT (R303). -/
def execMarginTimeout (e : LinkEnd) (s : State) : Host.Outcome State Fault Refusal := liveAt (linkUnit e) (stateTimeout 3 12 e) s
/-- TIME_STATE_TIMEOUT (R303). -/
def execTimeStateTimeout (e : LinkEnd) (s : State) : Host.Outcome State Fault Refusal := liveAt (linkUnit e) (stateTimeout 4 14 e) s
/-- CREDIT_STATE_TIMEOUT (R303). -/
def execCreditStateTimeout (e : LinkEnd) (s : State) : Host.Outcome State Fault Refusal := liveAt (linkUnit e) (stateTimeout 5 15 e) s

/-! ### The reference (R291, R347) -/


/-- REFCLK_LOST's effect: the PLLs run from the holdover oscillator; a follower enters Doldrums (R291, R292, R347). -/
def refclkLost (s : State) : State :=
  if s.links.refLost then s
  else
    let s1 := raise0 .refclkLost false (activeMonarch s) [] (countG .refclkLost { s with links := { s.links with refLost := true } })
    let s2 := sx TIME_STAT.SRC_OSC 0 1 s1
    if qualOf .ox9 s2 = 2 then setQual .ox9 1 s2 else enterDoldrums .ox9 s2

/-- REFCLK_LOST (R291). -/
def execRefclkLost (s : State) : Host.Outcome State Fault Refusal := live refclkLost s

/-- The PLLs are back on the reference (R291, Table 15-4). -/
def refclkRestored (s : State) : State :=
  if !s.links.refLost then s
  else
    let s1 := sx TIME_STAT.SRC_OSC 0 0 { s with links := { s.links with refLost := false } }
    if qualOf .ox9 s1 = 1 then setQual .ox9 2 s1 else s1

/-- REFCLK_RESTORED (R291). -/
def execRefclkRestored (s : State) : Host.Outcome State Fault Refusal := live refclkRestored s

/-! ### Lane degradation and swaps (R312 to R314) -/

/-- LANE_DEGRADED's effect: a site whose erasures in its second of fabric time exceed DEGRADE (R312, Table 17-7). -/
def laneDegraded (t : Nat) (s : State) : State :=
  let win := ft s / 2500000000
  let n := if SMap.get (fun _ => 0) s.links.erasureWin t = win then SMap.get (fun _ => 0) s.links.erasures t else 0
  if n ≤ gx LINK_CFG.DEGRADE 0 s || gx LANE_STAT.DEGRADED t s = 1 then s
  else
    requestSwap t (raiseDie .laneDegraded false (t / 18) [na t, na (gx LANE_STAT.LLANE t s)]
      (countD (t / 18) .laneDegraded (sx LANE_STAT.DEGRADED t 1 s)))

/-- LANE_DEGRADED (R312). -/
def execLaneDegraded (site : Site) (s : State) : Host.Outcome State Fault Refusal := live (laneDegraded site.val) s

/-- The spare takes over the receive path at a flit boundary (R313, step 2). -/
def swapRxSwitch (p : Nat) (s : State) : State :=
  match swapOf p s with
  | none => s
  | some x =>
    if x.step ≠ 1 then s
    else
      settleHalves (x.spare / 18) (setSwapStep p 2 (sx LANE_STAT.LISTEN x.spare 0
        (siteTakes x.spare (gx LANE_STAT.LLANE x.old s) (siteLeaves x.old s))))

/-- LANE_SWAP_RX_SWITCH (R313). -/
def execLaneSwapRxSwitch (p : Port) (s : State) : Host.Outcome State Fault Refusal := live (swapRxSwitch p.val) s

/-- SWAP, Gust and START move the transmit path, on which the spare starts at negative disparity; the old site is FAILED; the
next swap of the port may start (R313, steps 3 and 4; R289). -/
def swapTxSwitch (p : Nat) (s : State) : State :=
  match swapOf p s with
  | none => s
  | some x =>
    if x.step ≠ 2 then s
    else
      let e : LinkEnd := .ox (Fin.ofNat 288 p)
      let d := portDie p s
      let j := gx LANE_STAT.LLANE x.spare s - portLane p s
      let s1 := gustBurst e (modAux e (fun y => { y with txRd := setAt y.txRd j false }) (sendInsert e .swap [] s))
      let s2 := countPort p .laneSwapped 1 (sx LANE_STAT.FAILED x.old 1 (dropSwap p
        (if gx LANE_STAT.DEGRADED x.old s = 1 then withdraw .laneSite x.old false s1 else logOut .laneSite x.old s1)))
      nextSwap p (raiseDie .laneSpared false d [na x.old, na x.spare, na (gx LANE_STAT.LLANE x.spare s)] s2)

/-- LANE_SWAP_TX_SWITCH (R313). -/
def execLaneSwapTxSwitch (p : Port) (s : State) : Host.Outcome State Fault Refusal := live (swapTxSwitch p.val) s

end Sys2Proof.Machine
end

