-- ==== Sys2Proof/Machine/OebRx.lean ====
section
/-! DEFINITION. What an OEB issues and receives (R244, R246 to R258, R369, R253 to R255, R87, R94, R95), its invalidations
(R274 to R276): REQUEST_ISSUE, LOAD_TIMEOUT, QUARANTINE_END, RESPONSE_RX, INBOUND_REQUEST, MRSP_RX, MRSP_TIMEOUT,
RRESULT_RX, COH_INV_RX, COH_RECALL_RX, COH_REQUEST_AT_HOME, XLAT_INV_ALL, XLAT_INV_ASID, XLAT_INV_ASID_RANGE,
XLAT_INV_RANGE, XLAT_INV_APT, WALK_START, INV_PURGE, INV_DRAIN_COMPLETE, OEB_RESET, OEB_ID_LOCK. -/

namespace Sys2Proof.Machine

/-! ### Issue (R247, R248) -/

/-- A request resolves: its AREQ part or its burst ends, and fences that wait on it note it. -/
def finishReq (side : Side) (r : Req) (st value subop : Nat) (data : List Byte) (s : State) : State :=
  let s1 := fenceNote side r.rid st s
  match r.src with
  | .attach jid off => joinPart side jid off st value subop data s1
  | .dma c n off role => if role = 2 then burstWritten side c n off st s1 else burstRead side c n off role st data s1
  | .answer => s1

/-- The request takes a tag (R248), as does the COH_WB that answers a COH_RECALL, which WB_DONE will answer (log entry 98,
DESIGN CHOICE). -/
def needsTag (r : Req) : Bool :=
  let o := r.hdr.opcode.toNat
  o == opWB || (r.src ≠ .answer && (nonPosted o || o == opGETS || o == opGETM || o == opUPG))

/-- A fence of the context holds the request back (R71). -/
def fenced (side : Side) (r : Req) (s : State) : Bool :=
  (oebOf side s).fences.any fun f =>
    let prior := match r.src with | .attach jid _ => decide (jid < f.after) | _ => decide (r.rid < f.after)
    r.src ≠ .answer && f.ctx = r.ctx && !prior

/-- The tags a context holds. -/
def tagsHeld (side : Side) (ctx : Nat) (s : State) : Nat :=
  ((oebOf side s).outst.filter fun e => match e.2 with | some r => r.ctx == ctx | none => false).length

/-- A free tag: not outstanding, not in quarantine, for an ATOM not released by one in this unit of 256 ft (R248, R250,
R259; log entry 30, DESIGN CHOICE). -/
def freeTag (side : Side) (op : Nat) (s : State) : Option Nat :=
  let o := oebOf side s
  firstBelow 16384 fun t =>
    (SMap.get (fun _ => none) o.outst t).isNone && !(o.quar.any fun x => x.1 = t) &&
      !(op == opATOM && o.atomRel.any fun x => x.1 = t && x.2 = ftO side s / 256)

/-- The position of an RCONTRIB lies inside the send window (R255). -/
def windowOk (side : Side) (r : Req) (s : State) : Bool :=
  if r.hdr.opcode.toNat ≠ opRCONTRIB then true
  else
    match r.src, r.plane with
    | .attach jid _, some pl =>
      match (oebOf side s).joins.find? fun j => j.jid = jid with
      | none => true
      | some j =>
        let e := bits j.d.w2.toNat 0 10
        let q := j.d.w3.toNat % 2 ^ 40 * go side COLL_RX.NCHUNK e s + r.hdr.chunk
        decide (q < (windowOf side (windowKey e pl r.hdr.tree) s).1 + go side COLL_RX.W e s)
    | _, _ => true

/-- The request may leave now; none does before the unit's fabric time is locked (R346). -/
def issuable (side : Side) (r : Req) (s : State) : Bool :=
  qualOf (.oeb side) s ≠ 0 && !fenced side r s && rateAllows side r.hdr.dstEp.toNat r.hdr.vc.toNat s && !(portCandidates side r s).isEmpty && windowOk side r s &&
    (r.src = .answer || 0 < r.retries || decide (tagsHeld side r.ctx s < go side CTX_CFG.MAX_OUT r.ctx s)) &&
    (!needsTag r || 0 < r.retries || (freeTag side r.hdr.opcode.toNat s).isSome)

/-- The packet of a request, sealed where it is encrypted; none where its slot cannot seal (R367, R368). -/
def formPacket (side : Side) (h : Header) (data : List Byte) (s : State) : Option (Packet × State) :=
  if h.enc then sealPacket (.oeb side) (if isRed h.opcode.toNat then 2 else 1) 0 0 h data s
  else if isRed h.opcode.toNat then some (clearRed h data, s)
  else some ({ hdr := h, payload := data, trailer := [] }, s)

/-- The traces of a request whose slot is not held for its partition (R367, R368). -/
def keyAbsent (side : Side) (h : Header) (s : State) : State :=
  let n := h.keySlot.toNat
  let kind := if isRed h.opcode.toNat then 2 else 1
  if slotKind (.oeb side) n s = kind && slotPart (.oeb side) n s = h.part.toNat then s
  else raiseO side .checkFail true 6 n [na n] (countO side .keyAbsent s)

/-- A tag is freed, or put in quarantine after a TIMEOUT of the OEB's own (R250). -/
def tagEnd (side : Side) (tag op : Nat) (quar : Bool) (s : State) : State :=
  modOeb side (fun o =>
    let u := ftO side s / 256
    { o with
      outst := SMap.del o.outst tag
      quar := if quar then o.quar ++ [(tag, ftO side s + 2500 * go side OEB_CFG.QUAR 0 s)] else o.quar
      atomRel := if op = opATOM then (o.atomRel.filter fun x => x.2 = u) ++ [(tag, u)] else o.atomRel }) s

/-- A completion that follows a retry is counted (R258). -/
def retryNote (side : Side) (r : Req) (s : State) : State := if 0 < r.retries then countO side .atomRetried s else s

/-- A request of this OEB is among the packets of its port queues. -/
def onPort (side : Side) (rid : Nat) (s : State) : Bool := (List.range 16).any fun q => (txQueue side q s).any fun x => x.rid = rid

/-- Posted requests whose last flit has left their port end (R71, R242, R286). -/
def postedDone (side : Side) (s : State) : State :=
  ((oebOf side s).posted.filter fun r => !onPort side r.rid s).foldl
    (fun s r => finishReq side r 0 0 0 [] (modOeb side (fun o => { o with posted := o.posted.erase r }) s)) s

/-- A request that takes a tag is outstanding from here; a posted one waits until its last flit has left (R71). -/
def holdReq (side : Side) (r : Req) (s : State) : State :=
  if needsTag r then modOeb side (fun o => { o with outst := SMap.set (fun _ => none) o.outst r.hdr.tag.toNat (some r) }) s
  else if r.src = .answer then s
  else modOeb side (fun o => { o with posted := o.posted ++ [r] }) s

/-- A request leaves by a port. One that cannot be sealed completes with CHECK_FAIL, and the COH_WB of a recall is not issued
(R367, R368). -/
def sendReq (side : Side) (r : Req) (q : Nat) (s : State) : State :=
  let o := oebOf side s
  let s0 := setOeb side { o with queue := o.queue.filter fun x => x.rid ≠ r.rid, rotPort := (q + 1) % 16 } s
  let tag := if 0 < r.retries then r.hdr.tag.toNat else if needsTag r then (freeTag side r.hdr.opcode.toNat s).getD 0 else r.hdr.tag.toNat
  let stamp := if 0 < r.retries then r.hdr.ageStamp else BitVec.ofNat 16 (ftO side s / 256)
  let h := { r.hdr with tag := BitVec.ofNat 14 tag, ageStamp := stamp }
  let send := fun (p : Packet) s => oebQueue side q r.rid p (rateNote side h.dstEp.toNat h.vc.toNat p.bytes.length s)
  match formPacket side h r.data s0 with
  | some (p, s1) => holdReq side { r with hdr := h } (send p s1)
  | none =>
    if r.src = .answer && h.opcode.toNat ≠ opWB then
      send { hdr := { h with enc := false, keySlot := 0, len := 0, status := BitVec.ofNat 4 stCheckFail }, payload := [], trailer := [] } s0
    else
      let s1 := if 0 < r.retries then tagEnd side tag h.opcode.toNat false (retryNote side r s0) else s0
      finishReq side r stCheckFail 0 0 [] (keyAbsent side h s1)

/-- A packet in the queue of a port that is down: a posted request goes back to the issue queue, any other joins the queue of
a port that is up, where there is one it may leave by (R247; log entry 131, DESIGN CHOICE). -/
def txMove (side : Side) (q : Nat) (x : TxPkt) (s : State) : State :=
  let k := 288 + 16 * side.val + q
  let o := oebOf side s
  let away := fun s => setAux k { getAux k s with txq := (getAux k s).txq.erase x } s
  match o.posted.find? fun r => r.rid = x.rid with
  | some r => away (setOeb side { o with posted := o.posted.erase r, queue := r :: o.queue } s)
  | none =>
    let h := x.pkt.hdr
    let pl := planeOf h.opcode.toNat h.addr s
    let cand := oPorts side (fun p => match pl with | some n => go side PORT_CFG.PLANE p s == n | none => true) s
    match pickPort side cand h.vc.toNat s with
    | none => s
    | some p => oebQueue side p x.rid x.pkt (away s)

/-- The queues of ports that are down are emptied as far as another way is open. -/
def txReclaim (side : Side) (s : State) : State :=
  ((List.range 16).filter fun q => !oPortUp side q s).foldl
    (fun s q => ((txQueue side q s).reverse).foldl (fun s x => txMove side q x s) s) s

/-- The first request that may leave, leaves. -/
def issueNext (side : Side) (s : State) : State :=
  match (oebOf side s).queue.find? fun r => issuable side r s with
  | none => s
  | some r =>
    match pickPort side (portCandidates side r s) r.hdr.vc.toNat s with
    | none => s
    | some q => sendReq side r q s

/-- The issue queue: what a port that went down cut or left behind is settled, then the first request that may leave, leaves. -/
def requestIssue (side : Side) (s : State) : State := issueNext side (txReclaim side (postedDone side s))

/-- What a flit slot of an OEB port ends: the posted requests whose last flit has left. -/
def slotDone (e : LinkEnd) (s : State) : State :=
  match e with
  | .ox _ => s
  | .oeb side _ => postedDone side s

/-- EGRESS_FLIT_SLOT (R140). -/
def execEgressFlitSlot (e : LinkEnd) (sram : SramRead) (s : State) : Host.Outcome State Fault Refusal :=
  liveAt (linkUnit e) (fun s => slotDone e (flitSlot e sram s)) s

/-- REQUEST_ISSUE (R248). -/
def execRequestIssue (side : Side) (s : State) : Host.Outcome State Fault Refusal := run (requestIssue side) s

/-! ### Resolution (R249 to R251, R258) -/

/-- The line of an address. -/
def lineOf (a : Nat) : Nat := a / 64 * 64

/-- The packet asks for a line. -/
def asksLine (h : Header) : Bool := h.opcode.toNat == opGETS || h.opcode.toNat == opGETM || h.opcode.toNat == opUPG

/-- A recall is put to the accelerator, or waits while a request of this OEB for the line is outstanding (R95), whichever grant
the recall is for (log entry 129, DESIGN CHOICE). -/
def recallIn (side : Side) (p : Packet) (q : Nat) (s : State) : State :=
  let asked := (oebOf side s).outst.any fun e => match e.2 with
    | some r => asksLine r.hdr && lineOf r.hdr.addr == lineOf p.hdr.addr
    | none => false
  if asked then modOeb side (fun o => { o with recalls := o.recalls ++ [(p, q)] }) s
  else mreq side (.snpRecall p q) p.hdr.addr 64 false 0 [] s

/-- A request for a line has resolved, its completion has gone to the accelerator: the recalls that waited for it go on (R95). -/
def recallsOut (side : Side) (h : Header) (s : State) : State :=
  if !asksLine h then s
  else
    let o := oebOf side s
    let (now, rest) := o.recalls.partition fun x => lineOf x.1.hdr.addr = lineOf h.addr
    now.foldl (fun s x => recallIn side x.1 x.2 s) (setOeb side { o with recalls := rest } s)

/-- An outstanding request resolves: an ATOM that met LINK_LOST or TIMEOUT is retried while it may be (R258). -/
def resolve1 (side : Side) (r : Req) (st value subop : Nat) (data : List Byte) (own : Bool) (s : State) : State :=
  let tag := r.hdr.tag.toNat
  let op := r.hdr.opcode.toNat
  if op = opATOM && (st = stLinkLost || st = stTimeout) && r.retries < go side OEB_CFG.ATOM_RETRY 0 s then
    let r1 := { r with retries := r.retries + 1, acc := ftO side s, hdr := { r.hdr with subop := BitVec.ofNat 8 (r.hdr.subop.toNat % 128 + 128) } }
    modOeb side (fun o => { o with outst := SMap.set (fun _ => none) o.outst tag (some r1), queue := (o.queue.filter fun x => x.rid ≠ r.rid) ++ [r1] }) s
  else
    let s2 := modOeb side (fun o => { o with queue := o.queue.filter fun x => x.rid ≠ r.rid }) (tagEnd side tag op own (retryNote side r s))
    recallsOut side r.hdr (finishReq side r st value subop data s2)

/-- A request's load timeout has run out; the answers of this OEB, which no AREQ asked for, have none (R249). -/
def expired (side : Side) (r : Req) (s : State) : Bool :=
  qualOf (.oeb side) s ≠ 0 && r.src ≠ .answer && decide (r.acc + 2500 * go side CTX_CFG.LOAD_TO r.ctx s ≤ ftO side s)

/-- The load timeout of a request starts now. -/
def startTimeout (now : Nat) (r : Req) : Req := { r with acc := now }

/-- The first lock of an OEB's fabric time starts the timeouts of what has waited for it (R346). -/
def startTimeouts (side : Side) (s : State) : State :=
  let now := ftO side s
  modOeb side (fun o => { o with
    waiting := o.waiting.map (startTimeout now), queue := o.queue.map (startTimeout now)
    joins := o.joins.map fun j => { j with acc := now } }) s

/-- The traces of a load timeout (R249): PART is the context's, which a request's own equals (R245); one that still waits for
its translation has no DST_EP, and shows 0 (log entry 102, DESIGN CHOICE). -/
def timeoutTraces (side : Side) (r : Req) (s : State) : State :=
  let part := go side CTX_CFG.PART r.ctx s
  raiseOF side .timeout true 2 r.hdr.dstEp.toNat [na r.hdr.dstEp.toNat, na part, na r.ctx] (some part) none (some r.hdr.dstEp.toNat) s

/-- A request that has no tag yet runs out of time: a non-posted one completes with TIMEOUT, a posted one that no up port
can take is discarded (R247). -/
def waitingTimeout (side : Side) (r : Req) (s : State) : State :=
  let drop := modOeb side fun o => { o with waiting := o.waiting.filter (fun x => x.rid ≠ r.rid), queue := o.queue.filter fun x => x.rid ≠ r.rid }
  let queued := (oebOf side s).queue.contains r
  if !expired side r s || 0 < r.retries || r.src = .answer then s
  else if !queued || needsTag r then finishReq side r stTimeout 0 0 [] (timeoutTraces side r (countO side .loadTimeout (drop s)))
  else if (portCandidates side r s).isEmpty then finishReq side r stTimeout 0 0 [] (timeoutTraces side r (countO side .noPortDiscard (drop s)))
  else s

/-- The test of load timeouts: the named tag's request, and those without a tag. -/
def loadTimeout (side : Side) (tag : Nat) (s : State) : State :=
  let s1 := match SMap.get (fun _ => none) (oebOf side s).outst tag with
    | some r => if expired side r s then resolve1 side r stTimeout 0 0 [] true (timeoutTraces side r (countO side .loadTimeout s)) else s
    | none => s
  ((oebOf side s1).waiting ++ (oebOf side s1).queue).foldl (fun s r => waitingTimeout side r s) s1

/-- LOAD_TIMEOUT (R249). -/
def execLoadTimeout (side : Side) (tag : BitVec 14) (s : State) : Host.Outcome State Fault Refusal := run (loadTimeout side tag.toNat) s

/-- A quarantine ends. -/
def quarantineEnd (side : Side) (tag : Nat) (s : State) : State :=
  modOeb side (fun o => { o with quar := o.quar.filter fun x => !(x.1 = tag && decide (x.2 ≤ ftO side s)) }) s

/-- QUARANTINE_END (R250). -/
def execQuarantineEnd (side : Side) (tag : BitVec 14) (s : State) : Host.Outcome State Fault Refusal := run (quarantineEnd side tag.toNat) s

/-! ### What arrives -/

/-- The traces of a malformed packet at an OEB (R44). -/
def oebMalformed (side : Side) (q : Nat) (h : Header) (s : State) : State :=
  raiseOF side .malformedPkt false 1 q [na q, na h.srcEp.toNat, na h.opcode.toNat] none (some h.srcEp.toNat) none (countO side .malformedPkt s)

/-- A CHECK_FAIL event of a packet that failed its tag (R48). -/
def gcmFail (side : Side) (h : Header) (request : Bool) (s : State) : State :=
  let s1 := countO side .gcmFail s
  if request then raiseOF side .checkFail true 2 h.srcEp.toNat [na h.srcEp.toNat, na h.part.toNat] (some h.part.toNat) (some h.srcEp.toNat) none s1
  else raiseO side .checkFail false 0 0 [] s1

/-- A line has arrived: how it is sealed is kept. -/
def lineIn (side : Side) (h : Header) (s : State) : State :=
  modOeb side (fun o =>
    { o with lines := SMap.set (fun _ => none) o.lines (lineOf h.addr) (some (h.part.toNat, h.enc, h.keySlot.toNat)) }) s

/-- A response, or a coherence answer, completes the request of its tag (R51, R58, R369). -/
def responseRx (side : Side) (q : Nat) (p : Packet) (bad : Bool) (s : State) : State :=
  let h := p.hdr
  let op := h.opcode.toNat
  if op = opCTL || op = opCTLRSP then countO side .rxVc5Discard s
  else if malformed h then oebMalformed side q h s
  else
    match (if h.dstEp.toNat = go side OEB_ID.EP 0 s then SMap.get (fun _ => none) (oebOf side s).outst h.tag.toNat else none) with
    | none => raiseO side .orphanRsp true 0 0 [] (countO side .orphanRsp s)
    | some r =>
      let st := h.status.toNat
      let coh := isCoh op
      let fin := fun st data s =>
        let s1 := if coh && op = opDATA && st = 0 then lineIn side h s else s
        resolve1 side r st (if op = opATOMRSP then ofLE data else 0) h.subop.toNat (if op = opATOMRSP then [] else data) false s1
      if bad then fin stPoison [] (raiseO side .poisonRx false 0 0 [] (countO side .rxTailMarked s))
      else if h.enc then
        match openPacket (.oeb side) 1 p s with
        | (some data, s1) => fin st (if st = 0 then data else []) s1
        | (none, s1) => fin stCheckFail [] (gcmFail side h false s1)
      else if r.hdr.enc && st = 0 && (op ≠ opACK) then fin stCheckFail [] (gcmFail side h false s)
      else fin st (if st = 0 then p.payload else []) s

/-- RESPONSE_RX (R51). -/
def execResponseRx (side : Side) (q : OPort) (pkt : Packet) (bad : Bool) (s : State) : Host.Outcome State Fault Refusal :=
  run (responseRx side q.val pkt bad) s

/-- A partition has a traffic slot that enforces encryption (R369). -/
def enforced (side : Side) (part : Nat) (s : State) : Bool :=
  (heldSlots (.oeb side) s).any fun n => slotKind (.oeb side) n s == 1 && slotPart (.oeb side) n s == part && gf (.oeb side) KS_INFO.ENFORCE n s == 1

/-- What the first three rows of Table 11-7 say of a packet: refused, or its plaintext. A MSG under a collective slot is a
step report (R168, Table 16-7). -/
def inboundCheck (side : Side) (p : Packet) (ranged : Bool) (fail : Nat → State → State) (ok : List Byte → State → State)
    (s : State) : State :=
  let h := p.hdr
  let ev := fun code s => raiseO side code true 0 0 [] s
  let poisonWb := h.opcode.toNat = opWB && h.status.toNat = stPoison && addrRegion h.addr = 15
  if go side OEB_CFG.READY 0 s = 0 then fail stNotReady (ev .notReady (countO side .rxNotReady s))
  else if ranged && decide (go side EXP_SIZE.SIZE 0 s < addrOffset h.addr + h.len.toNat) then fail stPartDeny (ev .partDeny (countO side .rxRangeDeny s))
  else if h.enc then
    match (if h.opcode.toNat = opMSG && slotKind (.oeb side) h.keySlot.toNat s = 2 then openReport (.oeb side) p s
           else openPacket (.oeb side) 1 p s) with
    | (some data, s1) => ok data s1
    | (none, s1) => if poisonWb then ok p.payload s else fail stCheckFail (gcmFail side h true s1)
  else if enforced side h.part.toNat s && !poisonWb then
    fail stCheckFail (raiseOF side .checkFail true 2 h.srcEp.toNat [na h.srcEp.toNat, na h.part.toNat] (some h.part.toNat) (some h.srcEp.toNat)
      none (countO side .rxClearDeny s))
  else ok p.payload s

/-- A write that carries LC_ADV is checked against its counter (R65). -/
def lcGate (side : Side) (p : Packet) (adv : Bool) (deny : State → State) (f : Packet → State → State) (s : State) : State :=
  let h := p.hdr
  if !adv then f p s
  else
    match lcCheck side h.lcId.toNat h.part.toNat s with
    | .ok => f p s
    | .off => f { p with hdr := { h with lcId := 0, subop := 0 } } (lcOff side s)
    | .deny => deny (lcDeny side h.lcId.toNat h.srcEp.toNat h.part.toNat s)

/-- A MSG of QUEUE 255 is an SPDM message: this OEB takes it and answers its sender with a MSG of QUEUE 255; the accelerator
never sees it (spec/16_partitions_and_security.md:114). The answer's bytes are the standard's (log entry 53, DESIGN CHOICE). -/
def spdmMsg (side : Side) (h : Header) (q : Nat) (data : List Byte) (s : State) : State :=
  let (rid, s1) := freshId side s
  let bytes := (Config.spdmBody (1 + side.val) data 0).take 256
  let hd := oebHeader side opMSG 0 h.part.toNat h.srcEp.toNat 0 bytes.length 2 0 h.keySlot.toNat 255 h.enc
    (mkAddr 0 h.srcEp.toNat (h.addr % 2 ^ 48)) s1
  if bytes.isEmpty then s
  else enqueueReq side { rid := rid, ctx := 1024, src := .answer, hdr := hd, data := bytes, acc := ftO side s1, retries := 0, inPort := some q
                         plane := none } s1

/-- A request of another unit reaches this OEB (Table 11-7, R58, R256). -/
def inboundRequest (side : Side) (q : Nat) (p : Packet) (bad : Bool) (s : State) : State :=
  let h := p.hdr
  let op := h.opcode.toNat
  if op = opCTL || op = opCTLRSP then countO side .rxVc5Discard s
  else if malformed h then oebMalformed side q h s
  else if !isMem op then s
  else if bad then
    respondIn side h q stPoison [] (raiseOF side .poisonRx false 2 h.srcEp.toNat [na h.srcEp.toNat] none (some h.srcEp.toNat) none
      (countO side .rxTailMarked s))
  else
    inboundCheck side p (op ≠ opMSG) (fun st s => respondIn side h q st [] s) (fun data s =>
      let clear : Packet := { hdr := h, payload := data, trailer := [] }
      if op = opMSG then
        if h.subop.toNat = 255 then spdmMsg side h q data s
        else mreq side (.msg clear) (h.addr % 2 ^ 48) h.len.toNat (h.status.toNat = stPoison) h.subop.toNat data s
      else if op = opRD then mreq side (.inRead clear q) (expAddr side (addrOffset h.addr) s) h.len.toNat false 0 [] s
      else if op = opATOM then atomArrive side clear q none s
      else
        lcGate side clear (bits h.subop.toNat 0 1 = 1) (respondIn side h q stPartDeny []) (fun pk s =>
          mreq side (.inWrite pk q) (expAddr side (addrOffset h.addr) s) h.len.toNat (h.status.toNat = stPoison) 0 data s) s) s

/-- INBOUND_REQUEST (R251). -/
def execInboundRequest (side : Side) (q : OPort) (pkt : Packet) (bad : Bool) (s : State) : Host.Outcome State Fault Refusal :=
  run (inboundRequest side q.val pkt bad) s

/-! ### Results (R253 to R255) -/

/-- The receive entry of a result. -/
def collEntry (side : Side) (h : Header) (s : State) : Option Nat :=
  firstBelow 1024 fun r => go side COLL_RX.VALID r s == 1 && go side COLL_RX.PART r s == h.part.toNat && go side COLL_RX.COMM r s == h.comm

/-- The result's global chunk (R253). -/
def resultChunk (side : Side) (r pl : Nat) (h : Header) (s : State) : Nat :=
  let planes := go side COLL_RX.PLANES r s
  let below := ((List.range pl).filter fun k => bits planes k 1 = 1).length
  let hh := if go side COLL_RX.VERIFY r s = 1 then h.chunk else 2 * h.chunk + h.tree
  hh * collPlanes side r s + below

/-- The chunks of a step over every plane: G of R228. -/
def collG (side : Side) (r : Nat) (s : State) : Nat :=
  collPlanes side r s * (if go side COLL_RX.VERIFY r s = 1 then go side COLL_RX.NCHUNK r s else 2 * go side COLL_RX.NCHUNK r s)

/-- The step count of a result, from its low 8 bits, whose position lies in the window; none where none does. -/
def resultPos (b w n chunk step : Nat) : Option Nat :=
  let c0 := b / max 1 n
  let q := fun k => (c0 + k) * n + chunk
  ((List.range (w / max 1 n + 2)).find? fun k => (c0 + k) % 256 = step && b ≤ q k && q k < b + w).map q

/-- A result frees its position in the send window of its entry (R255); false where it is stray. -/
def resultFrees (side : Side) (r pl : Nat) (h : Header) (s : State) : Bool × State :=
  if go side COLL_RX.SEND r s = 0 then (true, s)
  else
    let one := fun t (s : State) =>
      let k := windowKey r pl t
      (resultPos (windowOf side k s).1 (go side COLL_RX.W r s) (go side COLL_RX.NCHUNK r s) h.chunk h.step).map fun q => windowSet side k q s
    if go side COLL_RX.VERIFY r s = 1 then
      match one 0 s, one 1 s with
      | some s0, some _ => (true, (one 1 s0).getD s0)
      | some s0, none => (true, s0)
      | none, some s1 => (true, s1)
      | none, none => (false, s)
    else
      match one h.tree s with
      | some s1 => (true, s1)
      | none => (false, s)

/-- The bytes of a result are written at their place, no more than the chunk's own span; the bitmap follows a partial
(R253, R254). -/
def resultWrite (side : Side) (r pl : Nat) (h : Header) (data : List Byte) (s : State) : State :=
  let g := resultChunk side r pl h s
  let ub := go side COLL_RX.UNIT_BYTES r s
  let u := go side COLL_RX.U r s
  let gg := max 1 (collG side r s)
  let fixed := go side COLL_RX.FIXED r s = 1
  let part := bits h.subop.toNat 5 1 = 1
  let nb := if part then 8 * ceilDiv (go side COLL_RX.NSRC r s) 64 else 0
  let out := data.take (data.length - nb)
  let bm := data.drop (data.length - nb)
  let at_ := if fixed then g * ub else (u / gg * g + min g (u % gg)) * ub
  let span := if fixed then ub else (u / gg + (if g < u % gg then 1 else 0)) * ub
  let s1 := if span < out.length then countO side .collRxTrunc s else s
  let out1 := out.take span
  let clear : Packet := { hdr := h, payload := bm, trailer := [] }
  let bmAt := expAddr side (go side COLL_RX.BMAP_BASE r s + g * nb) s
  mreq side (.result clear (if part then some bmAt else none)) (expAddr side (go side COLL_RX.BASE r s + at_) s) out1.length
    (h.status.toNat = stPoison) 0 out1 s1

/-- A result arrives. -/
def rresultRx (side : Side) (q : Nat) (p : Packet) (bad : Bool) (s : State) : State :=
  let h := p.hdr
  if malformed h then oebMalformed side q h s
  else if bad then
    raiseOF side .poisonRx false 2 h.srcEp.toNat [na h.srcEp.toNat] none (some h.srcEp.toNat) none (countO side .rxTailMarked s)
  else
    match collEntry side h s with
    | none => raiseO side .collRxMiss true 0 0 [] (countO side .collRxMiss s)
    | some r =>
      let opened := if h.enc then openPacket (.oeb side) 2 p s
        else if p.trailer == chunkDigest h p.payload then (some p.payload, s) else (none, s)
      match opened with
      | (none, s1) => gcmFail side h true s1
      | (some data, s1) =>
        let pl := go side PORT_CFG.PLANE q s1
        match resultFrees side r pl h s1 with
        | (false, s2) => countO side .collStrayResult s2
        | (true, s2) =>
          if h.status.toNat ≠ 0 then s2
          else lcGate side { hdr := h, payload := data, trailer := [] } (bits h.subop.toNat 7 1 = 1) id
            (fun pk s => resultWrite side r pl { h with lcId := pk.hdr.lcId, subop := if pk.hdr.subop = 0 then BitVec.ofNat 8 (h.subop.toNat % 128) else h.subop } data s) s2

/-- RRESULT_RX (R253). -/
def execRresultRx (side : Side) (q : OPort) (pkt : Packet) (bad : Bool) (s : State) : Host.Outcome State Fault Refusal :=
  run (rresultRx side q.val pkt bad) s

/-! ### Coherence at a member and at the home (R87, R94, R95) -/

/-- An up port by which a coherence answer of a packet without an arrival port would leave. -/
def anyPort (side : Side) (a : Nat) (s : State) : Nat := ((oPorts side (fun q => go side PORT_CFG.PLANE q s == linePlane a s) s).head?).getD 0

/-- The traces of a tail-marked packet that names its sender (R58). -/
def tailMarked (side : Side) (h : Header) (s : State) : State :=
  raiseOF side .poisonRx false 2 h.srcEp.toNat [na h.srcEp.toNat] none (some h.srcEp.toNat) none (countO side .rxTailMarked s)

/-- A snoop of a bank arrives: a malformed one is refused, a tail-marked one is discarded without an answer, for the bank's
own timeout of R98 (R58, R52; log entry 97, DEDUCED). -/
def snoopRx (side : Side) (p : Packet) (bad : Bool) (f : Nat → State → State) (s : State) : State :=
  let q := anyPort side p.hdr.addr s
  if malformed p.hdr then oebMalformed side q p.hdr s
  else if bad then tailMarked side p.hdr s
  else f q s

/-- COH_INV: the accelerator is snooped; the line's sealing is forgotten. -/
def cohInvRx (side : Side) (p : Packet) (q : Nat) (s : State) : State :=
  mreq side (.snpInv p q) p.hdr.addr 64 false 0 [] (modOeb side (fun o => { o with lines := SMap.del o.lines (lineOf p.hdr.addr) }) s)

/-- COH_INV_RX (R94). -/
def execCohInvRx (side : Side) (pkt : Packet) (bad : Bool) (s : State) : Host.Outcome State Fault Refusal :=
  run (snoopRx side pkt bad (cohInvRx side pkt)) s

/-- COH_RECALL_RX (R95). -/
def execCohRecallRx (side : Side) (pkt : Packet) (bad : Bool) (s : State) : Host.Outcome State Fault Refusal :=
  run (snoopRx side pkt bad (recallIn side pkt)) s

/-- The accelerator answers a recall: its modified line goes back as a COH_WB under a tag of this OEB (log entry 98, DESIGN
CHOICE), or it does not hold the line. -/
def recallDone (side : Side) (p : Packet) (q st : Nat) (data : List Byte) (s : State) : State :=
  let h := p.hdr
  if data.length < 64 then answer side { h with enc := false } q opACK h.srcEp.toNat 0 3 [] s
  else
    let k := SMap.get (fun _ => none) (oebOf side s).lines (lineOf h.addr)
    let (pt, en, sl) := k.getD (h.part.toNat, false, 0)
    let s1 := modOeb side (fun o => { o with lines := SMap.del o.lines (lineOf h.addr) }) s
    let (rid, s2) := freshId side s1
    let wb := oebHeader side opWB 4 pt (addrEp h.addr) h.tag.toNat 64 2 0 sl 0 en h.w1.toNat s2
    enqueueReq side { rid := rid, ctx := 1024, src := .answer, hdr := { wb with status := BitVec.ofNat 4 (if st = 0 then 0 else stPoison) }
                      data := data.take 64, acc := ftO side s2, retries := 0, inPort := some q, plane := some (linePlane h.addr s2) } s2

/-- GRANT of the answer to a GET: a COH_UPG is served as a COH_GET_M (R89, R94). -/
def cohGrant (h : Header) : Nat := if h.opcode.toNat = opGETS then 0 else 1

/-- A coherence request or writeback at the home: memory is read or written (Table 11-7's first rows apply); a tail-marked
one is answered with POISON (R58). -/
def cohAtHome (side : Side) (p : Packet) (bad : Bool) (s : State) : State :=
  let h := p.hdr
  let q := anyPort side h.addr s
  let get := asksLine h
  let line := addrOffset h.addr / 64 * 64
  let fail := fun st s =>
    if get then answer side h q opDATA h.srcEp.toNat st (cohGrant h) [] s else answer side h q opACK h.srcEp.toNat st 1 [] s
  if malformed h then oebMalformed side q h s
  else if !get && h.opcode.toNat ≠ opWB then s
  else if bad then fail stPoison (tailMarked side h s)
  else
    inboundCheck side p true fail
      (fun data s =>
        if get then mreq side (.homeRead { hdr := h, payload := [], trailer := [] } q) (expAddr side line s) 64 false 0 [] s
        else mreq side (.homeWrite { hdr := h, payload := [], trailer := [] } q) (expAddr side line s) 64 (h.status.toNat = stPoison) 0 data s) s

/-- COH_REQUEST_AT_HOME (R87). -/
def execCohRequestAtHome (side : Side) (pkt : Packet) (bad : Bool) (s : State) : Host.Outcome State Fault Refusal :=
  run (cohAtHome side pkt bad) s

/-! ### MRSP (R243, R244) -/

/-- What walks hand to those who waited. -/
def xlatAnswers (side : Side) (l : List (XMiss × XAns)) (s : State) : State :=
  l.foldl (fun s x =>
    match x.1.who with
    | .part rid =>
      let o := oebOf side s
      match o.waiting.find? fun r => r.rid = rid with
      | none => s
      | some r => partXlat side r x.2 (setOeb side { o with waiting := o.waiting.filter fun r => r.rid ≠ rid } s)
    | _ => dmaXlat side x.1 x.2 s) s

/-- A walker is given out; requests held in issue queues go on (R264). -/
def walkNext (side : Side) (s : State) : State :=
  let s1 := walkStart side s
  let (l, s2) := xlatRelease side (oebOf side s1).xhold.length ([], s1)
  xlatAnswers side l s2

/-- WALK_START (R264). -/
def execWalkStart (side : Side) (s : State) : Host.Outcome State Fault Refusal := run (walkNext side) s

/-- A landing advance of a write whose bytes are visible, which R65 allowed before the write (R64, R66). -/
def landed (side : Side) (h : Header) (adv : Bool) (s : State) : State :=
  if adv then lcAdvance side h.lcId.toNat h.len.toNat (h.status.toNat = stPoison) s else s

/-- An MRSP answers the operation its MREQ was for. A partial result whose output bytes are not all visible advances nothing
once its bitmap is written (R64). -/
def mrspFor (side : Side) (purp : MPurp) (st : Nat) (data : List Byte) (s : State) : State :=
  match purp with
  | .inRead p q => respondIn side p.hdr q st (fit p.hdr.len.toNat data) s
  | .inWrite p q => respondIn side p.hdr q st [] (if st = 0 then landed side p.hdr (bits p.hdr.subop.toNat 0 1 = 1) s else s)
  | .msg p =>
    if st = stNotReady then
      raiseOF side .notReady true 2 p.hdr.srcEp.toNat [na p.hdr.srcEp.toNat, na p.hdr.subop.toNat] none (some p.hdr.srcEp.toNat) none
        (countO side .msgQueueFull s)
    else s
  | .atom p q j => atomPerform side p q j st data s
  | .unlock _ _ _ => s
  | .walk id => let (l, s1) := walkMrsp side id st data s; xlatAnswers side l s1
  | .contrib jid off => contribRead side jid off st data s
  | .result p (some a) =>
    let sub := if st = 0 then p.hdr.subop else BitVec.ofNat 8 (p.hdr.subop.toNat % 128)
    mreq side (.result { p with hdr := { p.hdr with subop := sub }, payload := [] } none) a p.payload.length false 0 p.payload s
  | .result p none => if st = 0 then landed side p.hdr (bits p.hdr.subop.toNat 7 1 = 1) s else s
  | .dmaRd c n off role => burstRead side c n off role st data s
  | .dmaWr c n off => burstWritten side c n off st s
  | .crec c => crecDone side c st s
  | .ring c g => ringRead side c g st data s
  | .snpInv p q => answer side { p.hdr with enc := false } q opACK p.hdr.srcEp.toNat 0 0 [] s
  | .snpRecall p q => recallDone side p q st data s
  | .homeRead p q => answer side p.hdr q opDATA p.hdr.srcEp.toNat st (cohGrant p.hdr) (fit 64 data) s
  | .homeWrite p q => answer side { p.hdr with enc := false } q opACK p.hdr.srcEp.toNat st 1 [] s

/-- An MRSP arrives; one that comes late is discarded, a late lock released (R244). -/
def mrspRx (side : Side) (mtag st : Nat) (data : List Byte) (s : State) : State :=
  let o := oebOf side s
  match o.mreqs.find? fun m => m.mtag = mtag with
  | none => s
  | some m =>
    let s1 := mreqNext side (setOeb side { o with mreqs := o.mreqs.erase m } s)
    if m.late then
      let s2 := countO side .mrspLate s1
      match m.purp with
      | .atom p _ _ => mreq side (.unlock p.hdr.srcEp.toNat p.hdr.part.toNat m.ctx) (atomBlock side p s2) 0 false 0 [] s2
      | _ => s2
    else
      let st1 := match m.purp with
        | .msg _ => if st = 0 || st = stNotReady then st else stPoison
        | _ => if st = 0 then 0 else stPoison
      mrspFor side m.purp st1 data s1

/-- MRSP_RX (R243). -/
def execMrspRx (side : Side) (mtag : BitVec 14) (status : BitVec 4) (data : List Byte) (s : State) : Host.Outcome State Fault Refusal :=
  run (mrspRx side mtag.toNat status.toNat data) s

/-- SRC_EP and PART of the operation an MREQ was for: a table walk's are those of the first request that waits for it. -/
def mreqWho (side : Side) (p : MPurp) (s : State) : Nat × Nat :=
  let me := go side OEB_ID.EP 0 s
  let o := oebOf side s
  let ctxPart := fun (x : Option Nat) => match x with | some x => go side CTX_CFG.PART x s | none => 0
  let of := fun (p : Packet) => (p.hdr.srcEp.toNat, p.hdr.part.toNat)
  match p with
  | .inRead p _ => of p
  | .inWrite p _ => of p
  | .msg p => of p
  | .atom p _ _ => of p
  | .result p _ => of p
  | .snpInv p _ => of p
  | .snpRecall p _ => of p
  | .homeRead p _ => of p
  | .homeWrite p _ => of p
  | .dmaRd c _ _ _ => (me, chPart side c s)
  | .dmaWr c _ _ => (me, chPart side c s)
  | .crec c => (me, chPart side c s)
  | .ring c _ => (me, chPart side c s)
  | .unlock ep part _ => (ep, part)
  | .contrib jid _ => (me, ctxPart ((o.joins.find? fun j => j.jid = jid).map fun j => j.d.ctx.val))
  | .walk id => (me, ctxPart ((o.walks.find? fun w => w.id = id).bind fun w => w.waiters.head?.map (·.ctx)))

/-- An MREQ fails after 4 µs (R244). -/
def mrspTimeout (side : Side) (mtag : Nat) (s : State) : State :=
  let o := oebOf side s
  match o.mreqs.find? fun m => m.mtag = mtag && !m.late with
  | none => s
  | some m =>
    if locOf (.oeb side) s < m.sent + 10000 then s
    else
      let (ep, pt) := mreqWho side m.purp s
      let s1 := setOeb side { o with mreqs := o.mreqs.map fun x => if x = m then { m with late := true } else x } s
      let s2 := raiseOF side .timeout true 2 ep [na ep, na pt, na m.purp.mop] (some pt) (some ep) none (countO side .mrspTimeout s1)
      match m.purp with
      | .msg _ => s2
      | .unlock _ _ _ => s2
      | .result _ _ => s2
      | .snpInv _ _ => s2
      | .snpRecall _ _ => s2
      | .atom p q j =>
        let s3 := atomReply side p q j stTimeout [] (if j.isSome then s2 else jrnlWrite side p.hdr stTimeout [] s2)
        atomDrain side (oebOf side s3).atomQ.length s3
      | .inRead p q => respondIn side p.hdr q stTimeout [] s2
      | .inWrite p q => respondIn side p.hdr q stTimeout [] s2
      | p => mrspFor side p stTimeout [] s2

/-- MRSP_TIMEOUT (R244). -/
def execMrspTimeout (side : Side) (mtag : BitVec 14) (s : State) : Host.Outcome State Fault Refusal := run (mrspTimeout side mtag.toNat) s

/-! ### Invalidation (R274 to R276) -/

/-- FULL follows the queue. -/
def invFull (side : Side) (s : State) : State := so side XLAT_INV_STATUS.FULL 0 (if (oebOf side s).invQ.length ≥ 8 then 1 else 0) s

/-- A write of XLAT_INV queues an invalidation, or is dropped with its traces (R274). -/
def xlatInv (side : Side) (kind : Nat) (drain : Bool) (asid apt npages : Nat) (s : State) : State :=
  if (oebOf side s).invQ.length ≥ 8 || kind > 4 || ((kind = 2 || kind = 3) && npages = 0) then
    raiseO side .xlatInvDrop false 0 0 [] (countO side .xlatInvDrop (so side XLAT_INV_STATUS.DROPPED 0 1 s))
  else
    let i : Inv := { kind := kind, drain := drain, asid := asid, apt := apt, npages := npages, va := go side XLAT_INV_VA.VA 0 s * 4096
                     purged := false, waits := [] }
    invFull side (so side XLAT_INV_STATUS.ISSUED 0 (go side XLAT_INV_STATUS.ISSUED 0 s + 1)
      (modOeb side (fun o => { o with invQ := o.invQ ++ [i] }) s))

/-- XLAT_INV_ALL (R275). -/
def execXlatInvAll (side : Side) (drain : Bool) (s : State) : Host.Outcome State Fault Refusal := run (xlatInv side 0 drain 0 0 0) s
/-- XLAT_INV_ASID (R275). -/
def execXlatInvAsid (side : Side) (drain : Bool) (asid : BitVec 16) (s : State) : Host.Outcome State Fault Refusal :=
  run (xlatInv side 1 drain asid.toNat 0 0) s
/-- XLAT_INV_ASID_RANGE (R275). -/
def execXlatInvAsidRange (side : Side) (drain : Bool) (asid npages : BitVec 16) (s : State) : Host.Outcome State Fault Refusal :=
  run (xlatInv side 2 drain asid.toNat 0 npages.toNat) s
/-- XLAT_INV_RANGE (R275). -/
def execXlatInvRange (side : Side) (drain : Bool) (npages : BitVec 16) (s : State) : Host.Outcome State Fault Refusal :=
  run (xlatInv side 3 drain 0 0 npages.toNat) s
/-- XLAT_INV_APT (R275). -/
def execXlatInvApt (side : Side) (drain : Bool) (apt : BitVec 4) (s : State) : Host.Outcome State Fault Refusal :=
  run (xlatInv side 4 drain 0 apt.toNat 0) s

/-- A span of memory overlaps the range of an invalidation. -/
def Inv.overlaps (i : Inv) (lo n : Nat) : Bool := decide (lo < i.va + i.npages * 4096) && decide (i.va < lo + n)

/-- An entry an invalidation purges (R275). -/
def Inv.hits (i : Inv) (e : TlbEnt) : Bool :=
  let sp := i.overlaps (e.page * 2 ^ e.leaf.size) (2 ^ e.leaf.size)
  match i.kind with
  | 0 => true
  | 1 => e.asid == i.asid && !e.leaf.glob
  | 2 => e.asid == i.asid && !e.leaf.glob && sp
  | 3 => sp
  | _ => e.leaf.apt == some i.apt

/-- A page-walk cache entry an invalidation purges. -/
def Inv.hitsPwc (i : Inv) (e : PwcEnt) : Bool :=
  match i.kind with
  | 0 => true
  | 1 => e.asid == i.asid
  | 2 => e.asid == i.asid
  | 3 => true
  | _ => false

/-- A walk an invalidation matches: what it would install is a leaf of the level it stands at or of one below. -/
def Inv.hitsWalk (i : Inv) (w : Walk) : Bool :=
  let sz := 12 + 9 * w.level
  let sp := i.overlaps (w.page * 4096 / 2 ^ sz * 2 ^ sz) (2 ^ sz)
  match i.kind with
  | 0 => true
  | 1 => w.asid == i.asid
  | 2 => w.asid == i.asid && sp
  | 3 => sp
  | _ => decide (w.mode ≤ 2) && w.apt == i.apt

/-- The next burst of a channel, where it has its translations and has not been issued. A halted channel asks for them again
once its halt is cleared (R286), so it has none. -/
def prepared (side : Side) (c : Nat) (s : State) : Option (Nat × Nat) :=
  let x := chan side c s
  match current x with
  | some d =>
    if cf side DMA_CH.STATE c s ≠ 4 && (x.sx.isGot || x.dx.isGot) then some (d.n, if d.writes then 2 ^ 48 + d.dstOff else d.next) else none
  | none => none

/-- What a drain waits for: every request and access translated before the purge, of the contexts concerned (R276). -/
def drainKeys (side : Side) (i : Inv) (s : State) : List WKey :=
  let o := oebOf side s
  let mine := fun x => decide (x < 1024) && (!(i.kind = 1 || i.kind = 2) || go side XLAT_CFG.ASID x s == i.asid)
  let reqs := ((o.queue ++ o.posted ++ o.outst.filterMap (·.2)).filter fun r => mine r.ctx).map fun r => WKey.req r.rid
  let joined := fun (jid : Nat) => mine (joinCtx side jid s)
  let mems := ((o.mreqs.filter fun m => mine m.ctx).map fun m => WKey.mem m.mid) ++
    (o.mreqQ.filter fun w => mine w.ctx).map fun w => WKey.mem w.mid
  let atoms := ((o.atomQ.filterMap (·.2.2)).filter joined).map WKey.join
  let bursts := (o.chans.filter fun e => mine (chCtx side e.1 s)).flatMap fun e =>
    ((prepared side e.1 s).map fun x => WKey.burst e.1 x.1 x.2).toList ++
      e.2.descs.flatMap fun d => d.bursts.map fun b => WKey.burst e.1 d.n b.off
  reqs ++ mems ++ atoms ++ bursts

/-- What a drain waits for is still open. -/
def keyOpen (side : Side) (k : WKey) (s : State) : Bool :=
  let o := oebOf side s
  match k with
  | .req rid => (o.queue ++ o.posted ++ o.outst.filterMap (·.2)).any fun r => r.rid = rid
  | .join jid => o.joins.any fun j => j.jid = jid
  | .mem mid => (o.mreqs.any fun m => m.mid = mid) || o.mreqQ.any fun w => w.mid = mid
  | .burst c n off =>
    let x := SMap.get (fun _ => DmaCh.reset) o.chans c
    prepared side c s = some (n, off) || (x.descs.any fun d => d.n = n && d.bursts.any fun b => b.off = off) ||
      o.mreqs.any fun m => match m.purp with
        | .dmaRd c1 n1 off1 _ => c1 = c && n1 = n && off1 = off
        | .dmaWr c1 n1 off1 => c1 = c && n1 = n && off1 = off
        | _ => false

/-- The head of the queue completes. -/
def invDone (side : Side) (s : State) : State :=
  invFull side (so side XLAT_INV_STATUS.DONE 0 (go side XLAT_INV_STATUS.DONE 0 s + 1) (modOeb side (fun o => { o with invQ := o.invQ.drop 1 }) s))

/-- The head of the queue purges: every cache in one clock, walks that match start again from the root; requests translated
before it keep their translations. -/
def invPurge (side : Side) (s : State) : State :=
  let o := oebOf side s
  match o.invQ with
  | [] => s
  | i :: rest =>
    if i.purged then s
    else
      let hitW := o.walks.filter fun w => i.hitsWalk w && !w.again
      let sweep := fun (m : SMap (List TlbEnt)) => (m.map fun e => (e.1, e.2.filter fun t => !i.hits t)).filter fun e => !e.2.isEmpty
      let redo := fun (w : Walk) => if i.hitsWalk w then { w with again := true } else w
      let s1 := setOeb side { o with
        l1 := sweep o.l1, l2 := sweep o.l2, pwc := o.pwc.filter (fun e => !i.hitsPwc e), walks := o.walks.map redo } s
      let s2 := countN (.oeb side) (.oeb side.val) .xlatWalkRestart hitW.length s1
      if i.drain then modOeb side (fun o => { o with invQ := { i with purged := true, waits := drainKeys side i s2 } :: rest }) s2
      else invDone side s2

/-- INV_PURGE (R275). -/
def execInvPurge (side : Side) (s : State) : Host.Outcome State Fault Refusal := run (invPurge side) s

/-- A drained invalidation completes. -/
def invDrain (side : Side) (s : State) : State :=
  match (oebOf side s).invQ with
  | i :: _ => if i.purged && i.waits.all (fun k => !keyOpen side k s) then invDone side s else s
  | [] => s

/-- INV_DRAIN_COMPLETE (R276). -/
def execInvDrainComplete (side : Side) (s : State) : Host.Outcome State Fault Refusal := run (invDrain side) s

/-- An OEB is reset: everything it holds goes, its key slots with it (R367); SIDE is the level of the strap; its ports send the
NR pattern until they are enabled (R304). -/
def oebReset (side : Side) (strap : Bool) (s : State) : State :=
  let u : UnitId := .oeb side
  let s1 := setOeb side .reset (setKeySec u .reset (setRates (.oeb side) [] (s.setUnit u .reset)))
  let s2 := (List.range 16).foldl (fun s q => setAux (288 + 16 * side.val + q) .reset (setLink (288 + 16 * side.val + q) .reset s)) s1
  let nr := fun s => (List.range 16).foldl (fun s q => sendInsert (.oeb side (Fin.ofNat 16 q)) .nr [] s) s
  let t := s2.tele
  nr <| so side OEB_ID.SIDE 0 strap.toNat { s2 with tele := if side = 0 then { t with oebA := .reset } else { t with oebB := .reset } }

/-- OEB_RESET (R238). -/
def execOebReset (side : Side) (strap : Bool) (s : State) : Host.Outcome State Fault Refusal := run (oebReset side strap) s

/-- OEB_ID_LOCK (R238). -/
def execOebIdLock (side : Side) (s : State) : Host.Outcome State Fault Refusal := run (so side OEB_ID.LOCK 0 1) s

end Sys2Proof.Machine
end

