-- ==== Sys2Proof/Machine/CtrGroups.lean ====
section
/-! DEFINITION. The counter groups of Table 18-1 in ascending ASCII order of the counters' names (R464), and those names. -/

namespace Sys2Proof.Machine

/-- The counters of the global group. -/
def groupGlobal : List Ctr := [
  .chainDown, .chainTooLong, .ctlBusy, .ctlRefused, .cwDisabled, .doldrumsEntry, .dvfsTimeout, .expelApplied,
  .expelRefused, .fwBankReject, .govPadShort, .hpGlitch, .keyCmdRefused, .lunaLoadFail, .mbBusyWrite, .mbReqBad,
  .mirrorDrop, .monarchFailover, .pinContention, .ppsInBad, .ppsInLost, .profileFail, .programRefused, .refclkLost,
  .ringOverrun, .sampleDrop, .sampleRingDrop, .scanDeny, .seqExhausted, .sliceDegraded, .sliceMigrated, .snapSkipped,
  .timeLock, .timeQualChange, .timeRootConflict, .timeStep, .trngHealthFail, .unitRestored, .unitTestFail,
  .unmappedAccess]

/-- The counters of the window of a port die. -/
def groupPort : List Ctr := [
  .agedPkt, .ageStampAhead, .breezeRxBad, .bytesRx, .bytesTx, .creditAdvLow, .creditOverflow, .creditStall,
  .ctStallAbort, .echoRxBad, .echoSent, .echoSuppressed, .elasticSlip, .erasures, .fecCorrected, .fecUncorrectable,
  .flitsRx, .flitsTx, .govHold, .gwHold, .gwNoTransit, .ingressPartDeny, .insertBad, .laneDegraded, .laneSpared,
  .laneSwapped, .linkDown, .malformedPkt, .marginFail, .mcgDeny, .mcgEmpty, .mcCopySkipped, .mcOx7Discard,
  .notReadyPkt, .noRoutePkt, .pktsRx, .pktsTx, .portDownNoSpare, .quotaHold, .replayNak, .replayTimeout,
  .rspDiscardDown, .rspNoSpace, .shapeHold, .sramCorrected, .sramRowFenced, .sramRowRepaired, .sramUncorrectable,
  .tailMarked, .tailMarkPassed, .trainFail]

/-- The counters of the window of a slice die. -/
def groupSlice : List Ctr := [
  .agedPkt, .ageStampAhead, .cwAckTimeout, .cwBankLost, .cwDeny, .cwEvictM, .cwEvictS, .cwOwnerLost, .govHold,
  .gwHold, .gwNoTransit, .linkLostSynth, .mcgDeny, .mcgEmpty, .noRoutePkt, .quotaHold, .rspNoSpace, .shapeHold,
  .sramCorrected, .sramRowFenced, .sramRowRepaired, .sramUncorrectable, .tailMarked]

/-- The counters of the window of a Luna die. -/
def groupLuna : List Ctr := [
  .agedPkt, .ageStampAhead, .gcmFail, .govHold, .keyAbsent, .keyOldAccept, .lunaAccSat, .lunaArmFail, .lunaContribFail,
  .lunaCoresLost, .lunaCoreRetired, .lunaCtxDormant, .lunaCtxInvalid, .lunaDeadlinePartial, .lunaDupContrib,
  .lunaLateContrib, .lunaNotMember, .lunaOutRange, .lunaPartDeny, .lunaProgFault, .lunaSparseDenseFb,
  .lunaWindowOverrun, .mcgDeny, .mcgEmpty, .noRoutePkt, .quotaHold, .rspNoSpace, .shapeHold, .sramCorrected,
  .sramRowFenced, .sramRowRepaired, .sramUncorrectable, .tailMarked, .verifyDiverge, .verifyLateRecord,
  .verifyNoMajority, .verifyOk, .verifySkipped, .verifyTimeout]

/-- The counters of the window of a Skipper die. -/
def groupSkipper : List Ctr := [
  .agedPkt, .ageStampAhead, .echoRxBad, .govHold, .gwHold, .gwHostCfgDeny, .gwHostCplTimeout, .gwHostDeny, .gwNoTransit,
  .gwRemoteTimeout, .gwRxFull, .gwTxErr, .mcgDeny, .mcgEmpty, .noRoutePkt, .quotaHold, .rspNoSpace, .shapeHold,
  .sramCorrected, .sramRowFenced, .sramRowRepaired, .sramUncorrectable, .tailMarked]

/-- The counters of the window of a Monarch die. -/
def groupMonarch : List Ctr := [
  .agedPkt, .ageStampAhead, .govHold, .mcgDeny, .mcgEmpty, .noRoutePkt, .quotaHold, .rspNoSpace, .shapeHold, .sramCorrected,
  .sramRowFenced, .sramRowRepaired, .sramUncorrectable, .tailMarked]

/-- The counters of the group of an OEB. -/
def groupOeb : List Ctr := [
  .atomPoison, .atomRetried, .attachMalformed, .attachMissteer, .breezeRxBad, .collRxMiss, .collRxTrunc,
  .collSendFull, .collStrayResult, .creditAdvLow, .creditOverflow, .creditStall, .dmaCfgLocked, .dmaErr,
  .dmaRingDeny, .dmaWaitTimeout, .doldrumsEntry, .echoRxBad, .elasticSlip, .erasures, .fecCorrected,
  .fecUncorrectable, .fenceErr, .gcmFail, .insertBad, .jrnlAged, .jrnlEarlyEvict, .jrnlHit, .jrnlUnknown, .keyAbsent, .keyCmdRefused,
  .keyOldAccept, .lcAdvDisabled, .lcPartDeny, .lcWaitTimeout, .linkDown, .loadTimeout, .malformedPkt, .marginFail,
  .mrspLate, .mrspTimeout, .msgQueueFull, .noPortDiscard, .orphanRsp, .replayNak, .replayTimeout, .rxClearDeny,
  .rxNotReady, .rxRangeDeny, .rxTailMarked, .rxVc5Discard, .seqExhausted, .snapSkipped, .timeLock, .timeQualChange,
  .timeRootConflict, .timeStep, .trainFail, .trngHealthFail, .weightDeny, .weightTagFail, .xlatCfgLocked, .xlatFault,
  .xlatInvDrop, .xlatWalkRestart]

/-- The name under which the rules count a counter. -/
def Ctr.name : Ctr → String
  | .agedPkt => "AGED_PKT"
  | .ageStampAhead => "AGE_STAMP_AHEAD"
  | .atomPoison => "ATOM_POISON"
  | .atomRetried => "ATOM_RETRIED"
  | .attachMalformed => "ATTACH_MALFORMED"
  | .attachMissteer => "ATTACH_MISSTEER"
  | .breezeRxBad => "BREEZE_RX_BAD"
  | .bytesRx => "BYTES_RX"
  | .bytesTx => "BYTES_TX"
  | .cellsAdmitted => "CELLS_ADMITTED"
  | .chainDown => "CHAIN_DOWN"
  | .chainTooLong => "CHAIN_TOO_LONG"
  | .collRxMiss => "COLL_RX_MISS"
  | .collRxTrunc => "COLL_RX_TRUNC"
  | .collSendFull => "COLL_SEND_FULL"
  | .collStrayResult => "COLL_STRAY_RESULT"
  | .contribsAdmitted => "CONTRIBS_ADMITTED"
  | .creditAdvLow => "CREDIT_ADV_LOW"
  | .creditOverflow => "CREDIT_OVERFLOW"
  | .creditStall => "CREDIT_STALL"
  | .ctlBusy => "CTL_BUSY"
  | .ctlRefused => "CTL_REFUSED"
  | .ctStallAbort => "CT_STALL_ABORT"
  | .cwAckTimeout => "CW_ACK_TIMEOUT"
  | .cwBankLost => "CW_BANK_LOST"
  | .cwDeny => "CW_DENY"
  | .cwDisabled => "CW_DISABLED"
  | .cwEvictM => "CW_EVICT_M"
  | .cwEvictS => "CW_EVICT_S"
  | .cwOwnerLost => "CW_OWNER_LOST"
  | .dmaCfgLocked => "DMA_CFG_LOCKED"
  | .dmaErr => "DMA_ERR"
  | .dmaRingDeny => "DMA_RING_DENY"
  | .dmaWaitTimeout => "DMA_WAIT_TIMEOUT"
  | .doldrumsEntry => "DOLDRUMS_ENTRY"
  | .dvfsTimeout => "DVFS_TIMEOUT"
  | .echoRxBad => "ECHO_RX_BAD"
  | .echoSent => "ECHO_SENT"
  | .echoSuppressed => "ECHO_SUPPRESSED"
  | .elasticSlip => "ELASTIC_SLIP"
  | .erasures => "ERASURES"
  | .expelApplied => "EXPEL_APPLIED"
  | .expelRefused => "EXPEL_REFUSED"
  | .fecCorrected => "FEC_CORRECTED"
  | .fecUncorrectable => "FEC_UNCORRECTABLE"
  | .fenceErr => "FENCE_ERR"
  | .flitsRx => "FLITS_RX"
  | .flitsTx => "FLITS_TX"
  | .fwBankReject => "FW_BANK_REJECT"
  | .gcmFail => "GCM_FAIL"
  | .govHold => "GOV_HOLD"
  | .govPadShort => "GOV_PAD_SHORT"
  | .gwHold => "GW_HOLD"
  | .gwHostCfgDeny => "GW_HOST_CFG_DENY"
  | .gwHostCplTimeout => "GW_HOST_CPL_TIMEOUT"
  | .gwHostDeny => "GW_HOST_DENY"
  | .gwNoTransit => "GW_NO_TRANSIT"
  | .gwRemoteTimeout => "GW_REMOTE_TIMEOUT"
  | .gwRxFull => "GW_RX_FULL"
  | .gwTxErr => "GW_TX_ERR"
  | .hpGlitch => "HP_GLITCH"
  | .ingressPartDeny => "INGRESS_PART_DENY"
  | .insertBad => "INSERT_BAD"
  | .jrnlAged => "JRNL_AGED"
  | .jrnlEarlyEvict => "JRNL_EARLY_EVICT"
  | .jrnlHit => "JRNL_HIT"
  | .jrnlUnknown => "JRNL_UNKNOWN"
  | .keyAbsent => "KEY_ABSENT"
  | .keyCmdRefused => "KEY_CMD_REFUSED"
  | .keyOldAccept => "KEY_OLD_ACCEPT"
  | .laneDegraded => "LANE_DEGRADED"
  | .laneSpared => "LANE_SPARED"
  | .laneSwapped => "LANE_SWAPPED"
  | .lcAdvDisabled => "LC_ADV_DISABLED"
  | .lcPartDeny => "LC_PART_DENY"
  | .lcWaitTimeout => "LC_WAIT_TIMEOUT"
  | .linkDown => "LINK_DOWN"
  | .linkLostSynth => "LINK_LOST_SYNTH"
  | .loadTimeout => "LOAD_TIMEOUT"
  | .lunaAccSat => "LUNA_ACC_SAT"
  | .lunaArmFail => "LUNA_ARM_FAIL"
  | .lunaChunksFailed => "LUNA_CHUNKS_FAILED"
  | .lunaChunksOk => "LUNA_CHUNKS_OK"
  | .lunaContribFail => "LUNA_CONTRIB_FAIL"
  | .lunaCoresLost => "LUNA_CORES_LOST"
  | .lunaCoreRetired => "LUNA_CORE_RETIRED"
  | .lunaCtxDormant => "LUNA_CTX_DORMANT"
  | .lunaCtxInvalid => "LUNA_CTX_INVALID"
  | .lunaDeadlinePartial => "LUNA_DEADLINE_PARTIAL"
  | .lunaDupContrib => "LUNA_DUP_CONTRIB"
  | .lunaLateContrib => "LUNA_LATE_CONTRIB"
  | .lunaLoadFail => "LUNA_LOAD_FAIL"
  | .lunaNotMember => "LUNA_NOT_MEMBER"
  | .lunaOutRange => "LUNA_OUT_RANGE"
  | .lunaPartDeny => "LUNA_PART_DENY"
  | .lunaProgFault => "LUNA_PROG_FAULT"
  | .lunaSparseDenseFb => "LUNA_SPARSE_DENSE_FB"
  | .lunaWindowOverrun => "LUNA_WINDOW_OVERRUN"
  | .malformedPkt => "MALFORMED_PKT"
  | .marginFail => "MARGIN_FAIL"
  | .mbBusyWrite => "MB_BUSY_WRITE"
  | .mbReqBad => "MB_REQ_BAD"
  | .mcgDeny => "MCG_DENY"
  | .mcgEmpty => "MCG_EMPTY"
  | .mcCopySkipped => "MC_COPY_SKIPPED"
  | .mcOx7Discard => "MC_OX7_DISCARD"
  | .mirrorDrop => "MIRROR_DROP"
  | .monarchFailover => "MONARCH_FAILOVER"
  | .mrspLate => "MRSP_LATE"
  | .mrspTimeout => "MRSP_TIMEOUT"
  | .msgQueueFull => "MSG_QUEUE_FULL"
  | .notReadyPkt => "NOT_READY_PKT"
  | .noPortDiscard => "NO_PORT_DISCARD"
  | .noRoutePkt => "NO_ROUTE_PKT"
  | .orphanRsp => "ORPHAN_RSP"
  | .pinContention => "PIN_CONTENTION"
  | .pktsAdmitted => "PKTS_ADMITTED"
  | .pktsDelivered => "PKTS_DELIVERED"
  | .pktsRx => "PKTS_RX"
  | .pktsTx => "PKTS_TX"
  | .portDownNoSpare => "PORT_DOWN_NO_SPARE"
  | .ppsInBad => "PPS_IN_BAD"
  | .ppsInLost => "PPS_IN_LOST"
  | .profileFail => "PROFILE_FAIL"
  | .programRefused => "PROGRAM_REFUSED"
  | .quotaHold => "QUOTA_HOLD"
  | .refclkLost => "REFCLK_LOST"
  | .replayNak => "REPLAY_NAK"
  | .replayTimeout => "REPLAY_TIMEOUT"
  | .ringOverrun => "RING_OVERRUN"
  | .rspDiscardDown => "RSP_DISCARD_DOWN"
  | .rspNoSpace => "RSP_NO_SPACE"
  | .rxClearDeny => "RX_CLEAR_DENY"
  | .rxNotReady => "RX_NOT_READY"
  | .rxRangeDeny => "RX_RANGE_DENY"
  | .rxTailMarked => "RX_TAIL_MARKED"
  | .rxVc5Discard => "RX_VC5_DISCARD"
  | .sampleDrop => "SAMPLE_DROP"
  | .sampleRingDrop => "SAMPLE_RING_DROP"
  | .scanDeny => "SCAN_DENY"
  | .seqExhausted => "SEQ_EXHAUSTED"
  | .shapeHold => "SHAPE_HOLD"
  | .sliceDegraded => "SLICE_DEGRADED"
  | .sliceMigrated => "SLICE_MIGRATED"
  | .snapSkipped => "SNAP_SKIPPED"
  | .sramCorrected => "SRAM_CORRECTED"
  | .sramRowFenced => "SRAM_ROW_FENCED"
  | .sramRowRepaired => "SRAM_ROW_REPAIRED"
  | .sramUncorrectable => "SRAM_UNCORRECTABLE"
  | .tailMarked => "TAIL_MARKED"
  | .tailMarkPassed => "TAIL_MARK_PASSED"
  | .timeLock => "TIME_LOCK"
  | .timeQualChange => "TIME_QUAL_CHANGE"
  | .timeRootConflict => "TIME_ROOT_CONFLICT"
  | .timeStep => "TIME_STEP"
  | .trainFail => "TRAIN_FAIL"
  | .trngHealthFail => "TRNG_HEALTH_FAIL"
  | .unitRestored => "UNIT_RESTORED"
  | .unitTestFail => "UNIT_TEST_FAIL"
  | .unmappedAccess => "UNMAPPED_ACCESS"
  | .usedPeak => "USED_PEAK"
  | .verifyDiverge => "VERIFY_DIVERGE"
  | .verifyLateRecord => "VERIFY_LATE_RECORD"
  | .verifyNoMajority => "VERIFY_NO_MAJORITY"
  | .verifyOk => "VERIFY_OK"
  | .verifySkipped => "VERIFY_SKIPPED"
  | .verifyTimeout => "VERIFY_TIMEOUT"
  | .weightDeny => "WEIGHT_DENY"
  | .weightTagFail => "WEIGHT_TAG_FAIL"
  | .xlatCfgLocked => "XLAT_CFG_LOCKED"
  | .xlatFault => "XLAT_FAULT"
  | .xlatInvDrop => "XLAT_INV_DROP"
  | .xlatWalkRestart => "XLAT_WALK_RESTART"

end Sys2Proof.Machine
end

