-- ==== Sys2Proof/Machine/LunaState.lean ====
section
/-! DEFINITION. The Luna engine's accessors: dies, contexts, chunks, cores, columns, images, core-local SRAM, the unpacked
form of a contribution (R151 to R157, R192, R198, R204 to R206, R218, R220). -/

namespace Sys2Proof.Machine

/-! ### Dies, contexts, chunks, cores -/

/-- A Luna die. -/
def lunaDie (d : Nat) (s : State) : LDieSt := SMap.get LDieSt.reset s.luna d

/-- The state with a Luna die changed. -/
def modLuna (d : Nat) (f : LDieSt → LDieSt) (s : State) : State :=
  { s with luna := SMap.set LDieSt.reset s.luna d (f (lunaDie d s)) }

/-- A context on a die. -/
def lctx (d c : Nat) (s : State) : LCtx := SMap.get (fun _ => LCtx.reset) (lunaDie d s).ctxs c

/-- The state with a context on a die changed. -/
def modCtx (d c : Nat) (f : LCtx → LCtx) (s : State) : State :=
  modLuna d (fun x => { x with ctxs := SMap.set (fun _ => LCtx.reset) x.ctxs c (f (lctx d c s)) }) s

/-- The open chunk of an identity on a die. -/
def chunkOf (d : Nat) (id : ChunkId) (s : State) : Option LChunk := (lunaDie d s).chunks.find? fun c => c.id = id

/-- The state with an open chunk changed. -/
def modChunk (d : Nat) (id : ChunkId) (f : LChunk → LChunk) (s : State) : State :=
  modLuna d (fun x => { x with chunks := x.chunks.map fun c => if c.id = id then f c else c }) s

/-- A Luna core. -/
def lcore (c : Nat) (s : State) : LCore := SMap.get (fun _ => LCore.reset) s.cores c

/-- The state with a core replaced. -/
def setCore (c : Nat) (x : LCore) (s : State) : State := { s with cores := SMap.set (fun _ => LCore.reset) s.cores c x }

/-- The state with a core changed. -/
def modCore (c : Nat) (f : LCore → LCore) (s : State) : State := setCore c (f (lcore c s)) s

/-- The figures of a step of a context on a die. -/
def stepOf (d c n : Nat) (s : State) : Option LStep := (lctx d c s).steps.find? fun x => x.step = n

/-- The state with the figures of a step changed. -/
def modStep (d c n : Nat) (f : LStep → LStep) (s : State) : State :=
  modCtx d c (fun x => { x with steps := x.steps.map fun y => if y.step = n then f y else y }) s

/-! ### Columns (R151, R204) -/

/-- The cores of a cluster that columns run on, in column order. -/
def serveOf (d cl : Nat) (s : State) : List Nat := SMap.get (serveReset d) (lunaDie d s).serve cl

/-- The core that runs column `l` of a cluster. -/
def columnCore (d cl l : Nat) (s : State) : Nat := let sv := serveOf d cl s; nth sv (l % max 1 sv.length)

/-- The elements below `e` of the columns of the `i`-th of `n` cores: their core order. -/
def coreElems (n i e : Nat) : List Nat := (List.range e).filter fun x => x % 132 % n = i

/-- The elements below `e` of a column. -/
def columnElems (l e : Nat) : List Nat := (List.range e).filter fun x => x % 132 = l

/-- The logical number of a physical core; 0 where it has none (Table 21-3). -/
def logicalOf (c : Nat) (s : State) : Nat :=
  let k := c / 108
  (((List.range 100).find? fun i =>
    gx LUNA_CORE_MAP.VALID (100 * k + i) s == 1 && gx LUNA_CORE_MAP.PHYS (100 * k + i) s == c).map (100 * k + ·)).getD 0

/-- The lowest-numbered active core of a cluster (R161). -/
def lowestCore (d cl : Nat) (s : State) : Nat :=
  match serveOf d cl s with
  | [] => 0
  | c :: cs => cs.foldl min c

/-- The domain of a cluster (Table 20-2). -/
def clusterDom (d cl : Nat) : Nat := 89 + 9 * d + cl

/-- The cluster is in Cocoon. -/
def clusterAsleep (d cl : Nat) (s : State) : Bool := gx DOM_STAT.STATE (clusterDom d cl) s == 2

/-- The cluster of its die that a core stands in. -/
def clusterOf (core : Nat) : Nat := core % 108 / 12

/-- A cluster is in Cocoon or wakes. -/
def clusterDown (d cl : Nat) (s : State) : Bool := clusterAsleep d cl s || gx DOM_STAT.STATE (clusterDom d cl) s == 3

/-- The clusters that the columns of a cluster run in: a replacement may stand in another. -/
def homeClusters (d cl : Nat) (s : State) : List Nat :=
  (List.range 9).filter fun k => k = cl || (serveOf d cl s).any fun c => clusterOf c == k

/-- The open chunks charged to a cluster: one in Cocoon counts as holding WAKE_AT (R449). -/
def clusterLoad (d cl : Nat) (s : State) : Nat :=
  if clusterAsleep d cl s then gx COCOON_CTL.WAKE_AT 0 s
  else ((lunaDie d s).chunks.filter fun c => c.cluster = cl).length

/-- The cluster the distributor picks (R151). -/
def pickCluster (d : Nat) (s : State) : Option Nat :=
  let cls := (List.range 9).filter fun c => !(serveOf d c s).isEmpty
  let best := cls.foldl (fun b c => min b (clusterLoad d c s)) (2 ^ 20)
  let tied := cls.filter fun c => clusterLoad d c s = best
  let p := (lunaDie d s).ptr
  ((tied.filter fun c => p ≤ c) ++ tied.filter fun c => c < p).head?

/-! ### Key caches (R371) -/

/-- The key cache of a die holds the copy of a collective slot: only while a context of the die that encrypts under the slot is
armed, or arming; the copy came wrapped under the package key. -/
def keyCached (d n : Nat) (s : State) : Bool :=
  (keySec .ox9 s).package.isSome &&
    (lunaDie d s).ctxs.any fun e => (e.2.st != 0 || e.2.arming) && gx LUNA_CTX.ENC e.1 s == 1 &&
      (gx LUNA_CTX.KEY_IN e.1 s == n || gx LUNA_CTX.KEY_OUT e.1 s == n)

/-- The collective slot of a partition that a die's stream unit finds in its key cache. -/
def lunaKey (d n p : Nat) (s : State) : Option KeySlot :=
  if keyCached d n s && slotKind .ox9 n s == 2 && slotPart .ox9 n s == p then keySlot .ox9 n s else none

/-! ### Shares, reservations (R154, R157, R163) -/

/-- The die mask of a tree. -/
def dieMask (c tree : Nat) (s : State) : Nat := if tree = 0 then gx LUNA_CTX.DIEMASK0 c s else gx LUNA_CTX.DIEMASK1 c s

/-- The dies of a tree in ascending order. -/
def treeDies (c tree : Nat) (s : State) : List Nat := (List.range 8).filter fun d => bits (dieMask c tree s) d 1 = 1

/-- Every die of a context. -/
def ctxDies (c : Nat) (s : State) : List Nat :=
  (List.range 8).filter fun d => (treeDies c 0 s).contains d || (treeDies c 1 s).contains d

/-- The trees whose mask includes a die, with the number of dies of the mask. -/
def treesOf (d c : Nat) (s : State) : List (Nat × Nat) :=
  ([0, 1].filter fun t => (treeDies c t s).contains d).map fun t => (t, (treeDies c t s).length)

/-- The die of a chunk (R151). -/
def chunkDie (id : ChunkId) (s : State) : Option Nat :=
  let ds := treeDies id.comm id.tree s
  ds[id.chunk % max 1 ds.length]?

/-- The chunks of a step that R151 gives a die. -/
def shareOf (d c n : Nat) (s : State) : List ChunkId :=
  ((treesOf d c s).map fun t =>
    ((List.range (gx LUNA_CTX.NCHUNK c s)).map fun k => (⟨c, t.1, k, n⟩ : ChunkId)).filter fun id =>
      chunkDie id s = some d).flatten

/-- The bytes of a slot (R157): the largest size the context's settings allow. -/
def slotBytes (c : Nat) (s : State) : Nat :=
  let m := gx LUNA_CTX.MAXELEM c s
  let ret := gx LUNA_CTX.NSRC c s * 4096
  let native := if gx LUNA_CTX.NATIVE_OK c s = 1 then 4 * m + ret else 0
  max (44 * m) (max native (48 * gx LUNA_CTX.SPARSE_CAP c s)) + if gx LUNA_CTX.VERIFY c s = 1 then ret else 0

/-- The slots a context reserves on a die. -/
def slotCount (d c : Nat) (s : State) : Nat :=
  ((treesOf d c s).map fun t => ceilDiv (gx LUNA_CTX.W c s) t.2).sum

/-- The done bits it takes there (R154). -/
def doneBits (d c : Nat) (s : State) : Nat :=
  ((treesOf d c s).map fun t => 2 * ceilDiv (gx LUNA_CTX.NCHUNK c s) t.2).sum

/-- The open chunks of a context on a die. -/
def openOf (d c : Nat) (s : State) : List LChunk := (lunaDie d s).chunks.filter fun x => x.id.comm = c

/-! ### Images (R218, R220) -/

/-- The image a die's store holds under a PROG_ID. -/
def imageOf (d prog : Nat) (s : State) : Option LImage := (lunaDie d s).images.find? fun x => x.prog = prog

/-- A field of an image. -/
def imgFld (x : LImage) (o n : Nat) : Nat := ofLE ((x.bytes.drop o).take n)

/-- The image of a context on a die. -/
def progOf (d c : Nat) (s : State) : Option LImage := imageOf d (gx LUNA_CTX.PROG c s) s

/-- The entry point of a task kind, in words (Table 9-14). -/
def entryOf (x : LImage) (kind : Nat) : Option Nat :=
  let v := imgFld x (24 + 2 * kind) 2
  if v = 0xFFFF then none else some v

/-- The context's program has an entry point for a task kind (R196). -/
def hasEntry (d c kind : Nat) (s : State) : Bool := ((progOf d c s).bind fun x => entryOf x kind).isSome

/-- The word of text at word offset `pc`, none beyond the text. -/
def textWord (x : LImage) (pc : Nat) : Option Nat :=
  if 4 * pc + 4 ≤ imgFld x 12 4 then some (ofLE ((x.bytes.drop (128 + 4 * pc)).take 4)) else none

/-- The offset of the constants: the first 64-byte boundary after the text. -/
def constStart (x : LImage) : Nat := ceilDiv (128 + imgFld x 12 4) 64 * 64

/-- Whether the program implements a combination (R220). -/
def progImplements (x : LImage) (rop fmt out : Nat) (native wide verify : Bool) : Bool :=
  (if native then rop == 0 && bits (imgFld x 72 2) fmt 1 == 1 else bits (imgFld x (56 + 2 * rop) 2) fmt 1 == 1) &&
    bits (imgFld x 74 2) out 1 == 1 && (!wide || bits (imgFld x 76 4) 0 1 == 1) &&
    (!verify || bits (imgFld x 76 4) 1 1 == 1)

/-- A combination that Table 8-1 allows. -/
def combOk (rop fmt out : Nat) (native : Bool) : Bool :=
  let io := if isFloat fmt then isFloat out else out == 11 || out == 12
  decide (fmt ≤ 12) && decide (out ≤ 12) && (!native || (rop == 0 && decide (fmt ≤ 10))) &&
    (if rop = 0 || rop = 1 || rop = 2 || rop = 7 then io
     else if rop = 3 || rop = 4 || rop = 5 then (fmt == 11 || fmt == 12) && out == fmt
     else if rop = 6 then
       (decide (fmt ≤ 4) && decide (out ≤ 4)) || ((fmt == 11 || fmt == 12) && (out == 11 || out == 12))
     else false)

/-- The output format of a chunk (R173). -/
def outFmt (c fmt : Nat) (s : State) : Nat := if gx LUNA_CTX.OUT_SAME c s = 1 then fmt else gx LUNA_CTX.OUT_FMT c s

/-- The bitmap bytes that a deadline result carries (R167). -/
def bitmapBytes (c : Nat) (s : State) : Nat := 8 * ceilDiv (gx LUNA_CTX.NSRC c s) 64

/-- The output bytes that R175 bounds. -/
def outSize (c out e : Nat) (s : State) : Nat :=
  outBytes out e + if gx LUNA_CTX.DL_MODE c s = 1 || gx LUNA_CTX.DL_MODE c s = 2 then bitmapBytes c s else 0

/-! ### Core-local SRAM (R205) -/

/-- `n` bytes of a core's SRAM from an address. -/
def memRead (x : LCore) (a n : Nat) : List Byte := (List.range n).map fun i => SMap.get (fun _ => 0) x.mem (a + i)

/-- The SRAM with bytes written from an address on. -/
def memPut : SMap Byte → Nat → List Byte → SMap Byte
  | m, _, [] => m
  | m, a, b :: bs => memPut (SMap.set (fun _ => 0) m a b) (a + 1) bs

/-- The core with bytes written from an address on. -/
def LCore.write (x : LCore) (a : Nat) (bs : List Byte) : LCore := { x with mem := memPut x.mem a bs }

/-- The address of a scratch record (Table 9-6). -/
def scratchAt (n : Nat) : Nat := 0x28000 + 16 * n

/-! ### Payloads -/

/-- The unpacked lane of element `e` of a dense payload (Tables 8-3, 9-7). -/
def laneOf (fmt : Nat) (bs : List Byte) (e : Nat) : Nat :=
  if isMx fmt then
    let blk := (bs.drop (e / 32 * fmtBytes fmt)).take (fmtBytes fmt)
    bits (ofLE (blk.drop 1)) (mxWidth fmt * (e % 32)) (mxWidth fmt) + ofLE (blk.take 1) * 256
  else ofLE ((bs.drop (e * fmtBytes fmt)).take (fmtBytes fmt))

/-- The bytes of an unpacked lane (Table 9-7). -/
def laneBytes (t : Nat) : Nat :=
  if t = 0 || t = 11 then 4 else if t = 1 || t = 2 || isMx t then 2 else if t = 12 then 8 else 1

/-- The bytes of a sparse entry: an index and an element (R192). -/
def entryBytes (fmt : Nat) : Nat := 4 + fmtBytes fmt

/-- The entries of a sparse payload: index and element bits. -/
def sparseEntries (fmt : Nat) (bs : List Byte) : List (Nat × Nat) :=
  (List.range (bs.length / entryBytes fmt)).map fun i =>
    let b := (bs.drop (i * entryBytes fmt)).take (entryBytes fmt)
    (ofLE (b.take 4), ofLE (b.drop 4))

/-- The null entry alone (R192). -/
def isNull (es : List (Nat × Nat)) : Bool := es.length == 1 && (es.map (·.1)) == [0xFFFFFFFF]

/-- Indices strictly ascending. -/
def ascending : List Nat → Bool
  | [] => true
  | [_] => true
  | a :: b :: l => decide (a < b) && ascending (b :: l)

/-- A sparse contribution keeps R192. -/
def sparseOk (fmt maxe : Nat) (bs : List Byte) : Bool :=
  let es := sparseEntries fmt bs
  bs.length % entryBytes fmt == 0 && (isNull es || (ascending (es.map (·.1)) && es.all fun e => e.1 < maxe))

/-- Partial `e` of a wide-form payload (R179). -/
def widePartial (bs : List Byte) (e : Nat) : Partial := Partial.ofNat (ofLE ((bs.drop (44 * e)).take 44))

/-- The bytes of a partial (R179). -/
def partialBytes (p : Partial) : List Byte := toLE 44 p.toNat

/-- The bytes one element of a contribution takes in the hold buffer (R206). -/
def unitBytes (wide : Bool) (rop fmt : Nat) : Nat := if rop = 6 && !wide then 16 else if wide then 44 else laneBytes fmt

/-- The elements, partials or entries of a beat (R198). -/
def beatUnits (wide : Bool) (rop fmt : Nat) : Nat :=
  if rop = 6 && !wide then 16 else if wide then 5 else 256 / laneBytes fmt

/-- The whole elements, partials or entries that payload bytes spell. -/
def landedUnits (wide : Bool) (rop fmt : Nat) (n : Nat) : Nat :=
  if wide then n / 44
  else if rop = 6 then n / entryBytes fmt
  else if isMx fmt then n / fmtBytes fmt * 32
  else n / fmtBytes fmt

/-- The element count of a dense contribution by its LEN; none where LEN holds no whole number of them (R174, R177). -/
def countOf (wide : Bool) (rop fmt len : Nat) : Option Nat :=
  let b := if wide then 44 else if rop = 6 then entryBytes fmt else fmtBytes fmt
  if len % b ≠ 0 then none else some (landedUnits wide rop fmt len)

end Sys2Proof.Machine
end

