-- ==== Sys2Proof/Machine/LunaOut.lean ====
section
/-! DEFINITION. What a Luna die sends and how a chunk and a step end: results, failures, step reports, done bits, the close of
a step, tasks discarded (R161 to R168, R217). -/

namespace Sys2Proof.Machine

/-! ### Sending (R161, R162, R168) -/

/-- The unit number of a die's reports (R47). -/
def reportUnit (d : Nat) : Nat := 0x7F8 + d

/-- The traces of a seal that fails for want of a SEQ value (R48); an absent key leaves none of its own at a Luna die
(R367). -/
def lunaSealFail (slot unit : Nat) (s : State) : State :=
  if slotKind .ox9 slot s = 2 && (keySlot .ox9 slot s).isSome then seqExhausted .ox9 slot unit s else s

/-- The traces of a step report that cannot be sealed: a request that is not issued (R367). -/
def reportSealFail (d slot unit : Nat) (s : State) : State :=
  if slotKind .ox9 slot s = 2 && (keySlot .ox9 slot s).isSome then seqExhausted .ox9 slot unit s
  else raise .ox9 (Event.mk0 .ox9 .checkFail true (52 + d) 6 slot [na slot] s) (countD (52 + d) .keyAbsent s)

/-- SUBOP of a result (Table 2-5). -/
def resultSubop (rop : Nat) (native part dense : Bool) (adv : Nat) : Nat :=
  rop + native.toNat * 16 + part.toNat * 32 + dense.toNat * 64 + adv * 128

/-- The header of a result or a wide-form packet, before its SEQ. -/
def redHeader (c op status dst unit fmt subop len : Nat) (enc mc : Bool) (comm : Nat) (id : ChunkId) (s : State) : Header :=
  { opcode := BitVec.ofNat 6 op, vc := 2, status := BitVec.ofNat 4 status
    part := BitVec.ofNat 12 (gx LUNA_CTX.PART c s), srcEp := BitVec.ofNat 12 (gx FWD_CTRL.OX9_EP 0 s)
    dstEp := BitVec.ofNat 12 dst, tag := 0, enc := enc
    w1 := BitVec.ofNat 64 (mkChunkWord comm id.chunk id.tree id.step unit fmt), len := BitVec.ofNat 13 len, scope := 2
    lcId := if op = opRRESULT then BitVec.ofNat 12 (gx LUNA_CTX.LC_ID c s) else 0
    keySlot := BitVec.ofNat 13 (if enc then gx LUNA_CTX.KEY_OUT c s else 0), subop := BitVec.ofNat 8 subop, mc := mc
    mcg := if mc then BitVec.ofNat 15 (gx LUNA_CTX.RESULT_MCG c s) else 0, ageStamp := stampNow s, seq := 0 }

/-- A packet of a Luna die sealed under the key its cache holds (R371); none where it cannot be. -/
def lunaSeal (d unit : Nat) (h : Header) (payload : List Byte) (s : State) : Option (Packet × State) :=
  if keyCached d h.keySlot.toNat s then sealPacket .ox9 2 unit unit h payload s else none

/-- A reduction packet sealed where the context encrypts, in clear with its digest otherwise; none where it cannot be
sealed. -/
def formRed (d : Nat) (h : Header) (payload : List Byte) (s : State) : Option (Packet × State) :=
  if h.enc then lunaSeal d h.unit h payload s else some (clearRed h payload, s)

/-- A packet of a Luna die enters forwarding. -/
def lunaSend (d : Nat) (pk : Packet) (s : State) : State := enter (.die (Fin.ofNat 64 (52 + d))) pk false s

/-- A failure result: its STATUS, no payload. One that cannot be sealed goes in clear (log entry 43, DEDUCED). -/
def sendFailure (d cl : Nat) (id : ChunkId) (rop : Nat) (native : Bool) (fmt status : Nat) (s : State) : State :=
  let c := id.comm
  let unit := 1 + logicalOf (lowestCore d cl s) s
  let enc := gx LUNA_CTX.ENC c s == 1
  let h := redHeader c opRRESULT status 0 unit (outFmt c fmt s) (resultSubop rop native false false (gx LUNA_CTX.LC_ADV c s))
    0 enc true c id s
  match formRed d h [] s with
  | some (pk, s1) => lunaSend d pk s1
  | none => lunaSend d (clearRed { h with enc := false, keySlot := 0 } []) (lunaSealFail h.keySlot.toNat unit s)

/-! ### Done bits, tasks, removal -/

/-- A chunk's done bit is set. -/
def isDone (d : Nat) (id : ChunkId) (s : State) : Bool := (lctx d id.comm s).done.contains id

/-- The done bit of a chunk set; a DORMANT context has none. -/
def setDone (d : Nat) (id : ChunkId) (s : State) : State :=
  if (lctx d id.comm s).st = 0 || isDone d id s then s
  else modCtx d id.comm (fun x => { x with done := x.done ++ [id] }) s

/-- The cores of a die. -/
def dieCores (d : Nat) : List Nat := (List.range 108).map (108 * d + ·)

/-- Every task of a chunk leaves every core of the die, the one that runs included (R217; log entry 44, DEDUCED). -/
def dropTasks (d : Nat) (id : ChunkId) (s : State) : State :=
  (dieCores d).foldl (fun s c =>
    let x := lcore c s
    if x.run.any (fun t => t.id = id) || x.queue.any (fun t => t.id = id) then
      setCore c { x with run := x.run.filter fun t => t.id ≠ id, queue := x.queue.filter fun t => t.id ≠ id } s
    else s) s

/-- A task of a chunk runs or waits on a core of the die. -/
def tasksLeft (d : Nat) (id : ChunkId) (s : State) : Bool :=
  (dieCores d).any fun c => (lcore c s).run.any (fun t => t.id = id) || (lcore c s).queue.any fun t => t.id = id

/-- The chunk's slot is freed. -/
def removeChunk (d : Nat) (id : ChunkId) (s : State) : State :=
  dropTasks d id (modLuna d (fun x => { x with chunks := x.chunks.filter fun c => c.id ≠ id }) s)

/-- The emitting tree of a chunk in verify mode (R169). -/
def emitsHere (id : ChunkId) (s : State) : Bool := gx LUNA_CTX.VERIFY id.comm s == 0 || id.tree == id.chunk % 2

/-- The die of a chunk's other tree. -/
def peerDie (id : ChunkId) (s : State) : Option Nat := chunkDie { id with tree := 1 - id.tree } s

/-- A check record leaves for the emitting die (R169). -/
def sendRecord (id : ChunkId) (failed : Bool) (bitmap : List Nat) (digests : List (BitVec 64)) (cores : List Nat)
    (s : State) : State :=
  match peerDie id s with
  | some p => emit (.checkRecord p { comm := id.comm, chunk := id.chunk, step := id.step, failed := failed, bitmap := bitmap
                                     digests := digests, cores := cores }) s
  | none => s

/-! ### Step reports (R168) -/

/-- The lateness of each slot: 0x3F_FFFF where it is absent from an emitted chunk. -/
def lateness (x : LStep) (n : Nat) : List (Nat × Nat) :=
  (List.range n).map fun k =>
    (k, if x.missing.contains k then 0x3FFFFF
        else min 0x3FFFFE ((SMap.get (fun _ => x.firstFt) x.late k - x.firstFt) / 256))

/-- The entry of highest lateness, the lower slot first. -/
def latest : List (Nat × Nat) → Option (Nat × Nat)
  | [] => none
  | e :: l => match latest l with
    | some b => if e.2 < b.2 then some b else some e
    | none => some e

/-- The first `n` entries in descending order of lateness. -/
def latestN : Nat → List (Nat × Nat) → List (Nat × Nat)
  | 0, _ => []
  | n + 1, l => match latest l with
    | some e => e :: latestN n (l.erase e)
    | none => []

/-- The payload of a step report (Tables 7-6, 7-7). -/
def reportBytes (d c : Nat) (x : LStep) (s : State) : List Byte :=
  let ents := latestN 48 (lateness x (gx LUNA_CTX.NSRC c s))
  toLE 8 (c + x.step * 2 ^ 14 + d * 2 ^ 22 + x.dlHit.toNat * 2 ^ 25 + x.event.toNat * 2 ^ 26) ++
    toLE 8 (x.emitted + x.partials * 2 ^ 24) ++ toLE 8 x.failed ++ toLE 8 x.firstFt ++ toLE 8 (ft s) ++ toLE 8 x.digest ++
    toLE 8 (ents.length + x.missing.length * 2 ^ 10) ++ toLE 8 0 ++
    (ents.map fun e => toLE 4 (e.1 + e.2 * 2 ^ 10)).flatten

/-- The step report of a step that closes. -/
def sendReport (d c : Nat) (x : LStep) (s : State) : State :=
  let p := reportBytes d c x s
  let enc := gx LUNA_CTX.ENC c s == 1
  let h : Header :=
    { opcode := BitVec.ofNat 6 opMSG, vc := 0, status := 0, part := BitVec.ofNat 12 (gx LUNA_CTX.PART c s)
      srcEp := BitVec.ofNat 12 (gx FWD_CTRL.OX9_EP 0 s), dstEp := BitVec.ofNat 12 (gx LUNA_CTX.RPT_EP c s), tag := 0
      enc := enc, w1 := BitVec.ofNat 64 (mkAddr 0 (gx LUNA_CTX.RPT_EP c s) (c + x.step * 2 ^ 14))
      len := BitVec.ofNat 13 p.length, scope := 2, lcId := 0
      keySlot := BitVec.ofNat 13 (if enc then gx LUNA_CTX.KEY_OUT c s else 0)
      subop := BitVec.ofNat 8 (gx LUNA_CTX.RPT_QUEUE c s), mc := false, mcg := 0, ageStamp := stampNow s, seq := 0 }
  if enc then
    match lunaSeal d (reportUnit d) h p s with
    | some (pk, s1) => lunaSend d pk s1
    | none => reportSealFail d h.keySlot.toNat (reportUnit d) s
  else lunaSend d { hdr := h, payload := p, trailer := [] } s

/-! ### The close of a step (R163, R234, R430) -/

/-- The figures of a step whose first contribution has come. -/
def LStep.fresh (n now : Nat) : LStep :=
  { step := n, firstFt := now, emitted := 0, partials := 0, failed := 0, digest := 0, late := [], missing := []
    event := false, dlHit := false, first := none }

/-- The deadline a die holds for a context: as a launch wrote it for the die, else as the last program wrote it. -/
def dieDeadline (d c : Nat) (s : State) : Nat := (lctx d c s).dlReg.getD (gx LUNA_CTX.DEADLINE c s)

/-- Every chunk of the open step in the die's share has its done bit set. -/
def stepComplete (d c : Nat) (s : State) : Bool :=
  let x := lctx d c s
  x.st != 0 && (shareOf d c x.curStep s).all fun id => x.done.contains id

/-- A launch is answered OK once every die is written (R430). -/
def finishLaunches (c : Nat) (s : State) : State :=
  if (List.range 8).any fun d => (lctx d c s).held.isSome then s
  else
    let due := s.monarch.launches.filter fun l => l.1 = c
    due.foldl (fun s l => respond (activeMonarch s) l.2 stOK s)
      { s with monarch := { s.monarch with launches := s.monarch.launches.filter fun l => l.1 ≠ c } }

/-- The open step of a context closes: its report, CUR_STEP, its done bits, the latch of the deadline the die then holds; a
launch that was held is written in the clock after (R430). -/
def closeOne (d c : Nat) (s : State) : State :=
  let x := lctx d c s
  let rec0 := (stepOf d c x.curStep s).getD (LStep.fresh x.curStep (ft s))
  let s1 := if gx LUNA_CTX.RPT_EN c s = 1 then sendReport d c rec0 s else s
  let n := (x.curStep + 1) % 256

  let s2 := modCtx d c (fun y => { y with
    curStep := n
    done := y.done.filter fun id => id.step ≠ x.curStep
    steps := y.steps.filter fun z => z.step ≠ x.curStep
    st := if (stepOf d c n s1).isSome then 2 else 1
    latched := if gx LUNA_CTX.DL_MODE c s1 = 2 then some (dieDeadline d c s1) else none
    dlReg := match y.held with | some v => some v | none => y.dlReg
    held := none }) s1
  finishLaunches c (modLuna d (fun z => { z with records := z.records.filter fun r => !(r.comm == c && r.step == x.curStep) }) s2)

/-- The open step closes where it is complete; so does the next one where it then is. -/
def closeStep (d c : Nat) (s : State) : State :=
  let s1 := if stepComplete d c s then closeOne d c s else s
  if stepComplete d c s1 && (lctx d c s1).curStep ≠ (lctx d c s).curStep then closeOne d c s1 else s1

/-! ### Chunks that end -/

/-- A chunk ends at once with a failure (R162): every task of it goes, its slot is freed, its done bit set; on the checking
die of verify mode the emitting die hears of it instead of the members (R169; log entry 45, DEDUCED). The caller closes the step. -/
def failChunk (d : Nat) (id : ChunkId) (cl rop : Nat) (native : Bool) (fmt status : Nat) (s : State) : State :=
  let s1 := removeChunk d id s
  let s2 := if emitsHere id s1 then sendFailure d cl id rop native fmt status s1 else sendRecord id true [] [] [] s1
  let s3 := modStep d id.comm id.step (fun x => { x with failed := x.failed + 1 }) s2
  countP (gx LUNA_CTX.PART id.comm s3) .lunaChunksFailed (setDone d id s3)

/-- An open chunk fails. -/
def failOpen (d : Nat) (id : ChunkId) (status : Nat) (s : State) : State :=
  match chunkOf d id s with
  | some c => failChunk d id c.cluster c.rop c.native c.fmt status s
  | none => s

/-- The members absent from a chunk. -/
def absentOf (c : LChunk) (s : State) : List Nat :=
  (List.range (gx LUNA_CTX.NSRC c.id.comm s)).filter fun k => !c.bitmap.contains k

/-- The contributor bitmap as bytes (R167). -/
def bitmapLE (c : LChunk) (s : State) : List Byte :=
  ((List.range (ceilDiv (gx LUNA_CTX.NSRC c.id.comm s) 64)).map fun w =>
    toLE 8 (((List.range 64).filter fun b => c.bitmap.contains (64 * w + b)).foldl (fun a b => a + 2 ^ b) 0)).flatten

/-- The term of an emitted chunk in the tensor digest (R165). -/
def digestTerm (id : ChunkId) (payload : List Byte) : Nat := crc64 (toLE 8 (id.chunk + id.tree * 2 ^ 24) ++ payload)

/-- A chunk was emitted with OK: its figures, its slot, its done bit (R161, R165). -/
def chunkEmitted (d : Nat) (c : LChunk) (payload : List Byte) (s : State) : State :=
  let s1 := removeChunk d c.id s
  let s2 := modStep d c.id.comm c.id.step (fun x => { x with
    emitted := x.emitted + 1
    partials := x.partials + c.partialEnd.toNat
    digest := (x.digest + digestTerm c.id payload) % 2 ^ 64
    missing := (absentOf c s).foldl (fun l k => insertSorted k l) x.missing }) s1
  let s3 := countP (gx LUNA_CTX.PART c.id.comm s2) .lunaChunksOk (setDone d c.id s2)
  if c.outRange then countD (52 + d) .lunaOutRange s3 else s3

/-- Partials of a chunk read from staging, one read for each of `n`; a lost word fails the chunk with POISON (R31, R33,
R162). -/
def readStaged (d : Nat) (c : LChunk) (n : Nat) (f : State → State) (s : State) : State :=
  if (silentReads (52 + d) n s).1 then failOpen d c.id stPoison (silentReads (52 + d) n s).2
  else f (silentReads (52 + d) n s).2

/-- The wide form of a finished chunk, its partials read, leaves for the parent (R160). -/
def emitWide (d : Nat) (c : LChunk) (s : State) : State :=
  let k := c.id.comm
  let payload := ((List.range c.e).map fun e => partialBytes (SMap.get (fun _ => partialId c.rop) c.parts e)).flatten
  let unit := 1 + logicalOf (lowestCore d c.cluster s) s
  let enc := gx LUNA_CTX.ENC k s == 1
  let h := redHeader k opRCONTRIB 0 (gx LUNA_CTX.PARENT_EP k s) unit c.fmt (c.rop + c.native.toNat * 16) payload.length enc
    false (gx LUNA_CTX.PARENT_COMM k s) c.id s
  match formRed d h payload s with
  | some (pk, s1) => chunkEmitted d c payload (lunaSend d pk s1)
  | none => failOpen d c.id stCheckFail (lunaSealFail h.keySlot.toNat unit s)

/-- The wide form of a finished chunk: its partials are read from staging and sent. -/
def sendWide (d : Nat) (c : LChunk) (s : State) : State := readStaged d c c.e (emitWide d c) s

/-! ### The output (R161, R191, R195) -/

/-- The packed bytes of a dense output of `n` elements: an MX format packs blocks under their scales, padded (R174, R177). -/
def packDense (out n : Nat) (lane : Nat → Nat) (scale : Nat → Nat) : List Byte :=
  if isMx out then
    ((List.range (ceilDiv n 32)).map fun b =>
      BitVec.ofNat 8 (scale b) :: toLE (4 * mxWidth out)
        ((List.range 32).foldl (fun a j =>
          a + (if 32 * b + j < n then bits (lane (32 * b + j)) 0 (mxWidth out) else 0) * 2 ^ (mxWidth out * j)) 0)).flatten
  else ((List.range n).map fun e => toLE (fmtBytes out) (lane e)).flatten

/-- The sparse form of an output (R195): entries in ascending index order; the null entry where there is none. -/
def packSparse (out : Nat) (ks : List Nat) (lane : Nat → Nat) : List Byte :=
  if ks.isEmpty then toLE 4 0xFFFFFFFF ++ toLE (fmtBytes out) 0
  else (ks.map fun k => toLE 4 k ++ toLE (fmtBytes out) (lane k)).flatten

/-- A chunk leaves in sparse form: a list whose entries need no more bytes than the dense form, or without any (R195). -/
def sparseForm (c : LChunk) (out : Nat) : Bool :=
  c.rop == 6 && !c.dense && (c.recs.isEmpty || decide (c.recs.length * entryBytes out ≤ outBytes out c.e))

/-- The output payload of a finished chunk, the bitmap of a partial result included. -/
def outPayload (c : LChunk) (s : State) : List Byte :=
  let out := outFmt c.id.comm c.fmt s
  let lane := fun e => SMap.get (fun _ => 0) c.outs e
  (if sparseForm c out then packSparse out (c.recs.map (·.1)) lane
   else packDense out c.e lane fun b => SMap.get (fun _ => 0) c.scales b) ++
    if c.partialEnd then bitmapLE c s else []

/-- The result of a finished chunk leaves (R161). -/
def sendResult (d : Nat) (c : LChunk) (s : State) : State :=
  let k := c.id.comm
  let out := outFmt k c.fmt s
  let payload := outPayload c s
  let unit := 1 + logicalOf (lowestCore d c.cluster s) s
  let enc := gx LUNA_CTX.ENC k s == 1
  let h := redHeader k opRRESULT 0 0 unit out
    (resultSubop c.rop c.native c.partialEnd (c.rop == 6 && !sparseForm c out) (gx LUNA_CTX.LC_ADV k s)) payload.length enc
    true k c.id s
  match formRed d h payload s with
  | some (pk, s1) => chunkEmitted d c payload (lunaSend d pk s1)
  | none => failOpen d c.id stCheckFail (lunaSealFail h.keySlot.toNat unit s)

end Sys2Proof.Machine
end

