-- ==== Sys2Proof/Machine/LunaTask.lean ====
section
/-! DEFINITION. The stream unit and the distributor: tasks dispatched to cores, hold ranges, chunks opened and brought to
their end, verification and divergence, cores retired, contexts armed, disarmed and invalidated (R154 to R171, R196 to R204,
R216, R217, R226). -/

namespace Sys2Proof.Machine

/-! ### Tasks (R196, R202, R204) -/

/-- A sparse chunk still in list form. -/
def isList (c : LChunk) : Bool := c.rop == 6 && !c.dense

/-- A task joins a core's queue. -/
def pushTask (core : Nat) (t : LTask) (s : State) : State := modCore core (fun x => { x with queue := x.queue ++ [t] }) s

/-- The records of a list chunk that a core holds: those of its columns. -/
def coreRecs (c : LChunk) (elems : List Nat) : List Nat := (c.recs.map (·.1)).filter fun k => elems.contains k

/-- The cores of a chunk, each with its core order. -/
def chunkCores (d : Nat) (c : LChunk) (s : State) : List (Nat × List Nat) :=
  let sv := serveOf d c.cluster s
  (List.range sv.length).map fun i => (nth sv i, coreElems sv.length i c.e)

/-- A task without a contribution dispatched to every core of a chunk, where the program has an entry for its kind. -/
def dispatchAll (d : Nat) (c : LChunk) (kind : Nat) (s : State) : State :=
  if !hasEntry d c.id.comm kind s then s
  else
    (chunkCores d c s).foldl (fun s (x : Nat × List Nat) =>
      pushTask x.1
        { id := c.id, kind := kind, slot := 0, wide := false, dense := c.rop == 6 && c.dense, elems := x.2, s2 := 0
          s3 := if isList c && (kind == 4 || kind == 5) then (coreRecs c x.2).length else x.2.length
          s4 := 0, holdAt := 0, holdLen := 0 } s) s

/-! ### Hold ranges (R198) -/

/-- A length rounded up to whole 64-byte units. -/
def round64 (n : Nat) : Nat := ceilDiv n 64 * 64

/-- The ranges of a core's hold buffer in use: those of streaming contributions and of tasks that wait or run. -/
def holdUsed (d core : Nat) (s : State) : List (Nat × Nat) :=
  let x := lcore core s
  ((((lunaDie d s).chunks.map fun c => (c.streams.filter fun t => t.alloc).map fun t =>
      (t.parts.filter fun p => p.core = core && 0 < p.len).map fun p => (p.addr, p.len)).flatten).flatten) ++
    (((x.run.toList ++ x.queue).filter fun t => 0 < t.holdLen).map fun t => (t.holdAt, t.holdLen))

/-- What of a core's SRAM fenced rows take away (R34): address and length. -/
def coreFenced (core : Nat) (s : State) : List (Nat × Nat) := fencedRanges (52 + core / 108) (1 + core) s

/-- The lowest free range of a length in the 160 KiB hold buffer. -/
def holdFit (used : List (Nat × Nat)) (len : Nat) : Option Nat :=
  let ok := fun a => decide (a + len ≤ 0x28000) && used.all fun u => decide (a + len ≤ u.1) || decide (u.1 + u.2 ≤ a)
  let cands := (0 :: used.map fun u => round64 (u.1 + u.2)).filter ok
  match cands with
  | [] => none
  | a :: l => some (l.foldl min a)

/-- The hold ranges of a contribution, one for each core of its chunk; none where one of them does not fit. -/
def allocParts (d : Nat) (c : LChunk) (t : LStream) (s : State) : Option (List LPart) :=
  let ub := unitBytes t.wide c.rop c.fmt
  (chunkCores d c s).foldl (fun acc (x : Nat × List Nat) =>
    match acc with
    | none => none
    | some l =>
      let n := if c.rop = 6 && !t.wide then t.hdr.len.toNat / entryBytes c.fmt else x.2.length
      match holdFit (holdUsed d x.1 s ++ coreFenced x.1 s) (round64 (n * ub)) with
      | some a => some (l ++ [{ core := x.1, elems := x.2, addr := a, len := round64 (n * ub), landed := 0, sent := 0 }])
      | none => none) (some [])

/-- The stream of a slot of a chunk. -/
def streamOf (c : LChunk) (slot : Nat) : Option LStream := c.streams.find? fun t => t.slot = slot

/-- The state with a stream replaced. -/
def setStream (d : Nat) (id : ChunkId) (t : LStream) (s : State) : State :=
  modChunk d id (fun c => { c with streams := c.streams.map fun u => if u.slot = t.slot then t else u }) s

/-- A contribution receives its hold ranges; that of a native chunk needs none (R196). -/
def allocStream (d : Nat) (id : ChunkId) (slot : Nat) (s : State) : State :=
  match chunkOf d id s with
  | none => s
  | some c =>
    match streamOf c slot with
    | none => s
    | some t =>
      if t.alloc || c.waking then s
      else if c.native then setStream d id { t with alloc := true } s
      else
        match allocParts d c t s with
        | some ps => setStream d id { t with alloc := true, parts := ps } s
        | none => s

/-- The units of a contribution that have landed on a core, in core order, as they lie in the hold buffer (R206). -/
def landedOn (c : LChunk) (t : LStream) (plain : List Byte) (p : LPart) : List (List Byte) :=
  if c.rop = 6 && !t.wide then
    ((sparseEntries c.fmt plain).filter fun e => p.elems.contains e.1).map fun e => toLE 8 e.1 ++ toLE 8 e.2
  else
    let n := landedUnits t.wide c.rop c.fmt plain.length
    (p.elems.filter fun e => e < n).map fun e =>
      if t.wide then partialBytes (widePartial plain e) else toLE (laneBytes c.fmt) (laneOf c.fmt plain e)

/-- The task of a beat. -/
def beatTask (c : LChunk) (t : LStream) (p : LPart) (ub sent n : Nat) : LTask :=
  { id := c.id, kind := 1, slot := t.slot, wide := t.wide, dense := c.rop == 6 && c.dense, elems := p.elems
    s2 := p.addr + sent * ub, s3 := n, s4 := sent, holdAt := p.addr, holdLen := p.len }

/-- One part of a contribution: what has come lands in its hold range, and every full beat is dispatched; at the EOP the
rest is (R198). -/
def landPart (d : Nat) (c : LChunk) (t : LStream) (plain : List Byte) (eop : Bool) (p : LPart) (s : State) : LPart × State :=
  let us := landedOn c t plain p
  let ub := unitBytes t.wide c.rop c.fmt
  let s1 := modCore p.core (fun x => x.write (p.addr + p.landed * ub) (us.drop p.landed).flatten) s
  let b := beatUnits t.wide c.rop c.fmt
  let full := (us.length - p.sent) / b
  let rest := us.length - p.sent - full * b
  if !hasEntry d c.id.comm 1 s then ({ p with landed := us.length }, s1)
  else
    let s2 := (List.range full).foldl (fun s i => pushTask p.core (beatTask c t p ub (p.sent + i * b) b) s) s1
    let s3 := if eop && 0 < rest then pushTask p.core (beatTask c t p ub (p.sent + full * b) rest) s2 else s2
    ({ p with landed := us.length, sent := if eop then us.length else p.sent + full * b }, s3)

/-- What has come of a contribution lands on every core. -/
def landStream (d : Nat) (c : LChunk) (t : LStream) (plain : List Byte) (eop : Bool) (s : State) : LStream × State :=
  let (ps, s1) := t.parts.foldl (fun (acc : List LPart × State) p =>
    let (q, s) := landPart d c t plain eop p acc.2
    (acc.1 ++ [q], s)) ([], s)
  ({ t with parts := ps }, s1)

/-- The plaintext of what has come, under the slot as it stood at the SOP (R366); none while it cannot be told under which of
two keys the tag will verify (R372; log entry 46, DEDUCED). -/
def streamPlain (t : LStream) : Option (List Byte) :=
  if !t.hdr.enc then some t.bytes
  else
    match t.key with
    | some k => if k.old.isSome then none else some (gcmXor k.key (ivOf t.hdr (ivUnit t.hdr)) 0 t.bytes)
    | none => none

/-- What has come of a stream lands. -/
def landSoFar (d : Nat) (id : ChunkId) (slot : Nat) (s : State) : State :=
  match chunkOf d id s with
  | none => s
  | some c =>
    match streamOf c slot with
    | none => s
    | some t =>
      match t.alloc, streamPlain t with
      | true, some plain =>
        let (t1, s1) := landStream d c t plain false s
        setStream d id t1 s1
      | _, _ => s

/-! ### Chunks opened (R151, R159, R205, R449) -/

/-- A chunk holds a record of a core's SRAM (R205): on the cores of its cluster the record it took as it opened; that of its
RECOMP tasks on every core of the die, so that they keep it on another core (R217). -/
def takesRecord (d core n : Nat) (c : LChunk) (s : State) : Bool :=
  ((serveOf d c.cluster s).contains core && c.scratch == n) || (c.arbiter.isSome && c.rscratch == n)

/-- A scratch record of a core that no open chunk holds and no fenced row takes away. -/
def recordFree (d core n : Nat) (s : State) : Bool :=
  !((lunaDie d s).chunks.any fun c => takesRecord d core n c s) &&
    (coreFenced core s).all fun u => decide (scratchAt n + 16 ≤ u.1) || decide (u.1 + u.2 ≤ scratchAt n)

/-- The lowest scratch record free on every core of a cluster. -/
def freeScratch (d cl : Nat) (s : State) : Nat :=
  (firstBelow 3072 fun n => (serveOf d cl s).all fun k => recordFree d k n s).getD 0

/-- The scratch record of an arbiter for a chunk of another cluster: the highest that is free on every core of the die, which
no cluster comes to use, else the highest that is free on the arbiter (R205; log entry 92, DESIGN CHOICE). -/
def arbiterScratch (d core : Nat) (s : State) : Nat :=
  match firstBelow 3072 fun n => (dieCores d).all fun k => recordFree d k (3071 - n) s with
  | some n => 3071 - n
  | none => ((firstBelow 3072 fun n => recordFree d core (3071 - n) s).map (3071 - ·)).getD 3071

/-- The chunk's scratch record zeroed on every core of its cluster. -/
def zeroScratch (d cl n : Nat) (s : State) : State :=
  (serveOf d cl s).foldl (fun s c => modCore c (fun x => x.write (scratchAt n) (List.replicate 16 0)) s) s

/-- The record of a chunk that opens. -/
def LChunk.fresh (id : ChunkId) (cl : Nat) (waking : Bool) (scratch rop : Nat) (native : Bool) (fmt e : Nat)
    (record : Option CheckRecord) : LChunk :=
  { id := id, cluster := cl, waking := waking, scratch := scratch, rop := rop, native := native, fmt := fmt, e := e
    bitmap := [], parts := [], acc := [], recs := [], dense := false, stored := [], streams := [], blocks := []
    scales := [], outs := [], phase := .fill, ending := false, partialEnd := false, outRange := false, doneFt := 0
    record := record, verified := false, cols := [], arbiter := none, rscratch := 0, rparts := [], racc := [] }

/-- A cluster in Cocoon wakes (R449). -/
def wakeCluster (d cl : Nat) (s : State) : State :=
  if clusterAsleep d cl s then
    satAdd .ox9 DOM_STAT.WAKES (clusterDom d cl) 1 (sx DOM_STAT.STATE (clusterDom d cl) 3 s)
  else s

/-- A check record that came before its chunk opened. -/
def earlyRecord (d : Nat) (id : ChunkId) (s : State) : Option CheckRecord :=
  (lunaDie d s).records.find? fun r => r.comm == id.comm && r.chunk == id.chunk && r.step == id.step

/-- Every cluster that the columns of a cluster run in wakes. -/
def wakeHomes (d cl : Nat) (s : State) : State := (homeClusters d cl s).foldl (fun s k => wakeCluster d k s) s

/-- One of those clusters is not ON. -/
def homesDown (d cl : Nat) (s : State) : Bool := (homeClusters d cl s).any fun k => clusterDown d k s

/-- A chunk opens in a free slot: the distributor's cluster, its scratch record, the OPEN tasks; in a cluster that wakes all
this waits. -/
def openChunk (d : Nat) (id : ChunkId) (rop : Nat) (native : Bool) (fmt e : Nat) (s : State) : State :=
  match pickCluster d s with
  | none => s
  | some cl =>
    let waking := homesDown d cl s
    let n := freeScratch d cl s
    let c := LChunk.fresh id cl waking n rop native fmt e (if emitsHere id s then earlyRecord d id s else none)
    let s1 := modLuna d (fun x => { x with ptr := (cl + 1) % 9, chunks := x.chunks ++ [c] }) (wakeHomes d cl s)
    let s2 := modStep d id.comm id.step (fun x => { x with
      first := match x.first with | some f => some f | none => some (rop, native, fmt) }) s1
    if waking then s2 else dispatchAll d c 0 (zeroScratch d cl n s2)

/-- The chunks of a die that waited for a wake that is done open. -/
def wakeChunks (d : Nat) (s : State) : State :=
  ((lunaDie d s).chunks.filter fun c => c.waking && !homesDown d c.cluster s).foldl (fun s c =>
    dispatchAll d c 0 (zeroScratch d c.cluster c.scratch (modChunk d c.id (fun x => { x with waking := false }) s))) s

/-! ### Column digests (R169) -/

/-- The digests of the columns of exact partials or FP32 accumulators. -/
def columnDigest (native : Bool) (rop e l : Nat) (parts : SMap Partial) (acc : SMap Nat) : BitVec 64 :=
  BitVec.ofNat 64 (crc64 ((columnElems l e).map fun k =>
    if native then toLE 4 (SMap.get (fun _ => 0) acc k)
    else partialBytes (SMap.get (fun _ => partialId rop) parts k)).flatten)

/-- A chunk's partials in dense form: those of a list are its records. -/
def denseParts (c : LChunk) : SMap Partial :=
  if isList c then c.recs.map fun r => (r.1, r.2.getD (partialId 6)) else c.parts

/-- The 132 column digests of a chunk. -/
def columnDigests (c : LChunk) : List (BitVec 64) :=
  (List.range 132).map fun l => columnDigest c.native c.rop c.e l (denseParts c) c.acc

/-! ### Cores retired (R28, R171, R216, R217, R391) -/

/-- The cluster and the place of a core among those that columns run on. -/
def servesAt (d core : Nat) (s : State) : Option (Nat × Nat) :=
  ((List.range 9).filterMap fun cl => ((serveOf d cl s).findIdx? fun c => c = core).map fun i => (cl, i)).head?

/-- The state with the cores of a cluster set. -/
def setServe (d cl : Nat) (l : List Nat) (s : State) : State :=
  modLuna d (fun x => { x with serve := SMap.set (serveReset d) x.serve cl l }) s

/-- The LUNA_CORE_MAP entry of a core, by index. -/
def mapIndexOf (core : Nat) (s : State) : Option Nat :=
  ((List.range 100).find? fun i =>
    gx LUNA_CORE_MAP.VALID (100 * (core / 108) + i) s == 1 && gx LUNA_CORE_MAP.PHYS (100 * (core / 108) + i) s == core).map
    (100 * (core / 108) + ·)

/-- The streams of a die that use a core use its replacement. -/
def moveStreams (d old new : Nat) (s : State) : State :=
  modLuna d (fun x => { x with chunks := x.chunks.map fun c => { c with streams := c.streams.map fun t => { t with
    parts := t.parts.map fun p => if p.core = old then { p with core := new } else p } } }) s

/-- The chunks that a core recomputes are its replacement's. -/
def moveArbiter (d old new : Nat) (s : State) : State :=
  modLuna d (fun x => { x with chunks := x.chunks.map fun c => if c.arbiter = some old then { c with arbiter := some new } else c }) s

/-- What the SRAM of a core that takes over keeps of its own: the records of the chunks it recomputes, and the task-local area
of a task it runs (R205). -/
def ownSram (core : Nat) (s : State) : List (Nat × Nat) :=
  (((lunaDie (core / 108) s).chunks.filter fun c => c.arbiter = some core).map fun c => (scratchAt c.rscratch, 16)) ++
    (if (lcore core s).run.isSome then [(0x34000, 1024)] else [])

/-- A core's queued tasks and its SRAM pass to its replacement, whose cluster wakes (R217, R448). -/
def moveQueue (old new : Nat) (s : State) : State :=
  let x := lcore old s
  let kept := ownSram new s
  wakeCluster (new / 108) (clusterOf new) (moveArbiter (new / 108) old new
    (modCore new (fun y => kept.foldl (fun z r => z.write r.1 (memRead y r.1 r.2))
      { y with queue := y.queue ++ x.queue, mem := x.mem }) (setCore old { x with queue := [] } s)))

/-- A spare leaves the spares of its die; the RECOMP tasks queued on it move to the lowest-numbered spare that is left, if
one is (R171, R217). -/
def dropSpare (core : Nat) (s : State) : State :=
  let d := core / 108
  let s1 := noteChange (modLuna d (fun x => { x with spares := x.spares.erase core }) s)
  let s2 := sx DIE_INFO.SPARES_LEFT (52 + d) (gx DIE_INFO.SPARES_LEFT (52 + d) s1 - 1) s1
  match (lunaDie d s2).spares with
  | r :: rs => moveQueue core (rs.foldl min r) s2
  | [] => s2

/-- A core that serves no columns is retired: a spare leaves the spares of its die; it has no logical number (R171, R216;
log entry 93, DESIGN CHOICE). -/
def retireSpare (core : Nat) (perm : Bool) (s : State) : State :=
  let d := core / 108
  if !(lunaDie d s).spares.contains core then s
  else
    let s2 := withdraw .lunaCore core perm (dropSpare core s)
    raise .ox9 (Event.mk0 .ox9 .lunaCoreRetired false (52 + d) 7 core [na core, na 0] s2)
      (countD (52 + d) .lunaCoreRetired s2)

/-- A sorted list of the elements of a batch, or of cores. -/
def sortElems (l : List Nat) : List Nat := l.foldl (fun a k => insertSorted k a) []

/-- A core is retired: its columns and its logical number pass to the replacement named, else to the lowest unused spare;
without one its logical number leaves service and the columns are divided anew among the rest, in ascending physical number
(R28, R151, R171). -/
def retireCore (core : Nat) (perm : Bool) (repl : Option Nat) (s : State) : State :=
  let d := core / 108
  match servesAt d core s with
  | none => retireSpare core perm s
  | some (cl, i) =>
    let lg := logicalOf core s
    let s1 := withdraw .lunaCore core perm s
    let traces := fun s => raise .ox9 (Event.mk0 .ox9 .lunaCoreRetired false (52 + d) 7 core [na core, na lg] s)
      (countD (52 + d) .lunaCoreRetired s)
    let lowest := match (lunaDie d s).spares.head? with
      | some r => some r
      | none => candidate .lunaCore (fun k => k / 108 == d) s
    let spare := match repl with
      | some r => if (lunaDie d s).spares.contains r then some r else lowest
      | none => lowest
    match spare with
    | some r =>
      let s2 := match mapIndexOf core s1 with | some k => sx LUNA_CORE_MAP.PHYS k r s1 | none => s1
      let s3 := setServe d cl (setAt (serveOf d cl s2) i r) (modLuna d (fun x => { x with spares := x.spares.erase r }) s2)
      let s4 := takeCandidate .lunaCore r (if (lunaDie d s2).spares.contains r then
          sx DIE_INFO.SPARES_LEFT (52 + d) (gx DIE_INFO.SPARES_LEFT (52 + d) s3 - 1) s3
        else s3)
      traces (moveStreams d core r (moveQueue core r (noteChange s4)))
    | none =>
      let s2 := match mapIndexOf core s1 with | some k => sx LUNA_CORE_MAP.VALID k 0 s1 | none => s1
      let s3 := setServe d cl (sortElems ((serveOf d cl s2).filter fun c => c ≠ core)) s2
      traces (raiseDie .spareExhausted false (52 + d) [na core] (countD (52 + d) .lunaCoresLost s3))

/-! ### Verification and divergence (R169, R170) -/

/-- The step of a chunk had a divergence, a skip or a timeout. -/
def verifyEvent (d : Nat) (id : ChunkId) (s : State) : State := modStep d id.comm id.step (fun x => { x with event := true }) s

/-- The checking die is done with a chunk: its record leaves, its slot is freed, its done bit set (R169). -/
def recordDone (d : Nat) (c : LChunk) (s : State) : State :=
  setDone d c.id (removeChunk d c.id (sendRecord c.id false c.bitmap (columnDigests c)
    ((List.range 132).map fun l => columnCore d c.cluster l s) s))

/-- The checking die's copy is complete: its partials are read and their digests sent. -/
def checkingDone (d : Nat) (c : LChunk) (s : State) : State := readStaged d c c.e (recordDone d c) s

/-- The arbiter of R170: the lowest unused spare, else the idle active core of lowest logical number that holds none of the
differing columns. -/
def pickArbiter (d : Nat) (c : LChunk) (cols : List Nat) (s : State) : Option Nat :=
  match (lunaDie d s).spares with
  | r :: rs => some (rs.foldl min r)
  | [] =>
    let busy := cols.map fun l => columnCore d c.cluster l s
    let idle := ((List.range 9).map fun cl => serveOf d cl s).flatten.filter fun k =>
      (lcore k s).run.isNone && (lcore k s).queue.isEmpty && !busy.contains k
    idle.foldl (fun b k => match b with
      | none => some k
      | some j => if logicalOf k s < logicalOf j s then some k else some j) none

/-- Columns taken one after another into batches of at most 1,024 elements, the one that fills being `b` (R204). -/
def batchesFrom (e : Nat) (b : List Nat) : List Nat → List (List Nat)
  | [] => if b.isEmpty then [] else [b]
  | l :: ls =>
    if b.length + (columnElems l e).length ≤ 1024 then batchesFrom e (b ++ columnElems l e) ls
    else b :: batchesFrom e (columnElems l e) ls

/-- Differing columns, in ascending number, in batches (R204). -/
def batches (e : Nat) (cols : List Nat) : List (List Nat) := batchesFrom e [] cols

/-- No two computations of some column agree, or the arbiter failed: the chunk fails (R170 step 5, R216). -/
def noMajority (d : Nat) (c : LChunk) (s : State) : State :=
  let s1 := raise .ox9 (Event.mk0 .ox9 .lunaNoMajority false (52 + d) 5 c.id.comm
    [na c.id.comm, wa c.id.chunk, na (nth c.cols 0), na c.cols.length] s) (countD (52 + d) .verifyNoMajority s)
  failOpen d c.id stCheckFail s1

/-- The divergence procedure starts: RECOMP tasks on the arbiter, one a batch (R170 steps 1 and 2). A program without a RECOMP
entry receives none (R196), so there is no third computation: it ends as in step 5 (log entry 94, DEDUCED). -/
def diverge (d : Nat) (c : LChunk) (cols : List Nat) (s : State) : State :=
  let s1 := verifyEvent d c.id (raise .ox9 (Event.mk0 .ox9 .lunaDiverge false (52 + d) 5 c.id.comm
    [na c.id.comm, wa c.id.chunk, na (nth cols 0), na cols.length] s) (countD (52 + d) .verifyDiverge s))
  match (if hasEntry d c.id.comm 7 s1 then pickArbiter d c cols s1 else none) with
  | none => noMajority d { c with cols := cols } s1
  | some a =>
    let own := !(serveOf d c.cluster s1).contains a
    let n := arbiterScratch d a s1
    let s2 := modChunk d c.id (fun x => { x with phase := .recomp, cols := cols, arbiter := some a, rscratch := n, rparts := []
                                                 racc := [] })
      (wakeCluster d (clusterOf a) (if own then modCore a (fun x => x.write (scratchAt n) (List.replicate 16 0)) s1 else s1))
    (batches c.e cols).foldl (fun s b =>
      pushTask a { id := c.id, kind := 7, slot := 0, wide := false, dense := c.rop == 6 && c.dense, elems := sortElems b
                   s2 := 0, s3 := b.length, s4 := 0, holdAt := 0, holdLen := 0 } s) s2

/-- Majority of three: own, the checking die's, the arbiter's. -/
inductive Verdict where
  | own | other | none
deriving DecidableEq, Repr

/-- The verdict on a differing column (R170 step 3). -/
def verdict (c : LChunk) (r : CheckRecord) (l : Nat) : Verdict :=
  let mine := columnDigest c.native c.rop c.e l (denseParts c) c.acc
  let arb := columnDigest c.native c.rop c.e l c.rparts c.racc
  if arb = mine then .own else if some arb = r.digests[l]? then .other else .none

/-- A chunk takes the recomputed values of a column: partials, records or accumulators. -/
def takeColumn (c : LChunk) (l : Nat) : LChunk :=
  (columnElems l c.e).foldl (fun c k =>
    if c.native then { c with acc := SMap.set (fun _ => 0) c.acc k (SMap.get (fun _ => 0) c.racc k) }
    else
      let v := SMap.get (fun _ => partialId c.rop) c.rparts k
      if isList c then
        { c with recs := match SMap.get (fun _ => none) c.recs k with
            | none => if v = partialId c.rop then c.recs else SMap.put c.recs k (some v)
            | some _ => SMap.put c.recs k (some v) }
      else { c with parts := SMap.set (fun _ => partialId c.rop) c.parts k v }) c

/-! ### From completion to emission (R161, R195, R197) -/

/-- The scale of every block a task posted to (R191 steps 1 and 2). -/
def fixScales (c : LChunk) (out rnd : Nat) : SMap Nat :=
  c.blocks.map fun b =>
    (b.1, if b.2.nan || (b.2.inf && decide (rnd ≤ 5) && out ≠ 6) then 0xFF else mxScale out b.2.max)

/-- The SCALE tasks, or the EMIT tasks where the output is no MX format. -/
def startOutput (d : Nat) (c : LChunk) (s : State) : State :=
  if isMx (outFmt c.id.comm c.fmt s) then
    dispatchAll d c 4 (modChunk d c.id (fun x => { x with phase := .scale, blocks := [], scales := [], outs := [], outRange := false }) s)
  else dispatchAll d c 5 (modChunk d c.id (fun x => { x with phase := .emit, outs := [], outRange := false }) s)

/-- A list chunk converts: DENSIFY on every core (R194, R213). -/
def startDensify (d : Nat) (c : LChunk) (s : State) : State :=
  dispatchAll d c 6 (modChunk d c.id (fun x => { x with phase := .densify, dense := true }) s)

/-- The context of a chunk sends finished chunks to a parent in wide form. -/
def toParent (c : LChunk) (s : State) : Bool := gx LUNA_CTX.PARENT_EN c.id.comm s == 1

/-- A finished chunk leaves: in wide form for a parent, else as a result (R161). -/
def sendOut (d : Nat) (c : LChunk) (s : State) : State := if toParent c s then sendWide d c s else sendResult d c s

/-- A rounded chunk, or one that leaves in wide form, is sent; in verify mode the emitting die waits for the comparison
(R161 steps 2 to 4, R169). -/
def holdOrSend (d : Nat) (c : LChunk) (s : State) : State :=
  if gx LUNA_CTX.VERIFY c.id.comm s = 0 || c.verified then sendOut d c s
  else if !emitsHere c.id s then checkingDone d c s
  else modChunk d c.id (fun x => { x with phase := .check }) s

/-- A chunk's output is formed: for a parent the exact partials are it. -/
def formOutput (d : Nat) (c : LChunk) (s : State) : State :=
  if toParent c s then holdOrSend d c s else startOutput d c s

/-- The chunk's contributions are decided and its tasks have run: what comes next. -/
def afterFill (d : Nat) (c : LChunk) (s : State) : State :=
  if !emitsHere c.id s && !c.native then checkingDone d c s
  else if isList c && (toParent c s || !sparseForm c (outFmt c.id.comm c.fmt s)) then startDensify d c s
  else formOutput d c s

/-- The comparison with a check record, the die's own digests formed (R169). -/
def compareDigests (d : Nat) (c : LChunk) (r : CheckRecord) (s : State) : State :=
  let own := columnDigests c
  if r.failed || r.bitmap ≠ c.bitmap then
    sendOut d { c with verified := true } (verifyEvent d c.id (countD (52 + d) .verifySkipped s))
  else
    let cols := (List.range 132).filter fun l => own[l]? ≠ r.digests[l]?
    if cols.isEmpty then sendOut d { c with verified := true } (countD (52 + d) .verifyOk s) else diverge d c cols s

/-- The comparison with a check record: the die's partials are read and their digests formed (R169). -/
def compareRecord (d : Nat) (c : LChunk) (r : CheckRecord) (s : State) : State :=
  if r.failed || r.bitmap ≠ c.bitmap then compareDigests d c r s else readStaged d c c.e (compareDigests d c r) s

/-- The arbiter is done: the values two computations share are kept, the odd cores retired, the chunk rounded again
(R170 steps 3 to 5). -/
def majority (d : Nat) (c : LChunk) (r : CheckRecord) (s : State) : State :=
  let vs := c.cols.map fun l => (l, verdict c r l)
  if vs.any fun v => v.2 = .none then noMajority d c s
  else
    let mine := (vs.filter fun v => v.2 = .other).map (·.1)
    let theirs := (vs.filter fun v => v.2 = .own).map (·.1)
    let c1 := mine.foldl takeColumn c
    let odd := sortElems (mine.map (fun l => columnCore d c.cluster l s) ++ theirs.map fun l => nth r.cores l)
    let s1 := odd.foldl (fun s k => retireCore k false c.arbiter s) (modChunk d c.id (fun _ => { c1 with verified := true }) s)
    formOutput d { c1 with verified := true } s1

/-- A chunk moves to its next phase where nothing keeps it. -/
def stepPhase (d : Nat) (c : LChunk) (s : State) : Option State :=
  if tasksLeft d c.id s || c.waking then none
  else
    match c.phase with
    | .fill =>
      if (c.bitmap.length = gx LUNA_CTX.NSRC c.id.comm s || c.ending) && c.streams.isEmpty then some (afterFill d c s) else none
    | .densify => some (formOutput d c s)
    | .scale =>
      let sc := fixScales c (outFmt c.id.comm c.fmt s) (gx LUNA_CTX.RND c.id.comm s)
      some (dispatchAll d c 5 (modChunk d c.id (fun x => { x with phase := .emit, scales := sc }) s))
    | .emit => some (holdOrSend d c s)
    | .check => c.record.map fun r => compareRecord d c r s
    | .recomp => c.record.map fun r => majority d c r s

/-- A chunk moves on as far as nothing keeps it. -/
def advance : Nat → Nat → ChunkId → State → State
  | 0, _, _, s => s
  | n + 1, d, id, s =>
    match chunkOf d id s with
    | none => s
    | some c => match stepPhase d c s with | some s1 => advance n d id s1 | none => s

/-- The moves a chunk can make at once. -/
def advanceFuel : Nat := 12

/-! ### Chunks that a deadline ends (R166) -/

/-- The combinations a program implements, the ground of a free choice (log entry 47, DEDUCED). -/
def programCombs (d c : Nat) (s : State) : List (Nat × Bool × Nat) :=
  match progOf d c s with
  | none => []
  | some x =>
    (((List.range 8).map fun r => (List.range 13).map fun f => [(r, false, f), (r, true, f)]).flatten.flatten).filter fun k =>
      combOk k.1 k.2.2 (outFmt c k.2.2 s) k.2.1 && progImplements x k.1 k.2.2 (outFmt c k.2.2 s) k.2.1 false false

/-- The operator, mode and format of a chunk that is never opened: those of the step's first chunk on the die; where there
is none, a free choice among what the program implements (log entry 47, DEDUCED). -/
def unopenedComb (d c n : Nat) (s : State) : (Nat × Bool × Nat) × State :=
  match (stepOf d c n s).bind (·.first) with
  | some f => (f, s)
  | none => let l := programCombs d c s; ((l[freeVal s % max 1 l.length]?).getD (0, false, 0), draw s)

/-- A chunk ends with a partial result: counted for the die and the partition. -/
def endPartial (d : Nat) (id : ChunkId) (s : State) : State :=
  countP (gx LUNA_CTX.PART id.comm s) .lunaDeadlinePartial (countD (52 + d) .lunaDeadlinePartial
    (modChunk d id (fun c => { c with ending := true, partialEnd := true, doneFt := ft s }) s))

/-- A chunk never opened ends at a deadline: opened with MAXELEM elements and emitted, or failed where its output bytes
exceed 4,096 (R166, R175). It has no contributor whose SRC_EP the event could carry (log entry 95, DESIGN CHOICE). -/
def fillOne (d : Nat) (k : Nat × Bool × Nat) (id : ChunkId) (s : State) : State :=
  let c := id.comm
  let m := gx LUNA_CTX.MAXELEM c s
  if outSize c (outFmt c k.2.2 s) m s ≤ 4096 then
    advance advanceFuel d id (endPartial d id (openChunk d id k.1 k.2.1 k.2.2 m s))
  else
    failChunk d id ((pickCluster d s).getD 0) k.1 k.2.1 k.2.2 stCheckFail
      (raise .ox9 (Event.mk0 .ox9 .checkFail false (52 + d) 5 c [na c, wa id.chunk, na 0] s) (countD (52 + d) .lunaContribFail s))

/-- The chunks of an ended step that were never opened are opened and emitted as slots allow (R166), while the context disarms
too, though R155 then opens no chunks for contributions (log entry 130, DESIGN CHOICE). -/
def fillMissing (d c : Nat) (s : State) : State :=
  let n := (lctx d c s).curStep
  if !((stepOf d c n s).any fun x => x.dlHit) then s
  else
    let miss := (shareOf d c n s).filter fun id => !isDone d id s && (chunkOf d id s).isNone
    (miss.take ((lctx d c s).slots - (openOf d c s).length)).foldl (fun s id =>
      let (k, s1) := unopenedComb d c n s
      fillOne d k id s1) s

/-- What follows a change of a context's chunks: chunks an ended step still lacks, the close of the step. -/
def settle (d c : Nat) (s : State) : State := closeStep d c (fillMissing d c s)

/-- A chunk moves on and its context with it. -/
def progress (d : Nat) (id : ChunkId) (s : State) : State := settle d id.comm (advance advanceFuel d id s)

/-! ### Arming and disarming (R154, R155, R226) -/

/-- The cause that keeps a die from arming a context: 1 STAGING, 2 DONE_BITS, 3 PROGRAM_STORE, 4 IMAGE_ABSENT. -/
def armCause (d c : Nat) (s : State) : Option Nat :=
  let x := lunaDie d s
  let pages := slotCount d c s * ceilDiv (slotBytes c s) 4096
  let busy := x.ctxs.filter fun e => e.2.st ≠ 0 || e.2.arming
  let prog := gx LUNA_CTX.PROG c s
  if 24576 < pages + (busy.map fun e => e.2.pages).sum + fencedSpan (52 + d) 0 s then some 1
  else if Config.doneBitCap < doneBits d c s + (busy.map fun e => doneBits d e.1 s).sum then some 2
  else if !x.store.contains prog && decide (8 ≤ x.store.length) &&
      x.store.all (fun p => busy.any fun e => gx LUNA_CTX.PROG e.1 s = p) then some 3
  else if (imageOf d prog s).isNone then some 4
  else none

/-- The program stores with an image used: the least recently used image that no armed context needs makes room. -/
def useImage (d prog : Nat) (s : State) : State :=
  let x := lunaDie d s
  let busy := x.ctxs.filter fun e => e.2.st ≠ 0 || e.2.arming
  let free := x.store.find? fun p => !(busy.any fun e => gx LUNA_CTX.PROG e.1 s = p)
  let l := if x.store.contains prog || x.store.length < 8 then x.store
           else match free with | some p => x.store.erase p | none => x.store
  modLuna d (fun x => { x with store := (l.filter fun p => p ≠ prog) ++ [prog] }) s

/-- A die reserves a context's staging and done bits and copies its image; a cluster in Cocoon is pinned and woken for it
(R154, R449). The deadline it latches is the one in force as the arming program commits (R234). -/
def armDie (d c : Nat) (s : State) : State :=
  let pages := slotCount d c s * ceilDiv (slotBytes c s) 4096
  let s1 := (List.range 9).foldl (fun s cl =>
    if clusterAsleep d cl s then sx DOM_STAT.PINNED (clusterDom d cl) 1 (wakeCluster d cl s) else s) s
  modCtx d c (fun x => { x with
    arming := true, slots := slotCount d c s, pages := pages
    latched := if gx LUNA_CTX.DL_MODE c s = 2 then some (dieDeadline d c s) else none }) (useImage d (gx LUNA_CTX.PROG c s) s1)

/-- A context is armed on every die of its masks, or on none (R154). A disarm in progress is called off; a context already
armed stays so. -/
def armContext (c : Nat) (s : State) : State :=
  let ds := (ctxDies c s).filter fun d => (lctx d c s).st = 0 && !(lctx d c s).arming
  let s0 := (ctxDies c s).foldl (fun s d => if (lctx d c s).disarming then modCtx d c (fun x => { x with disarming := false }) s else s) s
  let bad := ds.filterMap fun d => (armCause d c s).map fun k => (d, k)
  if bad.isEmpty then ds.foldl (fun s d => armDie d c s) s0
  else bad.foldl (fun s (b : Nat × Nat) =>
    raise .ox9 (Event.mk0 .ox9 .lunaArmFail false (52 + b.1) 5 c [na c, na b.2] s) (countD (52 + b.1) .lunaArmFail s)) s0

/-- A context's reservation on a die is freed: it is DORMANT. -/
def freeCtx (d c : Nat) (s : State) : State :=
  modCtx d c (fun x => { x with st := 0, arming := false, disarming := false, slots := 0, pages := 0, latched := none
                                done := [], steps := [] }) s

/-- Another arm of the die still copies. -/
def armsLeft (d c : Nat) (s : State) : Bool := (lunaDie d s).ctxs.any fun e => e.1 ≠ c && e.2.arming

/-- A cluster that an arm has pinned is awake; the last arm of the die unpins it (R449). -/
def unpin (d c cl : Nat) (s : State) : State :=
  let p := clusterDom d cl
  if gx DOM_STAT.PINNED p s = 0 then s
  else sx DOM_STAT.PINNED p (armsLeft d c s).toNat (sx DOM_STAT.STATE p 1 s)

/-- The copy of an arm ends: the context is ARMED (R154); what waited for the wake of a cluster that the arm pinned goes on. -/
def armDone (d c : Nat) (s : State) : State :=
  if !(lctx d c s).arming then s
  else
    let s1 := (List.range 9).foldl (fun s cl => unpin d c cl s) s
    wakeChunks d (modCtx d c (fun x => { x with arming := false, st := 1 }) s1)

/-- A context is disarmed on every die: at once where no chunk is open, else when the last has ended (R155). -/
def disarmContext (c : Nat) (s : State) : State :=
  (ctxDies c s).foldl (fun s d =>
    if (openOf d c s).isEmpty then freeCtx d c s
    else if (lctx d c s).st = 0 then s
    else modCtx d c (fun x => { x with disarming := true }) s) s

/-- The last open chunk of a disarming context has ended. -/
def disarmDone (d c : Nat) (s : State) : State :=
  if (lctx d c s).disarming && (openOf d c s).isEmpty then freeCtx d c s else s

/-- A context is invalidated: its open chunks fail with NOT_READY, its reservation is freed, CUR_STEP returns to 0 (R226). -/
def invalidateContext (c : Nat) (s : State) : State :=
  (ctxDies c s).foldl (fun s d =>
    let s1 := (openOf d c s).foldl (fun s x => failOpen d x.id stNotReady s) s
    modCtx d c (fun x => { x with curStep := 0, dlReg := none, held := none }) (freeCtx d c s1))
    { s with monarch := { s.monarch with launches := s.monarch.launches.filter fun l => l.1 ≠ c } }

end Sys2Proof.Machine
end

