-- ==== Sys2Proof/Machine/LunaRx.lean ====
section
/-! DEFINITION. The commands of the Luna engine (chapters 7 and 9): CONTRIB_SOP_RX, HOLD_RANGE_ALLOCATED, CONTRIB_CELL_RX,
CONTRIB_EOP_CHECK, TASK_START, LUNA_STEP_DEADLINE, CHECK_RECORD_RX, VERIFY_TIMEOUT, LUNA_HWFAULT, TASK_BUDGET_EXCEEDED,
ARM_COMPLETE, DISARM_COMPLETE. -/

namespace Sys2Proof.Machine

/-! ### Contribution checks (Table 7-5) -/

/-- The valid slot that a contribution matches (row 3): SRC_EP and UNIT, SRC_EP alone for a WIDE slot. -/
def memberSlot (c src unit : Nat) (s : State) : Option Nat :=
  firstBelow (gx LUNA_CTX.NSRC c s) fun k =>
    let i := gx LUNA_CTX.MEMBASE c s + k
    gx LUNA_MEMBER.VALID i s == 1 && gx LUNA_MEMBER.EP i s == src &&
      (gx LUNA_MEMBER.WIDE i s == 1 || gx LUNA_MEMBER.UNIT i s == unit)

/-- The slot is WIDE. -/
def slotWide (c k : Nat) (s : State) : Bool := gx LUNA_MEMBER.WIDE (gx LUNA_CTX.MEMBASE c s + k) s == 1

/-- PART_DENY with SRC_EP and PART (rows 2 and 3). -/
def contribDeny (d : Nat) (h : Header) (s : State) : State :=
  raise .ox9 { Event.mk0 .ox9 .partDeny false (52 + d) 2 h.srcEp.toNat [na h.srcEp.toNat, na h.part.toNat] s with
    part := some h.part.toNat, srcEp := some h.srcEp.toNat } s

/-- A contribution's failure event with COMM, CHUNK and SRC_EP (rows 10 to 12). -/
def contribEvent (d : Nat) (code : EvCode) (h : Header) (s : State) : State :=
  raise .ox9 { Event.mk0 .ox9 code false (52 + d) 5 h.comm [na h.comm, wa h.chunk, na h.srcEp.toNat] s with
    srcEp := some h.srcEp.toNat } s

/-- The identity of a contribution's chunk. -/
def chunkIdOf (h : Header) : ChunkId := ⟨h.comm, h.tree, h.chunk, h.step⟩

/-- ROP of a contribution. -/
def ropOf (h : Header) : Nat := bits h.subop.toNat 0 4
/-- NATIVE of a contribution. -/
def nativeOf (h : Header) : Bool := bits h.subop.toNat 4 1 == 1

/-- Row 10: the element count of a contribution that passes, none where it fails (R173 to R175, R220). -/
def row10 (d : Nat) (h : Header) (wide : Bool) (c : Option LChunk) (s : State) : Option Nat :=
  let k := h.comm
  let rop := ropOf h
  let native := nativeOf h
  let out := outFmt k h.fmt s
  let maxe := gx LUNA_CTX.MAXELEM k s
  match countOf wide rop h.fmt h.len.toNat with
  | none => none
  | some n =>
    let e := if rop = 6 then maxe else n
    let same := match c with
      | some c => c.rop == rop && c.native == native && c.fmt == h.fmt && c.e == e
      | none => true
    let prog := match progOf d k s with
      | some x => combOk rop h.fmt out native && progImplements x rop h.fmt out native wide (gx LUNA_CTX.VERIFY k s == 1)
      | none => false
    let shape := decide (1 ≤ n) && decide (n ≤ maxe) && (rop != 6 || !wide || n == maxe)
    if same && prog && shape && !(native && gx LUNA_CTX.NATIVE_OK k s == 0) && decide (outSize k out e s ≤ 4096) then some e
    else none

/-- A chunk failure that a contribution causes, the chunk open or not. -/
def contribFail (d : Nat) (h : Header) (status : Nat) (s : State) : State :=
  let id := chunkIdOf h
  let s1 := match chunkOf d id s with
    | some c => failChunk d id c.cluster c.rop c.native c.fmt status s
    | none => failChunk d id ((pickCluster d s).getD 0) (ropOf h) (nativeOf h) h.fmt status s
  settle d h.comm s1

/-- The step's first contribution at the die: the context is ACTIVE (R155, R166). -/
def noteFirst (d : Nat) (h : Header) (s : State) : State :=
  if (stepOf d h.comm h.step s).isSome then s
  else modCtx d h.comm (fun x => { x with st := 2, steps := x.steps ++ [LStep.fresh h.step (ft s)] }) s

/-- A contribution that passes rows 1 to 11 streams into its chunk, opened where it is not (R159, R198). -/
def streamIn (d : Nat) (h : Header) (k e : Nat) (first : List Byte) (s : State) : State :=
  let id := chunkIdOf h
  let s1 := if (chunkOf d id s).isSome then s else openChunk d id (ropOf h) (nativeOf h) h.fmt e s
  let t : LStream := { slot := k, hdr := h, wide := slotWide h.comm k s, alloc := false, bytes := first, bad := false, parts := []
                       key := if h.enc then lunaKey d h.keySlot.toNat h.part.toNat s else none }
  landSoFar d id k (allocStream d id k (modChunk d id (fun c => { c with streams := c.streams ++ [t] }) s1))

/-- The SOP cell of a contribution: rows 1 to 11 of Table 7-5. One that passes them for a chunk that its deadline has ended is
excluded without having streamed (R160, R166). -/
def contribSop (d : Nat) (pk : Packet) (s : State) : State :=
  let h := pk.hdr
  let c := h.comm
  let id := chunkIdOf h
  let die := 52 + d
  if gx LUNA_CTX.VALID c s = 0 then
    raise .ox9 { Event.mk0 .ox9 .noRoute true die 2 h.dstEp.toNat [na h.dstEp.toNat, na 0] s with
      dstEp := some h.dstEp.toNat } (countD die .lunaCtxInvalid s)
  else if gx LUNA_CTX.PART c s ≠ h.part.toNat then contribDeny d h (countD die .lunaPartDeny s)
  else
    match memberSlot c h.srcEp.toNat h.unit s with
    | none => contribDeny d h (countD die .lunaNotMember s)
    | some k =>
      let x := lctx d c s
      let ahead := (h.step + 256 - x.curStep) % 256
      if 129 ≤ ahead then countD die .lunaLateContrib s
      else if 2 ≤ ahead then
        raise .ox9 (Event.mk0 .ox9 .lunaWindowOverrun true die 0 0 [] s) (countD die .lunaWindowOverrun s)
      else if isDone d id s then countD die .lunaLateContrib s
      else
        let ch := chunkOf d id s
        if (x.st = 0 || x.disarming) && ch.isNone then
          contribFail d h stNotReady
            (raise .ox9 (Event.mk0 .ox9 .notReady false die 5 c [na c] s) (countD die .lunaCtxDormant s))
        else
          let s1 := noteFirst d h s
          if ch.any fun y => y.bitmap.contains k || (streamOf y k).isSome then
            raise .ox9 (Event.mk0 .ox9 .lunaDupContrib true die 0 0 [] s1) (countD die .lunaDupContrib s1)
          else if ch.isNone && decide (x.slots ≤ (openOf d c s1).length) then
            contribFail d h stNotReady
              (raise .ox9 (Event.mk0 .ox9 .lunaWindowOverrun true die 0 0 [] s1) (countD die .lunaWindowOverrun s1))
          else
            match row10 d h (slotWide c k s) ch s1 with
            | none => contribFail d h stCheckFail (contribEvent d .checkFail h (countD die .lunaContribFail s1))
            | some e =>
              if h.enc != (gx LUNA_CTX.ENC c s1 == 1) || h.keySlot.toNat != gx LUNA_CTX.KEY_IN c s1 then
                contribFail d h stCheckFail (contribEvent d .checkFail h (countD die .lunaContribFail s1))
              else if ch.any fun y => y.ending then s1
              else streamIn d h k e pk.payload s1

/-- CONTRIB_SOP_RX (R159). -/
def execContribSopRx (die : LDie) (pkt : Packet) (s : State) : Host.Outcome State Fault Refusal :=
  live (contribSop die.val pkt) s

/-- A waiting contribution receives its hold ranges, and what has come of it lands (R198). -/
def holdAllocated (d : Nat) (id : ChunkId) (slot : Nat) (s : State) : State := landSoFar d id slot (allocStream d id slot s)

/-- HOLD_RANGE_ALLOCATED (R198). -/
def execHoldRangeAllocated (die : LDie) (id : ChunkId) (slot : Nat) (s : State) : Host.Outcome State Fault Refusal :=
  live (holdAllocated die.val id slot) s

/-- A contribution cell: it lands where the contribution holds its ranges; an uncorrectable word marks it (R33, R198). One
whose row is being copied waits for the copy to end (R32). -/
def contribCell (d : Nat) (id : ChunkId) (slot : Nat) (bs : List Byte) (sram : SramRead) (s : State) : State :=
  match (chunkOf d id s).bind fun c => streamOf c slot with
  | none => s
  | some t =>
    if rowStalled (52 + d) sram s then s
    else landSoFar d id slot
      (setStream d id { t with bytes := t.bytes ++ bs, bad := t.bad || readLost sram } (sramRead (52 + d) sram s))

/-- CONTRIB_CELL_RX (R198). -/
def execContribCellRx (die : LDie) (id : ChunkId) (slot : Nat) (bytes : List Byte) (sram : SramRead) (s : State) :
    Host.Outcome State Fault Refusal :=
  live (contribCell die.val id slot bytes sram) s

/-! ### Row 12 and commitment (R160, R192) -/

/-- A contribution commits: its bit in the bitmap, its last beat, its COMMIT tasks; a native or retained one is stored. -/
def commit (d : Nat) (c : LChunk) (t : LStream) (plain : List Byte) (s : State) : State :=
  let (t1, s1) := landStream d c t plain true s
  let bm := insertSorted t.slot c.bitmap
  let full := bm.length == gx LUNA_CTX.NSRC c.id.comm s
  let keep := c.native || (gx LUNA_CTX.VERIFY c.id.comm s == 1 && emitsHere c.id s)
  let s2 := modChunk d c.id (fun x => { x with
    bitmap := bm
    streams := x.streams.filter fun u => u.slot ≠ t.slot
    stored := if keep then SMap.set (fun _ => none) x.stored t.slot (some plain) else x.stored
    doneFt := if full then ft s else x.doneFt }) s1
  let s3 := modStep d c.id.comm c.id.step (fun x => { x with late := SMap.set (fun _ => x.firstFt) x.late t.slot (ft s) }) s2
  let s4 := if c.native || !hasEntry d c.id.comm 2 s then s3
    else t1.parts.foldl (fun s p =>
      pushTask p.core { id := c.id, kind := 2, slot := t.slot, wide := t.wide, dense := c.rop == 6 && c.dense, elems := p.elems
                        s2 := p.addr, s3 := p.landed, s4 := 0, holdAt := p.addr, holdLen := p.len } s) s3
  progress d c.id s4

/-- A chunk failure at row 12 with its traces. -/
def row12Fail (d : Nat) (code : EvCode) (status : Nat) (h : Header) (s : State) : State :=
  contribFail d h status (contribEvent d code h (countD (52 + d) .lunaContribFail s))

/-- The EOP cell: row 12 of Table 7-5, under the slot as it stood at the SOP (R366), then R192 for a sparse contribution, then
commitment. One with a cell that waits for a row copy waits with it (R32). -/
def contribEop (d : Nat) (id : ChunkId) (slot : Nat) (bad : Bool) (trailer : List Byte) (s : State) : State :=
  match chunkOf d id s with
  | none => s
  | some c =>
    match streamOf c slot with
    | none => s
    | some t =>
      if !t.alloc then s
      else
        let h := t.hdr
        let pk : Packet := { hdr := h, payload := fit h.len.toNat t.bytes, trailer := trailer }
        if bad || t.bad then row12Fail d .poisonRx stPoison h s
        else if t.bytes.length < h.len.toNat then s
        else
          let (plain, s1) := if h.enc then openFrom .ox9 t.key [ivUnit h] pk s
            else (if trailer = chunkDigest h pk.payload then some pk.payload else none, s)
          match plain with
          | none => row12Fail d .checkFail stCheckFail h s1
          | some bs =>
            if c.rop = 6 && !t.wide && !sparseOk c.fmt (gx LUNA_CTX.MAXELEM id.comm s1) bs then
              row12Fail d .checkFail stCheckFail h s1
            else commit d c t bs s1

/-- CONTRIB_EOP_CHECK (R160). -/
def execContribEopCheck (die : LDie) (id : ChunkId) (slot : Nat) (bad : Bool) (trailer : List Byte) (s : State) :
    Host.Outcome State Fault Refusal :=
  live (contribEop die.val id slot bad trailer) s

/-! ### Tasks (R197, R202, R216) -/

/-- The chunk descriptor of a task (Table 9-4). -/
def descriptor (c : LChunk) (t : LTask) (s : State) : Nat :=
  let k := c.id.comm
  c.rop + c.fmt * 2 ^ 4 + outFmt k c.fmt s * 2 ^ 8 + gx LUNA_CTX.RND k s * 2 ^ 12 + c.native.toNat * 2 ^ 15 +
    gx LUNA_CTX.VERIFY k s * 2 ^ 16 + c.partialEnd.toNat * 2 ^ 17 + t.dense.toNat * 2 ^ 18 + t.wide.toNat * 2 ^ 19 +
    gx LUNA_CTX.NSRC k s * 2 ^ 20 + c.e * 2 ^ 30

/-- A task works on the list form of a sparse chunk. -/
def taskList (c : LChunk) (t : LTask) : Bool := c.rop == 6 && !t.dense && t.kind != 7

/-- The handles bound at task start (Table 9-5). -/
def bindViews (c : LChunk) (t : LTask) (s : State) : SMap View :=
  let n := t.elems.length
  let retained := c.native || (gx LUNA_CTX.VERIFY c.id.comm s == 1 && emitsHere c.id s)
  (if !c.native && !taskList c t then [(0, View.parts 0 n)] else []) ++
    (if taskList c t then [(1, View.recs 0)] else []) ++ (if c.native then [(2, View.acc 0 n)] else []) ++
    (if retained then [(3, View.stored 0 n)] else [])

/-- The address of the scratch record of a task: its chunk's, or that of its chunk's RECOMP tasks (R205). -/
def scratchOf (c : LChunk) (t : LTask) : Nat := scratchAt (if t.kind = 7 then c.rscratch else c.scratch)

/-- The slots s1 to s7 at task start (Tables 9-3, 9-4). -/
def presets (c : LChunk) (t : LTask) (s : State) : SMap Word :=
  let s5 := if 1 ≤ t.kind && t.kind ≤ 3 then t.slot else gx LUNA_CTX.NSRC c.id.comm s
  [t.kind, t.s2, t.s3, t.s4, s5, descriptor c t s, scratchOf c t].zipIdx.foldl (fun m x =>
    SMap.set (fun _ => 0) m (x.2 + 1) (BitVec.ofNat 64 x.1)) []

/-- The governor holds a task start of a cluster: while it holds work, every awake cluster starts as many tasks in one
microsecond as its pace allows (R452; log entry 116, DESIGN CHOICE). -/
def paced (core : Nat) (s : State) : Bool :=
  gb GOV_STAT.HOLDING 0 s &&
    decide (s.power.pace ≤ SMap.get (fun _ => 0) s.power.starts (clusterDom (core / 108) (clusterOf core)))

/-- A task start of a cluster is noted while the governor holds work. -/
def noteStart (core : Nat) (s : State) : State :=
  if gb GOV_STAT.HOLDING 0 s then
    let p := clusterDom (core / 108) (clusterOf core)
    { s with power := { s.power with
      starts := SMap.set (fun _ => 0) s.power.starts p (SMap.get (fun _ => 0) s.power.starts p + 1) } }
  else s

/-- The first task of an idle core's queue starts: its entry point, its presets, its handles; the rest is zero (R202). -/
def beginTask (core : Nat) (s : State) : State :=
  let d := core / 108
  let x := lcore core s
  match x.run, x.queue with
  | none, t :: q =>
    match chunkOf d t.id s with
    | none => setCore core { x with queue := q } s
    | some c =>
      let pc := ((progOf d t.id.comm s).bind fun p => entryOf p t.kind).getD 0
      setCore core
        { ({ x with run := some t, queue := q } : LCore).write 0x34000 (List.replicate 1024 0) with
          sregs := presets c t s, vregs := [], pregs := [], views := bindViews c t s, ret := [], pc := pc, lanes := []
          noRoom := false } s
  | _, _ => s

/-- A task starts on a core of an awake cluster, at the pace the governor allows (R448, R452). -/
def taskStart (core : Nat) (s : State) : State :=
  if clusterDown (core / 108) (clusterOf core) s || paced core s then s else noteStart core (beginTask core s)

/-- TASK_START (R208). -/
def execTaskStart (core : Core) (s : State) : Host.Outcome State Fault Refusal := live (taskStart core.val) s

/-- An exception of the running task: the task ends, its chunk fails with CHECK_FAIL; a failed RECOMP ends the divergence
procedure (R215, R216). -/
def progFault (core cause : Nat) (s : State) : State :=
  let d := core / 108
  let x := lcore core s
  match x.run with
  | none => s
  | some t =>
    let c := t.id.comm
    let s1 := raise .ox9 (Event.mk0 .ox9 .lunaProgFault false (52 + d) 5 c
      [na c, wa t.id.chunk, na (gx LUNA_CTX.PROG c s), na t.kind, na x.pc, na cause] s)
      (countD (52 + d) .lunaProgFault (setCore core { x with run := none } s))
    settle d c (if t.kind = 7 then (match chunkOf d t.id s1 with | some k => noMajority d k s1 | none => s1)
                else failOpen d t.id stCheckFail s1)

/-- TASK_BUDGET_EXCEEDED (R216). -/
def execTaskBudgetExceeded (core : Core) (s : State) : Host.Outcome State Fault Refusal := live (progFault core.val 3) s

/-- A core's own checks detect a fault: it is retired for good, its task is not resumed, the task's chunk fails with POISON
(R171, R216, R217). Parity in a store names the bank and row of its die that hold the word (R33). -/
def hwFault (core : Nat) (row : Option (Nat × Nat)) (s : State) : State :=
  let d := core / 108
  let x := lcore core s
  let s1 := retireCore core true none (match row with
    | some r => sramUncorrectable (52 + d) r.1 r.2 (setCore core { x with run := none } s)
    | none => setCore core { x with run := none } s)
  match x.run with
  | none => s1
  | some t =>
    settle d t.id.comm (if t.kind = 7 then (match chunkOf d t.id s1 with | some k => noMajority d k s1 | none => s1)
                        else failOpen d t.id stPoison s1)

/-- LUNA_HWFAULT (R216). -/
def execLunaHwfault (core : Core) (row : Option (Nat × Nat)) (s : State) : Host.Outcome State Fault Refusal :=
  live (hwFault core.val row) s

/-! ### Deadlines (R166) -/

/-- The deadline of the open step of a context on a die; none while it has none. -/
def stepDeadline (d c : Nat) (s : State) : Option Nat :=
  let x := lctx d c s
  if gx LUNA_CTX.DL_MODE c s = 1 then (stepOf d c x.curStep s).map fun r => r.firstFt + gx LUNA_CTX.DL_REL c s * 256
  else if gx LUNA_CTX.DL_MODE c s = 2 then x.latched
  else none

/-- A contribution still streaming is excluded: what its BEAT tasks added is removed by DROP tasks (R160, R198). -/
def excludeStream (d : Nat) (c : LChunk) (t : LStream) (s : State) : State :=
  let s1 := modChunk d c.id (fun x => { x with streams := x.streams.filter fun u => u.slot ≠ t.slot }) s
  if !hasEntry d c.id.comm 3 s then s1
  else (t.parts.filter fun p => 0 < p.sent).foldl (fun s p =>
    pushTask p.core { id := c.id, kind := 3, slot := t.slot, wide := t.wide, dense := c.rop == 6 && c.dense, elems := p.elems
                      s2 := p.addr, s3 := p.sent, s4 := 0, holdAt := p.addr, holdLen := p.len } s) s1

/-- An open chunk meets its step's deadline; one whose contributions are all in is no partial. -/
def deadlineChunk (d : Nat) (c : LChunk) (s : State) : State :=
  if c.bitmap.length = gx LUNA_CTX.NSRC c.id.comm s then s
  else advance advanceFuel d c.id (c.streams.foldl (fun s t => excludeStream d c t s) (endPartial d c.id s))

/-- The open step of a context meets its deadline (R166): its open chunks end with partial results, chunks never opened are
emitted with the operator's identity, the step closes. -/
def lunaDeadline (d c : Nat) (s : State) : State :=
  let x := lctx d c s
  let due := match stepDeadline d c s with | some t => decide (t ≤ ft s) | none => false
  if x.st = 0 || !due || (stepOf d c x.curStep s).any (fun r => r.dlHit) || stepComplete d c s then s
  else
    let s0 := if (stepOf d c x.curStep s).isSome then s
      else modCtx d c (fun x => { x with st := 2, steps := x.steps ++ [LStep.fresh x.curStep (ft s)] }) s
    let s1 := modStep d c x.curStep (fun r => { r with dlHit := true })
      (raise .ox9 (Event.mk0 .ox9 .lunaDeadline false (52 + d) 5 c [na c, na x.curStep] s0) s0)
    settle d c (((openOf d c s1).filter fun k => k.id.step = x.curStep).foldl (fun s k => deadlineChunk d k s) s1)

/-- LUNA_STEP_DEADLINE (R166). -/
def execLunaStepDeadline (die : LDie) (comm : Fin 16384) (s : State) : Host.Outcome State Fault Refusal :=
  live (lunaDeadline die.val comm.val) s

/-! ### Verify mode (R169) -/

/-- A check record reaches the emitting die: held for its chunk, or discarded where that was emitted. -/
def recordRx (d : Nat) (r : CheckRecord) (s : State) : State :=
  let id : ChunkId := ⟨r.comm, r.chunk % 2, r.chunk, r.step⟩
  let behind := decide (129 ≤ (r.step + 256 - (lctx d r.comm s).curStep) % 256)
  match chunkOf d id s with
  | some c =>
    if c.record.isSome then countD (52 + d) .verifyLateRecord s
    else progress d id (modChunk d id (fun x => { x with record := some r }) s)
  | none =>
    if isDone d id s || behind then countD (52 + d) .verifyLateRecord s
    else modLuna d (fun x => { x with records := x.records ++ [r] }) s

/-- CHECK_RECORD_RX (R169). -/
def execCheckRecordRx (die : LDie) (rec : CheckRecord) (s : State) : Host.Outcome State Fault Refusal :=
  live (recordRx die.val rec) s

/-- No check record within 10 µs of a chunk's completion: its own result is emitted (R169). -/
def verifyTimeout (d : Nat) (id : ChunkId) (s : State) : State :=
  match chunkOf d id s with
  | none => s
  | some c =>
    if c.phase ≠ .check || c.record.isSome || ft s < c.doneFt + 25000 then s
    else
      let s1 := raise .ox9 (Event.mk0 .ox9 .lunaVerifyTimeout true (52 + d) 0 0 [] s) (countD (52 + d) .verifyTimeout s)
      settle d id.comm (sendOut d { c with verified := true } (verifyEvent d id s1))

/-- VERIFY_TIMEOUT (R169). -/
def execVerifyTimeout (die : LDie) (id : ChunkId) (s : State) : Host.Outcome State Fault Refusal :=
  live (verifyTimeout die.val id) s

/-! ### Contexts -/

/-- ARM_COMPLETE (R156). -/
def execArmComplete (die : LDie) (comm : Fin 16384) (s : State) : Host.Outcome State Fault Refusal :=
  live (armDone die.val comm.val) s

/-- DISARM_COMPLETE (R155). -/
def execDisarmComplete (die : LDie) (comm : Fin 16384) (s : State) : Host.Outcome State Fault Refusal :=
  live (disarmDone die.val comm.val) s

end Sys2Proof.Machine
end

