-- ==== Sys2Proof/Machine/Events.lean ====
section
/-! DEFINITION. The event log and the fault folder (R374 to R378, R465 to R468) with the Calm triggers that see an event
before it is folded (R407): EVENT_FOLD, FOLD_WINDOW_EXPIRY, FOLD_MAXSPAN_EXPIRY, FOLD_STAT_READ. -/

namespace Sys2Proof.Machine

/-! ### The log -/

/-- The records a unit's log ring holds (R465, R468). -/
def logSize (u : UnitId) : Nat := match u with | .ox9 => 32768 | .oeb _ => 1024

/-- The open entries a folder holds (R378). -/
def foldSize (u : UnitId) : Nat := match u with | .ox9 => 1024 | .oeb _ => 32

/-- The sequence number of the last record. -/
def logSeq (u : UnitId) (s : State) : Nat := gf u LOG_SEQ.SEQ 0 s

/-- Arguments packed into words: a narrow one takes the next free 16-bit lane, a wide one a word of its own (R467). -/
def packArgs : List (Bool × Nat) → Nat → Nat → List Nat
  | [], _, cur => [cur]
  | (true, v) :: l, lane, cur =>
    if lane = 0 then v % 2 ^ 64 :: packArgs l 0 0 else cur :: v % 2 ^ 64 :: packArgs l 0 0
  | (false, v) :: l, lane, cur =>
    if lane = 4 then cur :: packArgs l 1 (v % 2 ^ 16)
    else packArgs l (lane + 1) (cur + v % 2 ^ 16 * 2 ^ (16 * lane))

/-- Words 4 to 7 of a record. -/
def argWords (l : List (Bool × Nat)) : List Nat := (packArgs l 0 0 ++ [0, 0, 0, 0]).take 4

/-- Word 2 of a record (Table 21-7). -/
def recWord2 (code : EvCode) (kind : Nat) (cause : Bool) (qual die : Nat) (part : Option Nat) : Nat :=
  code.num + kind * 2 ^ 16 + cause.toNat * 2 ^ 18 + qual % 8 * 2 ^ 19 + die % 64 * 2 ^ 22 +
    (match part with | some p => p % 4096 * 2 ^ 28 + 2 ^ 40 | none => 0)

/-- Word 3 of a record (Table 21-7). -/
def recWord3 (okind origin : Nat) (oep : Option Nat) : Nat :=
  okind % 16 + origin % 2 ^ 20 * 2 ^ 4 + (match oep with | some e => e % 4096 * 2 ^ 24 + 2 ^ 36 | none => 0)

/-- A record appended to a unit's log: words 1 to 7 given. A code of class 3 or 4 sets ALERT_STAT.EVENT (R468); a chain
member forwards the record to the head's log mirror (Table 19-3). -/
def logRecord (u : UnitId) (code : EvCode) (ws : List Nat) (s : State) : State :=
  let n := logSeq u s + 1
  let s1 := s.setUnit u { s.unit u with events := { (s.unit u).events with
    log := SMap.set (fun _ => []) (s.unit u).events.log (n % logSize u) (n :: ws) } }
  let s2 := sf u LOG_SEQ.SEQ 0 n s1
  match u with
  | .oeb _ => s2
  | .ox9 =>
    let s3 := if code.cls = 3 || code.cls = 4 then sx ALERT_STAT.EVENT 0 1 s2 else s2
    if s3.chain.posTaken && !isHead s3 then sendFrame 0 7 0 (ws.map (toLE 8)).flatten s3 else s3

/-- A single record or a first instance. -/
def logEvent (u : UnitId) (e : Event) (kind : Nat) (cause : Bool) (s : State) : State :=
  logRecord u e.code ([e.ft, recWord2 e.code kind cause e.qual e.die e.part, recWord3 e.okind e.origin e.oep] ++ argWords e.args) s

/-! ### Entries -/

/-- The codes that open cause entries (R376); on an OEB only LINK_DOWN (R378). -/
def causeCode (u : UnitId) (c : EvCode) : Bool :=
  match u with
  | .oeb _ => c = .linkDown
  | .ox9 => [EvCode.linkDown, .linkTrainFail, .spareExhausted, .cwMemberSilent, .cwOwnerLost, .cwBankLost, .expelled].contains c

/-- The open entries of a folder. -/
def entriesOf (u : UnitId) (s : State) : List FoldEntry := (s.unit u).events.entries

/-- The state with a folder's entries set; FOLD_STAT.OPEN follows. -/
def setEntries (u : UnitId) (l : List FoldEntry) (s : State) : State :=
  sf u FOLD_STAT.OPEN 0 l.length (s.setUnit u { s.unit u with events := { (s.unit u).events with entries := l } })

/-- The entry has the event's fold key (R375). -/
def sameKey (x : FoldEntry) (e : Event) : Bool := x.code = e.code && x.okind == e.okind && x.origin == e.origin

/-- The origin endpoint of an entry. -/
def entryEp (x : FoldEntry) : Option Nat := if x.okind = 1 then x.oep else if x.okind = 2 then some x.origin else none

/-- A cause entry takes the event (R376, step 2). -/
def attributes (x : FoldEntry) (e : Event) : Bool :=
  x.cause && (entryEp x).isSome && (entryEp x == e.dstEp || (e.okind == 1 && entryEp x == e.oep))

/-- The source map with an event's SRC_EP. -/
def addSource (l : List Nat) (e : Event) : List Nat := match e.srcEp with | some p => insertSorted p l | none => l

/-- An event counted in an entry's COUNT (R376, R377). -/
def joinEntry (x : FoldEntry) (e : Event) : FoldEntry :=
  { x with count := x.count + 1, sources := addSource x.sources e, winFt := e.ft }

/-- An event counted in a cause entry's CONSEQ. -/
def conseqEntry (x : FoldEntry) (e : Event) : FoldEntry :=
  { x with conseq := x.conseq + 1, firstConseq := if x.conseq = 0 then e.code.num else x.firstConseq, winFt := e.ft }

/-- The first entry that passes a test, changed. -/
def modFirst (p : FoldEntry → Bool) (f : FoldEntry → FoldEntry) : List FoldEntry → List FoldEntry
  | [] => []
  | x :: l => if p x then f x :: l else x :: modFirst p f l

/-- An event opens an entry with its first instance, or is logged alone where the folder is full (R376, R378). -/
def openEntry (u : UnitId) (e : Event) (s : State) : State :=
  let cause := causeCode u e.code
  if (entriesOf u s).length ≥ foldSize u then satAdd u FOLD_STAT.OVERFLOW 0 1 (logEvent u e 0 false s)
  else
    let s1 := logEvent u e 1 cause s
    setEntries u (entriesOf u s1 ++ [{
      code := e.code, okind := e.okind, origin := e.origin, oep := e.oep, cause := cause, qual := e.qual, die := e.die
      part := e.part, firstFt := e.ft, openFt := ftOf u s, winFt := e.ft, count := 1, conseq := 0, firstConseq := 0
      sources := addSource [] e, firstSeq := logSeq u s1, foldWin := gf u FOLD_CTL.FOLD_WIN 0 s
      maxSpan := gf u FOLD_CTL.MAXSPAN 0 s }]) s1

/-- An event that a rule marks as folded (R376). -/
def foldMarked (u : UnitId) (e : Event) (s : State) : State :=
  let l := entriesOf u s
  if l.any fun x => sameKey x e then setEntries u (modFirst (fun x => sameKey x e) (fun x => joinEntry x e) l) s
  else if l.any fun x => attributes x e then setEntries u (modFirst (fun x => attributes x e) (fun x => conseqEntry x e) l) s
  else openEntry u e s

/-- An event that no rule marks as folded (R376). -/
def foldPlain (u : UnitId) (e : Event) (s : State) : State :=
  let l := entriesOf u s
  if l.any fun x => sameKey x e then
    setEntries u (modFirst (fun x => sameKey x e) (fun x => joinEntry x e) l) (logEvent u e 0 false s)
  else if causeCode u e.code then openEntry u e s
  else logEvent u e 0 false s

/-- An event at the folder. -/
def foldEvent (u : UnitId) (e : Event) (s : State) : State :=
  if gf u FOLD_CTL.EN 0 s = 0 then logEvent u e 0 false s
  else if e.folded then foldMarked u e s
  else foldPlain u e s

/-! ### Calm triggers (R407) -/

/-- The lowest enabled trigger that an event's code matches. -/
def calmTrigger (e : Event) (s : State) : Option Nat :=
  if gb CALM_CTL.ARM 0 s then (List.range 8).find? fun k => gx CALM_TRIG.EN k s == 1 && gx CALM_TRIG.EVENT k s == e.code.num
  else none

/-- An event of the OX9 that matches a trigger starts a Calm. -/
def trigger (u : UnitId) (e : Event) (s : State) : State :=
  match u, calmTrigger e s with
  | .ox9, some k => startCalm 2 e.code.num e.ft (calmStop e.ft s) (1 + k) false s
  | _, _ => s

/-- The event that is folded next: of those raised in the clock of the oldest, the one of the lowest die, and of one die's the
first (R377; those of one ft are of one clock, log entry 135, DESIGN CHOICE). -/
def nextRaised : List Event → Option Event
  | [] => none
  | e :: rest => some ((rest.filter fun x => x.ft = e.ft).foldl (fun b x => if x.die < b.die then x else b) e)

/-- The folder takes events: an OEB's always; that of the OX9 once BOOT has ended (R441), and after a switch of its Monarch (R389). -/
def foldsNow (u : UnitId) (s : State) : Bool :=
  match u with
  | .ox9 => decide (4 ≤ gx START_STAT.PHASE 0 s) && !switching s
  | .oeb _ => true

/-- EVENT_FOLD's effect: the next raised event is tested for a Calm trigger, then folded. -/
def eventFold (u : UnitId) (s : State) : State :=
  match nextRaised (s.unit u).events.raised with
  | none => s
  | some e =>
    if !foldsNow u s then s
    else
    let rest := (s.unit u).events.raised.erase e
    let s1 := s.setUnit u { s.unit u with events := { (s.unit u).events with raised := rest } }
    foldEvent u e (trigger u e s1)

/-- EVENT_FOLD (R376). -/
def execEventFold (u : UnitId) (s : State) : Host.Outcome State Fault Refusal := liveAt u (eventFold u) s

/-! ### Closing (R377) -/

/-- The closing record of an entry. -/
def closeRecord (u : UnitId) (x : FoldEntry) (s : State) : State :=
  logRecord u x.code [x.firstFt, recWord2 x.code 2 x.cause x.qual x.die x.part, recWord3 x.okind x.origin x.oep, x.winFt,
    min x.count (2 ^ 32 - 1) + min x.conseq (2 ^ 32 - 1) * 2 ^ 32, x.firstConseq + x.sources.length * 2 ^ 16, x.firstSeq] s

/-- An entry closes where the test holds; with folding disabled it closes without a record (R376). -/
def closeEntry (u : UnitId) (seq : Nat) (p : FoldEntry → Bool) (s : State) : State :=
  match (entriesOf u s).find? fun x => x.firstSeq = seq with
  | none => s
  | some x =>
    if !p x then s
    else
      let s1 := setEntries u ((entriesOf u s).filter fun y => y.firstSeq ≠ seq) s
      if gf u FOLD_CTL.EN 0 s = 0 then s1 else closeRecord u x s1

/-- FOLD_WINDOW_EXPIRY (R377): FOLD_WIN has passed since the entry's last event. -/
def execFoldWindowExpiry (u : UnitId) (seq : Nat) (s : State) : Host.Outcome State Fault Refusal :=
  liveAt u (closeEntry u seq (fun x => decide (x.winFt + x.foldWin * 2500 ≤ ftOf u s))) s

/-- FOLD_MAXSPAN_EXPIRY (R377): MAXSPAN × FOLD_WIN has passed since the entry opened. -/
def execFoldMaxspanExpiry (u : UnitId) (seq : Nat) (s : State) : Host.Outcome State Fault Refusal :=
  liveAt u (closeEntry u seq (fun x => decide (x.openFt + x.maxSpan * x.foldWin * 2500 ≤ ftOf u s))) s

/-! ### FOLD_STAT -/

/-- A read of FOLD_STAT returns the word and clears OVERFLOW (R374). -/
def foldStatRead (s : State) : State :=
  let s1 := emit (.readData (getW .ox9 .foldStat 0 0 s).toNat) s
  if gb CALM_STAT.CALM 0 s then s1 else sx FOLD_STAT.OVERFLOW 0 0 s1

/-- FOLD_STAT_READ (R374). A frozen OX9 keeps the value it froze with (R409). -/
def execFoldStatRead (_fn : Dom) (s : State) : Host.Outcome State Fault Refusal :=
  hosted foldStatRead s

end Sys2Proof.Machine
end

