-- ==== Sys2Proof/Machine/Tele.lean ====
section
/-! DEFINITION. Snapshots and Calm (R395 to R400, R409, R410): SNAPSHOT_INSTANT, SNAPSHOT_COPY_DONE, CALM_FREEZE. -/

namespace Sys2Proof.Machine

/-! ### Snapshots -/

/-- The power domains of a die (Table 1-3). -/
def domsOfDie (d : Nat) : List Nat :=
  if d < 36 then [1 + 2 * d, 2 + 2 * d]
  else if d < 52 then [73 + (d - 36)]
  else if d < 60 then (List.range 9).map (89 + 9 * (d - 52) + ·)
  else if d < 62 then [161 + 2 * (d - 60), 162 + 2 * (d - 60)]
  else [165 + (d - 62)]

/-- Die `d` supplies retained or last values: retired, or each of its domains in Cocoon (R396, Table 18-5). -/
def dieStale (d : Nat) (s : State) : Bool :=
  gx DIE_INFO.RETIRED d s == 1 || (domsOfDie d).all fun p => gx DOM_STAT.STATE p s == 2

/-- USED_PEAK of each partition restarts from the USED of the instant (Table 18-4). -/
def restartPeaks (s : State) : State :=
  { s with ox := { s.ox with
    ctrs := s.fwd.used.foldl (fun m e => SMap.set (fun _ => 0) m (ctrKey (.part e.1) .usedPeak) e.2)
      (s.ox.ctrs.filter fun e => e.1 % 2 ^ 8 ≠ Ctr.usedPeak.ctorIdx) } }

/-- The peaks of a unit restart; an OEB has none. -/
def peaksRestart (u : UnitId) (s : State) : State :=
  match u with
  | .ox9 => restartPeaks s
  | .oeb _ => s

/-- Instants that a copy in progress makes a unit skip are counted (R398). -/
def skipSnaps (u : UnitId) (n : Nat) (s : State) : State :=
  match u with
  | .ox9 => countN .ox9 .glob .snapSkipped n s
  | .oeb side => countN (.oeb side) (.oeb side.val) .snapSkipped n s

/-- Every counter of a unit latched at an instant, after which its peaks restart (Table 18-4); an instant that falls while a copy is
busy is skipped (R396, R398). -/
def latch (u : UnitId) (instant : Nat) (oneshot calm : Bool) (s : State) : State :=
  let x := snapOf u s
  if x.copying.isSome then peaksRestart u (skipSnaps u 1 s)
  else
    let late := match s.tele.switchFt with | some f => u = .ox9 && decide (instant < f) | none => false
    let snap : Snap := {
      seq := (x.seq + 1) % 2 ^ 32, oneshot := oneshot, calm := calm, late := late, qual := qualOf u s, ft := instant
      taken := ftOf u s, stale := if u = .ox9 then (List.range 64).filter fun d => dieStale d s else [], ctrs := (s.unit u).ctrs }
    let s1 := setSnap u { x with copying := some snap } s
    match u with
    | .ox9 => restartPeaks (sx SNAP_STAT.BUSY 0 1 s1)
    | .oeb _ => s1

/-- The earliest one-shot instant that has come. -/
def dueShot (u : UnitId) (s : State) : Option Nat :=
  ((snapOf u s).oneShots.filter (· ≤ ftOf u s)).foldl (fun b t => match b with | none => some t | some x => some (min x t)) none

/-- A periodic instant: with SNAP_CTL.EN a snapshot, and the peaks restart in any case (R395, Table 18-4). -/
def periodic (u : UnitId) (instant : Nat) (s : State) : State :=
  if (snapOf u s).en then latch u instant false false s else peaksRestart u s

/-- A change of SNAP_CTL takes effect after the instant of the old period (R395). -/
def snapSetting (u : UnitId) (s : State) : State :=
  let p := gf u SNAP_CTL.PERIOD 0 s
  setSnap u { snapOf u s with en := gf u SNAP_CTL.EN 0 s == 1, period := p, idx := ftOf u s / (max 1 p * 2500) } s

/-- The instants after `t` that the same clock passes, at a step of fabric time: the first of them, and the others, which find its
copy in progress (R351, R398). -/
def furtherInstants (u : UnitId) (t : Nat) (s : State) : State :=
  let per := max 1 (snapOf u s).period * 2500
  let m := ftOf u s / per - t / per
  if m = 0 then s
  else
    let s1 := periodic u ((t / per + 1) * per) s
    if (snapOf u s1).en then skipSnaps u (m - 1) s1 else s1

/-- The one-shot instants of a unit that have come before a time, in their order (R351, R396). -/
def shotsBefore (u : UnitId) (limit : Nat) : Nat → State → State
  | 0, s => s
  | k + 1, s =>
    match dueShot u s with
    | none => s
    | some t =>
      if limit ≤ t then s
      else shotsBefore u limit k (latch u t true false (setSnap u { snapOf u s with oneShots := (snapOf u s).oneShots.erase t } s))

/-- Every one-shot instant of a unit that has come before a time. -/
def shots (u : UnitId) (limit : Nat) (s : State) : State := shotsBefore u limit (snapOf u s).oneShots.length s

/-- The instants of a unit that have come, in ascending order: periodic ones, after the first of which a change of SNAP_CTL takes
effect, and one-shots (R351, R395, R396). -/
def snapUnit (u : UnitId) (s : State) : State :=
  let x := snapOf u s
  let per := max 1 x.period * 2500
  let end_ := ftOf u s + 1
  if ftOf u s / per ≤ x.idx then shots u end_ s
  else
    let t := (x.idx + 1) * per
    shots u end_ (furtherInstants u t (snapSetting u (periodic u t (shots u t s))))

/-- SNAPSHOT_INSTANT's effect: the OX9 and both OEBs, each by its own fabric time (R396, R400); instants of the OX9 that fall in a
Monarch switch are taken after it (R389). -/
def snapshotInstant (s : State) : State :=
  let s1 := snapUnit (.oeb 1) (snapUnit (.oeb 0) s)
  if halted s1 || switching s1 then s1 else snapUnit .ox9 s1

/-- SNAPSHOT_INSTANT (R396). -/
def execSnapshotInstant (s : State) : Host.Outcome State Fault Refusal := .next (snapshotInstant s)

/-- A copy ends: the snapshot is in the buffer that DONE_BUF did not name; DONE_BUF, SEQ and BUSY change together (R398,
R400). -/
def copyEnd (u : UnitId) (s : State) : State :=
  let x := snapOf u s
  match x.copying with
  | none => s
  | some snap =>
    let x1 := { x with copying := none, seq := snap.seq }
    match u with
    | .ox9 =>
      let b := 1 - gx SNAP_STAT.DONE_BUF 0 s
      sx SNAP_STAT.SEQ 0 snap.seq (sx SNAP_STAT.BUSY 0 0 (sx SNAP_STAT.DONE_BUF 0 b
        (setSnap u (if b = 0 then { x1 with buf0 := some snap } else { x1 with buf1 := some snap }) s)))
    | .oeb _ => setSnap u { x1 with buf0 := some snap } s

/-- The copies of the units end; that of the OX9 also after a freeze (R409). -/
def copiesEnd (s : State) : State :=
  let s1 := copyEnd (.oeb 1) (copyEnd (.oeb 0) s)
  if dark s1 then s1 else copyEnd .ox9 s1

/-- SNAPSHOT_COPY_DONE (R398). -/
def execSnapshotCopyDone (s : State) : Host.Outcome State Fault Refusal := .next (copiesEnd s)

/-! ### Calm (R409, R410) -/

/-- The ports of the layout that are up. -/
def upPorts (s : State) : List Nat := (List.range (ports s).length).filter fun p => linkUp (getLink p s)

/-- The ports of the layout that a cause of Table 13-7 drops: up, or in bring-up from ALIGN on (R315). -/
def linkedPorts (s : State) : List Nat := (List.range (ports s).length).filter fun p => trainsOrUp (getLink p s)

/-- The ports of the layout whose transmitters drive their lanes: those in bring-up too. -/
def drivenPorts (s : State) : List Nat :=
  (List.range (ports s).length).filter fun p => decide (1 ≤ (getLink p s).st) && decide ((getLink p s).st ≤ 8)

/-- A DOWN insert leaves each of some ports. -/
def downPorts (l : List Nat) (s : State) : State :=
  l.foldl (fun s p => sendInsert (.ox (Fin.ofNat 288 p)) .down [] s) s

/-- CALM_FREEZE's effect: at the stop time every die freezes; with SNAP = 1 a snapshot is latched; CALM is logged on its
own; every lane transmitter sends DOWN (R409, R410). -/
def calmFreeze (s : State) : State :=
  match s.tele.stop with
  | none => s
  | some t =>
    if ft s < t then s
    else
      let s1 := if gb CALM_CTL.SNAP 0 s then latch .ox9 (ft s) false true s else s
      let s2 := logEvent .ox9 (Event.mk0 .ox9 .calm false (activeMonarch s1) 0 0 [] s1) 0 false s1
      let s3 := sx CALM_STAT.CALM_FT 0 (ft s2) (sx CALM_STAT.LATE 0 s2.tele.late.toNat (sx CALM_STAT.CALM 0 1 s2))
      downPorts (drivenPorts s3) (refreshReady { s3 with tele := { s3.tele with stop := none } })

/-- CALM_FREEZE (R409). -/
def execCalmFreeze (s : State) : Host.Outcome State Fault Refusal := live calmFreeze s

end Sys2Proof.Machine
end

