-- ==== Sys2Proof/Machine/Scan.lean ====
section
/-! DEFINITION. Scan-out (R412, R413): the spaces of Table 18-14, what they hold, SCAN_READ. -/

namespace Sys2Proof.Machine

/-! ### The spaces -/

/-- A scan space exists on a die (Table 18-14). -/
def scanHas (space d : Nat) : Bool :=
  let r := dieRole d
  if space = 0 then true
  else if space = 1 || space = 2 || space = 3 then r == 1
  else if space = 4 then r == 0 || r == 1
  else if space = 5 then r == 0
  else if space = 6 || space = 7 || space = 8 then r == 2
  else if space = 9 then r == 4
  else false

/-- SIZE of the chosen space of the chosen die. -/
def scanSize (fn : Nat) (s : State) : Nat :=
  let d := gx SCAN_CTL.DIE fn s
  let sp := gx SCAN_CTL.SPACE fn s
  if !scanHas sp d then 0 else if sp = 7 then 108 * 2 ^ 18 else Config.scanSize d sp

/-! ### What they hold -/

/-- A register file as numbers. -/
def regNumbers (s : State) : List (List Nat) := s.ox.regs.map fun e => [e.1, e.2.toNat]

/-- Bytes as numbers. -/
def byteNumbers (b : List Byte) : List Nat := b.map (·.toNat)

/-- The packets that have cells on a slice (R106). -/
def cellNumbers (k : Nat) (s : State) : List (List Nat) :=
  (s.fwd.bufs.filter fun b => b.stripe.contains k).map fun b => [b.pid, b.cells, b.tail.cells] ++ b.stripe ++ byteNumbers b.pkt.bytes

/-- The entries of the tracking banks on a slice (R53). -/
def trackNumbers (k : Nat) (s : State) : List (List Nat) :=
  (s.fwd.tracks.filter fun t => bankAt t.bank s = k).map fun t =>
    [t.bank, t.srcEp, t.tag, t.part, t.opcode, t.addr, entryDie t.ingress s, t.egress.getD 288, t.resv, t.resvShared, t.rspIn.toNat]

/-- A directory line as numbers. -/
def lineNumbers (l : CwLine) : List Nat :=
  [l.addr, (match l.st with | .s => 0 | .m => 1 | .bFetch => 2 | .bInv => 3 | .bRecall => 4 | .bWb => 5), l.owner, l.used, l.since] ++
    l.sharers

/-- The lines of the directory banks on a slice (R86). -/
def dirNumbers (k : Nat) (s : State) : List (List Nat) :=
  (List.range 16).flatMap fun b => if bankAt b s = k then (cwBank b s).lines.map lineNumbers else []

/-- The replay buffers of the ports of a port die (R298). -/
def replayNumbers (d : Nat) (s : State) : List (List Nat) :=
  (List.range (ports s).length).flatMap fun p =>
    if portDie p s = d then (getLink p s).held.map fun f => p :: f.2 :: byteNumbers (flitData f.1) else []

/-- The staging of a Luna die: what its open chunks have stored. -/
def stagingNumbers (k : Nat) (s : State) : List (List Nat) :=
  (lunaDie k s).chunks.flatMap fun c =>
    (c.stored.map fun e => e.1 :: byteNumbers (e.2.getD [])) ++ (c.streams.map fun x => x.slot :: byteNumbers x.bytes) ++
      [c.acc.flatMap fun e => [e.1, e.2], c.outs.flatMap fun e => [e.1, e.2]]

/-- The images of a Luna die (R218). -/
def imageNumbers (k : Nat) (s : State) : List (List Nat) :=
  (lunaDie k s).store :: (lunaDie k s).images.map fun x => x.prog :: byteNumbers x.bytes

/-- The SRAM of the Monarch: the log, the samples, the profile, the snapshots; the key store is no part of it. -/
def monarchNumbers (s : State) : List (List Nat) :=
  (s.ox.events.log.map fun e => e.1 :: e.2) ++ (s.obs.samples.map fun x => x.ft :: byteNumbers x.bytes) ++ [byteNumbers s.monarch.profile] ++
    ([s.tele.ox.buf0, s.tele.ox.buf1].filterMap fun b => b.map fun x => x.ctrs.flatMap fun e => [e.1, e.2])

/-- The contents of a space of a die (Table 18-14). -/
def scanContents (sp d : Nat) (s : State) : List (List Nat) :=
  match sp with
  | 1 => cellNumbers (d - 36) s
  | 2 => trackNumbers (d - 36) s
  | 3 => dirNumbers (d - 36) s
  | 5 => replayNumbers d s
  | 6 => stagingNumbers (d - 52) s
  | 8 => imageNumbers (d - 52) s
  | 9 => monarchNumbers s
  | _ => regNumbers s

/-- The word at an address of the core-local SRAM of a Luna die: its cores stand in ascending order, 256 KiB each (R205; log
entry 136, DESIGN CHOICE). -/
def coreWord (k a : Nat) (s : State) : Nat :=
  ofLE ((List.range 8).map fun i => SMap.get (fun _ => (0 : Byte)) (lcore (108 * k + a / 2 ^ 18) s).mem (a % 2 ^ 18 + i))

/-! ### Reads -/

/-- SCAN_CTL and SCAN_DATA are served only in Calm and to the fabric-telemetry domain (R412). -/
def scanServed (fn : Nat) (s : State) : Bool := gb CALM_STAT.CALM 0 s && gx DOM_RIGHTS.TELEMETRY fn s == 1

/-- A collective key slot is held: its STATE is not empty (R361). -/
def collectiveHeld (s : State) : Bool :=
  (regEntries .ksInfo s.ox.regs).any fun e => gx KS_INFO.KIND e.1 s == 2 && gx KS_INFO.STATE e.1 s != 0

/-- The address in its space of a read at an offset of SCAN_DATA. -/
def scanAddr (fn off : Nat) (s : State) : Nat := gx SCAN_CTL.ADDR fn s + off

/-- A read at an offset shows what its space holds: within SIZE, and of spaces 6 and 7 while no collective key slot is held. -/
def scanShows (fn off : Nat) (s : State) : Bool :=
  let sp := gx SCAN_CTL.SPACE fn s
  decide (scanAddr fn off s < scanSize fn s) && !((sp == 6 || sp == 7) && collectiveHeld s)

/-- A read at an offset finds an uncorrectable word; flops, space 0, have none. -/
def scanUe (fn off : Nat) (s : State) : Bool :=
  let sp := gx SCAN_CTL.SPACE fn s
  scanShows fn off s && sp != 0 && Config.scanLost (gx SCAN_CTL.DIE fn s) sp (scanAddr fn off s) (gx CALM_STAT.CALM_FT 0 s)

/-- The word a scan read returns: what the space holds, an uncorrectable one as stored; else zeros (R413). -/
def scanValue (fn off : Nat) (s : State) : Nat :=
  let d := gx SCAN_CTL.DIE fn s
  let sp := gx SCAN_CTL.SPACE fn s
  let a := scanAddr fn off s
  if !scanShows fn off s then 0
  else if scanUe fn off s then (Config.scanStored d sp a (gx CALM_STAT.CALM_FT 0 s)).toNat
  else if sp = 7 then coreWord (d - 52) a s
  else (Config.scanWord d sp a (scanContents sp d s)).toNat

/-- An access that R412 denies: zeros, counted. -/
def scanDenied (s : State) : State := emit (.readData 0) (countG .scanDeny s)

/-- UE is set where one of `n` words read from an offset on is uncorrectable. -/
def noteUe (fn off n : Nat) (s : State) : State :=
  if (List.range n).any fun k => scanUe fn (off + 8 * k) s then sx SCAN_CTL.UE fn 1 s else s

/-- SCAN_READ's effect. -/
def scanRead (fn off : Nat) (s : State) : State :=
  if !scanServed fn s then scanDenied s else emit (.readData (scanValue fn off s)) (noteUe fn off 1 s)

/-- SCAN_READ (R412). -/
def execScanRead (fn : Dom) (off : Nat) (s : State) : Host.Outcome State Fault Refusal := hosted (scanRead fn.val off) s

end Sys2Proof.Machine
end

