-- ==== Sys2Proof/Machine/CtlMap.lean ====
section
/-! DEFINITION. The address map of BAR0 and the control addresses of the indexed tables (R457 to R464), what a read of each
register returns, how a write of each access code changes it (R4). -/

namespace Sys2Proof.Machine

/-! ### The map (Tables 21-1 to 21-6) -/

/-- A row of the map: the base of its entries, their stride and count, the 64-bit words of one. -/
structure MapRow where
  base : Nat
  stride : Nat
  count : Nat
  words : Nat
  reg : Reg
deriving DecidableEq, Repr

/-- The registers of the global block (Table 21-3), but for views, counters and windows. -/
def globalMap : List MapRow := [
  ⟨0x00000, 8, 1, 1, .deviceId⟩, ⟨0x00028, 8, 1, 1, .logSeq⟩, ⟨0x00030, 8, 1, 1, .secCap⟩, ⟨0x00590, 8, 2, 1, .chainStat⟩,
  ⟨0x00050, 8, 1, 1, .cwCtrl⟩, ⟨0x02000, 8, 64, 1, .cwMember⟩, ⟨0x00040, 8, 1, 1, .fwdCtrl⟩, ⟨0x00048, 8, 1, 1, .bufCarve⟩,
  ⟨0x00118, 8, 1, 1, .mcgIndex⟩, ⟨0x002C0, 8, 8, 1, .mirrorMatch⟩, ⟨0x00300, 8, 8, 1, .mirrorDest⟩,
  ⟨0x05000, 8, 288, 1, .sampleCtl⟩, ⟨0x10000, 8, 4096, 1, .partBuf⟩, ⟨0x000B0, 8, 1, 1, .cmapCtl⟩,
  ⟨0x000B8, 8, 1, 1, .cmapTime⟩, ⟨0x00150, 8, 1, 1, .rtIndex⟩, ⟨0x03000, 8, 288, 1, .portArb⟩,
  ⟨0x04000, 8, 288, 1, .portCmark⟩, ⟨0x08000, 16, 576, 2, .cmapRec⟩, ⟨0x18000, 8, 4096, 1, .partRt⟩,
  ⟨0x20000, 8, 4096, 1, .partShape⟩, ⟨0x00058, 16, 1, 2, .linkCfg⟩, ⟨0x00068, 8, 1, 1, .gwCtrl⟩,
  ⟨0x00240, 8, 16, 1, .gwRegion⟩, ⟨0x00070, 16, 1, 2, .timeCfg⟩, ⟨0x00080, 24, 1, 3, .timeStat⟩,
  ⟨0x00098, 8, 1, 1, .ppsInEdge⟩, ⟨0x000A0, 8, 2, 1, .ppsOutCfg⟩, ⟨0x06000, 8, 290, 1, .timeAsym⟩,
  ⟨0x00160, 8, 1, 1, .ksIndex⟩, ⟨0x02400, 8, 288, 1, .portBind⟩, ⟨0x28000, 8, 4096, 1, .partSec⟩,
  ⟨0x30000, 8, 18432, 1, .portPset⟩, ⟨0x000C0, 8, 1, 1, .foldCtl⟩, ⟨0x000C8, 8, 1, 1, .foldStat⟩,
  ⟨0x000D0, 16, 1, 2, .expelStat⟩, ⟨0x000E0, 8, 1, 1, .snapCtl⟩, ⟨0x000E8, 8, 1, 1, .snapStat⟩,
  ⟨0x00180, 8, 1, 1, .calmCtl⟩, ⟨0x00188, 24, 1, 3, .calmStat⟩, ⟨0x001A0, 8, 8, 1, .calmTrig⟩,
  ⟨0x001E0, 24, 1, 3, .scanCtl⟩, ⟨0x00480, 32, 8, 3, .smpRing⟩, ⟨0x00020, 8, 1, 1, .profileStat⟩,
  ⟨0x00200, 8, 8, 1, .domRights⟩, ⟨0x07000, 8, 134, 1, .sensCal⟩, ⟨0x00010, 8, 1, 1, .startStat⟩,
  ⟨0x00018, 8, 1, 1, .alertStat⟩, ⟨0x000F0, 8, 1, 1, .cocoonCtl⟩, ⟨0x000F8, 8, 1, 1, .lunaDvfs⟩,
  ⟨0x00100, 8, 1, 1, .govCtl⟩, ⟨0x00108, 8, 1, 1, .govStat⟩, ⟨0x00110, 8, 1, 1, .thermCfg⟩, ⟨0x07800, 8, 167, 1, .domStat⟩]

/-- What an address names: a register word of the OX9's file, or one of the read-only places that no register file holds. -/
inductive CtlAt where
  | reg (r : Reg) (i w : Nat)
  | ftNow
  | status (i : Nat)
  | dieCtr (d i : Nat)
  | dir (d : Option Nat) (off : Nat)
  | mcgView (k : Nat)
  | rtView
  | ksView (k : Nat)
  | ctxView (d k : Nat)
  | portLink (d p : Nat)
deriving DecidableEq, Repr

/-- The row of a map that holds an offset: the register, the entry, the word. -/
def findRow (m : List MapRow) (off : Nat) : Option (Reg × Nat × Nat) :=
  (m.find? fun x => decide (x.base ≤ off) && decide (off < x.base + x.stride * x.count) &&
      decide ((off - x.base) % x.stride / 8 < x.words)).map
    fun x => (x.reg, (off - x.base) / x.stride, (off - x.base) % x.stride / 8)

/-- A register that each function holds for itself (R459). -/
def perFunction (r : Reg) : Bool := r = .mcgIndex || r = .rtIndex || r = .ksIndex || r = .scanCtl

/-- An offset of the global block, read through function `fn` (R461). GW_REGION has entries 1 to 14 (Table 14-2). -/
def globalAt (fn off : Nat) : Option CtlAt :=
  if off = 0x8 then some .ftNow
  else if off = 0x240 || off = 0x2B8 then none
  else if 0x1000 ≤ off && off < 0x2000 then some (.status ((off - 0x1000) / 8))
  else if 0xC000 ≤ off && off < 0x10000 then some (.dir none (off - 0xC000))
  else if 0x120 ≤ off && off < 0x150 then some (.mcgView ((off - 0x120) / 8))
  else if off = 0x158 then some .rtView
  else if off = 0x168 || off = 0x170 then some (.ksView ((off - 0x168) / 8))
  else if 0x340 ≤ off && off < 0x480 then some (.reg .mirrorPorts (8 * ((off - 0x340) / 40) + (off - 0x340) % 40 / 8) 0)
  else (findRow globalMap off).map fun x => if perFunction x.1 then .reg x.1 fn x.2.2 else .reg x.1 x.2.1 x.2.2

/-- An offset of the window of die `n`; `some none` where it is rsv (R462, Table 21-6). -/
def dieAt (fn n off : Nat) : Option (Option CtlAt) :=
  if off = 0 then some (some (.reg .dieInfo n 0))
  else if 0x4000 ≤ off && off < 0x8000 then some (some (.dieCtr n ((off - 0x4000) / 8)))
  else if 0x8000 ≤ off && off < 0x18000 then some (some (.dir (some n) (off - 0x8000)))
  else
    let own (r : Reg) (i : Nat) (mine : Bool) : Option (Option CtlAt) := some (if mine then some (.reg r i 0) else none)
    match dieRole n with
    | 0 =>
      if 0x20000 ≤ off && off < 0x20000 + 8 * 288 then some (some (.portLink n ((off - 0x20000) / 8)))
      else if 0x21000 ≤ off && off < 0x21000 + 8 * 648 then own .laneStat ((off - 0x21000) / 8) ((off - 0x21000) / 8 / 18 == n)
      else if 0x24000 ≤ off && off < 0x24000 + 8 * 648 then own .eqF ((off - 0x24000) / 8) ((off - 0x24000) / 8 / 18 == n)
      else if 0x26000 ≤ off && off < 0x26000 + 8 * 648 then own .eqE ((off - 0x26000) / 8) ((off - 0x26000) / 8 / 18 == n)
      else if 0x28000 ≤ off && off < 0x28000 + 8 * 576 then own .eqU ((off - 0x28000) / 8) ((off - 0x28000) / 8 / 16 == n)
      else none
    | 2 =>
      if 0x20000 ≤ off && off < 0x20000 + 800 then own .lunaCoreMap (100 * (n - 52) + (off - 0x20000) / 8) true
      else if off = 0x21000 then own .lunaSvc (n - 52) true
      else if off = 0x21008 then own .ctxIndex (8 * (n - 52) + fn) true
      else if 0x21010 ≤ off && off < 0x21050 then some (some (.ctxView (n - 52) ((off - 0x21010) / 8)))
      else none
    | 3 =>
      if 0x20000 ≤ off && off < 0x20038 then some (some (.reg .hostCfg (n - 60) ((off - 0x20000) / 8)))
      else if off = 0x20040 then own .hostStat (n - 60) true
      else none
    | 4 => if off = 0x20000 then own .trngStat n true else none
    | _ => none

/-- An offset of the command ring of domain `d` (Table 19-4a). -/
def ringAt (d off : Nat) : Option CtlAt :=
  if off = 0 then some (.reg .ringCtl d 0)
  else if off = 0x8 then some (.reg .ringTail d 0)
  else if off = 0x10 then some (.reg .ringHead d 0)
  else if off = 0x18 then some (.reg .ringPseq d 0)
  else if 0x1000 ≤ off && off < 0x2000 then some (.reg .ringRec (128 * d + (off - 0x1000) / 32) ((off - 0x1000) % 32 / 8))
  else if 0x2000 ≤ off && off < 0x8000 then some (.reg .ringRd (3072 * d + (off - 0x2000) / 8) 0)
  else if 0x8000 ≤ off && off < 0x10000 then some (.reg .ringWord (2048 * d + (off - 0x8000) / 16) (off % 16 / 8))
  else none

/-- An offset of the mailbox of domain `d`, its two registers (Table 21-10). -/
def mailboxAt (d off : Nat) : Option CtlAt :=
  if off = 0 then some (.reg .mbCtl d 0) else if off = 8 then some (.reg .mbStat d 0) else none

/-- The indexed tables of Table 21-2. -/
def tableAt (t k : Nat) : Option CtlAt :=
  match t with
  | 0 => if k < 6 * 32768 then
           some (if k % 6 = 0 then .reg .mcgCtl (k / 6) 0 else .reg .mcgPorts (8 * (k / 6) + (k % 6 - 1)) 0) else none
  | 1 => if k < 65536 then some (.reg .route k 0) else none
  | 2 => if k < 1024 then some (.reg .pgroup k 0) else none
  | 3 => if k < 8 * 16384 then some (.reg .lunaCtx (k / 8) (k % 8)) else none
  | 4 => if k < 262144 then some (.reg .lunaMember k 0) else none
  | 5 => if k < 576 then some (.reg .eqU k 0) else none
  | _ => none

/-- An aligned control address as a program of domain `dom` reaches it: a register of BAR0, as function `dom` sees it, or
an entry of an indexed table (R421, R460, R414). A rsv place of a window answers `some none`. -/
def ctlAt (dom addr : Nat) : Option (Option CtlAt) :=
  if addr % 8 ≠ 0 then none
  else if addr < 0x100000 then (globalAt dom addr).map some
  else if addr < 0x180000 then
    if (addr - 0x100000) / 0x10000 = dom then (ringAt dom ((addr - 0x100000) % 0x10000)).map some else none
  else if 0x1000000 ≤ addr && addr < 0x5000000 then dieAt dom ((addr - 0x1000000) / 0x100000) ((addr - 0x1000000) % 0x100000)
  else if 0x6000000 ≤ addr && addr < 0x6020000 then
    if (addr - 0x6000000) / 0x4000 = dom then (mailboxAt dom ((addr - 0x6000000) % 0x4000)).map some else none
  else if 0x100000000 ≤ addr then (tableAt ((addr - 0x100000000) / 0x1000000) ((addr - 0x100000000) % 0x1000000 / 8)).map some
  else none

/-! ### Values that no register holds -/

/-- The counter group of a die window, or of the global block (R464). -/
def groupOf (d : Option Nat) : List Ctr :=
  match d with
  | none => groupGlobal
  | some n => match dieRole n with
    | 0 => groupPort | 1 => groupSlice | 2 => groupLuna | 3 => groupSkipper | _ => groupMonarch

/-- The word of a COUNTER_DIR at a byte offset: entries of 32 bytes, a zero-padded name in the first 24 (R464). -/
def dirWord (group : List Ctr) (off : Nat) : Nat :=
  match group[off / 32]? with
  | none => 0
  | some c => ofLE (((fit 24 (c.name.toList.map fun (x : Char) => BitVec.ofNat 8 x.toNat) ++ List.replicate 8 0).drop (off % 32 / 8 * 8)).take 8)

/-- E_OFF of a sensor and whether it was clamped (R435, Table 19-13). -/
def sensEff (k : Nat) (s : State) : Int × Bool :=
  clampSum (signed 12 (gx SENS_CAL.F_OFF k s) + signed 12 (gx SENS_CAL.U_OFF k s)) (-256) 255

/-- PORT_LINK of a port (Table 13-8). -/
def portLinkWord (p : Nat) (s : State) : Nat :=
  let l := getLink p s
  let put (f : Fld) (v : Nat) (a : Nat) : Nat := setBits a f.lo f.len v
  put PORT_LINK.STATE l.st (put PORT_LINK.LAST_CAUSE l.cause (put PORT_LINK.PARTNER_NR l.partnerNr.toNat
    (put PORT_LINK.SKIP_MODE (inSkipMode (.ox (Fin.ofNat 288 p)) s).toNat (put PORT_LINK.RX_REVERSED l.rxReversed.toNat
    (put PORT_LINK.RX_POLARITY l.polarity (put PORT_LINK.PARTNER_EP l.partnerEp
    (put PORT_LINK.PARTNER_ROLE l.partnerRole (put PORT_LINK.DELAY l.delay
    (put PORT_LINK.TRAIN_COUNT (min l.trainCount 255) 0)))))))))

/-- The member ports that the words of a group name (Table 5-7). -/
def mcgNports (g : Nat) (s : State) : Nat :=
  ((List.range 5).map fun w => ((List.range 64).filter fun b => bits (gx MCG_PORTS.PORTS (8 * g + w) s) b 1 = 1).length).sum

/-- Word `k` of a context as die `d` shows it: STATE and CUR_STEP are the die's own, DEADLINE as written for it. -/
def ctxWord (d c k : Nat) (s : State) : Nat :=
  let v := (getW .ox9 .lunaCtx c k s).toNat
  let x := lctx d c s
  let v1 := if LUNA_CTX.STATE.word = k then setBits v LUNA_CTX.STATE.lo LUNA_CTX.STATE.len x.st else v
  let v2 := if LUNA_CTX.CUR_STEP.word = k then setBits v1 LUNA_CTX.CUR_STEP.lo LUNA_CTX.CUR_STEP.len x.curStep else v1
  if LUNA_CTX.DEADLINE.word = k then (dieDeadline d c s) else v2

/-- The lowest die of a context's masks, D52 where it has none. -/
def firstDie (c : Nat) (s : State) : Nat := ((ctxDies c s).head?).getD 0

/-- A register word with the fields that the model computes filled in. -/
def regValue (r : Reg) (i w : Nat) (s : State) : Nat :=
  let v := (getW .ox9 r i w s).toNat
  match r with
  | .portLink => if (portInfo i s).isSome then portLinkWord i s else 0
  | .partBuf => setBits v PART_BUF.USED.lo PART_BUF.USED.len (usedOf i s)
  | .partShape => setBits v PART_SHAPE.LEVEL.lo PART_SHAPE.LEVEL.len (unsigned 18 (levelOf i s / 65536))
  | .sensCal => setBits (setBits v SENS_CAL.E_OFF.lo 12 (unsigned 12 (sensEff i s).1)) SENS_CAL.CLAMPED.lo 1 (sensEff i s).2.toNat
  | .mcgCtl => setBits v MCG_CTL.NPORTS.lo MCG_CTL.NPORTS.len (mcgNports i s)
  | .lunaCtx => ctxWord (firstDie i s) i w s
  | .scanCtl => if w = 2 then scanSize i s else v
  | .ringCtl => setBits v 1 1 0
  | .mbCtl => setBits v 0 1 0
  | _ => v

/-- Die `n` is OFF, failed or retired: the rest of its window reads zero and ignores writes (R463). -/
def dieDead (n : Nat) (s : State) : Bool :=
  gx DIE_INFO.RETIRED n s == 1 || ((domsOfDie n).any fun p => gx DOM_STAT.FAILED p s == 1) ||
    ((domsOfDie n).all fun p => gx DOM_STAT.STATE p s == 0)

/-- The 64-bit word an address returns to a read through function `fn`. -/
def ctlValue (fn : Nat) (a : CtlAt) (s : State) : Nat :=
  match a with
  | .reg r i w => regValue r i w s
  | .ftNow => ft s
  | .status i => match groupGlobal[i]? with | some c => counter .ox9 .glob c s | none => 0
  | .dieCtr d i => match (groupOf (some d))[i]? with | some c => counter .ox9 (.die d) c s | none => 0
  | .dir d off => dirWord (groupOf d) off
  | .mcgView k =>
    let g := gx MCG_INDEX.GROUP fn s
    if k = 0 then regValue .mcgCtl g 0 s else regValue .mcgPorts (8 * g + (k - 1)) 0 s
  | .rtView =>
    if gx RT_INDEX.TABLE fn s = 0 then regValue .route (4096 * gx RT_INDEX.SET fn s + gx RT_INDEX.ENTRY fn s % 4096) 0 s
    else regValue .pgroup (gx RT_INDEX.ENTRY fn s % 1024) 0 s
  | .ksView k => regValue .ksInfo (gx KS_INDEX.SLOT fn s) k s
  | .ctxView d k =>
    let i := gx CTX_INDEX.INDEX (8 * d + fn) s
    if gx CTX_INDEX.TABLE (8 * d + fn) s = 0 then ctxWord d (i % 16384) k s
    else if k = 0 then regValue .lunaMember i 0 s else 0
  | .portLink d p => if portDie p s = d then regValue .portLink p 0 s else 0

/-- A register keeps its value in Calm, but for those of the active Monarch, which runs on (R409, R410). -/
def frozenReg (r : Reg) (i : Nat) (s : State) : Bool :=
  gb CALM_STAT.CALM 0 s && !(r = .trngStat && i == activeMonarch s)

/-- What an RC field loses when it is read (R4). -/
def clearRc (a : CtlAt) (s : State) : State :=
  match a with
  | .reg r i w =>
    if frozenReg r i s then s else (fieldsOf r w).foldl (fun s x => if x.acc = .rc then sx x.fld i 0 s else s) s
  | _ => s

/-- An address of SCAN_CTL. -/
def isScan : CtlAt → Bool
  | .reg r _ _ => r = .scanCtl
  | _ => false

/-- A read of a control address through function `fn`: its value, the state after it (R4, R463, R457); of SCAN_CTL it is denied
where R412 does not serve it. An address that no table assigns reads none. -/
def ctlRead (fn addr : Nat) (s : State) : Option (Nat × State) :=
  match ctlAt fn addr with
  | none => none
  | some none => some (0, s)
  | some (some a) =>
    if isScan a && !scanServed fn s then some (0, countG .scanDeny s)
    else
    let n := (addr - 0x1000000) / 0x100000
    if 0x1000000 ≤ addr && addr < 0x5000000 && addr % 0x100000 ≠ 0 && dieDead n s then some (0, s)
    else some (ctlValue fn a s, clearRc a s)

/-! ### Writes -/

/-- A word written to a register by the access codes of its fields: RW takes the bits, W1C clears where a 1 is written,
W1S sets, RO and RC stay (R4). -/
def mergeWrite (r : Reg) (w : Nat) (old v : Nat) : Nat :=
  (fieldsOf r w).foldl (fun a x =>
    match x.acc with
    | .rw | .wo => setBits a x.fld.lo x.fld.len (bits v x.fld.lo x.fld.len)
    | .w1c => setBits a x.fld.lo x.fld.len (bits old x.fld.lo x.fld.len - Nat.land (bits old x.fld.lo x.fld.len) (bits v x.fld.lo x.fld.len))
    | .w1s => setBits a x.fld.lo x.fld.len (Nat.lor (bits old x.fld.lo x.fld.len) (bits v x.fld.lo x.fld.len))
    | .ro | .rc => a) old

/-- A register word of a unit written, fields by their access codes. -/
def regWrite (u : UnitId) (r : Reg) (i w v : Nat) (s : State) : State :=
  setW u r i w (BitVec.ofNat 64 (mergeWrite r w (getW u r i w s).toNat v)) s

/-- A nonzero value is written to a rsv bit (R5). -/
def rsvHit (r : Reg) (w v : Nat) : Bool :=
  v - Nat.land v (fieldMask r w) ≠ 0

end Sys2Proof.Machine
end

