-- ==== Sys2Proof/Machine/Commit.lean ====
section
/-! DEFINITION. What the registers a program, a profile load or a direct write changes do when they change: the Common
window, partitions, shapers, fabric time, sampling, the Luna contexts, the Luna clock, Cocoon (R84, R148, R226, R337, R355,
R426, R448, R450). -/

namespace Sys2Proof.Machine

/-- A write of a word of an OX9 register: register, entry, word, value. -/
structure RegWr where
  reg : Reg
  i : Nat
  w : Nat
  v : Nat
deriving DecidableEq, Repr

/-- The register file after some writes, nothing else changed. -/
def rawWrites (ws : List RegWr) (s : State) : State := ws.foldl (fun s x => regWrite .ox9 x.reg x.i x.w x.v s) s

/-- The entries of a register that some writes touch. -/
def touched (r : Reg) (ws : List RegWr) : List Nat := ((ws.filter fun x => x.reg = r).map (·.i)).dedup

/-! ### The Common window (R84, R98, R388) -/

/-- Member `m` of the old table is no longer a member of the new one. -/
def cwMemberGone (old new : State) (m : Nat) : Bool :=
  gx CW_MEMBER.VALID m old == 1 && (gx CW_MEMBER.VALID m new == 0 || gx CW_MEMBER.EP m new != gx CW_MEMBER.EP m old)

/-- Before the tables change, the directory notes what is to go: members no longer valid, with the identity they had, and every
line of a window switched off (R84). -/
def cwBefore (ws : List RegWr) (old new : State) : State :=
  let gone := (touched .cwMember ws).filter fun m => cwMemberGone old new m
  let ids := gone.map fun m => (m, gx CW_MEMBER.EP m old, gx CW_MEMBER.PART m old)
  let s1 := { old with cwGone := (old.cwGone.filter fun g => !gone.contains g.1) ++ ids }
  if gb CW_CTRL.EN 0 old && !gb CW_CTRL.EN 0 new then cwFlushAll s1 else s1

/-- After them, a written member entry is not suspended, a lost bank serves again once EN is set, lines that are to go are
invalidated or recalled, and the requests that wait are served by the new tables. -/
def cwAfter (ws : List RegWr) (old new : State) (s : State) : State :=
  let ms := touched .cwMember ws
  let s1 := ms.foldl (fun s m => sx CW_MEMBER.SUSPENDED m 0 s) s
  let on := !gb CW_CTRL.EN 0 old && gb CW_CTRL.EN 0 new
  let s2 := if on then { s1 with slices := { s1.slices with lostDir := [] } } else s1
  if ms.isEmpty && touched .cwCtrl ws = [] then s2 else cwDrainAll s2

/-! ### Partitions and shapers (R355, R148, R112) -/

/-- A partition no longer valid loses its key slots (R355, R367). -/
def partAfter (ws : List RegWr) (old new : State) (s : State) : State :=
  ((touched .partSec ws).filter fun p => gx PART_SEC.VALID p old == 1 && gx PART_SEC.VALID p new == 0).foldl
    (fun s p => eraseSlots .ox9 (fun k => slotPart .ox9 k s = p) s) s

/-- The dies' token holdings for a partition discarded. -/
def dropTokens (p : Nat) (s : State) : State :=
  { s with fwd := { s.fwd with
    tokens := s.fwd.tokens.filter fun e => e.1 % 4096 ≠ p, tokenReqs := s.fwd.tokenReqs.filter fun r => r.2 ≠ p } }

/-- A change of a partition's shaper (R148). -/
def shapeOne (p : Nat) (old new : State) (s : State) : State :=
  let was := gx PART_SHAPE.EN p old == 1
  let now := gx PART_SHAPE.EN p new == 1
  let burst : Int := gx PART_SHAPE.BURST p new * 65536
  if !was && now then dropTokens p (setLevel p burst s)
  else if was && !now then
    let s1 := setLevel p 0 (dropTokens p s)
    (s1.fwd.held.filter fun x => x.why = .shape && x.pkt.hdr.part.toNat == p).foldl (fun s x => retryHeld x s) s1
  else if now && gx PART_SHAPE.BURST p old ≠ gx PART_SHAPE.BURST p new then setLevel p (min (levelOf p s) burst) s
  else s

/-- The shapers that a program changes. -/
def shapeAfter (ws : List RegWr) (old new : State) (s : State) : State :=
  (touched .partShape ws).foldl (fun s p => shapeOne p old new s) s

/-- Grants that a change of the buffer carving makes possible. -/
def carveAfter (ws : List RegWr) (s : State) : State :=
  if touched .partBuf ws = [] && touched .bufCarve ws = [] then s
  else (s.fwd.grantReqs.map (·.2)).dedup.foldl (fun s p => serveGrants p s) s

/-- A new SEED starts the selectors of its port anew (R124). -/
def sampleAfter (ws : List RegWr) (old new : State) (s : State) : State :=
  ((touched .sampleCtl ws).filter fun q => gx SAMPLE_CTL.SEED q old != gx SAMPLE_CTL.SEED q new).foldl
    (fun s q => { s with obs := { s.obs with lfsr := s.obs.lfsr.filter fun e => e.1 / 2 ≠ q } }) s

/-! ### Fabric time (R337, R338, R343) -/

/-- A unit becomes root: it keeps its ft, its RATE is RATE_SET, it has no upstream. -/
def becomeRoot (s : State) : State :=
  let t := s.ox.time
  let s1 := setTime .ox9 { t with r := 0, hist := [], freq := 0, ppsPrevFt := none, ppsPrevE := none, ppsGood := 0
                                  demotedFt := none } s
  setQual .ox9 6 (sx TIME_STAT.UPSTREAM 0 0x1FF (sx TIME_STAT.HOPS 0 0 (setRootRate s1)))

/-- A root becomes a follower: ft and RATE stay, no history, no correction, QUAL 3 with HOPS 15. -/
def becomeFollower (s : State) : State :=
  let t := s.ox.time
  setQual .ox9 3 (sx TIME_STAT.UPSTREAM 0 0x1FF (sx TIME_STAT.HOPS 0 15
    (setTime .ox9 { t with r := 0, hist := [], demotedFt := some t.ft } s)))

/-- A change of TIME_CFG. With PPS_EN = 0, FREQ is 0 and a root's quality is ROOT_FREE. -/
def timeAfter (ws : List RegWr) (old new : State) (s : State) : State :=
  if touched .timeCfg ws = [] then s
  else
    let was := isRoot .ox9 old
    let now := isRoot .ox9 new
    let s1 := if !was && now then becomeRoot s else if was && !now then becomeFollower s else s
    if !now then s1
    else if gx TIME_CFG.PPS_EN 0 new = 0 then
      setQual .ox9 6 (setRootRate (setTime .ox9 { s1.ox.time with freq := 0, ppsPrevFt := none, ppsPrevE := none, ppsGood := 0 } s1))
    else setRootRate s1

/-- A pulse output written drives the instants of its new setting from now on (R349). -/
def ppsAfter (ws : List RegWr) (s : State) : State := (touched .ppsOutCfg ws).foldl (fun s k => ppsArm k s) s

/-! ### The Luna clock and voltage (R450, Table 20-8) -/

/-- The voltage a clock of `f` × 100 MHz requires, in mV. -/
def lunaMv (f : Nat) : Nat := if f ≤ 10 then 650 else if f ≤ 14 then 700 else if f ≤ 17 then 750 else if f ≤ 20 then 800 else 850

/-- REQ_MV set; a change sets ALERT_STAT.DVFS (Table 20-13). -/
def setReqMv (mv : Nat) (s : State) : State :=
  if gx LUNA_DVFS.REQ_MV 0 s = mv then s else sx ALERT_STAT.DVFS 0 1 (sx LUNA_DVFS.REQ_MV 0 mv s)

/-- A new target: a raise asks for the voltage first, a lowering changes the clock first. -/
def dvfsTarget (s : State) : State :=
  let f := gx LUNA_DVFS.FREQ 0 s
  if gx LUNA_DVFS.CUR_FREQ 0 s < f then
    let s1 := sx LUNA_DVFS.BUSY 0 1 (setReqMv (lunaMv f) s)
    sx ALERT_STAT.DVFS 0 1 { s1 with power := { s1.power with dvfsGoal := some f, dvfsSince := locOf .ox9 s } }
  else
    let s1 := sx LUNA_DVFS.BUSY 0 0 (setReqMv (lunaMv f) (sx LUNA_DVFS.CUR_FREQ 0 f s))
    { s1 with power := { s1.power with dvfsGoal := none } }

/-- A write of LUNA_DVFS that changes the target. -/
def dvfsAfter (ws : List RegWr) (old new : State) (s : State) : State :=
  if touched .lunaDvfs ws = [] || gx LUNA_DVFS.FREQ 0 old = gx LUNA_DVFS.FREQ 0 new then s else dvfsTarget s

/-- With EN = 0 nothing is held and no pad is drawn (R452). -/
def govAfter (ws : List RegWr) (s : State) : State :=
  if touched .govCtl ws = [] || gb GOV_CTL.EN 0 s then s else sx GOV_STAT.HOLDING 0 0 (sx GOV_STAT.PAD 0 0 s)

/-! ### Cocoon (R448, Table 20-7) -/

/-- Every port-die half and Skipper domain follows its condition, and with LUNA_EN = 0 the Luna clusters wake. -/
def settleCocoon (s : State) : State :=
  let s1 := ((List.range 72).map (· + 1) ++ [161, 162, 163, 164]).foldl (fun s d => settleDomain d s) s
  if gb COCOON_CTL.LUNA_EN 0 s1 then s1
  else (List.range 8).foldl (fun s d => (List.range 9).foldl (fun s cl => wakeCluster d cl s) s) s1

/-- The registers that Cocoon reads are written. -/
def cocoonAfter (ws : List RegWr) (s : State) : State :=
  if touched .cocoonCtl ws = [] && touched .gwRegion ws = [] && touched .hostCfg ws = [] then s else settleCocoon s

/-! ### Writes committed (R426) -/

/-- Luna contexts that some writes invalidate. -/
def ctxsCleared (ws : List RegWr) (old new : State) : List Nat :=
  (touched .lunaCtx ws).filter fun c => gx LUNA_CTX.VALID c old == 1 && gx LUNA_CTX.VALID c new == 0

/-- A write of DEADLINE updates the copy on every die (R460). -/
def deadlineAfter (ws : List RegWr) (s : State) : State :=
  ((ws.filter fun x => x.reg = .lunaCtx && x.w = LUNA_CTX.DEADLINE.word).map (·.i)).dedup.foldl (fun s c =>
    (List.range 8).foldl (fun s d => if (lctx d c s).dlReg.isSome then modCtx d c (fun x => { x with dlReg := none }) s else s) s) s

/-- Register writes take effect in one clock: lines of members that go are called in, the tables change, contexts no longer
valid fail their chunks under the new multicast tables (R226), and what follows from each change happens. -/
def applyWrites (ws : List RegWr) (s : State) : State :=
  if ws.isEmpty then s
  else
    let new := rawWrites ws s
    let s1 := rawWrites (ws.filter fun x => x.reg ≠ .lunaCtx) (cwBefore ws s new)
    let s2 := (ctxsCleared ws s new).foldl (fun s c => invalidateContext c s) s1
    let s3 := deadlineAfter ws (rawWrites (ws.filter fun x => x.reg = .lunaCtx) s2)
    let s4 := cwAfter ws s new (partAfter ws s new (shapeAfter ws s new (carveAfter ws s3)))
    cocoonAfter ws (govAfter ws (dvfsAfter ws s new (ppsAfter ws (timeAfter ws s new (sampleAfter ws s new s4)))))

/-- The registers that stand in the window of a die: HOST_CFG of a Skipper, LUNA_SVC and CTX_INDEX of a Luna die. -/
def dieReg (r : Reg) : Bool := r = .hostCfg || r = .lunaSvc || r = .ctxIndex

/-- The die in whose window such an entry stands. -/
def regDie (r : Reg) (i : Nat) : Nat := if r = .hostCfg then 60 + i else if r = .lunaSvc then 52 + i else 52 + i / 8

/-- Every domain of a die is in Cocoon (R463). -/
def dieCocoon (n : Nat) (s : State) : Bool := (domsOfDie n).all fun p => gx DOM_STAT.STATE p s == 2

/-- A write to the window of a die that is OFF, failed or retired, which ignores it (R463). -/
def wrLost (x : RegWr) (s : State) : Bool := dieReg x.reg && dieDead (regDie x.reg x.i) s

/-- A write to the window of a die in Cocoon, which takes effect when the die wakes (R463). -/
def wrWaits (x : RegWr) (s : State) : Bool := dieReg x.reg && dieCocoon (regDie x.reg x.i) s

/-- Writes kept until their dies wake; one that sets HOST_CFG.EN wakes its Skipper (Table 20-7). -/
def deferWrites (ws : List RegWr) (s : State) : State :=
  if ws.isEmpty then s
  else settleCocoon { s with power := { s.power with cocoonWrites := s.power.cocoonWrites ++ ws.map fun x => (x.reg, x.i, x.w, x.v) } }

/-- Register writes committed: at once, or when the die of the register wakes; a dead die ignores them (R463). -/
def commitWrites (ws : List RegWr) (s : State) : State :=
  let due := ws.filter fun x => !wrLost x s
  deferWrites (due.filter fun x => wrWaits x s) (applyWrites (due.filter fun x => !wrWaits x s) s)

/-- The register file with the writes that wait for dies to wake. -/
def withWaiting (s : State) : State := rawWrites (s.power.cocoonWrites.map fun x => ⟨x.1, x.2.1, x.2.2.1, x.2.2.2⟩) s

end Sys2Proof.Machine
end

