-- ==== Sys2Proof/Machine/LunaLoad.lean ====
section
/-! DEFINITION. The load check of a Luna image and the image stores (R218 to R223, Table 9-17). -/

namespace Sys2Proof.Machine

/-! ### Images (Tables 9-14, 9-15) -/

/-- An image of some bytes. -/
def mkImage (bs : List Byte) : LImage := { prog := ofLE ((bs.drop 6).take 2), bytes := bs, meas := Config.sha384 bs }

/-- A field of an image's bytes. -/
def byteFld (bs : List Byte) (o n : Nat) : Nat := ofLE ((bs.drop o).take n)

/-- Where the signature block starts: after text and constants, padded to 8 bytes. -/
def sigStart (bs : List Byte) : Nat :=
  let text := 128 + byteFld bs 12 4
  let fin := if byteFld bs 16 4 = 0 then text else ceilDiv text 64 * 64 + byteFld bs 16 4
  ceilDiv fin 8 * 8

/-- FORMAT: magic, version, lengths, alignment, rsv bytes, the limits of R219. -/
def imageFormatOk (bs : List Byte) : Bool :=
  decide (128 ≤ bs.length) && byteFld bs 0 4 == 0x314E554C && byteFld bs 4 2 == 1 && byteFld bs 8 4 == bs.length &&
    byteFld bs 12 4 % 4 == 0 && byteFld bs 16 4 % 64 == 0 && bs.length == sigStart bs + 104 &&
    ((bs.drop 80).take 48).all (· == 0) && byteFld bs 76 4 < 4 && byteFld bs (sigStart bs + 4) 4 == 0 &&
    decide (bs.length ≤ 98304) && decide (byteFld bs 12 4 ≤ 65536) && decide (byteFld bs 16 4 ≤ 16384)

/-- The digest of an enrolled program-signer key that is not revoked: 0 to 3 fused, 4 to 15 in flash (R360). -/
def signerDigest (k : Nat) (s : State) : Option (BitVec 384) :=
  if k < 4 then (if Config.dolvyRevoked k then none else some (Config.dolvySigner k))
  else match SMap.get (fun _ => none) s.flash.signers k with
    | some x => if k < 16 && !x.revoked then some (Config.sha384 x.key) else none
    | none => none

/-- SIGNATURE: a known algorithm, a valid signer, a signature over all bytes before the block. -/
def imageSigned (bs : List Byte) (s : State) : Bool :=
  let o := sigStart bs
  byteFld bs o 2 == 1 && match signerDigest (byteFld bs (o + 2) 2) s with
    | some k => Config.ecdsaVerifies k (bs.take o) ((bs.drop (o + 8)).take 48) ((bs.drop (o + 56)).take 48)
    | none => false

/-! ### Decoding and flow (R207, Table 9-17) -/

/-- The words of an image's text. -/
def textWords (bs : List Byte) : List Nat := (List.range (byteFld bs 12 4 / 4)).map fun k => byteFld bs (128 + 4 * k) 4

/-- How a word of text goes on: whether the next word follows, the word it branches or jumps to, the word it calls. -/
structure Flow where
  falls : Bool
  jump : Option Int
  call : Option Int
deriving DecidableEq, Repr

/-- The flow of the word at `pc`. -/
def flowOf (pc w : Nat) : Flow :=
  let t : Int := pc + 1 + signed 16 w
  match lOp w with
  | 0x10 | 0x11 | 0x12 | 0x13 | 0x14 | 0x15 => ⟨true, some t, none⟩
  | 0x16 => ⟨false, some t, none⟩
  | 0x17 => ⟨true, none, some t⟩
  | 0x18 | 0x19 => ⟨false, none, none⟩
  | _ => ⟨true, none, none⟩

/-- The words that may follow the word at `pc` in its function. -/
def nextOf (pc w : Nat) : List Int :=
  let f := flowOf pc w
  (if f.falls then [(pc + 1 : Int)] else []) ++ f.jump.toList

/-- A word number lies in a text of `n` words. -/
def inText (n : Nat) (t : Int) : Bool := decide (0 ≤ t) && decide (t < n)

/-- The branch, jump and call targets of a word. -/
def targets (pc w : Nat) : List Int :=
  let f := flowOf pc w
  f.jump.toList ++ f.call.toList

/-- The words of text that a function reaches from the words `todo`, without entering what it calls. -/
def reach (ws : List Nat) : Nat → List Nat → List Nat → List Nat
  | 0, _, seen => seen
  | _ + 1, [], seen => seen
  | k + 1, p :: todo, seen =>
    if seen.contains p then reach ws k todo seen
    else reach ws k (((nextOf p (nth ws p)).filter (inText ws.length)).map Int.toNat ++ todo) (p :: seen)

/-- The words that the functions starting at `l` reach. -/
def reachFrom (ws : List Nat) (l : List Nat) : List Nat := reach ws (3 * ws.length + l.length + 1) l []

/-- The functions that those starting at `l` call. -/
def callees (ws : List Nat) (l : List Nat) : List Nat :=
  ((reachFrom ws l).filterMap fun p => (flowOf p (nth ws p)).call.map Int.toNat).dedup

/-- The functions at call depth `k` below `l`, and all met on the way. -/
def callLevels (ws : List Nat) : Nat → List Nat → List Nat → List Nat × List Nat
  | 0, l, met => (l, met ++ l)
  | k + 1, l, met => callLevels ws k (callees ws l) (met ++ l)

/-- FLOW: every target in the text; no path from an entry runs off its end; no call chain of more than eight, so no cycle, not
of functions that no entry reaches either. -/
def flowOk (ws : List Nat) (entries : List Nat) : Bool :=
  let all := (List.range ws.length).zip ws
  let called := (all.filterMap fun e => (flowOf e.1 e.2).call.map Int.toNat).dedup
  let met := reachFrom ws (callLevels ws 9 entries []).2.dedup
  entries.all (· < ws.length) && (all.all fun e => (targets e.1 e.2).all (inText ws.length)) &&
    (callLevels ws 9 entries []).1.isEmpty && (callLevels ws 9 called []).1.isEmpty &&
    met.all fun p => (nextOf p (nth ws p)).all (inText ws.length)

/-- The entries an image names. -/
def imageEntries (bs : List Byte) : List Nat := ((List.range 8).map fun k => byteFld bs (24 + 2 * k) 2).filter (· ≠ 0xFFFF)

/-- ENTRY: the required entries are present, and a present entry has a budget; the task codes are those of Table 9-1. -/
def entriesOk (bs : List Byte) : Bool :=
  let has (k : Nat) : Bool := byteFld bs (24 + 2 * k) 2 != 0xFFFF
  let capIn (r : Nat) : Nat := byteFld bs (56 + 2 * r) 2
  let anyIn := (List.range 8).any fun r => capIn r ≠ 0
  ((List.range 8).all fun k => !has k || byteFld bs (40 + 2 * k) 2 != 0) &&
    (!anyIn || (has 0 && has 2 && has 5)) && (byteFld bs 72 2 == 0 || has 5) && (!has 1 || has 3) &&
    (bits (byteFld bs 74 2) 5 6 == 0 || has 4) && (capIn 6 == 0 || has 6) && (bits (byteFld bs 76 4) 1 1 == 0 || has 7)

/-! ### The check and the stores (R221 to R223) -/

/-- The dies of a mask. -/
def maskDies (mask : Nat) : List Nat := (List.range 8).filter fun d => bits mask d 1 = 1

/-- A valid context names a PROG_ID. -/
def progNamed (prog : Nat) (s : State) : Bool :=
  (regEntries .lunaCtx s.ox.regs).any fun e => gx LUNA_CTX.VALID e.1 s == 1 && gx LUNA_CTX.PROG e.1 s == prog

/-- The first check that a load of an image on the dies of a mask fails, by its number in Table 9-17. -/
def loadCause (mask : Nat) (bs : List Byte) (s : State) : Option Nat :=
  let ws := textWords bs
  let img := mkImage bs
  if !imageFormatOk bs then some 1
  else if !imageSigned bs s then some 2
  else if !(ws.all fun w => (decodeLunaWord 0 w).isSome) then some 3
  else if !flowOk ws (imageEntries bs) then some 4
  else if !entriesOk bs then some 5
  else if (maskDies mask).any fun d => match imageOf d img.prog s with
      | some x => x.bytes != bs && progNamed img.prog s
      | none => false then some 6
  else if (maskDies mask).any fun d =>
      decide (256 ≤ ((lunaDie d s).images.filter fun x => x.prog ≠ img.prog).length) then some 7
  else none

/-- An image enters the image stores of the dies of a mask, in place of one of its PROG_ID (R222). The stores are held in
ascending PROG_ID. -/
def storeImage (mask : Nat) (bs : List Byte) (s : State) : State :=
  let img := mkImage bs
  noteChange <| (maskDies mask).foldl (fun s d => modLuna d (fun x =>
    let rest := x.images.filter fun y => y.prog ≠ img.prog
    { x with images := (rest.filter fun y => y.prog < img.prog) ++ [img] ++ (rest.filter fun y => img.prog < y.prog) }) s) s

/-- An image is removed from the image stores of the dies of a mask. -/
def dropImage (prog mask : Nat) (s : State) : State :=
  noteChange <| (maskDies mask).foldl (fun s d => modLuna d (fun x => { x with images := x.images.filter fun y => y.prog ≠ prog }) s) s

/-- The traces of a failed load check (R222): counted and raised with PROG_ID, die mask and cause. -/
def loadFailTraces (prog mask cause : Nat) (s : State) : State :=
  raise0 .lunaLoadFail false (activeMonarch s) [na prog, na mask, na cause] (countG .lunaLoadFail s)

end Sys2Proof.Machine
end

