-- ==== Sys2Proof/Machine/Program.lean ====
section
/-! DEFINITION. The words of Monarch programs: decoding a command word, cutting a ring's words into programs, the payloads
a program fetches (R420 to R422, Table 19-6). -/

namespace Sys2Proof.Machine

/-! ### Command words (R421, Table 19-6) -/

/-- A command followed by an operand word. -/
def twoWord (op : Nat) : Bool := op == 0x02 || op == 0x10 || op == 0x19 || op == 0x1A || op == 0x3A || op == 0x3B

/-- A command where a condition on its unused bits holds, else a word of FORMAT. -/
def cmdIf (p : Bool) (c : Cmd) : Cmd := if p then c else .bad

/-- The command of OP with operands A, B and of a two-word command C and D. Bits that Table 19-6 gives no operand are rsv. -/
def decodeOperands (op a b c d : Nat) : Cmd :=
  match op with
  | 0x01 => .wr a b
  | 0x02 => cmdIf (c < 2 ^ 21 && d == 0 && b % 8 == 0) (.blkWr a b c)
  | 0x03 => cmdIf (b < 2 ^ 12) (.rd a b)
  | 0x08 => cmdIf (a < 2 ^ 14 && b == 0) (.ctxArm a)
  | 0x09 => cmdIf (a < 2 ^ 14 && b == 0) (.ctxDisarm a)
  | 0x10 => cmdIf (a < 2 ^ 8 && c < 2 ^ 17 && d == 0) (.lunaLoad a b c)
  | 0x11 => cmdIf (a < 2 ^ 24 && b == 0) (.lunaUnload (a % 2 ^ 16) (a / 2 ^ 16))
  | 0x18 => cmdIf (a < 4 && b == 0) (.profileLoad a)
  | 0x19 => cmdIf (a < 4 && c < 2 ^ 22 && d == 0) (.profileStore a b c)
  | 0x1A => cmdIf (a == 0 && c < 2 ^ 23 && d == 0) (.fwStage b c)
  | 0x20 => cmdIf (a == 0 && b == 0) .fabricEnable
  | 0x21 => cmdIf (a == 0 && b == 0) .fabricDisable
  | 0x28 => cmdIf (a == 0) (.timeSet b)
  | 0x30 => cmdIf (a == 0) (.snapAt b)
  | 0x31 => cmdIf (a == 0 && b == 0) .calm
  | 0x32 => cmdIf (a == 0) (.calmAt b)
  | 0x38 => cmdIf (a < 16) (.signerEnroll a b)
  | 0x39 => cmdIf (a < 16 && b == 0) (.signerRevoke a)
  | 0x3A => cmdIf (a == 0 && c < 2 ^ 12 && d == 0) (.expel b c)
  | 0x3B => cmdIf (a == 0 && c < 2 ^ 12 && d == 0) (.readmit b c)
  | 0x40 => cmdIf (a == 0 && b == 0) .monarchSwitch
  | 0x41 => cmdIf (a < 2 ^ 14 && b == 0) (.retireUnit (a % 16) (a / 16))
  | 0x42 => cmdIf (a < 2 ^ 14 && b == 0) (.serviceTest (a % 16) (a / 16))
  | 0x43 => cmdIf (a < 2 ^ 14 && b == 0) (.restoreUnit (a % 16) (a / 16))
  | 0x48 => cmdIf (a < 2 && b == 0) (.gwTxResume a)
  | 0x60 => cmdIf (a == 0) (.commitAt b)
  | 0x7F => cmdIf (a == 0 && b == 0) .nop
  | _ => .bad

/-- The command of a word of a program for `dev`, with its operand word; a word with another DEV is of FORMAT. -/
def decodeCmd (dev : Nat) (w x : Nat × Nat) : Cmd :=
  cmdIf (bits w.1 14 2 == 0 && bits w.1 8 6 == dev) (decodeOperands (bits w.1 0 8) (bits w.1 16 48) w.2 x.1 x.2)

/-- DEV of a word. -/
def wordDev (w : Nat × Nat) : Nat := bits w.1 8 6

/-- The words, from the first, that end in a COMMIT_AT: how many there are, none where the COMMIT_AT has not been written.
An operand word is never a COMMIT_AT; one beyond the 1,024th word cuts its command (R420, R421). -/
def progLen : Nat → List (Nat × Nat) → Option Nat
  | _, [] => none
  | n, w :: ws =>
    if bits w.1 0 8 = 0x60 then some (n + 1)
    else if twoWord (bits w.1 0 8) && n + 1 < 1024 then
      match ws with
      | [] => none
      | _ :: ws' => progLen (n + 2) ws'
    else progLen (n + 1) ws

/-- The commands of a program's words from word `n` on. A word beyond the 1,024th, and a cut command, is of FORMAT. -/
def parseWords (dev : Nat) : Nat → List (Nat × Nat) → List PCmd
  | _, [] => []
  | n, w :: ws =>
    if 1024 ≤ n then [{ word := n, cmd := .bad, data := [], lost := false }]
    else if twoWord (bits w.1 0 8) then
      match ws with
      | [] => [{ word := n, cmd := .bad, data := [], lost := false }]
      | x :: ws' =>
        if 1023 ≤ n then [{ word := n, cmd := .bad, data := [], lost := false }]
        else { word := n, cmd := decodeCmd dev w x, data := [], lost := false } :: parseWords dev (n + 2) ws'
    else { word := n, cmd := decodeCmd dev w (0, 0), data := [], lost := false } :: parseWords dev (n + 1) ws

/-- The time a program's COMMIT_AT names. -/
def commitTime (cs : List PCmd) : Nat :=
  ((cs.filterMap fun x => match x.cmd with | .commitAt t => some t | _ => none).getLast?).getD 0

/-- A program of its words. -/
def makeProg (dom pseq first : Nat) (remote : Bool) (ws : List (Nat × Nat)) : Prog :=
  let dev := ((ws.head?).map wordDev).getD 0
  let cs := parseWords dev 0 ws
  { dom := dom, pseq := pseq, first := first, words := ws.length, dev := dev, remote := remote, cmds := cs, commitAt := commitTime cs, e := 0, late := false }

/-- A program that holds only RD, SNAP_AT, CALM, CALM_AT, SERVICE_TEST and COMMIT_AT (R423). -/
def configFree (p : Prog) : Bool :=
  p.cmds.all fun x => match x.cmd with
    | .rd .. | .snapAt _ | .calm | .calmAt _ | .serviceTest .. | .commitAt _ => true
    | _ => false

/-! ### Payloads (R422) -/

/-- The host address and the bytes of a command's payload. -/
def payloadOf : Cmd → Option (Nat × Nat)
  | .blkWr _ host n => some (host, 8 * n)
  | .lunaLoad _ host len => some (host, len)
  | .profileStore _ host len => some (host, len)
  | .fwStage host len => some (host, len)
  | .signerEnroll _ host => some (host, 97)
  | .expel host len => some (host, len)
  | .readmit host len => some (host, len)
  | _ => none

/-- The bytes a program's payload takes. -/
def payloadBytes (p : Prog) : Nat := (p.cmds.map fun x => ((payloadOf x.cmd).map (·.2)).getD 0).sum

/-- The words of a BLK_WR's payload. -/
def wordsOf (n : Nat) (bs : List Byte) : List Nat := (List.range n).map fun k => ofLE ((bs.drop (8 * k)).take 8)

/-! ### The writes of a command -/

/-- A register that a program may change (R421): one that its chapter says changes through a program, or one of the directly
written registers. -/
def programMay (r : Reg) : Bool :=
  match r with
  | .cwCtrl | .cwMember | .fwdCtrl | .bufCarve | .partBuf | .mcgCtl | .mcgPorts | .mirrorMatch | .mirrorDest | .mirrorPorts
  | .sampleCtl | .partRt | .route | .pgroup | .portArb | .portCmark | .partShape | .cmapCtl | .lunaCtx | .lunaMember | .eqU
  | .linkCfg | .gwCtrl | .gwRegion | .hostCfg | .timeCfg | .timeAsym | .ppsOutCfg | .portBind | .portPset | .partSec
  | .foldCtl | .snapCtl | .calmCtl | .calmTrig | .domRights | .sensCal | .cocoonCtl | .lunaDvfs | .govCtl | .thermCfg
  | .lunaSvc => true
  | _ => false

/-- The register word that a program of domain `dom` may write at a control address; EQ_U is RO in the die windows (Table
21-6). -/
def writableAt (dom addr : Nat) : Option (Reg × Nat × Nat) :=
  match ctlAt dom addr with
  | some (some (.reg r i w)) => if programMay r && (r ≠ .eqU || 0x100000000 ≤ addr) then some (r, i, w) else none
  | _ => none

/-- The register writes of a command that has its payload. -/
def cmdWrites (dom : Nat) (x : PCmd) : List RegWr :=
  let one (addr v : Nat) : List RegWr :=
    match writableAt dom addr with | some (r, i, w) => [⟨r, i, w, v⟩] | none => []
  match x.cmd with
  | .wr addr v => one addr v
  | .blkWr addr _ n => ((List.range n).zip (wordsOf n x.data)).flatMap fun e => one (addr + 8 * e.1) e.2
  | _ => []

/-- The register writes of a program, in order. -/
def progWrites (p : Prog) : List RegWr := p.cmds.flatMap fun x => cmdWrites p.dom x

end Sys2Proof.Machine
end

