-- ==== Sys2Proof/Machine/Expel.lean ====
section
/-! DEFINITION. Expulsion statements: their check, their effect (R383 to R386, Tables 17-5, 17-6). -/

namespace Sys2Proof.Machine

/-- The most recent expulsion keys of the loaded profile; an absent key is empty. -/
def expelKey (k : Nat) (s : State) : List Byte := (s.monarch.expelKeys[k]?).getD []

/-- A key of a profile that is present: one that is not all zero. -/
def keyPresent (k : List Byte) : Bool := k.any (· != 0)

/-- The signature block `j` of a statement verifies under the present key its SIGNER names: that key's number. -/
def expelSigner (bs : List Byte) (s : State) (j : Nat) : Option Nat :=
  let o := 96 + 104 * j
  let k := byteFld bs (o + 2) 2
  if decide (o + 104 ≤ bs.length) && byteFld bs o 2 == 1 && byteFld bs (o + 4) 4 == 0 && keyPresent (expelKey k s) &&
      Config.ecdsaVerifies (Config.sha384 (expelKey k s)) (bs.take 96) ((bs.drop (o + 8)).take 48) ((bs.drop (o + 56)).take 48)
  then some k else none

/-- MAGIC, VER, ACTION and KIND of a statement that is to do `action`, with a target that exists (Table 17-6). -/
def expelFormatOk (action : Nat) (bs : List Byte) : Bool :=
  decide (96 ≤ bs.length) && byteFld bs 0 4 == 0x4C505845 && byteFld bs 4 2 == 1 && byteFld bs 6 1 == action &&
    decide (byteFld bs 7 1 ≤ 1) && decide (byteFld bs 8 2 < (if byteFld bs 7 1 = 1 then 288 else 4096))

/-- The condition of R385 that a statement breaks, by its position in the rule's list (R467). -/
def expelCause (action : Nat) (bs : List Byte) (s : State) : Option Nat :=
  let q := gx EXPEL_STAT.QUORUM 0 s
  if q = 0 then some 1
  else if !expelFormatOk action bs then some 2
  else if !((bs.drop 10).take 6).all (· == 0) then some 3
  else if (bs.drop 16).take 16 ≠ fit 16 Config.serial then some 4
  else if byteFld bs 32 8 ≤ ft s then some 5
  else if byteFld bs 40 8 ≤ gx EXPEL_STAT.LAST_SEQ 0 s then some 6
  else if ((List.range q).filterMap (expelSigner bs s)).dedup.length < q then some 7
  else if action = 1 && decide (64 ≤ s.flash.expelled.length) then some 8
  else none

/-- KIND and TARGET of a statement. -/
def expelTarget (bs : List Byte) : Nat × Nat := (byteFld bs 7 1, byteFld bs 8 2)

/-- The ports that a target names: itself, or the ports bound to the endpoint. -/
def targetPorts (t : Nat × Nat) (s : State) : List Nat :=
  if t.1 = 1 then [t.2] else (List.range (ports s).length).filter fun p => gx PORT_BIND.EP p s = t.2

/-- A port is named by the expulsion list. -/
def portExpelled (p : Nat) (s : State) : Bool :=
  s.flash.expelled.contains (1, p) || s.flash.expelled.contains (0, gx PORT_BIND.EP p s)

/-- The list and LAST_SEQ after an accepted statement, nothing else changed. -/
def expelLists (action : Nat) (bs : List Byte) (s : State) : State :=
  let t := expelTarget bs
  let rest := s.flash.expelled.filter fun x => x ≠ t
  let l := if action = 1 then rest ++ [t] else rest
  sx EXPEL_STAT.LISTED 0 l.length (sx EXPEL_STAT.LAST_SEQ 0 (byteFld bs 40 8) { s with flash := { s.flash with expelled := l } })

/-- The ports a target names go down, cause LOCAL, and are held in DISABLED. -/
def expelPorts (t : Nat × Nat) (s : State) : State := (targetPorts t s).foldl (fun s p => disablePort p s) s

/-- SUSPENDED is set on the Common-window members of an endpoint. -/
def expelMembers (t : Nat × Nat) (s : State) : State :=
  if t.1 = 1 then s
  else ((List.range 64).filter fun m => gx CW_MEMBER.VALID m s = 1 && gx CW_MEMBER.EP m s = t.2).foldl
    (fun s m => noteChange (sx CW_MEMBER.SUSPENDED m 1 s)) s

/-- An event whose origin is the target of a statement, an endpoint or a port with the endpoint bound to it (R375, R385, R386). -/
def targetEvent (code : EvCode) (t : Nat × Nat) (args : List (Bool × Nat)) (s : State) : Event :=
  let okind := if t.1 = 1 then 1 else if t.1 = 0 then 2 else 0
  { Event.mk0 .ox9 code false (activeMonarch s) okind (if okind = 0 then 0 else t.2) (na t.2 :: args) s with
    oep := if okind = 1 then some (gx PORT_BIND.EP t.2 s) else none }

/-- An accepted EXPEL takes effect (R386). -/
def applyExpel (bs : List Byte) (s : State) : State :=
  let t := expelTarget bs
  let s1 := expelMembers t (expelPorts t (expelLists 1 bs s))
  raise .ox9 (targetEvent .expelled t [] s1) (countG .expelApplied s1)

/-- A port that is no longer expelled trains again, unless a lane of it has no site (R27, R303, R386). -/
def readmitPort (p : Nat) (s : State) : State :=
  let e : LinkEnd := .ox (Fin.ofNat 288 p)
  if portExpelled p s || (portInfo p s).isNone || (portLanes p s).any fun l => (siteOfLane l s).isNone then s
  else
    let s1 := { s with links := { s.links with disabled := s.links.disabled.filter (· ≠ p) } }
    if (getLink p s).st ≠ 0 then s1 else sendInsert e .ts1 [] (txWake e (modLink e (fun l => { l with st := 1 }) s1))

/-- An accepted READMIT takes effect: the target leaves the list, its ports may train again. -/
def applyReadmit (bs : List Byte) (s : State) : State :=
  let s1 := expelLists 2 bs s
  (targetPorts (expelTarget bs) s1).foldl (fun s p => readmitPort p s) s1

/-- The traces of a refused statement (R385). -/
def expelRefusedTraces (bs : List Byte) (cause : Nat) (s : State) : State :=
  raise .ox9 (targetEvent .expelRefused (expelTarget bs) [na cause] s) (countG .expelRefused s)

end Sys2Proof.Machine
end

