-- ==== Sys2Proof/Machine/Profile.lean ====
section
/-! DEFINITION. Profile images: their header and sections, the register writes that a load makes, what it does to the
ports (R432 to R434, Tables 19-9, 19-10). -/

namespace Sys2Proof.Machine

/-- Offset and length of section `k`. -/
def sectAt (bs : List Byte) (k : Nat) : Nat × Nat := (byteFld bs (16 + 8 * k) 4, byteFld bs (20 + 8 * k) 4)

/-- Bytes put over those of an image from an offset on. -/
def overlay (bs : List Byte) (off : Nat) (new : List Byte) : List Byte := bs.take off ++ new ++ bs.drop (off + new.length)

/-- The CRC field of an image: over its LEN bytes with the field itself zero (Table 19-9). -/
def imageCrc (bs : List Byte) : Nat :=
  let img := bs.take (byteFld bs 8 4)
  crc32 (img.take 12 ++ [0, 0, 0, 0] ++ img.drop 16)

/-- The LAYOUT of the default profile: port p on logical lanes 4p to 4p + 3, for p from 0 to 143 (R17). -/
def defaultLayout : List Byte := List.replicate 18 0xAA

/-- A profile as shipped (log entry 2, DESIGN CHOICE: the spec gives the default profile no number, the model takes 0, and
no content but its layout). -/
def shippedProfile (n : Nat) : List Byte :=
  if n = 0 then
    let bs := overlay (Config.profileFactory 0) (sectAt (Config.profileFactory 0) 1).1 defaultLayout
    overlay bs 12 (toLE 4 (imageCrc bs))
  else Config.profileFactory n

/-- The image of a profile in flash: as stored, or as shipped. -/
def profileImage (n : Nat) (s : State) : List Byte :=
  (SMap.get (fun _ => none) s.flash.profiles n).getD (shippedProfile n)

/-- The bytes of section `k`. -/
def sectBytes (bs : List Byte) (k : Nat) : List Byte := (bs.drop (sectAt bs k).1).take (sectAt bs k).2

/-- The 64-bit words of a section. -/
def sectWords (bs : List Byte) (k n : Nat) : List Nat := wordsOf n (sectBytes bs k)

/-- The length Table 19-10 gives each section; BODY is whole 16-byte words. -/
def sectLenOk (k n : Nat) : Bool :=
  match k with
  | 0 => n == 64
  | 1 => n == 18
  | 2 => n == 8 * 576
  | 3 => n == 8 * 290
  | 4 => n == 8 * 134
  | 5 => n == 784
  | _ => n % 16 == 0

/-- Two stretches of bytes overlap. -/
def stretchesMeet (x y : Nat × Nat) : Bool := decide (x.1 < y.1 + y.2) && decide (y.1 < x.1 + x.2)

/-- The header of an image (Table 19-9) and its sections' places; a section lies behind the header. -/
def profileFormOk (bs : List Byte) : Bool :=
  let len := byteFld bs 8 4
  decide (128 ≤ len) && decide (len ≤ bs.length) && decide (len ≤ 2097152) && byteFld bs 0 4 == 0x31465250 &&
    byteFld bs 4 2 == 1 && byteFld bs 6 2 == 0 && ((bs.drop 72).take 56).all (· == 0) &&
    byteFld bs 12 4 == imageCrc bs &&
    ((List.range 7).all fun k => sectLenOk k (sectAt bs k).2 && decide (128 ≤ (sectAt bs k).1) &&
      decide ((sectAt bs k).1 + (sectAt bs k).2 ≤ len)) &&
    ((List.range 7).all fun k => (List.range k).all fun j => !stretchesMeet (sectAt bs k) (sectAt bs j)) &&
    ((sectBytes bs 5).drop 1 |>.take 7).all (· == 0) &&
    decide (1 ≤ byteFld (sectBytes bs 5) 0 1) && decide (byteFld (sectBytes bs 5) 0 1 ≤ 8)

/-- The command words of BODY. -/
def bodyWords (bs : List Byte) : List (Nat × Nat) :=
  (List.range ((sectAt bs 6).2 / 16)).map fun k => (ofLE (((sectBytes bs 6).drop (16 * k)).take 8), ofLE (((sectBytes bs 6).drop (16 * k + 8)).take 8))

/-- A command that BODY may not hold (R432). -/
def bodyForbids : Cmd → Bool
  | .profileLoad _ | .profileStore .. | .fwStage .. | .timeSet _ | .monarchSwitch | .expel .. | .readmit .. | .signerEnroll ..
  | .signerRevoke _ | .retireUnit .. | .serviceTest .. | .restoreUnit .. => true
  | _ => false

/-- A command of BODY with its payload, B being a byte offset within the image. -/
def bodyCmd (bs : List Byte) (x : PCmd) : PCmd :=
  match payloadOf x.cmd with
  | some (o, n) => { x with data := ((bs.take (byteFld bs 8 4)).drop o).take n, lost := decide (byteFld bs 8 4 < o + n) }
  | none => x

/-- BODY as a program of a domain. -/
def bodyProg (dom pseq e : Nat) (bs : List Byte) : Prog :=
  { makeProg dom pseq 0 false (bodyWords bs) with
    cmds := (makeProg dom pseq 0 false (bodyWords bs)).cmds.map (bodyCmd bs), commitAt := 0, e := e }

/-- BODY's words: DEV 0, one COMMIT_AT with B = 0 at the end, no forbidden command. -/
def bodyFormOk (bs : List Byte) : Bool :=
  let p := bodyProg 0 0 0 bs
  let cs := p.cmds.map (·.cmd)
  p.dev == 0 && cs.getLast? == some (.commitAt 0) &&
    (cs.filter fun c => match c with | .commitAt _ => true | _ => false).length == 1 && !cs.any bodyForbids

/-- The layout of an image: a code for each port-die half (Table 19-10). -/
def profileLayout (bs : List Byte) : List Nat :=
  (List.range 72).map fun h => bits (byteFld (sectBytes bs 1) (h / 4) 1) (2 * (h % 4)) 2

/-- The expulsion keys of an image, an absent one empty. -/
def profileKeys (bs : List Byte) : List (List Byte) :=
  (List.range 8).map fun k =>
    let key := ((sectBytes bs 5).drop (8 + 97 * k)).take 97
    if keyPresent key then key else []

/-- Every register word that a program may change, set to its reset value where the file holds another. -/
def resetWrites (s : State) : List RegWr :=
  s.ox.regs.filterMap fun e =>
    let r := Reg.ofNat (e.1 / 2 ^ 27)
    if programMay r then
      some ⟨r, e.1 / 2 ^ 7 % 2 ^ 20, e.1 % 2 ^ 7, (regReset r (e.1 / 2 ^ 7 % 2 ^ 20) (e.1 % 2 ^ 7)).toNat⟩
    else none

/-- The words of a section written to the entries of a register. -/
def sectWrites (r : Reg) (vs : List Nat) : List RegWr := ((List.range vs.length).zip vs).map fun e => ⟨r, e.1, 0, e.2⟩

/-- The writes of the sections. -/
def profileWrites (bs : List Byte) : List RegWr :=
  sectWrites .domRights (sectWords bs 0 8) ++ sectWrites .eqU (sectWords bs 2 576) ++
    sectWrites .timeAsym (sectWords bs 3 290) ++
    sectWrites .sensCal ((sectWords bs 4 134).map fun v => v % 2 ^ 12 * 2 ^ SENS_CAL.U_OFF.lo)

/-- All register writes of a load, in order: the resets, the sections, BODY (R432). -/
def loadWrites (bs : List Byte) (s : State) : List RegWr :=
  resetWrites s ++ profileWrites bs ++ progWrites (bodyProg 0 0 0 bs)

end Sys2Proof.Machine
end

