-- ==== Sys2Proof/Machine/Check.lean ====
section
/-! DEFINITION. The check of a Monarch program: the word pass, the whole-configuration pass, the reason codes (R416, R424,
R425, R490, Table 19-7). -/

namespace Sys2Proof.Machine

/-! ### Reason codes (Table 19-7) -/

abbrev rsnFORMAT : Nat := 0x01
abbrev rsnRIGHTS : Nat := 0x02
abbrev rsnORDER : Nat := 0x03
abbrev rsnFETCH : Nat := 0x04
abbrev rsnADDRESS : Nat := 0x05
abbrev rsnRANGE : Nat := 0x06
abbrev rsnFABRIC_ACTIVE : Nat := 0x07
abbrev rsnTIME_UNSET : Nat := 0x08
abbrev rsnCW_CONFIG : Nat := 0x10
abbrev rsnBUF_QUOTA : Nat := 0x11
abbrev rsnMCG_OX7 : Nat := 0x12
abbrev rsnMIRROR_LIMIT : Nat := 0x13
abbrev rsnMIRROR_DOMAIN : Nat := 0x14
abbrev rsnPGROUP : Nat := 0x15
abbrev rsnARB_PARAM : Nat := 0x16
abbrev rsnCMARK_ORDER : Nat := 0x17
abbrev rsnSHAPER : Nat := 0x18
abbrev rsnCTX_LAYOUT : Nat := 0x20
abbrev rsnCTX_SIZE : Nat := 0x21
abbrev rsnCTX_RESULT : Nat := 0x22
abbrev rsnCTX_KEY : Nat := 0x23
abbrev rsnCTX_REPORT : Nat := 0x24
abbrev rsnCTX_MEASURE : Nat := 0x25
abbrev rsnLUNA_IMAGE : Nat := 0x26
abbrev rsnGW_CONFIG : Nat := 0x30
abbrev rsnTIME_SET : Nat := 0x38
abbrev rsnPART_ZERO : Nat := 0x40
abbrev rsnPART_BIND : Nat := 0x41
abbrev rsnPART_IN_USE : Nat := 0x42
abbrev rsnEXPEL : Nat := 0x48
abbrev rsnPROFILE : Nat := 0x50
abbrev rsnRIGHTS_TABLE : Nat := 0x51
abbrev rsnUNIT : Nat := 0x52
abbrev rsnSIGNER : Nat := 0x53
abbrev rsnFABRIC_ID : Nat := 0x54

/-! ### The configuration at E -/

/-- A signer record set. -/
def setSigner (k : Nat) (x : Signer) (s : State) : State :=
  { s with flash := { s.flash with signers := SMap.set (fun _ => none) s.flash.signers k (some x) } }

/-- A signer revoked; an index with no record stays without one. -/
def revokeSigner (k : Nat) (s : State) : State :=
  match SMap.get (fun _ => none) s.flash.signers k with
  | some x => setSigner k { x with revoked := true } s
  | none => s

/-- A profile stored in flash (R434). -/
def storeProfile (n : Nat) (bs : List Byte) (s : State) : State :=
  { s with flash := { s.flash with profiles := SMap.set (fun _ => none) s.flash.profiles n (some bs) } }

/-- Fabric-ready as it will stand with the fabric enabled or not (R444). -/
def projectReady (on : Bool) (s : State) : State :=
  let s1 := { s with power := { s.power with fabricEnabled := on } }
  sx START_STAT.FABRIC_READY 0 (readyHolds s1).toNat s1

/-- What a command that is no register write leaves for the checks of what follows it. -/
def projectCmd (x : PCmd) (s : State) : State :=
  match x.cmd with
  | .lunaLoad mask _ _ => storeImage mask x.data s
  | .lunaUnload prog mask => dropImage prog mask s
  | .profileStore n _ _ => storeProfile n x.data s
  | .fabricEnable => projectReady true s
  | .fabricDisable => projectReady false s
  | .signerEnroll k _ => setSigner k { key := x.data, revoked := false } s
  | .signerRevoke k => revokeSigner k s
  | .expel .. => expelLists 1 x.data s
  | .readmit .. => expelLists 2 x.data s
  | _ => s

/-- The registers after the writes of a program, the slots of partitions it clears erased. -/
def projectWrites (ws : List RegWr) (s : State) : State := let new := rawWrites ws s; partAfter ws s new new

/-- A state with the layout of an image. -/
def withLayout (bs : List Byte) (s : State) : State := { s with links := { s.links with layout := profileLayout bs } }

/-- The writes of a program; those of the load where it is one. -/
def allWrites (p : Prog) (s : State) : List RegWr :=
  match p.cmds.find? fun x => match x.cmd with | .profileLoad _ => true | _ => false with
  | some ⟨_, .profileLoad n, _, _⟩ => loadWrites (profileImage n s) s
  | _ => progWrites p

/-- The commands of a program, those of BODY where it loads a profile. -/
def allCmds (p : Prog) (s : State) : List PCmd :=
  p.cmds.flatMap fun x => match x.cmd with
    | .profileLoad n => (bodyProg p.dom p.pseq p.e (profileImage n s)).cmds
    | _ => [x]

/-- The configuration after a program, as far as checks read it. -/
def projectProg (p : Prog) (s : State) : State :=
  let s1 := projectWrites (allWrites p s) s
  let s2 := p.cmds.foldl (fun t x => match x.cmd with | .profileLoad n => withLayout (profileImage n s) t | _ => t) s1
  (allCmds p s).foldl (fun s x => projectCmd x s) s2

/-- The committed state, then every pending program in commit order (R424). -/
def projectPending (ps : List Prog) (s : State) : State := ps.foldl (fun s p => projectProg p s) (withWaiting s)

/-! ### Rights (R416) -/

/-- A domain owns a partition in a configuration. -/
def owns (dom p : Nat) (cfg : State) : Bool := gx PART_SEC.DOM p cfg == dom

/-- The indices of a register that a file lists, each once. -/
def listed (r : Reg) (s : State) : List Nat := ((regEntries r s.ox.regs).map (·.1)).dedup

/-- The valid contexts. -/
def validCtxs (s : State) : List Nat := (listed .lunaCtx s).filter fun c => gx LUNA_CTX.VALID c s = 1

/-- A valid context of a partition that the domain does not own names an image. -/
def foreignProg (dom prog : Nat) (cfg : State) : Bool :=
  (validCtxs cfg).any fun c => gx LUNA_CTX.PROG c cfg == prog && !owns dom (gx LUNA_CTX.PART c cfg) cfg

/-- A mirror session that another domain than that of fabric telemetry may program (R357). -/
def mirrorMeets (dom g : Nat) (cfg : State) : Bool :=
  gx MIRROR_MATCH.M_PART_EN g cfg == 1 && owns dom (gx MIRROR_MATCH.M_PART g cfg) cfg &&
    owns dom (gx MIRROR_DEST.A_PART g cfg) cfg

/-- The partitions of the valid contexts whose slots hold a member entry. -/
def memberParts (m : Nat) (cfg : State) : List Nat :=
  ((validCtxs cfg).filter fun c => decide (gx LUNA_CTX.MEMBASE c cfg ≤ m) &&
    decide (m < gx LUNA_CTX.MEMBASE c cfg + gx LUNA_CTX.NSRC c cfg)).map fun c => gx LUNA_CTX.PART c cfg

/-- The session that a mirror register entry belongs to. -/
def mirrorSession (r : Reg) (i : Nat) : Option Nat :=
  match r with
  | .mirrorMatch | .mirrorDest => some i
  | .mirrorPorts => some (i / 8)
  | _ => none

/-- A write of a register word lies in a domain's rights. `now` is the committed state, `base` it with the pending
programs, `cfg` the configuration at E. -/
def writeRight (dom : Nat) (x : RegWr) (now base cfg : State) : Bool :=
  let part := gx DOM_RIGHTS.PART dom now == 1
  let tele := gx DOM_RIGHTS.TELEMETRY dom now == 1
  let both (at_E old : Nat) (valid : Bool) : Bool := part && owns dom at_E cfg && (!valid || owns dom old cfg)
  gx DOM_RIGHTS.FABRIC dom now == 1 || match x.reg with
  | .foldCtl | .snapCtl | .cmapCtl | .sampleCtl => tele
  | .mirrorMatch | .mirrorDest | .mirrorPorts =>
    tele || (part && match mirrorSession x.reg x.i with | some g => mirrorMeets dom g cfg | none => false)
  | .hostCfg =>
    let keep (f : Fld) : Bool := x.w ≠ f.word || bits x.v f.lo f.len == gx f x.i base
    (if x.i = 0 then gx DOM_RIGHTS.SKIP0 dom now == 1 else gx DOM_RIGHTS.SKIP1 dom now == 1) && decide (x.w ≤ 2) &&
      keep HOST_CFG.RX_LOG2 && keep HOST_CFG.TX_LOG2
  | .lunaCtx => both (gx LUNA_CTX.PART x.i cfg) (gx LUNA_CTX.PART x.i now) (gx LUNA_CTX.VALID x.i now == 1)
  | .mcgCtl => both (gx MCG_CTL.PART x.i cfg) (gx MCG_CTL.PART x.i now) (gx MCG_CTL.VALID x.i now == 1)
  | .mcgPorts => both (gx MCG_CTL.PART (x.i / 8) cfg) (gx MCG_CTL.PART (x.i / 8) now) (gx MCG_CTL.VALID (x.i / 8) now == 1)
  | .lunaMember => part && !(memberParts x.i cfg).isEmpty && (memberParts x.i cfg).all fun p => owns dom p cfg
  | .partShape => part && owns dom x.i cfg
  | _ => false

/-- A command that writes no register lies in a domain's rights (Table 19-6). -/
def cmdRight (dom : Nat) (x : PCmd) (now cfg : State) : Bool :=
  let fabric := gx DOM_RIGHTS.FABRIC dom now == 1
  let part := gx DOM_RIGHTS.PART dom now == 1
  match x.cmd with
  | .bad | .wr .. | .blkWr .. | .rd .. | .commitAt _ | .nop => true
  | .ctxArm c | .ctxDisarm c => fabric || (part && owns dom (gx LUNA_CTX.PART c cfg) cfg)
  | .lunaLoad .. => fabric || (part && !foreignProg dom (mkImage x.data).prog cfg)
  | .lunaUnload prog _ => fabric || (part && !foreignProg dom prog cfg)
  | .snapAt _ | .signerEnroll .. | .signerRevoke _ => gx DOM_RIGHTS.TELEMETRY dom now == 1
  | .gwTxResume k => if k = 0 then gx DOM_RIGHTS.SKIP0 dom now == 1 else gx DOM_RIGHTS.SKIP1 dom now == 1
  | _ => fabric

/-! ### RANGE (R490, R336, R349) -/

/-- A field that a rule of the whole-configuration pass tests, and RANGE does not (R490). -/
def namedRule (f : Fld) : Bool :=
  [PORT_ARB.FLOOR, PORT_ARB.VC5_GAP, PORT_ARB.W0, PORT_ARB.W1, PORT_ARB.W3, PORT_ARB.W4, CW_CTRL.NPLANES_LOG2,
    CW_CTRL.PLANE_IDX, CW_CTRL.SIZE_LOG2, PORT_CMARK.LVL1, PORT_CMARK.LVL2, PORT_CMARK.LVL3, PART_SHAPE.RATE,
    PART_SHAPE.BURST, LUNA_CTX.NSRC, LUNA_CTX.W, LUNA_CTX.MAXELEM, LUNA_CTX.NCHUNK].contains f

/-- A written field is neither in its range nor at its reset value. -/
def fieldBad (x : RegWr) (row : FldRow) : Bool :=
  let v := bits x.v row.fld.lo row.fld.len
  (row.acc = .rw || row.acc = .wo) && !namedRule row.fld && !(decide (row.min ≤ v) && decide (v ≤ row.max)) &&
    v != bits (regReset x.reg x.i x.w).toNat row.fld.lo row.fld.len

/-- RANGE of a written word. -/
def rangeBad (x : RegWr) : Bool :=
  rsvHit x.reg x.w x.v || (fieldsOf x.reg x.w).any (fieldBad x) || match x.reg with
  | .mirrorPorts | .mcgPorts => x.i % 8 == 4 && decide (2 ^ 32 ≤ x.v)
  | .portPset => x.i % 64 == 0 && x.v % 2 == 1
  | .timeCfg => x.w == 1 && decide (2500000000 ≤ x.v % 2 ^ 32)
  | .ppsOutCfg => decide (bits x.v PPS_OUT_CFG.PERIOD.lo PPS_OUT_CFG.PERIOD.len * 2500 ≤ bits x.v PPS_OUT_CFG.PHASE.lo PPS_OUT_CFG.PHASE.len)
  | _ => false

/-- The table a register's entries belong to: a group's ports lie in the table of the groups (Table 21-2). -/
def tableOf (r : Reg) : Reg := if r = .mcgPorts then .mcgCtl else r

/-! ### The word pass -/

/-- Everything a word is held against: whether the program is BODY of a profile, which has full rights; the program; the
state now, with the pending programs, at E; the reason a profile load fails with. -/
structure CheckEnv where
  full : Bool
  prog : Prog
  now : State
  base : State
  cfg : State
  prof : Nat → Option (Nat × Nat)

/-- The lowest code of the conditions that hold. -/
def lowest (cs : List (Bool × Nat)) : Option Nat := (cs.find? (·.1)).map (·.2)

/-- Control addresses of a WR or BLK_WR. -/
def addrsOf : Cmd → List Nat
  | .wr a _ => [a]
  | .blkWr a _ n => (List.range (min n 1048576)).map fun k => a + 8 * k
  | _ => []

/-- The reason of a WR or BLK_WR (R416, R421, R490). -/
def writeReason (e : CheckEnv) (x : PCmd) : Option Nat :=
  let addrs := addrsOf x.cmd
  let places := addrs.map fun a => writableAt e.prog.dom a
  let ws := cmdWrites e.prog.dom x
  let regs := places.filterMap fun p => p.map fun y => (⟨y.1, y.2.1, y.2.2, 0⟩ : RegWr)
  let rights := e.full || (if x.lost then regs else ws).all fun w => writeRight e.prog.dom w e.now e.base e.cfg
  let sameTable := (regs.map fun w => tableOf w.reg).dedup.length ≤ 1
  let n := match x.cmd with | .blkWr _ _ n => n | _ => 1
  lowest [(!rights, rsnRIGHTS), (x.lost, rsnFETCH), (places.any (·.isNone) || !sameTable, rsnADDRESS),
    (decide (n = 0) || decide (1048576 < n) || ws.any rangeBad, rsnRANGE)]

/-- A unit that a command may name (Table 19-6): lane site, Luna core, slice die, Monarch die, Skipper die. -/
def unitNamed (retire : Bool) (kind num : Nat) : Bool :=
  match kind with
  | 0 => decide (num < 648)
  | 1 => decide (num < 864)
  | 2 => decide (36 ≤ num) && decide (num < 52)
  | 3 => !retire && decide (62 ≤ num) && decide (num < 64)
  | 4 => !retire && decide (60 ≤ num) && decide (num < 62)
  | _ => false

/-- The kind of a unit by its number in Table 19-6. -/
def unitKind (kind : Nat) : UnitKind :=
  match kind with
  | 0 => .laneSite
  | 1 => .lunaCore
  | 2 => .sliceDie
  | 3 => .monarchDie
  | _ => .skipperDie

/-- The reason a word fails with on its own, and by what it finds in the configuration with the images, signers and list
as the words before it leave them (`at_`). -/
def wordReason (e : CheckEnv) (x : PCmd) (here : State) : Option Nat :=
  let loads := e.prog.cmds.find? fun y => match y.cmd with | .profileLoad _ => true | _ => false
  let mixed := match loads with
    | some y => x.word != y.word && (match x.cmd with | .commitAt _ => false | _ => true)
    | none => false
  let pre : List (Bool × Nat) := [(x.cmd = .bad || mixed, rsnFORMAT),
    (!e.full && !cmdRight e.prog.dom x e.now e.cfg, rsnRIGHTS)]
  match lowest pre with
  | some r => some r
  | none =>
    match x.cmd with
    | .wr .. | .blkWr .. => writeReason e x
    | .rd a slot => lowest [((ctlAt e.prog.dom a).isNone, rsnADDRESS), (decide (3072 ≤ slot), rsnRANGE)]
    | .lunaLoad mask _ _ =>
      lowest [(x.lost, rsnFETCH), (!x.lost && (loadCause mask x.data here).isSome, rsnLUNA_IMAGE)]
    | .lunaUnload prog _ => lowest [(progNamed prog e.cfg, rsnLUNA_IMAGE)]
    | .profileLoad n =>
      if gb START_STAT.FABRIC_READY 0 e.base then some rsnFABRIC_ACTIVE else (e.prof n).map (·.1)
    | .profileStore _ _ len => lowest [(x.lost, rsnFETCH), (decide (2097152 < len), rsnRANGE)]
    | .fwStage _ len => lowest [(x.lost, rsnFETCH), (decide (4194304 < len), rsnRANGE)]
    | .commitAt t => lowest [(t != 0 && qualOf .ox9 e.now == 0, rsnTIME_UNSET)]
    | .signerEnroll k _ =>
      lowest [(x.lost, rsnFETCH), (decide (k < 4) || (SMap.get (fun _ => none) here.flash.signers k).isSome ||
        (!x.lost && !Config.onCurve x.data), rsnSIGNER)]
    | .signerRevoke k => lowest [(decide (k < 4), rsnSIGNER)]
    | .expel .. => lowest [(x.lost, rsnFETCH), (!x.lost && (expelCause 1 x.data here).isSome, rsnEXPEL)]
    | .readmit .. => lowest [(x.lost, rsnFETCH), (!x.lost && (expelCause 2 x.data here).isSome, rsnEXPEL)]
    | .retireUnit kind num => lowest [(!unitNamed true kind num, rsnUNIT)]
    | .serviceTest kind num => lowest [(!unitNamed false kind num, rsnUNIT)]
    | .restoreUnit kind num =>
      lowest [(!unitNamed false kind num || (unitLog (unitKind kind) num e.now).perm, rsnUNIT)]
    | _ => none

/-- The word of a failing word: BODY's own for a profile load. -/
def failWord (e : CheckEnv) (x : PCmd) : Nat :=
  match x.cmd with
  | .profileLoad n => if gb START_STAT.FABRIC_READY 0 e.base then x.word else ((e.prof n).map (·.2)).getD x.word
  | _ => x.word

/-- The first word that fails, with its reason and its number. -/
def wordPass (e : CheckEnv) : List PCmd → State → Option (Nat × Nat)
  | [], _ => none
  | x :: xs, here =>
    match wordReason e x here with
    | some r => some (r, failWord e x)
    | none => wordPass e xs (projectCmd x here)

/-! ### The whole-configuration pass -/

/-- CW_CONFIG (R83). -/
def cwBad (base cfg : State) : Bool :=
  let ms := (List.range 64).filter fun m => gx CW_MEMBER.VALID m cfg = 1
  let eps := ms.map fun m => gx CW_MEMBER.EP m cfg
  let on (s : State) : Bool := gx CW_CTRL.EN 0 s == 1
  let changed (f : Fld) : Bool := gx f 0 base != gx f 0 cfg
  decide (4 < gx CW_CTRL.NPLANES_LOG2 0 cfg) || decide (2 ^ gx CW_CTRL.NPLANES_LOG2 0 cfg ≤ gx CW_CTRL.PLANE_IDX 0 cfg) ||
    (on cfg && !(decide (20 ≤ gx CW_CTRL.SIZE_LOG2 0 cfg) && decide (gx CW_CTRL.SIZE_LOG2 0 cfg ≤ 40))) ||
    eps.dedup.length != eps.length ||
    (on base && (changed CW_CTRL.NPLANES_LOG2 || changed CW_CTRL.PLANE_IDX || changed CW_CTRL.SIZE_LOG2))

/-- BUF_QUOTA (R111). -/
def bufBad (cfg : State) : Bool :=
  let ps := listed .partBuf cfg
  (ps.any fun p => decide (gx PART_BUF.MAX p cfg < gx PART_BUF.MIN p cfg)) ||
    decide (43008 < gx BUF_CARVE.RSV_VC1 0 cfg + gx BUF_CARVE.RSV_VC4 0 cfg + gx BUF_CARVE.RSV_VC5 0 cfg +
      (ps.map fun p => gx PART_BUF.MIN p cfg).sum)

/-- MCG_OX7 (R120). -/
def ox7Bad (cfg : State) : Bool :=
  (listed .mcgCtl cfg).any fun g => gx MCG_CTL.MODE g cfg == 1 && decide (64 < mcgNports g cfg)

/-- The ports of a mirror session. -/
def mirrorCount (g : Nat) (cfg : State) : Nat :=
  ((List.range 5).map fun w => ((List.range 64).filter fun b => bits (gx MIRROR_PORTS.PORTS (8 * g + w) cfg) b 1 = 1).length).sum

/-- MIRROR_LIMIT (R123). -/
def mirrorBad (cfg : State) : Bool :=
  decide (16 < (((List.range 8).filter fun g => gx MIRROR_MATCH.EN g cfg = 1).map fun g =>
    mirrorCount g cfg * if gx MIRROR_MATCH.DIR g cfg = 2 then 2 else 1).sum)

/-- MIRROR_DOMAIN (R357). -/
def mirrorDomBad (dom : Nat) (ws : List RegWr) (now cfg : State) : Bool :=
  gx DOM_RIGHTS.TELEMETRY dom now != 1 &&
    (ws.filterMap fun x => mirrorSession x.reg x.i).any fun g => !mirrorMeets dom g cfg

/-- The valid members of a group keep R131. -/
def groupOk (g : Nat) (cfg : State) : Bool :=
  let ms := (groupMembers g cfg).map (·.2)
  ms.all (fun p => (portInfo p cfg).isSome) && decide ((ms.map fun p => portWidth p cfg).dedup.length ≤ 1) &&
    decide ((ms.map fun p => gx PORT_BIND.EP p cfg).dedup.length ≤ 1)

/-- PGROUP (R131). -/
def pgroupBad (cfg : State) : Bool :=
  ((listed .pgroup cfg).any fun g => !groupOk g cfg) ||
    (listed .route cfg).any fun i => gx ROUTE.VALID i cfg == 1 && (groupMembers (gx ROUTE.GROUP i cfg) cfg).isEmpty

/-- ARB_PARAM (R141). -/
def arbBad (cfg : State) : Bool :=
  (listed .portArb cfg).any fun q => decide (50 < gx PORT_ARB.FLOOR q cfg) || decide (gx PORT_ARB.VC5_GAP q cfg < 2) ||
    gx PORT_ARB.W0 q cfg == 0 || gx PORT_ARB.W1 q cfg == 0 || gx PORT_ARB.W3 q cfg == 0 || gx PORT_ARB.W4 q cfg == 0

/-- CMARK_ORDER (Table 19-7). -/
def cmarkBad (cfg : State) : Bool :=
  (listed .portCmark cfg).any fun q => decide (gx PORT_CMARK.LVL2 q cfg ≤ gx PORT_CMARK.LVL1 q cfg) ||
    decide (gx PORT_CMARK.LVL3 q cfg ≤ gx PORT_CMARK.LVL2 q cfg)

/-- SHAPER (Table 19-7). -/
def shaperBad (cfg : State) : Bool :=
  (listed .partShape cfg).any fun p => gx PART_SHAPE.EN p cfg == 1 &&
    (gx PART_SHAPE.RATE p cfg == 0 || decide (100800 < gx PART_SHAPE.RATE p cfg) || decide (gx PART_SHAPE.BURST p cfg < 64))

/-- The slots of a context that are valid members. -/
def ctxSlots (c : Nat) (cfg : State) : List Nat :=
  ((List.range (min 512 (gx LUNA_CTX.NSRC c cfg))).map (gx LUNA_CTX.MEMBASE c cfg + ·)).filter fun m => gx LUNA_MEMBER.VALID m cfg = 1

/-- CTX_LAYOUT of a context (R153). -/
def ctxLayoutBad (c : Nat) (cfg : State) : Bool :=
  let m0 := gx LUNA_CTX.DIEMASK0 c cfg
  let m1 := gx LUNA_CTX.DIEMASK1 c cfg
  let n := gx LUNA_CTX.NSRC c cfg
  let who := (ctxSlots c cfg).map fun m => (gx LUNA_MEMBER.EP m cfg, gx LUNA_MEMBER.UNIT m cfg)
  m0 == 0 || m1 == 0 || Nat.land m0 m1 != 0 || n == 0 || decide (512 < n) || gx LUNA_CTX.W c cfg == 0 ||
    gx LUNA_CTX.MAXELEM c cfg == 0 || decide (8192 < gx LUNA_CTX.MAXELEM c cfg) || gx LUNA_CTX.NCHUNK c cfg == 0 ||
    decide (262144 < gx LUNA_CTX.MEMBASE c cfg + n) || who.dedup.length != who.length

/-- CTX_SIZE of a context (R153). -/
def ctxSizeBad (c : Nat) (cfg : State) : Bool :=
  let dl := gx LUNA_CTX.DL_MODE c cfg
  let m := gx LUNA_CTX.MAXELEM c cfg
  let timed := (dl == 1 || dl == 2) && gx LUNA_CTX.OUT_SAME c cfg == 0 &&
    decide (4096 < outBytes (gx LUNA_CTX.OUT_FMT c cfg) m + 8 * ceilDiv (gx LUNA_CTX.NSRC c cfg) 64)
  let wide := gx LUNA_CTX.PARENT_EN c cfg == 1 ||
    (List.range (gx LUNA_CTX.NSRC c cfg)).any fun k => gx LUNA_MEMBER.WIDE (gx LUNA_CTX.MEMBASE c cfg + k) cfg == 1
  timed || (wide && (decide (93 < m) || gx LUNA_CTX.NATIVE_OK c cfg == 1))

/-- CTX_RESULT of a context (R153). -/
def ctxResultBad (c : Nat) (cfg : State) : Bool :=
  let g := gx LUNA_CTX.RESULT_MCG c cfg
  gx LUNA_CTX.PARENT_EN c cfg == 0 &&
    !(gx MCG_CTL.VALID g cfg == 1 && gx MCG_CTL.PART g cfg == gx LUNA_CTX.PART c cfg)

/-- CTX_KEY of a context: a key slot that is no collective slot of its partition (R153, R370). -/
def ctxKeyBad (c : Nat) (cfg : State) : Bool :=
  let ok (k : Nat) : Bool := slotKind .ox9 k cfg == 2 && slotPart .ox9 k cfg == gx LUNA_CTX.PART c cfg
  gx LUNA_CTX.ENC c cfg == 1 && !(ok (gx LUNA_CTX.KEY_IN c cfg) && ok (gx LUNA_CTX.KEY_OUT c cfg))

/-- CTX_REPORT of a context (R153). -/
def ctxReportBad (c : Nat) (cfg : State) : Bool :=
  gx LUNA_CTX.RPT_EN c cfg == 1 &&
    gx ROUTE.VALID (4096 * gx PART_RT.RTSET (gx LUNA_CTX.PART c cfg) cfg + gx LUNA_CTX.RPT_EP c cfg) cfg == 0

/-- CTX_MEASURE of a context: a die's image of its program is not bound to both slots (R370). -/
def ctxMeasureBad (c : Nat) (cfg : State) : Bool :=
  let bound (k : Nat) (m : BitVec 384) : Bool :=
    match keySlot .ox9 k cfg with | some x => x.meas.contains m | none => false
  gx LUNA_CTX.ENC c cfg == 1 && (ctxDies c cfg).any fun d =>
    match imageOf d (gx LUNA_CTX.PROG c cfg) cfg with
    | some x => !(bound (gx LUNA_CTX.KEY_IN c cfg) x.meas && bound (gx LUNA_CTX.KEY_OUT c cfg) x.meas)
    | none => false

/-- A condition of a valid context that rests on keys or images, where it counts: the program writes or arms the context,
or the configuration before it did not break it, or FABRIC_ENABLE asks for the whole (R424, R427). -/
def ctxLateBad (bad : Nat → State → Bool) (strict : Bool) (mine : List Nat) (base cfg : State) : Bool :=
  (validCtxs cfg).any fun c => bad c cfg &&
    (strict || mine.contains c || !(gx LUNA_CTX.VALID c base == 1 && bad c base))

/-- GW_CONFIG (R320). -/
def gwBad (cfg : State) : Bool :=
  let stage := gx GW_CTRL.STAGE_ID 0 cfg
  let mode (r : Nat) : Nat := gx GW_REGION.MODE r cfg
  let skipEp (k : Nat) : Nat := if k = 0 then gx GW_CTRL.SKIP_EP0 0 cfg else gx GW_CTRL.SKIP_EP1 0 cfg
  let gate (g : Nat) : Bool :=
    let ms := (groupMembers g cfg).map (·.2)
    !ms.isEmpty && groupOk g cfg && ms.all fun p => gx PORT_BIND.ROLE p cfg == 1 && gx PORT_BIND.GW p cfg == 1
  let regionBad (r : Nat) : Bool :=
    (mode r == 3 && r != stage) || (mode r == 1 && r == stage) || (stage == 0 && (mode r == 1 || mode r == 3)) ||
      (mode r == 1 && !gate (gx GW_REGION.GROUP r cfg)) ||
      (mode r == 2 && gx HOST_CFG.EN (gx GW_REGION.SKIPPER r cfg) cfg != 1)
  let asg := [0, 1].filter fun k => skipAssigned k cfg
  gwRegions.any regionBad || (asg.map skipEp).dedup.length != asg.length ||
    asg.any fun k => skipEp k == gx FWD_CTRL.OX9_EP 0 cfg

/-- TIME_SET (R337). -/
def timeSetBad (p : Prog) (cfg : State) : Bool :=
  p.cmds.any fun x => match x.cmd with
    | .timeSet t => !isRoot .ox9 cfg || (gb START_STAT.FABRIC_READY 0 cfg && decide (t < p.e))
    | _ => false

/-- The bits that a port's permit words set, as partitions. -/
def permits (cfg : State) : List Nat :=
  ((regEntries .portPset cfg.ox.regs).flatMap fun e =>
    ((List.range 64).filter fun b => bits e.2.2.toNat b 1 = 1).map fun b => 64 * (e.1 % 64) + b).dedup

/-- The partitions that contexts, groups, enabled mirror sessions and window members name. -/
def namedParts (cfg : State) : List Nat :=
  (validCtxs cfg).map (fun c => gx LUNA_CTX.PART c cfg) ++
    ((listed .mcgCtl cfg).filter fun g => gx MCG_CTL.VALID g cfg = 1).map (fun g => gx MCG_CTL.PART g cfg) ++
    ((List.range 8).filter fun g => gx MIRROR_MATCH.EN g cfg = 1).flatMap (fun g =>
      gx MIRROR_DEST.A_PART g cfg :: if gx MIRROR_MATCH.M_PART_EN g cfg = 1 then [gx MIRROR_MATCH.M_PART g cfg] else []) ++
    ((List.range 64).filter fun m => gx CW_MEMBER.VALID m cfg = 1).map fun m => gx CW_MEMBER.PART m cfg

/-- PART_ZERO (R353). -/
def partZeroBad (cfg : State) : Bool :=
  (permits cfg).contains 0 || gx PART_SEC.VALID 0 cfg == 1 || (namedParts cfg).contains 0

/-- The ports that R355 counts: of the loaded profile, permitting at least one partition. -/
def countedPorts (cfg : State) : List Nat :=
  (((regEntries .portPset cfg.ox.regs).filter fun e => e.2.2 ≠ 0).map fun e => e.1 / 64).dedup.filter fun q => (portInfo q cfg).isSome

/-- PART_BIND (R355). -/
def partBindBad (cfg : State) : Bool :=
  let eps := ((countedPorts cfg).filter fun q => gx PORT_BIND.ROLE q cfg = 0).map fun q => gx PORT_BIND.EP q cfg
  (eps.dedup.any fun ep => decide (4 < (eps.filter (· = ep)).length)) ||
    ((listed .portBind cfg).any fun q => gx PORT_BIND.GW q cfg == 1 && gx PORT_BIND.ROLE q cfg == 0) ||
    (permits cfg).any fun p => gx PART_SEC.VALID p cfg != 1

/-- PART_IN_USE (R355). -/
def partInUseBad (base cfg : State) : Bool :=
  ((listed .partSec base).filter fun p => gx PART_SEC.VALID p base = 1 && gx PART_SEC.VALID p cfg = 0).any fun p =>
    (permits cfg).contains p || (namedParts cfg).contains p

/-- RIGHTS_TABLE (R415). -/
def rightsBad (cfg : State) : Bool :=
  ((List.range 8).filter fun d => gx DOM_RIGHTS.FABRIC d cfg = 1).length != 1 ||
    decide (1 < ((List.range 8).filter fun d => gx DOM_RIGHTS.TELEMETRY d cfg = 1).length)

/-- FABRIC_ID (R427). -/
def fabricIdBad (cfg : State) : Bool :=
  let ep := gx FWD_CTRL.OX9_EP 0 cfg
  ep == 0 || (countedPorts cfg).any fun q => gx PORT_BIND.EP q cfg == ep

/-- A program holds a FABRIC_ENABLE. -/
def enables (cs : List PCmd) : Bool := cs.any fun x => decide (x.cmd = .fabricEnable)

/-- The contexts that writes touch, commands arm or images loaded serve (R370, R424). -/
def mineCtxs (ws : List RegWr) (cs : List PCmd) (cfg : State) : List Nat :=
  touched .lunaCtx ws ++ cs.flatMap fun x => match x.cmd with
    | .ctxArm c => [c]
    | .lunaLoad .. => (validCtxs cfg).filter fun c => gx LUNA_CTX.PROG c cfg = (mkImage x.data).prog
    | _ => []

/-- The lowest failing reason of the whole configuration. -/
def wholePass (full : Bool) (p : Prog) (ws : List RegWr) (now base cfg : State) : Option Nat :=
  let strict := enables p.cmds
  let mine := mineCtxs ws p.cmds cfg
  let anyCtx (f : Nat → State → Bool) : Bool := (validCtxs cfg).any fun c => f c cfg
  lowest [(cwBad base cfg, rsnCW_CONFIG), (bufBad cfg, rsnBUF_QUOTA), (ox7Bad cfg, rsnMCG_OX7), (mirrorBad cfg, rsnMIRROR_LIMIT),
    (!full && mirrorDomBad p.dom ws now cfg, rsnMIRROR_DOMAIN), (pgroupBad cfg, rsnPGROUP), (arbBad cfg, rsnARB_PARAM),
    (cmarkBad cfg, rsnCMARK_ORDER), (shaperBad cfg, rsnSHAPER), (anyCtx ctxLayoutBad, rsnCTX_LAYOUT),
    (anyCtx ctxSizeBad, rsnCTX_SIZE), (anyCtx ctxResultBad, rsnCTX_RESULT),
    (ctxLateBad ctxKeyBad strict mine base cfg, rsnCTX_KEY), (anyCtx ctxReportBad, rsnCTX_REPORT),
    (ctxLateBad ctxMeasureBad strict mine base cfg, rsnCTX_MEASURE), (gwBad cfg, rsnGW_CONFIG),
    (timeSetBad p cfg, rsnTIME_SET), (partZeroBad cfg, rsnPART_ZERO), (partBindBad cfg, rsnPART_BIND),
    (partInUseBad base cfg, rsnPART_IN_USE), (rightsBad cfg, rsnRIGHTS_TABLE), (strict && fabricIdBad cfg, rsnFABRIC_ID)]

/-! ### The check -/

/-- A program that holds a backward TIME_SET. -/
def backward (p : Prog) : Bool := p.cmds.any fun x => match x.cmd with | .timeSet t => decide (t < p.e) | _ => false

/-- ORDER (R425): E before that of a pending program, or a backward TIME_SET with another program pending. -/
def orderBad (p : Prog) (pend : List Prog) : Bool :=
  !configFree p && ((pend.any fun q => decide (p.e < q.e)) || (backward p && !pend.isEmpty))

/-- BODY of a profile checked as one program with full rights, on a base that the load's resets and sections replace
(R432, R433): its reason and word. -/
def profileReason (p : Prog) (n : Nat) (now base : State) : Option (Nat × Nat) :=
  let bs := profileImage n base
  if !profileFormOk bs || !bodyFormOk bs || (profileWrites bs).any rangeBad then some (rsnPROFILE, 0xFFFF)
  else
    let body := bodyProg p.dom p.pseq p.e bs
    let ws := loadWrites bs base
    let here := withLayout bs (projectWrites ws base)
    let cfg := body.cmds.foldl (fun s x => projectCmd x s) here
    let env : CheckEnv := ⟨true, body, now, base, cfg, fun _ => none⟩
    match wordPass env body.cmds here with
    | some f => some f
    | none => (wholePass true body ws now base cfg).map fun r => (r, 0xFFFF)

/-- The check of a program against the state now and the programs pending before it, with or without the load of a profile
it names: the reason and the word it fails with (R424). A profile load is checked whole by its BODY. -/
def checkWith (load : Bool) (p : Prog) (pend : List Prog) (now : State) : Option (Nat × Nat) :=
  let base := projectPending pend now
  let here := projectWrites (progWrites p) base
  let cfg := p.cmds.foldl (fun s x => projectCmd x s) here
  let env : CheckEnv := ⟨false, p, now, base, cfg, fun n => if load then profileReason p n now base else none⟩
  match wordPass env p.cmds here with
  | some f => some f
  | none =>
    if orderBad p pend then some (rsnORDER, 0xFFFF)
    else if allWrites p base ≠ progWrites p then none
    else (wholePass false p (progWrites p) now base cfg).map fun r => (r, 0xFFFF)

/-- The check of a program. -/
def checkProg (p : Prog) (pend : List Prog) (now : State) : Option (Nat × Nat) := checkWith true p pend now

/-- The failure is that of the profile load itself (R433). -/
def loadFails (p : Prog) (pend : List Prog) (now : State) : Bool := checkProg p pend now != checkWith false p pend now

/-- What the words before word `w` leave for its check. -/
def stateAtWord (p : Prog) (pend : List Prog) (now : State) (w : Nat) : State :=
  (p.cmds.takeWhile fun x => x.word ≠ w).foldl (fun s x => projectCmd x s) (projectWrites (progWrites p) (projectPending pend now))

end Sys2Proof.Machine
end

