-- ==== Sys2Proof/Machine/Service.lean ====
section
/-! DEFINITION. Slice migration and failure, units retired, tested and returned, Monarch failover (R387 to R392, R29, R362):
their shared effects and the service rows of the table. -/

namespace Sys2Proof.Machine

/-! ### Slices (R387, R388, R29) -/

/-- A migration of a slice is asked for: those asked for run one after another. -/
def startMigration (x : Nat) (s : State) : State :=
  if s.slices.active.contains x && !s.slices.migrating.contains x then
    { s with slices := { s.slices with migrating := s.slices.migrating ++ [x] } }
  else s

/-- The bank sets that a slice die holds: a tracking bank and a directory bank each. -/
def bankSets (x : Nat) (s : State) : List Nat := (List.range 16).filter fun b => bankAt b s = x

/-- The slice die that takes a bank set of slice `x`, which has two places for sets: the one that takes over the stripe, else
the lowest active one with an unused second place (R18, R29). -/
def setHost (x : Nat) (y : Option Nat) (s : State) : Option Nat :=
  (y.toList ++ s.slices.active).find? fun h => h ≠ x && decide ((bankSets h s).length < 2)

/-- The request of an open transaction that the bank itself still holds, or whose answer it holds: one that has gone to the home
is answered from there. -/
def heldRequest (l : CwLine) : Option Header :=
  if l.st = .bRecall || l.st = .bWb || (l.st = .bInv && (!l.asked || l.data.isSome)) then l.req.map (·.hdr) else none

/-- What a bank holds is lost: its tracking entries go, its directory bank answers POISON, what it holds first: the writebacks that
wait, the requests of its open transactions, its wait queue (R388). -/
def loseBank (b : Nat) (s : State) : State :=
  let x := cwBank b s
  let hs := x.wbs.map (·.hdr) ++ x.lines.filterMap heldRequest
  cwDrain b (hs.foldl (fun s h => cwLostAnswer b h s) (setCwBank b { x with lines := [], wbs := [], flush := false } { s with
    slices := { s.slices with lostDir := (s.slices.lostDir ++ [b]).dedup }
    fwd := { s.fwd with tracks := s.fwd.tracks.filter fun t => t.bank ≠ b } }))

/-- A bank set moves to a slice die, or is in service no more. -/
def placeBank (b h : Nat) (s : State) : State :=
  { s with slices := { s.slices with bankHost := setAt s.slices.bankHost b h } }

/-- Every bank set of slice `x` moves, with what it holds, to a die that has a place; one for which there is none is lost and
out of service (R18, R29, R387). -/
def moveBanks (x : Nat) (y : Option Nat) (s : State) : State :=
  (bankSets x s).foldl (fun s b =>
    match setHost x y s with
    | some h => placeBank b h s
    | none => placeBank b 16 (loseBank b s)) s

/-- The banks of a slice are lost (R388). -/
def loseBanks (x : Nat) (s : State) : State := (bankSets x s).foldl (fun s b => loseBank b s) s

/-- The active list and the live spare after slice `x` is replaced by `y`, whose test ends (R392), or only leaves. -/
def replaceSlice (x : Nat) (y : Option Nat) (s : State) : State :=
  let rest := s.slices.active.filter (· ≠ x)
  match y with
  | some y =>
    let s1 := sx DIE_INFO.STANDBY (36 + y) 0 (sx DIE_INFO.ACTIVE (36 + y) 1 (sx DOM_STAT.PINNED (73 + y) 0
      (takeCandidate .sliceDie (36 + y) s)))
    { s1 with slices := { s1.slices with active := insertSorted y rest, spare := none, frozen := true } }
  | none => { s with slices := { s.slices with active := rest, frozen := true } }

/-- A slice die is withdrawn from service: RETIRED, powered down (R387, Table 20-5). -/
def sliceRetired (x : Nat) (s : State) : State :=
  sx DOM_STAT.FAILED (73 + x) 1 (sx DOM_STAT.STATE (73 + x) 0 (sx DIE_INFO.STANDBY (36 + x) 0 (sx DIE_INFO.ACTIVE (36 + x) 0
    (sx DIE_INFO.RETIRED (36 + x) 1 s))))

/-- No second bank set is free: the OX9 runs on with less (R29). The rule names no field of SPARE_EXHAUSTED here: the slice
die is the origin and the argument (log entry 83, DESIGN CHOICE). -/
def degradeTraces (x : Nat) (s : State) : State := raiseDie .spareExhausted false (36 + x) [] (countG .sliceDegraded s)

/-- The bank sets of a slice that leaves move; where one finds no place the OX9 is degraded. -/
def leaveBanks (x : Nat) (y : Option Nat) (s : State) : State :=
  let s1 := moveBanks x y s
  if (bankSets x s).all fun b => bankAt b s1 < 16 then s1 else degradeTraces x s1

/-- The live spare leaves service, with its bank set. -/
def spareLeaves (x : Nat) (lost : Bool) (s : State) : State :=
  let s1 := noteChange { s with slices := { s.slices with spare := none } }
  sliceRetired x (leaveBanks x none (if lost then loseBanks x s1 else s1))

/-- The cut clock of the migration in progress: the active list, the bank lookups and the accountants change together
(R387). Without a live spare the banks move to an unused second bank set, or are lost (R29). -/
def cutClock (s : State) : State :=
  match s.slices.migrating with
  | [] => s
  | x :: rest =>
    let y := s.slices.spare
    let s1 := noteChange { s with slices := { s.slices with migrating := rest } }
    let s2 := leaveBanks x y (replaceSlice x y s1)
    if y.isSome || (bankSets x s).all fun b => bankAt b s2 < 16 then
      raiseDie .sliceMigrated false (36 + x) [] (countG .sliceMigrated s2)
    else s2

/-- SLICE_CUT_CLOCK (R387). -/
def execSliceCutClock (s : State) : Host.Outcome State Fault Refusal := live cutClock s

/-- Accountants grant blocks again, and serve what waits. -/
def grantsResume (s : State) : State :=
  let s1 := { s with slices := { s.slices with frozen := false } }
  (s1.fwd.grantReqs.map (·.2)).dedup.foldl (fun s p => serveGrants p s) s1

/-- GRANT_FREEZE_END (R387). -/
def execGrantFreezeEnd (s : State) : Host.Outcome State Fault Refusal := live grantsResume s

/-- A slice out of the active list whose last packet has left is retired. -/
def sliceDrained (x : Nat) (s : State) : State :=
  if s.slices.active.contains x || s.slices.spare = some x || gx DIE_INFO.ACTIVE (36 + x) s = 0 ||
      (s.fwd.bufs.any fun b => b.stripe.contains x) then s
  else sliceRetired x s

/-- SLICE_DRAINED (R387). -/
def execSliceDrained (x : Slice) (s : State) : Host.Outcome State Fault Refusal := live (sliceDrained x.val) s

/-- The ports with a copy of a packet in their queues. -/
def portsHolding (pid : Nat) (s : State) : List Nat :=
  (List.range 288).filter fun p => (List.range 6).any fun v => (queueOf p v s).any fun c => c.pid = pid

/-- A packet with cells in a failed slice is tail-marked from the first of them, cause STALL (R388, R108). -/
def stallPacket (x : Nat) (b : BufPkt) (s : State) : State :=
  if b.wait && b.dest.isNone then mcDiscard b 3 s
  else
    handOver b.pid [] ((portsHolding b.pid s).foldl (fun s p => raisePort .tailMark true p [na 3] (countPort p .ctStallAbort 1 s))
      (setBuf (cutPacket b (b.stripe.findIdx (· = x)) 3) s))

/-- A slice die fails before its banks are copied (R388). -/
def sliceFail (x : Nat) (s : State) : State :=
  if gx DIE_INFO.RETIRED (36 + x) s = 1 then s
  else
    let s0 := noteChange (withdraw .sliceDie (36 + x) false
      { s with slices := { s.slices with migrating := s.slices.migrating.filter (· ≠ x) } })
    if s0.slices.spare = some x then spareLeaves x true s0
    else
      let s1 := (s0.fwd.bufs.filter fun b => b.stripe.contains x).foldl (fun s b => stallPacket x b s) s0
      if !s1.slices.active.contains x then sliceRetired x s1
      else
        let y := s1.slices.spare
        sliceRetired x (leaveBanks x y (replaceSlice x y (loseBanks x s1)))

/-- SLICE_FAIL (R388). -/
def execSliceFail (x : Slice) (s : State) : Host.Outcome State Fault Refusal := live (sliceFail x.val) s

/-- A slice fails its background self-test, or logs uncorrectable errors in 4 rows: it is withdrawn by a migration (Table
17-7); a live spare that fails leaves at once. -/
def selftestFail (x : Nat) (s : State) : State :=
  if s.slices.spare = some x then spareLeaves x false (withdraw .sliceDie (36 + x) false s)
  else if s.slices.active.contains x && !s.slices.migrating.contains x then
    startMigration x (withdraw .sliceDie (36 + x) false s)
  else s

/-- BACKGROUND_SELFTEST_FAIL (R387). -/
def execBackgroundSelftestFail (x : Slice) (s : State) : Host.Outcome State Fault Refusal := live (selftestFail x.val) s

/-! ### RETIRE_UNIT -/

/-- RETIRE_UNIT's effect: a lane site is swapped for a spare (R313), an unused one goes; a core is replaced (R171); a slice
migrates (R387). -/
def retireUnit (k : UnitKind) (n : Nat) (s : State) : State :=
  match k with
  | .laneSite =>
    if gx LANE_STAT.IN_USE n s = 1 then requestSwap n s
    else if gx LANE_STAT.SPARE n s = 1 then logOut k n (sx LANE_STAT.FAILED n 1 (spareTaken n s))
    else s
  | .lunaCore =>
    let old := unitLog k n s
    match servesAt (n / 108) n s with
    | some _ => setUnitLog { old with out := true } (retireCore n false none s)
    | none =>
      let d := n / 108
      if (lunaDie d s).spares.contains n then logOut k n (dropSpare n s) else s
  | .sliceDie =>
    let x := n - 36
    if s.slices.spare = some x then logOut k n (spareLeaves x false s)
    else if s.slices.active.contains x then logOut k n (startMigration x s)
    else s
  | _ => s

/-! ### Testing and returning units (R390 to R392, Table 17-8) -/

/-- A unit is withdrawn or spare, so that it can be tested; a Skipper has no region in use. -/
def testable (k : UnitKind) (n : Nat) (s : State) : Bool :=
  match k with
  | .laneSite => gx LANE_STAT.IN_USE n s == 0
  | .lunaCore => (servesAt (n / 108) n s).isNone
  | .sliceDie => !s.slices.active.contains (n - 36)
  | .monarchDie => gx DIE_INFO.ACTIVE n s == 0
  | .skipperDie => !(gwRegions.any fun r => gx GW_REGION.MODE r s != 0 && gx GW_REGION.SKIPPER r s == n - 60)

/-- A test of a unit begins, or ends at once with CHECK_FAIL where the unit is in service or already under test, or is to be
restored and is permanently retired (R391). -/
def startTest (k : UnitKind) (n : Nat) (restore : Bool) (owner : Option Prog) (s : State) : State :=
  if testable k n s && (testOf k n s).isNone && !(restore && (unitLog k n s).perm) then
    { s with monarch := { s.monarch with
      tests := s.monarch.tests ++ [{ kind := k, num := n, restore := restore, shadow := false, owner := owner }] } }
  else finishAction owner stCheckFail s

/-- The die of a unit. -/
def unitDie (k : UnitKind) (n : Nat) : Nat :=
  match k with
  | .laneSite => n / 18
  | .lunaCore => 52 + n / 108
  | _ => n

/-- The origin kind of a unit (Table 21-7). -/
def unitOrigin (k : UnitKind) : Nat :=
  match k with
  | .laneSite => 4
  | .lunaCore => 7
  | _ => 3

/-- The test in progress on a die is the one asked for first (R392). -/
def testRuns (t : UnitTest) (s : State) : Bool :=
  match s.monarch.tests.find? fun y => unitDie y.kind y.num = unitDie t.kind t.num with
  | some y => y = t
  | none => false

/-- A unit fails a stage (1 the test, 2 the shadow): it stays withdrawn (R390). -/
def testFailed (t : UnitTest) (stage : Nat) (s : State) : State :=
  let o := unitOrigin t.kind
  finishAction t.owner stCheckFail
    (raise .ox9 (Event.mk0 .ox9 .unitTestFail false (activeMonarch s) o t.num [na t.num, na stage] s)
      (countG .unitTestFail (dropTest t.kind t.num s)))

/-- A unit passes and is returned (R390). -/
def returnUnit (k : UnitKind) (n : Nat) (s : State) : State :=
  let s0 := noteChange (setUnitLog { unitLog k n s with out := false, counted := false } s)
  match k with
  | .laneSite =>
    if gx LANE_STAT.SPARE n s0 = 1 then s0
    else spareBack (n / 18) (sx LANE_STAT.SPARE n 1 (sx LANE_STAT.FAILED n 0 (sx LANE_STAT.DEGRADED n 0 s0)))
  | .lunaCore =>
    let d := n / 108
    if (lunaDie d s0).spares.contains n then s0
    else sx DIE_INFO.SPARES_LEFT (52 + d) (gx DIE_INFO.SPARES_LEFT (52 + d) s0 + 1)
      (modLuna d (fun x => { x with spares := insertSorted n x.spares }) s0)
  | .sliceDie =>
    let x := n - 36
    if s0.slices.spare.isSome then s0
    else
      let s1 := sx DOM_STAT.FAILED (73 + x) 0 (sx DOM_STAT.STATE (73 + x) 1 (sx DOM_STAT.PINNED (73 + x) 1
        (sx DIE_INFO.RETIRED n 0 (sx DIE_INFO.STANDBY n 1 s0))))
      { s1 with slices := { s1.slices with spare := some x } }
  | .monarchDie =>
    sx DOM_STAT.FAILED (165 + (n - 62)) 0 (sx DOM_STAT.STATE (165 + (n - 62)) 1 (sx DIE_INFO.RETIRED n 0 (sx DIE_INFO.STANDBY n 1 s0)))
  | .skipperDie => s0

/-- A restored unit is counted and raised. -/
def restored (t : UnitTest) (s : State) : State :=
  finishAction t.owner stOK
    (raise0 .unitRestored false (activeMonarch s) []
      (countG .unitRestored (returnUnit t.kind t.num (dropTest t.kind t.num s))))

/-- A unit has a shadow (Table 17-8). -/
def hasShadow (k : UnitKind) : Bool := k = .laneSite || k = .lunaCore || k = .monarchDie

/-- The firmware image of a bank. -/
def bankImage (b : Nat) (s : State) : List Byte := (SMap.get (fun _ => none) s.flash.banks b).getD (Config.fwFactory b)

/-- The firmware image a Monarch die booted (Table 16-5). -/
def bootImage (d : Nat) (s : State) : Option (List Byte) := (s.monarch.boots.find? fun x => x.1 = d).map (·.2)

/-- A Monarch die whose self-test from reset has passed boots the bank in use. -/
def bootUnit (k : UnitKind) (n : Nat) (s : State) : State :=
  if k = .monarchDie && !s.monarch.boots.isEmpty then
    { s with monarch := { s.monarch with boots := (s.monarch.boots.filter fun x => x.1 ≠ n) ++ [(n, bankImage s.monarch.bank s)] } }
  else s

/-- The test of a unit ends. -/
def testDone (k : UnitKind) (n : Nat) (pass : Bool) (s : State) : State :=
  match testOf k n s with
  | none => s
  | some t =>
    if t.shadow || !testRuns t s then s
    else if !pass then testFailed t 1 s
    else
      let s := bootUnit k n s
      if !t.restore then finishAction t.owner stOK (dropTest k n s)
      else if hasShadow k then
        { s with monarch := { s.monarch with tests := s.monarch.tests.map fun y => if y = t then { t with shadow := true } else y } }
      else restored t s

/-- UNIT_TEST_DONE (R390). -/
def execUnitTestDone (kind : UnitKind) (num : Nat) (pass : Bool) (s : State) : Host.Outcome State Fault Refusal :=
  live (testDone kind num pass) s

/-- The shadow of a unit ends. -/
def shadowDone (k : UnitKind) (n : Nat) (pass : Bool) (s : State) : State :=
  match testOf k n s with
  | none => s
  | some t => if !t.shadow then s else if pass then restored t s else testFailed t 2 s

/-- UNIT_SHADOW_DONE (R390). -/
def execUnitShadowDone (kind : UnitKind) (num : Nat) (pass : Bool) (s : State) : Host.Outcome State Fault Refusal :=
  live (shadowDone kind num pass) s

/-! ### Monarch failover (R389, R362) -/

/-- The standby Monarch die. -/
def standbyMonarch (s : State) : Option Nat := [62, 63].find? fun d => gx DIE_INFO.STANDBY d s == 1

/-- The Monarch die that takes over after a fault: the standby, else one whose shadow runs (R389, R392). -/
def takeoverMonarch (s : State) : Option Nat := (standbyMonarch s).or (candidate .monarchDie (fun _ => true) s)

/-- The state with the requests of payload fetches replaced. -/
def setReads (l : List HostMrd) (s : State) : State := { s with monarch := { s.monarch with reads := l } }

/-- The requests of a fetch: of 256 bytes, cut at the multiples of 256, with what lies before the first and behind the last (R422;
log entry 138, DEDUCED). -/
def mrdsOf (tag fn addr len : Nat) : List HostMrd :=
  let first := addr / 256
  (List.range (ceilDiv (addr % 256 + len) 256)).map fun k =>
    let a := max addr ((first + k) * 256)
    { tag := tag, fn := fn, addr := a, len := min (addr + len) ((first + k + 1) * 256) - a, sent := false }

/-- The requests that are outstanding. -/
def mrdsOut (s : State) : Nat := (s.monarch.reads.filter (·.sent)).length

/-- A request issued. -/
def issueMrd (x : HostMrd) (s : State) : State :=
  emit (.hostRead x.fn x.addr x.len) (setReads (s.monarch.reads.map fun y => if y = x then { y with sent := true } else y) s)

/-- The requests that wait are issued in their order, while fewer than 64 are outstanding and the management port is up (R422,
R389). -/
def issueMrds (s : State) : State :=
  ((s.monarch.reads.filter fun x => !x.sent).take (64 - mrdsOut s)).foldl (fun s x => if s.monarch.mgmtDown then s else issueMrd x s) s

/-- A fetch asked for: its requests follow those that wait. -/
def startFetch (tag fn addr len : Nat) (s : State) : State := issueMrds (setReads (s.monarch.reads ++ mrdsOf tag fn addr len) s)

/-- A fetch has ended: the requests of it that still waited have gone before, and give way to others. -/
def endFetch (tag : Nat) (s : State) : State :=
  let s1 := (s.monarch.reads.filter fun x => x.tag = tag && !x.sent).foldl (fun s x => issueMrd x s) s
  issueMrds (setReads (s1.monarch.reads.filter fun x => x.tag ≠ tag) s1)

/-- The payloads of a program asked for: the host's memory is read through the function of its domain (R422), once the management
port is up; a member asks the head by FETCH frames. The program is then under check, awaiting them. -/
def askPayloads (p : Prog) (s : State) : State :=
  let asks := p.cmds.filterMap fun x => if x.lost then none else (payloadOf x.cmd).map fun y => (x.word, y)
  let s1 := asks.foldl (fun s a =>
    if p.remote then sendTo 0 4 ([BitVec.ofNat 8 (chainPos s), BitVec.ofNat 8 p.dom] ++ toLE 8 a.2.1 ++ toLE 4 a.2.2) s
    else startFetch a.1 p.dom a.2.1 a.2.2 s) s
  { s1 with monarch := { s1.monarch with checking := some (p, asks.map (·.1)), fetched := [] } }

/-- The program under check is checked again from its first word, its payloads fetched again. -/
def recheckFirst (s : State) : State :=
  match s.monarch.checking with
  | none => s
  | some (p, _) =>
    askPayloads { p with cmds := p.cmds.map fun x => if x.lost then x else { x with data := [] } }
      (setReads (s.monarch.reads.filter fun x => 1024 ≤ x.tag) s)

/-- Measurement indices 1 to 3 of two Monarch dies are equal: index 1 is one constant, 2 and 3 follow the image booted (R362; log
entry 51, DEDUCED). -/
def sameMeasure (a b : Nat) (s : State) : Bool := bootImage a s == bootImage b s

/-- Every collective key slot erased (R362, R367). -/
def eraseCollective (s : State) : State :=
  ((heldSlots .ox9 s).filter fun n => slotKind .ox9 n s = 2).foldl (fun s n => eraseSlot .ox9 n s) s

/-- The switch lasts up to 1 ms, a free time (R389; log entry 134, DESIGN CHOICE). -/
def beginSwitch (s : State) : State :=
  let n := freeVal s % 2500001
  draw { s with tele := { s.tele with switchFt := some (ft s + n), switchEnd := locOf .ox9 s + n } }

/-- A die takes over as the active Monarch. It keeps the key store and the owner records, which it holds by mirror, where its
measurements equal those of the die it replaces, else the collective slots are erased (R362); SPDM sessions end; the management
port goes down and retrains, as the chain does; the old die is the standby where it is sound, else RETIRED (R389). -/
def failover (sound : Bool) (new : Nat) (s : State) : State :=
  let old := activeMonarch s
  let keep := sameMeasure old new s
  let s0 := takeCandidate .monarchDie new s
  let s1 := sx DOM_STAT.FAILED (165 + (new - 62)) 0 (sx DIE_INFO.RETIRED new 0
    (sx DIE_INFO.STANDBY new 0 (sx DIE_INFO.ACTIVE new 1 (sx DIE_INFO.ACTIVE old 0 s0))))
  let s2 := if sound then sx DIE_INFO.STANDBY old 1 s1
            else sx DOM_STAT.FAILED (165 + (old - 62)) 1 (sx DIE_INFO.RETIRED old 1 s1)
  let s3 := linkLost 1 (linkLost 0 (setKeySec .ox9 { keySec .ox9 s2 with sessions := [] } (beginSwitch s2)))
  let s4 := if keep then s3 else eraseCollective s3
  raise0 .monarchFailover false new [na keep.toNat] (countG .monarchFailover
    (recheckFirst { s4 with monarch := { s4.monarch with mgmtDown := true, reads := s4.monarch.reads.map fun x => { x with sent := false } } }))

/-- The management port trains: the wait for an ENUM begins (R417); after a switch, what a check awaits of the host is asked for
again (R389). -/
def mgmtTrained (s : State) : State :=
  let s1 := if s.chain.posTaken then s else { s with chain := { s.chain with waiting := true } }
  if s1.monarch.mgmtDown then issueMrds { s1 with monarch := { s1.monarch with mgmtDown := false } } else s1

/-- MANAGEMENT_PORT_TRAINED (R417). -/
def execManagementPortTrained (s : State) : Host.Outcome State Fault Refusal := manned mgmtTrained s

/-- A failover for a fault of the active die; without a die to take over nothing happens. -/
def failoverFault (s : State) : State :=
  match takeoverMonarch s with
  | some d => failover false d (withdraw .monarchDie (activeMonarch s) false s)
  | none => s

/-- MONARCH_HEARTBEAT_LOSS (R389). -/
def execMonarchHeartbeatLoss (s : State) : Host.Outcome State Fault Refusal := live failoverFault s

/-- MONARCH_FAULT_REPORT (R389). -/
def execMonarchFaultReport (s : State) : Host.Outcome State Fault Refusal := live failoverFault s

end Sys2Proof.Machine
end

