-- ==== Sys2Proof/Machine/Skipper.lean ====
section
/-! DEFINITION. The Skippers: segments between stages with their windows and remote table, the host region, the record
ring, host transfers into the fabric (chapter 14). -/

namespace Sys2Proof.Machine

/-! ### What both jobs use -/

/-- The die of a Skipper. -/
def skipDie (k : Skip) : Die := Fin.ofNat 64 (60 + k.val)

/-- SKIP_EPk. -/
def skipEp (k : Skip) (s : State) : Nat := if k.val = 0 then gx GW_CTRL.SKIP_EP0 0 s else gx GW_CTRL.SKIP_EP1 0 s

/-- A response of a Skipper to a request (R49): SRC_EP is its own endpoint. -/
def skipRsp (k : Skip) (h : Header) (st : Nat) (data : List Byte) (s : State) : Packet :=
  let p := synthRsp h st s
  { p with hdr := { p.hdr with srcEp := BitVec.ofNat 12 (skipEp k s), len := BitVec.ofNat 13 data.length }, payload := data }

/-- A non-posted request is answered; a posted one has nobody to answer (R52). -/
def skipAnswer (k : Skip) (h : Header) (st : Nat) (data : List Byte) (s : State) : State :=
  if nonPosted h.opcode.toNat then enter (.die (skipDie k)) (skipRsp k h st data s) false s else s

/-- The region's designated Skipper is `k`, in a mode of Table 14-2. -/
def skipServes (k : Skip) (mode : Nat) (h : Header) (s : State) : Bool :=
  let r := regionOf h
  isMem h.opcode.toNat && gx GW_REGION.MODE r s == mode && gx GW_REGION.SKIPPER r s == k.val

/-! ### The rate limit (R144, R145) -/

/-- P of R145 for a Skipper: it has no fabric ports of its own, so its payload rate is that of every up port of the OX9
(log entry 96, DESIGN CHOICE). -/
def skipRate (s : State) : Nat :=
  ((List.range (ports s).length).map fun p =>
    if portUp p s then 19600 * (((portInfo p s).map (·.2)).getD 0) else 0).sum

/-- What a Skipper has sent of a pair in the last 1 µs. -/
def skipSent (k : Skip) (h : Header) (s : State) : List (Nat × Nat) :=
  recentSends (rateFt (.skipper k) s) (SMap.get (fun _ => []) (skipOf k.val s).sent (h.dstEp.toNat * 8 + h.vc.toNat))

/-- The rate limit lets one more packet of a pair leave a Skipper. -/
def skipAllows (k : Skip) (h : Header) (s : State) : Bool :=
  rateFree (.skipper k) h.dstEp.toNat h.vc.toNat (skipRate s) (skipSent k h s) s

/-- A packet noted as sent now. -/
def skipNote (k : Skip) (pk : Packet) (s : State) : State :=
  let key := pk.hdr.dstEp.toNat * 8 + pk.hdr.vc.toNat
  modSkip k.val (fun x => { x with
    sent := SMap.set (fun _ => []) x.sent key (skipSent k pk.hdr s ++ [(rateFt (.skipper k) s, pk.bytes.length)]) }) s

/-- A relayed segment restamped: RD, WR_P and WR_NP, while an ATOM or MSG keeps its stamp (R322). -/
def restamp (pk : Packet) (s : State) : Packet :=
  let o := pk.hdr.opcode.toNat
  if o = opRD || o = opWRP || o = opWRNP then { pk with hdr := { pk.hdr with ageStamp := stampNow s } } else pk

/-! ### Segments (R322 to R324) -/

/-- A header belongs to a transfer (chapter 14). -/
def inTransfer (src part region : Nat) (h : Header) : Bool :=
  h.srcEp.toNat == src && h.part.toNat == part && regionOf h == region && isMem h.opcode.toNat

/-- The outstanding segments of a transfer: non-posted ones whose tracking entry has its egress, posted ones still
buffered, and segments held at their entry (R322). -/
def outstanding (k : Skip) (src part region : Nat) (s : State) : Nat :=
  (s.fwd.tracks.filter fun t => t.egress.isSome && inTransfer src part region t.hdr).length +
  (s.fwd.bufs.filter fun b => b.src = .die (skipDie k) && posted b.pkt.hdr.opcode.toNat &&
    inTransfer src part region b.pkt.hdr).length +
  (s.fwd.held.filter fun x => x.src = .die (skipDie k) && x.target.isSome && inTransfer src part region x.pkt.hdr).length

/-- A segment enters at a slice with its egress chosen (R322). -/
def enterSegment (k : Skip) (pk : Packet) (tl : Tail) (s : State) : State :=
  let e : Entry := .die (skipDie k)
  let pk := restamp pk s
  let h := pk.hdr
  let d := 60 + k.val
  match gwTarget k.val h s with
  | (.uni (.port p), grp) =>
    arrive (noteTarget (arrival e pk tl) (.uni (.port p)) s)
      (skipNote k pk (match grp with | some (g, i) => movePtr d g i s | none => s))
  | _ => respond d h stNoRoute (noRouteTraces d h s)

/-- A segment re-enters for class 7 (R323). -/
def reenterSegment (k : Skip) (pk : Packet) (tl : Tail) (s : State) : State :=
  let pk := restamp pk s
  arrive (arrival (.dieClass7 (skipDie k)) pk tl) (skipNote k pk s)

/-- A segment waits in its Skipper's store, in arrival order (R322, R145). -/
def keepSegment (k : Skip) (pk : Packet) (bad : Bool) (s : State) : State :=
  modSkip k.val (fun x => { x with waiting := x.waiting ++ [(pk, bad)] }) s

/-- A segment has to wait: behind its transfer's waiting segments, or for its rate limit (R322, R145). -/
def segmentWaits (k : Skip) (h : Header) (s : State) : Bool :=
  (skipOf k.val s).waiting.any (fun w => inTransfer h.srcEp.toNat h.part.toNat (regionOf h) w.1.hdr) || !skipAllows k h s

/-- A segment at its egress Skipper: entered, or waiting behind its transfer's window (R322) or its rate limit (R145). -/
def segmentEgress (k : Skip) (pk : Packet) (bad : Bool) (s : State) : State :=
  let h := pk.hdr
  if !skipServes k 1 h s then s
  else
    let s := hasCome (16 + k.val) s
    if segmentWaits k h s || decide (gx GW_CTRL.WINDOW 0 s ≤ outstanding k h.srcEp.toNat h.part.toNat (regionOf h) s) then
      keepSegment k pk bad s
    else enterSegment k pk (Tail.whole pk bad) s

/-- SEGMENT_EGRESS (R322). -/
def execSegmentEgress (k : Skip) (pkt : Packet) (bad : Bool) (s : State) : Host.Outcome State Fault Refusal :=
  live (segmentEgress k pkt bad) s

/-- A segment read from the Skipper's store: an uncorrectable word tail-marks it (R31, R33, Table 5-4). -/
def segmentRead (k : Skip) (w : Packet × Bool) (r : SramRead) (s : State) : Tail × State :=
  let s1 := sramRead (60 + k.val) r s
  let tl := Tail.whole w.1 w.2
  if readLost r then ({ tl with bad := true }, countP w.1.hdr.part.toNat .tailMarked (countD (60 + k.val) .tailMarked s1))
  else (tl, s1)

/-- A freed place of a transfer's window releases its oldest waiting segment, as the rate limit allows (R322, R145); a segment
at its arrival Skipper waits for the rate limit alone. A read of a row that is being copied waits (R32). -/
def segmentRelease (k : Skip) (src part region : Nat) (sram : SramRead) (s : State) : State :=
  let arrived := gx GW_REGION.MODE region s == 3
  if (!arrived && decide (gx GW_CTRL.WINDOW 0 s ≤ outstanding k src part region s)) || rowStalled (60 + k.val) sram s then s
  else
    match (skipOf k.val s).waiting.find? fun w => inTransfer src part region w.1.hdr with
    | none => s
    | some w =>
      if !skipAllows k w.1.hdr s then s
      else
        let (tl, s1) := segmentRead k w sram (modSkip k.val (fun x => { x with waiting := x.waiting.erase w }) s)
        if arrived then reenterSegment k w.1 tl s1 else enterSegment k w.1 tl s1

/-- SEGMENT_RELEASE (R322). -/
def execSegmentRelease (k : Skip) (src part region : Nat) (sram : SramRead) (s : State) : Host.Outcome State Fault Refusal :=
  live (segmentRelease k src part region sram) s

/-- A non-posted segment has an entry in its arrival Skipper's remote table (R323). -/
def recordRemote (k : Skip) (h : Header) (s : State) : State :=
  if nonPosted h.opcode.toNat then modSkip k.val (fun x => { x with remote := x.remote ++ [⟨h, ft s⟩] }) (hasCome (18 + k.val) s)
  else s

/-- A segment at its arrival Skipper re-enters for class 7, a non-posted one with a remote entry (R323), or waits for its rate
limit (R145). -/
def segmentArrival (k : Skip) (pk : Packet) (bad : Bool) (s : State) : State :=
  if !skipServes k 3 pk.hdr s then s
  else
    let s1 := recordRemote k pk.hdr (hasCome (16 + k.val) s)
    if segmentWaits k pk.hdr s1 then keepSegment k pk bad s1 else reenterSegment k pk (Tail.whole pk bad) s1

/-- SEGMENT_ARRIVAL (R323). -/
def execSegmentArrival (k : Skip) (pkt : Packet) (bad : Bool) (s : State) : Host.Outcome State Fault Refusal :=
  live (segmentArrival k pkt bad) s

/-- A remote entry has not cleared within REMOTE_TO: the Skipper answers TIMEOUT (R323). -/
def remoteTimeout (k : Skip) (src tag : Nat) (s : State) : State :=
  match (skipOf k.val s).remote.find? fun r => r.hdr.srcEp.toNat == src && r.hdr.tag.toNat == tag with
  | none => s
  | some r =>
    if ft s < r.since + 2500 * gx GW_CTRL.REMOTE_TO 0 s then s
    else
      let h := r.hdr
      let d := 60 + k.val
      let s1 := modSkip k.val (fun x => { x with remote := x.remote.erase r }) s
      let s2 := raise .ox9 { Event.mk0 .ox9 .timeout true d 2 src [na src, na h.part.toNat, na h.dstEp.toNat] s1 with
        part := some h.part.toNat, srcEp := some src, dstEp := some h.dstEp.toNat } (countD d .gwRemoteTimeout s1)
      skipAnswer k h stTimeout [] s2

/-- REMOTE_TIMEOUT (R323). -/
def execRemoteTimeout (k : Skip) (src : BitVec 12) (tag : BitVec 14) (s : State) : Host.Outcome State Fault Refusal :=
  live (remoteTimeout k src.toNat tag.toNat) s

/-! ### The host region (R327 to R329) -/

/-- The event that a refusal's status names (R328). -/
def refusalEvent (st : Nat) : EvCode := if st = stNotReady then .notReady else if st = stPartDeny then .partDeny else .noRoute

/-- A refusal of a host Skipper (R328). -/
def hostRefuse (k : Skip) (h : Header) (st : Nat) (s : State) : State :=
  skipAnswer k h st [] (raise0 (refusalEvent st) true (60 + k.val) [] (countD (60 + k.val) .gwHostDeny s))

/-- What a host Skipper finds (Table 14-6, R328). -/
inductive HostKind where
  | read | write | record | refuse (st : Nat)
deriving DecidableEq, Repr

/-- The first check of R328 that applies, else how the request is served. -/
def hostKind (k : Skip) (h : Header) (s : State) : HostKind :=
  let o := h.opcode.toNat
  let wr := o == opWRP || o == opWRNP
  let windowed := !h.enc && (o == opRD || wr)
  if gx HOST_CFG.EN k.val s = 0 then .refuse stNotReady
  else if gx HOST_CFG.PART k.val s ≠ h.part.toNat then .refuse stPartDeny
  else if windowed && decide (gx HOST_CFG.WIN_SIZE k.val s < addrOffset h.addr + h.len.toNat) then .refuse stPartDeny
  else if o = opRD then (if h.enc then .refuse stPartDeny else .read)
  else if o = opATOM then .refuse stNoRoute
  else if o = opMSG || h.enc then .record
  else .write

/-- The host bus address of a window offset. -/
def hostAddr (k : Skip) (h : Header) (s : State) : Nat := (gx HOST_CFG.WIN_BASE k.val s + addrOffset h.addr) % 2 ^ 64

/-- The attributes of every PCIe request of a Skipper: No Snoop and Relaxed Ordering clear (R75). -/
def snooped : PcieAttr := { noSnoop := false, relaxed := false }

/-- The lowest of a Skipper's 768 tags for host reads that is free and that no read waits for (Table 14-4). -/
def hostTag (k : Skip) (s : State) : Option Nat :=
  let x := skipOf k.val s
  if x.readQ.isEmpty then firstBelow 768 (fun t => !(x.reads.any fun r => r.ptag = t)) else none

/-- A read goes to the host under the lowest of 768 tags that is free, or waits for one (Table 14-4). -/
def hostRead (k : Skip) (h : Header) (s : State) : State :=
  match hostTag k s with
  | some t =>
    emit (.pcieRead k.val t (hostAddr k h s) h.len.toNat snooped)
      (modSkip k.val (fun x => { x with reads := x.reads ++ [⟨t, h, locOf .ox9 s⟩] }) s)
  | none => modSkip k.val (fun x => { x with readQ := x.readQ ++ [h] }) s

/-- A tag has come free: the oldest waiting read takes it. -/
def hostReadNext (k : Skip) (s : State) : State :=
  match (skipOf k.val s).readQ with
  | [] => s
  | h :: rest =>
    let s1 := hostRead k h (modSkip k.val (fun x => { x with readQ := [] }) s)
    modSkip k.val (fun x => { x with readQ := rest }) s1

/-- The index block written after the data it covers (chapter 14). -/
def writeIndex (k : Skip) (s : State) : State :=
  let x := skipOf k.val s
  emit (.pcieWrite k.val (gx HOST_CFG.IDX_ADDR k.val s)
    (toLE 4 x.rxProd ++ toLE 4 0 ++ toLE 4 x.txDone ++ toLE 4 0) snooped) s

/-- The record ring has a free slot (R329). -/
def ringFree (k : Skip) (s : State) : Bool :=
  decide (subMod 32 (skipOf k.val s).rxProd (gx HOST_CFG.RX_CONS k.val s) < 2 ^ gx HOST_CFG.RX_LOG2 k.val s)

/-- A record of 320 bytes in the record ring (R329). -/
def hostRecord (k : Skip) (pk : Packet) (s : State) : State :=
  let n := (skipOf k.val s).rxProd
  if !ringFree k s then skipAnswer k pk.hdr stNotReady [] (countD (60 + k.val) .gwRxFull s)
  else
    let slot := n % 2 ^ gx HOST_CFG.RX_LOG2 k.val s
    let s1 := emit (.pcieWrite k.val ((gx HOST_CFG.RX_BASE k.val s + 320 * slot) % 2 ^ 64) (fit 320 pk.bytes) snooped) s
    skipAnswer k pk.hdr stOK [] (writeIndex k (modSkip k.val (fun x => { x with rxProd := (n + 1) % 2 ^ 32 }) s1))

/-- A request at a host Skipper (R327); a tail-marked one is discarded with POISON, as R108 and R58 have it. -/
def hostRequest (k : Skip) (pk : Packet) (bad : Bool) (s : State) : State :=
  let h := pk.hdr
  if !skipServes k 2 h s then s
  else if bad then
    skipAnswer k h stPoison [] (raiseEp .poisonRx false (60 + k.val) h.srcEp.toNat [] s)
  else
    match hostKind k h s with
    | .refuse st => hostRefuse k h st s
    | .read => hostRead k h s
    | .write => skipAnswer k h stOK [] (emit (.pcieWrite k.val (hostAddr k h s) pk.payload snooped) s)
    | .record => hostRecord k pk s

/-- HOST_REQUEST (R327). -/
def execHostRequest (k : Skip) (pkt : Packet) (bad : Bool) (s : State) : Host.Outcome State Fault Refusal :=
  live (hostRequest k pkt bad) s

/-- The status of a PCIe completion (R328). -/
def pcieSt : PcieStatus → Nat
  | .ok => stOK
  | .unsupported => stPartDeny
  | .abort => stPartDeny
  | .poisoned => stPoison

/-- A completion of a host read: RD_RSP carries the data, or the failure's status (R327, R328). -/
def pcieCompletion (k : Skip) (ptag : Nat) (status : PcieStatus) (data : List Byte) (s : State) : State :=
  match (skipOf k.val s).reads.find? fun r => r.ptag = ptag with
  | none => s
  | some r =>
    let s1 := modSkip k.val (fun x => { x with reads := x.reads.erase r }) s
    hostReadNext k (skipAnswer k r.hdr (pcieSt status) (if pcieSt status = 0 then fit r.hdr.len.toNat data else []) s1)

/-- PCIE_COMPLETION_RX (R328). -/
def execPcieCompletionRx (k : Skip) (ptag : Nat) (status : PcieStatus) (data : List Byte) (s : State) :
    Host.Outcome State Fault Refusal :=
  live (pcieCompletion k ptag status data) s

/-- A completion stays away for 10 ms (R328). -/
def hostCplTimeout (k : Skip) (ptag : Nat) (s : State) : State :=
  match (skipOf k.val s).reads.find? fun r => r.ptag = ptag with
  | none => s
  | some r =>
    if locOf .ox9 s < r.since + 25000000 then s
    else
      let d := 60 + k.val
      let src := r.hdr.srcEp.toNat
      let part := r.hdr.part.toNat
      let s1 := countD d .gwHostCplTimeout (modSkip k.val (fun x => { x with reads := x.reads.erase r }) s)
      let s2 := raise .ox9 { Event.mk0 .ox9 .timeout true d 2 src [na src, na part] s1 with
        part := some part, srcEp := some src } s1
      hostReadNext k (skipAnswer k r.hdr stTimeout [] s2)

/-- HOST_CPL_TIMEOUT (R328). -/
def execHostCplTimeout (k : Skip) (ptag : Nat) (s : State) : Host.Outcome State Fault Refusal :=
  live (hostCplTimeout k ptag) s

/-- HOST_RX_CONS_WRITE (R329). -/
def execHostRxConsWrite (k : Skip) (v : BitVec 32) (s : State) : Host.Outcome State Fault Refusal :=
  live (sx HOST_CFG.RX_CONS k.val v.toNat) s

/-- HOST_TX_TAIL_WRITE (R331). -/
def execHostTxTailWrite (k : Skip) (v : BitVec 32) (s : State) : Host.Outcome State Fault Refusal :=
  live (sx HOST_CFG.TX_TAIL k.val v.toNat) s

/-! ### Host transfers into the fabric (R330 to R332) -/

/-- NP of a descriptor (Table 14-7). -/
def txNp (t : TxRun) : Bool := bits (nth t.words 0) 0 1 == 1
/-- ENC of a descriptor. -/
def txEnc (t : TxRun) : Bool := bits (nth t.words 0) 1 1 == 1
/-- KEY_SLOT of a descriptor. -/
def txSlot (t : TxRun) : Nat := bits (nth t.words 0) 15 13
/-- DST of a descriptor. -/
def txDst (t : TxRun) : Nat := nth t.words 2
/-- LEN of a descriptor. -/
def txLen (t : TxRun) : Nat := bits (nth t.words 3) 0 40
/-- The plaintext bytes of segment 0: up to the first 256-byte boundary of DST (R331). -/
def txFirst (t : TxRun) : Nat := min (txLen t) (256 - txDst t % 256)
/-- The segments of a descriptor (R331). -/
def txTotal (t : TxRun) : Nat := if txLen t = 0 then 0 else 1 + ceilDiv (txLen t - txFirst t) 256
/-- The offset of segment `i` in the plaintext. -/
def txOff (t : TxRun) (i : Nat) : Nat := if i = 0 then 0 else txFirst t + 256 * (i - 1)
/-- The bytes of segment `i`. -/
def txSegLen (t : TxRun) (i : Nat) : Nat := if i = 0 then txFirst t else min 256 (txLen t - txOff t i)
/-- SEQ of segment `i` (R331). -/
def txSeq (t : TxRun) (i : Nat) : Nat := if txEnc t then (bits (nth t.words 4) 0 48 + i) % 2 ^ 48 else 0

/-- A descriptor is refused as it stands (R332). -/
def txRefused (t : TxRun) : Bool :=
  bits (nth t.words 0) 28 36 != 0 || bits (nth t.words 3) 40 24 != 0 || bits (nth t.words 4) 48 16 != 0 ||
    nth t.words 5 != 0 || nth t.words 6 != 0 || nth t.words 7 != 0 || (txNp t && txEnc t) || addrRegion (txDst t) != 0

/-- The packet of segment `i` under a tag (R331). -/
def txPacket (k : Skip) (t : TxRun) (i tag : Nat) (s : State) : Packet :=
  let n := txSegLen t i
  let src := t.data.drop (txOff t i + if txEnc t then 16 * i else 0)
  { hdr :=
      { Header.zero with
        opcode := BitVec.ofNat 6 (if txNp t then opWRNP else opWRP)
        vc := 3
        part := BitVec.ofNat 12 (gx HOST_CFG.PART k.val s)
        srcEp := BitVec.ofNat 12 (skipEp k s)
        dstEp := BitVec.ofNat 12 (addrEp (txDst t))
        tag := BitVec.ofNat 14 tag
        enc := txEnc t
        w1 := BitVec.ofNat 64 (txDst t + txOff t i)
        len := BitVec.ofNat 13 n
        scope := 2
        lcId := BitVec.ofNat 12 (bits (nth t.words 0) 3 12)
        keySlot := BitVec.ofNat 13 (if txEnc t then txSlot t else 0)
        subop := BitVec.ofNat 8 (bits (nth t.words 0) 2 1)
        ageStamp := stampNow s
        seq := BitVec.ofNat 48 (txSeq t i) }
    payload := fit n src
    trailer := if txEnc t then fit 16 (src.drop n) else [] }

/-- A refused descriptor halts the transmit ring (R332). -/
def txHalt (k : Skip) (st : Nat) (s : State) : State :=
  let d := 60 + k.val
  let s1 := sx HOST_STAT.TX_HALT k.val 1 (sx HOST_STAT.TX_ERR k.val st (modSkip k.val (fun x => { x with tx := none }) s))
  emit (.hostMsix k.val 1) (raise0 .gwTxErr false d [wa (skipOf k.val s).txDone, na st] (countD d .gwTxErr s1))

/-- The MRds of `n` bytes at a host bus address, each of at most 256 bytes (Table 14-4, R75), under a tag that is free. What
they return is an operand of the command that issues them (log entry 55). -/
def txRead (k : Skip) (addr n : Nat) (s : State) : State :=
  match hostTag k s with
  | none => s
  | some t => (List.range (ceilDiv n 256)).foldl (fun s i =>
      emit (.pcieRead k.val t ((addr + 256 * i) % 2 ^ 64) (min 256 (n - 256 * i)) snooped) s) s

/-- The read of the next segment's source at SRC (Table 14-7, R331). -/
def txSource (k : Skip) (t : TxRun) (s : State) : State :=
  let tag := if txEnc t then 16 else 0
  txRead k (nth t.words 1 + txOff t t.next + tag * t.next) (txSegLen t t.next + tag) s

/-- The next segment of the descriptor that runs, where a tag is free for it and the rate limit allows it (R145); a sealed segment whose SEQ is not above the
last one of its slot is refused (R331, R332). -/
def txNext (k : Skip) (s : State) : State :=
  let x := skipOf k.val s
  match x.tx with
  | none => s
  | some t =>
    if txTotal t ≤ t.next then s
    else if txEnc t && (match SMap.get (fun _ => none) x.lastSeq (txSlot t) with
        | some l => decide (txSeq t t.next ≤ l) | none => false) then txHalt k stCheckFail s
    else
      let go (tag : Nat) (tags : List Nat) : State :=
        let s := txSource k t s
        let s1 := modSkip k.val (fun x => { x with
          tx := some { t with next := t.next + 1, tags := tags }
          lastSeq := if txEnc t then SMap.set (fun _ => none) x.lastSeq (txSlot t) (some (txSeq t t.next)) else x.lastSeq }) s
        let pk := txPacket k t t.next tag s1
        enter (.die (skipDie k)) pk false (skipNote k pk s1)
      if (hostTag k s).isNone || !skipAllows k (txPacket k t t.next 0 s).hdr s then s
      else if txNp t then
        match firstBelow 16384 fun g => !(t.tags.contains g) with
        | some g => go g (t.tags ++ [g])
        | none => s
      else go 0 t.tags

/-- The segments of the descriptor that runs, as far as tags last (R331). -/
def txEmit (k : Skip) (s : State) : State :=
  match (skipOf k.val s).tx with
  | none => s
  | some t => (List.range (txTotal t - t.next)).foldl (fun s _ => txNext k s) s

/-- The next descriptor starts: it is read from the ring at TX_BASE (R331). -/
def txStart (k : Skip) (words : List Word) (data : List Byte) (s : State) : State :=
  let x := skipOf k.val s
  if x.tx.isSome || x.txDone = gx HOST_CFG.TX_TAIL k.val s || gx HOST_STAT.TX_HALT k.val s = 1 || (hostTag k s).isNone then s
  else
    let s := txRead k (gx HOST_CFG.TX_BASE k.val s + 64 * (x.txDone % 2 ^ gx HOST_CFG.TX_LOG2 k.val s)) 64 s
    let t : TxRun := { words := words.map (·.toNat), data := data, next := 0, tags := [] }
    if txRefused t then txHalt k stCheckFail s
    else txEmit k (modSkip k.val (fun x => { x with tx := some t }) s)

/-- HOST_TX_DESCRIPTOR (R331). -/
def execHostTxDescriptor (k : Skip) (words : List Word) (data : List Byte) (s : State) : Host.Outcome State Fault Refusal :=
  live (txStart k words data) s

/-- A Skipper consumes the WR_RSP of a segment it emitted; its tag is free for the next (R321, R331). -/
def skipperWrRsp (k : Skip) (pk : Packet) (s : State) : State :=
  match (skipOf k.val s).tx with
  | none => s
  | some t =>
    if pk.hdr.opcode.toNat ≠ opWRRSP || !(t.tags.contains pk.hdr.tag.toNat) then s
    else txEmit k (modSkip k.val (fun x => { x with tx := some { t with tags := t.tags.erase pk.hdr.tag.toNat } }) s)

/-- SKIPPER_WR_RSP_RX (R321). -/
def execSkipperWrRspRx (k : Skip) (pkt : Packet) (s : State) : Host.Outcome State Fault Refusal :=
  live (skipperWrRsp k pkt) s

/-- Segments that the rate limit held back leave. Once every segment of the descriptor has left onto a port and has its
WR_RSP, TX_DONE advances and vector 0 fires (R331). -/
def txComplete (k : Skip) (s : State) : State :=
  match (skipOf k.val s).tx with
  | none => s
  | some t =>
    let mine (h : Header) : Bool := h.srcEp.toNat == skipEp k s && posted h.opcode.toNat
    if t.next < txTotal t then txEmit k s
    else if !t.tags.isEmpty ||
        s.fwd.bufs.any (fun b => b.src = .die (skipDie k) && mine b.pkt.hdr) ||
        s.fwd.held.any (fun x => x.src = .die (skipDie k) && mine x.pkt.hdr) then s
    else emit (.hostMsix k.val 0) (writeIndex k
      (modSkip k.val (fun x => { x with tx := none, txDone := (x.txDone + 1) % 2 ^ 32 }) s))

/-- HOST_TX_DESCRIPTOR_COMPLETE (R331). -/
def execHostTxDescriptorComplete (k : Skip) (s : State) : Host.Outcome State Fault Refusal := live (txComplete k) s

/-- GW_TX_RESUME: a halted transmit ring runs again from TX_DONE (R332, R421). -/
def gwTxResume (k : Skip) (s : State) : State := sx HOST_STAT.TX_HALT k.val 0 s

end Sys2Proof.Machine
end

