-- ==== Sys2Proof/Machine/Monarch.lean ====
section
/-! DEFINITION. Command rings, the check, commit and recheck of Monarch programs, profile loads, the chain's command and
completion frames, STEP_LAUNCH (R417 to R433). -/

namespace Sys2Proof.Machine

/-! ### Refusals (R428, R433) -/

/-- STATUS of a refusal. -/
def refusalStatus (reason : Nat) : Nat := if reason = rsnRIGHTS then stPartDeny else stCheckFail

/-- PROGRAM_REFUSED counted and raised with domain, PSEQ, reason and WORD. -/
def refusedTraces (dom pseq reason word : Nat) (s : State) : State :=
  raise .ox9 (Event.mk0 .ox9 .programRefused false (activeMonarch s) 8 dom [na dom, wa pseq, na reason, na word] s)
    (countG .programRefused s)

/-- A profile fails its load: FAILED and REASON show it (R433, Table 19-11). -/
def profileFailed (n reason : Nat) (s : State) : State :=
  raise0 .profileFail false (activeMonarch s) [na n, na reason]
    (countG .profileFail (sx PROFILE_STAT.REASON 0 reason (sx PROFILE_STAT.FAILED 0 1 s)))

/-- The traces of a command refused with a reason: an image or a statement has its own (R222, R385). -/
def cmdTraces (p : Prog) (x : PCmd) (here : State) (reason word : Nat) (s : State) : State :=
  match x.cmd with
  | .lunaLoad mask _ _ =>
    if reason = rsnLUNA_IMAGE then loadFailTraces (mkImage x.data).prog mask ((loadCause mask x.data here).getD 0) s
    else refusedTraces p.dom p.pseq reason word s
  | .lunaUnload prog mask =>
    if reason = rsnLUNA_IMAGE then loadFailTraces prog mask 6 s else refusedTraces p.dom p.pseq reason word s
  | .expel .. =>
    if reason = rsnEXPEL then expelRefusedTraces x.data ((expelCause 1 x.data here).getD 0) s
    else refusedTraces p.dom p.pseq reason word s
  | .readmit .. =>
    if reason = rsnEXPEL then expelRefusedTraces x.data ((expelCause 2 x.data here).getD 0) s
    else refusedTraces p.dom p.pseq reason word s
  | _ => refusedTraces p.dom p.pseq reason word s

/-- The profile that a program loads. -/
def profOf (p : Prog) : Option Nat := p.cmds.findSome? fun x => match x.cmd with | .profileLoad n => some n | _ => none

/-- The traces of a program's failure; a profile's load has its own. -/
def failTraces (p : Prog) (pend : List Prog) (reason word : Nat) (s : State) : State :=
  match profOf p, p.cmds.find? fun x => x.word = word with
  | some n, x =>
    if loadFails p pend s then profileFailed n reason s
    else match x with
      | some x => cmdTraces p x s reason word s
      | none => refusedTraces p.dom p.pseq reason word s
  | none, some x => cmdTraces p x (stateAtWord p pend s word) reason word s
  | none, none => refusedTraces p.dom p.pseq reason word s

/-- A program is refused or dropped: it changes nothing, its record shows STATE 1. -/
def refuseProg (p : Prog) (pend : List Prog) (reason word : Nat) (s : State) : State :=
  record p (refusalStatus reason) reason 1 false word (failTraces p pend reason word s)

/-- A program refused with a status and no reason code: beyond the chain, or by an OX9 that does not serve it. -/
def turnAway (p : Prog) (status : Nat) (s : State) : State :=
  record p status 0 1 false 0xFFFF (refusedTraces p.dom p.pseq 0 0xFFFF s)

/-! ### The effects of commands at commit (Table 19-6) -/

/-- Every port down with cause LOCAL; fabric-ready ends (R446). -/
def disableFabric (s : State) : State :=
  let s1 := (drivenPorts s).foldl (fun s p => dropOx p 7 s) s
  refreshReady { s1 with power := { s1.power with fabricEnabled := false } }

/-- TIME_SET: ft steps, counted and raised with the signed change (R337). -/
def setFt (t : Nat) (s : State) : State := stepFt .ox9 ((t : Int) - ft s) s

/-- A one-shot snapshot asked for (R396). -/
def addShot (t : Nat) (s : State) : State :=
  { s with tele := { s.tele with ox := { s.tele.ox with oneShots := s.tele.ox.oneShots ++ [t] } } }

/-- A Calm started by command now, or with a stated stop time (R407). -/
def commandCalm (stop : Option Nat) (s : State) : State :=
  let t := stop.getD (calmStop (ft s) s)
  startCalm 1 0 (ft s) t 0 (decide (t < ft s)) s

/-- MONARCH_SWITCH: the standby takes over, and the record is then complete; without a standby there is nothing to switch to
(R389, R429). -/
def switchMonarch (owner : Option Prog) (s : State) : State :=
  match standbyMonarch s with
  | some d => finishAction owner stOK (failover true d s)
  | none => finishAction owner stCheckFail s

/-- Firmware stored in the bank not booted. -/
def stageFirmware (bs : List Byte) (s : State) : State :=
  { s with flash := { s.flash with banks := SMap.set (fun _ => none) s.flash.banks (1 - s.monarch.bank) (some bs) } }

/-- What a command does at commit, apart from register writes and reads. -/
def applyCmd (owner : Option Prog) (x : PCmd) (s : State) : State :=
  match x.cmd with
  | .bad | .wr .. | .blkWr .. | .rd .. | .profileLoad _ | .commitAt _ | .nop => s
  | .ctxArm c => armContext c s
  | .ctxDisarm c => disarmContext c s
  | .lunaLoad mask _ _ => storeImage mask x.data s
  | .lunaUnload prog mask => dropImage prog mask s
  | .profileStore n _ _ => storeProfile n x.data s
  | .fwStage .. => stageFirmware x.data s
  | .fabricEnable => refreshReady { s with power := { s.power with fabricEnabled := true } }
  | .fabricDisable => disableFabric s
  | .timeSet t => setFt t s
  | .snapAt t => addShot t s
  | .calm => commandCalm none s
  | .calmAt t => commandCalm (some t) s
  | .signerEnroll k _ => setSigner k { key := x.data, revoked := false } s
  | .signerRevoke k => revokeSigner k s
  | .expel .. => applyExpel x.data s
  | .readmit .. => applyReadmit x.data s
  | .monarchSwitch => switchMonarch owner s
  | .retireUnit k n => retireUnit (unitKind k) n s
  | .serviceTest k n => startTest (unitKind k) n false owner s
  | .restoreUnit k n => startTest (unitKind k) n true owner s
  | .gwTxResume k => gwTxResume (Fin.ofNat 2 k) s

/-- A command that holds its program's record open (R429). -/
def holdsRecord : Cmd → Bool
  | .serviceTest .. | .restoreUnit .. | .monarchSwitch => true
  | _ => false

/-- A disarm, which takes effect before every other command of its program (R156). -/
def isDisarm : Cmd → Bool
  | .ctxDisarm _ => true
  | _ => false

/-- The commands of a program in the order in which they act: disarms, the others, those that end its record. -/
def inOrder (cs : List PCmd) : List PCmd :=
  (cs.filter fun x => isDisarm x.cmd) ++ (cs.filter fun x => !isDisarm x.cmd && !holdsRecord x.cmd) ++
    cs.filter fun x => holdsRecord x.cmd

/-- The RDs of a program, after its writes: each value into its result slot. -/
def readResults (p : Prog) (s : State) : State :=
  p.cmds.foldl (fun s x => match x.cmd with
    | .rd a slot => match ctlRead p.dom a s with
      | some (v, s1) => result p slot v s1
      | none => s
    | _ => s) s

/-! ### Profile loads (R432, R433) -/

/-- A new port layout: every port that has a link goes down, cause LOCAL, and each port starts afresh; the same layout keeps
its links. -/
def setLayout (l : List Nat) (s : State) : State :=
  if l = s.links.layout then s
  else
    let s1 := (linkedPorts s).foldl (fun s p => dropOx p 7 s) s
    { s1 with links := { s1.links with
      layout := l, ends := s1.links.ends.filter fun e => 288 ≤ e.1, aux := s1.links.aux.filter fun e => 288 ≤ e.1, disabled := [] } }

/-- A port of the loaded profile is enabled, unless it is expelled or a lane of it has no site: the NR pattern its lanes
sent so far (`sendNr`) gives way to TS1 (R27, R304, R386). -/
def enablePort (p : Nat) (s : State) : State :=
  if portExpelled p s then disablePort p s
  else if s.links.disabled.contains p then s
  else if (portLanes p s).any fun l => (siteOfLane l s).isNone then
    let s1 := raiseDie .spareExhausted false (portDie p s) [na p] (countPort p .portDownNoSpare 1 s)
    { s1 with links := { s1.links with disabled := insertSorted p s1.links.disabled } }
  else if (getLink p s).st ≠ 0 then s
  else
    let e : LinkEnd := .ox (Fin.ofNat 288 p)
    sendInsert e .ts1 [] (txWake e (modLink e (fun l => { l with st := 1 }) s))

/-- What the loaded image leaves besides registers: its keys, its measurement's bytes, PROFILE_STAT. -/
def noteProfile (n : Nat) (bs : List Byte) (s : State) : State :=
  let ks := profileKeys bs
  let mask := ((List.range 8).map fun k => if ((ks[k]?).getD []).isEmpty then 0 else 2 ^ k).sum
  let s1 := sx EXPEL_STAT.KEYS 0 mask (sx EXPEL_STAT.QUORUM 0 (byteFld (sectBytes bs 5) 0 1) s)
  let s2 := sx PROFILE_STAT.VALID 0 1 (sx PROFILE_STAT.LOADED 0 n s1)
  { s2 with monarch := { s2.monarch with profile := bs.take (byteFld bs 8 4), expelKeys := ks } }

/-- A profile that has passed its check is loaded: registers reset, sections and BODY applied, ports numbered and enabled,
the commands of BODY, its reads last. -/
def applyProfile (dom pseq e n : Nat) (remote : Bool) (s : State) : State :=
  let bs := profileImage n s
  let body := { bodyProg dom pseq e bs with remote := remote }
  let s1 := noteProfile n bs (commitWrites (loadWrites bs s) (setLayout (profileLayout bs) s))
  let s2 := (List.range (ports s1).length).foldl (fun s p => enablePort p s) s1
  let s3 := settleCocoon s2
  readResults body (refreshReady ((inOrder body.cmds).foldl (fun s x => applyCmd none x s) s3))

/-! ### Commit (R425 to R427, R429) -/

/-- The payload of a command as the Monarch's SRAM gives it back (R31, R33). -/
def readPayload (x : PCmd) (s : State) : PCmd × State :=
  if x.data.isEmpty then (x, s) else ({ x with data := (monarchRead x.data s).1 }, (monarchRead x.data s).2)

/-- The payloads of a program's commands. -/
def readPayloads : List PCmd → State → List PCmd × State
  | [], s => ([], s)
  | x :: xs, s => ((readPayload x s).1 :: (readPayloads xs (readPayload x s).2).1, (readPayloads xs (readPayload x s).2).2)

/-- Every write and command of a program takes effect, with the payloads that the Monarch's SRAM holds. -/
def progEffects (owner : Option Prog) (q : Prog) (s : State) : State :=
  let p := { q with cmds := (readPayloads q.cmds s).1 }
  let s := (readPayloads q.cmds s).2
  let s1 := match profOf p with
    | some n => applyProfile p.dom p.pseq p.e n p.remote s
    | none => commitWrites (progWrites p) s
  readResults p ((inOrder p.cmds).foldl (fun s x => applyCmd owner x s) s1)

/-- A program commits: its record reaches STATE 3, or stays open for its action; a profile that fails at E leaves the
configuration (R426, R429, R433). -/
def commitProg (late : Bool) (p : Prog) (s : State) : State :=
  match profOf p, (match profOf p with | some n => profileReason p n s s | none => none) with
  | some n, some f => record p stCheckFail f.1 1 false f.2 (profileFailed n f.1 s)
  | _, _ =>
    if p.cmds.any fun x => holdsRecord x.cmd then progEffects (some { p with late := late }) p s
    else record p stOK 0 3 late 0xFFFF (progEffects none p s)

/-- The pending programs checked again in commit order, each against those before it that stay; one that fails is dropped
(R427). -/
def recheckAll : List Prog → List Prog → State → State
  | _, [], s => s
  | kept, p :: rest, s =>
    match checkProg p kept s with
    | none => recheckAll (kept ++ [p]) rest s
    | some (r, w) =>
      let s1 := refuseProg p kept r w s
      recheckAll kept rest { s1 with monarch := { s1.monarch with progs := s1.monarch.progs.filter fun q => q ≠ p } }

/-- A recheck that is due is made; whether one was. -/
def recheckDue (s : State) : Bool × State :=
  if s.monarch.recheck then (true, recheckAll [] s.monarch.progs { s with monarch := { s.monarch with recheck := false } })
  else (false, s)

/-- The first pending program commits, where its E has come by `lim`. -/
def commitOne (lim : Nat) (s : State) : Option State :=
  let (late, s1) := recheckDue s
  match s1.monarch.progs with
  | p :: rest =>
    if p.e ≤ min lim (ft s1) then
      some (commitProg (late && decide (p.e < ft s1)) p { s1 with monarch := { s1.monarch with progs := rest } })
    else if late then some s1 else none
  | [] => if late then some s1 else none

/-- Programs of E up to `lim` commit while one is due and ft stands still. -/
def commitDue (lim : Nat) : Nat → State → State
  | 0, s => s
  | k + 1, s =>
    match commitOne lim s with
    | none => s
    | some s1 => if ft s1 = ft s then commitDue lim k s1 else s1

/-! ### Take-up and check (R420 to R425) -/

/-- A word of a domain's ring. -/
def ringWord (dom n : Nat) (s : State) : Nat × Nat :=
  (gx RING_WORD.W0 (2048 * dom + n % 2048) s, gx RING_WORD.W1 (2048 * dom + n % 2048) s)

/-- The words of a ring not yet taken up. -/
def ringWords (dom : Nat) (s : State) : List (Nat × Nat) :=
  let head := gx RING_HEAD.HEAD dom s
  let n := (gx RING_TAIL.TAIL dom s + 2 ^ 32 - head) % 2 ^ 32
  (List.range n).map fun k => ringWord dom (head + k) s

/-- The next program of a ring, where it is complete and the ring is served. -/
def nextProg (dom : Nat) (s : State) : Option Prog :=
  if gx RING_CTL.EN dom s = 0 || gx DOM_RIGHTS.EN dom s = 0 then none
  else
    let ws := ringWords dom s
    (progLen 0 ws).map fun n => makeProg dom (gx RING_PSEQ.PSEQ dom s) (gx RING_HEAD.HEAD dom s) false (ws.take n)

/-- The programs that wait: those of the rings and those that came by the chain. -/
def waitingProgs (s : State) : List Prog := (List.range 8).filterMap (fun d => nextProg d s) ++ s.monarch.ready

/-- The domains in rotating order, after the domain last served (R423). -/
def rotation (s : State) : List Nat := (List.range 8).map fun k => (s.monarch.last + 1 + k) % 8

/-- The next program to check: a configuration-free one first; while a fetch is pending, only such a one. -/
def chooseProg (s : State) : Option Prog :=
  let ws := (rotation s).flatMap fun d => (waitingProgs s).filter fun p => p.dom = d
  match ws.find? configFree with
  | some p => some p
  | none => if s.monarch.checking.isSome then none else ws.head?

/-- A program leaves its ring, or the list of those received. -/
def takeProg (p : Prog) (s : State) : State :=
  let s0 := { s with monarch := { s.monarch with last := p.dom } }
  if p.remote then { s0 with monarch := { s0.monarch with ready := s0.monarch.ready.filter fun q => q ≠ p } }
  else sx RING_PSEQ.PSEQ p.dom ((p.pseq + 1) % 2 ^ 32) (sx RING_HEAD.HEAD p.dom ((p.first + p.words) % 2 ^ 32) s0)

/-- Payloads beyond 8 MiB for one program, or beyond 12 MiB with the pending ones, are not fetched (R422). -/
def limitPayload (held : Nat) : Nat → List PCmd → List PCmd
  | _, [] => []
  | n, x :: xs =>
    let m := n + ((payloadOf x.cmd).map (·.2)).getD 0
    (if decide (8388608 < m) || decide (12582912 < held + m) then { x with lost := (payloadOf x.cmd).isSome } else x) :: limitPayload held m xs

/-- The bytes of payload that the pending programs hold. -/
def pendingBytes (s : State) : Nat := (s.monarch.progs.map payloadBytes).sum

/-- A program enters the pending list behind every program of the same or an earlier E. -/
def insertProg (p : Prog) (l : List Prog) : List Prog := (l.filter fun q => q.e ≤ p.e) ++ [p] ++ l.filter fun q => p.e < q.e

/-- Programs that Chrysalis serves (R443). -/
def chrysalisServes (p : Prog) : Bool :=
  p.cmds.all fun x => match x.cmd with
    | .rd .. | .fwStage .. | .serviceTest .. | .commitAt _ => true
    | _ => false

/-- The OX9 does not serve a program: frozen (R411), or in Chrysalis (R443). -/
def notServed (p : Prog) (s : State) : Bool :=
  gb CALM_STAT.CALM 0 s || (gx START_STAT.PHASE 0 s == 7 && !chrysalisServes p)

/-- A program with its payload is checked: refused, or pending with its E. -/
def finishCheck (p : Prog) (s : State) : State :=
  if notServed p s then turnAway p stNotReady s
  else
    let p := { p with e := max p.commitAt (ft s) }
    let pend := s.monarch.progs.filter fun q => q.e ≤ p.e
    match (if orderBad p s.monarch.progs then checkProg p s.monarch.progs s else checkProg p pend s) with
    | some (r, w) => refuseProg p pend r w s
    | none => record p stOK 0 2 false 0xFFFF { s with monarch := { s.monarch with progs := insertProg p s.monarch.progs } }

/-- The frames of a program for a member: up to three words each (R418; log entry 15, DESIGN CHOICE). -/
def cmdFrames (p : Prog) (ws : List (Nat × Nat)) (s : State) : State :=
  (List.range (ceilDiv ws.length 3)).foldl (fun s k =>
    let three := (ws.drop (3 * k)).take 3
    sendTo p.dev 2 (toLE 4 p.pseq ++ [BitVec.ofNat 8 p.dom] ++ toLE 2 (3 * k) ++ [BitVec.ofNat 8 three.length] ++
      three.flatMap fun w => toLE 8 w.1 ++ toLE 8 w.2) s) s

/-- A program for another OX9 is forwarded by the head; where no link leads there it returns NO_ROUTE (R419, R421, R428). -/
def forwardProg (p : Prog) (ws : List (Nat × Nat)) (s : State) : State :=
  if isHead s && chainUp 1 s then cmdFrames p ws { s with monarch := { s.monarch with sent := s.monarch.sent ++ [p] } }
  else
    turnAway p stNoRoute (raise .ox9 (Event.mk0 .ox9 .chainDown false (activeMonarch s) 9 p.dev [na p.dev] s) (countG .chainDown s))

/-- A chosen program is taken up: forwarded, checked at once, or its payloads fetched first. -/
def takeUp (p : Prog) (s : State) : State :=
  let ws := (List.range p.words).map fun k => ringWord p.dom (p.first + k) s
  let s1 := takeProg p s
  if !p.remote && p.dev ≠ chainPos s1 then forwardProg p ws s1
  else
    let p := { p with cmds := limitPayload (pendingBytes s1) 0 p.cmds }
    if notServed p s1 || p.cmds.all fun x => x.lost || (payloadOf x.cmd).isNone then finishCheck p s1
    else askPayloads p s1

/-- PROGRAM_CHECK's effect: with fewer than 64 programs pending, one whose payload is awaited among them, the next program is taken
up (R423, R425). -/
def programCheck (s : State) : State :=
  let s1 := (recheckDue s).2
  if 64 ≤ s1.monarch.progs.length + s1.monarch.checking.toList.length then s1
  else match chooseProg s1 with
    | some p => takeUp p s1
    | none => s1

/-- PROGRAM_CHECK (R424). -/
def execProgramCheck (s : State) : Host.Outcome State Fault Refusal := manned programCheck s

/-- A payload arrives for a word of the program under check, or its fetch fails; with the last the check runs. -/
def gotPayload (word : Nat) (bs : Option (List Byte)) (s : State) : State :=
  match s.monarch.checking with
  | none => s
  | some (p, await) =>
    if !await.contains word then s
    else
      let fill (x : PCmd) : PCmd :=
        if x.word ≠ word then x
        else match bs, payloadOf x.cmd with
          | some b, some y => if b.length = y.2 then { x with data := b } else { x with lost := true }
          | _, _ => { x with lost := true }
      let p' := { p with cmds := p.cmds.map fill }
      let await' := await.filter (· ≠ word)
      let s1 := { s with monarch := { s.monarch with checking := if await'.isEmpty then none else some (p', await') } }
      if await'.isEmpty then finishCheck p' s1 else s1

/-- The data of a relayed fetch sent to the member in frames of 56 bytes. -/
def relayData (pos : Nat) (bs : List Byte) (s : State) : State :=
  (List.range (ceilDiv bs.length 56)).foldl (fun s k => sendTo pos 4 ((bs.drop (56 * k)).take 56) s) s

/-- PAYLOAD_FETCH_DONE's effect: for the program under check here, or for a member whose fetch the head serves. -/
def payloadFetchDone (pos : Option (Fin 64)) (word : Nat) (res : FetchResult) (s : State) : State :=
  let bs := match res with | .data b => some b | .failed => none
  match pos with
  | none => gotPayload word bs (endFetch (word % 1024) s)
  | some p =>
    match s.monarch.relays.find? fun r => r.pos = p.val with
    | none => s
    | some r =>
      let s1 := endFetch r.tag { s with monarch := { s.monarch with relays := s.monarch.relays.erase r } }
      match bs with
      | some b => relayData p.val b s1
      | none => s1

/-- PAYLOAD_FETCH_DONE (R422). -/
def execPayloadFetchDone (pos : Option (Fin 64)) (word : Nat) (res : FetchResult) (s : State) :
    Host.Outcome State Fault Refusal := hosted (payloadFetchDone pos word res) s

/-! ### Ring registers (R420, Table 19-4a) -/

/-- More than 2,048 words of a ring wait. -/
def overrun (d : Nat) (s : State) : Bool := decide (2048 < (gx RING_TAIL.TAIL d s + 2 ^ 32 - gx RING_HEAD.HEAD d s) % 2 ^ 32)

/-- An overrun halts the ring, counted and raised. -/
def ringHalt (d : Nat) (s : State) : State :=
  if overrun d s then
    raise .ox9 (Event.mk0 .ox9 .ringOverrun false (activeMonarch s) 8 d [na d] s) (countG .ringOverrun (sx RING_CTL.EN d 0 s))
  else s

/-- RING_TAIL written. -/
def ringTail (d tail : Nat) (s : State) : State := ringHalt d (sx RING_TAIL.TAIL d tail s)

/-- RING_TAIL_WRITE (R420). -/
def execRingTailWrite (d : Dom) (tail : BitVec 32) (s : State) : Host.Outcome State Fault Refusal :=
  hosted (ringTail d.val tail.toNat) s

/-- FLUSH: RING_HEAD becomes RING_TAIL. -/
def ringFlush (d : Nat) (s : State) : State := sx RING_HEAD.HEAD d (gx RING_TAIL.TAIL d s) s

/-- RING_FLUSH (R420). -/
def execRingFlush (d : Dom) (s : State) : Host.Outcome State Fault Refusal := hosted (ringFlush d.val) s

/-! ### Commands one by one

Each row of Table 19-6 is a program of one command: checked against the state and the pending programs, then committed at
once or refused. No ring holds it, so it has no record; a refusal leaves its traces. -/

/-- The program of one command. -/
def oneProg (dom : Nat) (c : Cmd) (data : List Byte) (s : State) : Prog :=
  { dom := dom, pseq := gx RING_PSEQ.PSEQ dom s, first := 0, words := 1, dev := 0, remote := false
    cmds := [{ word := 0, cmd := c, data := data, lost := false }], commitAt := 0, e := ft s, late := false }

/-- A command refused: its traces (R428). -/
def refuseOne (p : Prog) (pend : List Prog) (reason word : Nat) (s : State) : State := failTraces p pend reason word s

/-- A command of a domain takes effect at once, or is refused. -/
def runCmd (dom : Nat) (c : Cmd) (data : List Byte) (s : State) : State :=
  let p := oneProg dom c data s
  if notServed p s then refusedTraces dom p.pseq 0 0xFFFF s
  else
    let pend := s.monarch.progs.filter fun q => q.e ≤ p.e
    match checkProg p s.monarch.progs s with
    | some (r, w) => refuseOne p pend r w s
    | none => progEffects none p s

/-- WR (R421). -/
def execWr (dom : Dom) (addr : BitVec 48) (v : Word) (s : State) : Host.Outcome State Fault Refusal :=
  hosted (runCmd dom.val (.wr addr.toNat v.toNat) []) s

/-- BLK_WR (R421). -/
def execBlkWr (dom : Dom) (addr : BitVec 48) (vs : List Word) (s : State) : Host.Outcome State Fault Refusal :=
  hosted (runCmd dom.val (.blkWr addr.toNat 0 vs.length) (vs.flatMap fun v => toLE 8 v.toNat)) s

/-- RD (R421). -/
def execRd (dom : Dom) (addr : BitVec 48) (slot : BitVec 12) (s : State) : Host.Outcome State Fault Refusal :=
  hosted (runCmd dom.val (.rd addr.toNat slot.toNat) []) s

/-- CTX_ARM (R154). -/
def execCtxArm (dom : Dom) (comm : Fin 16384) (s : State) : Host.Outcome State Fault Refusal :=
  hosted (runCmd dom.val (.ctxArm comm.val) []) s

/-- CTX_DISARM (R155). -/
def execCtxDisarm (dom : Dom) (comm : Fin 16384) (s : State) : Host.Outcome State Fault Refusal :=
  hosted (runCmd dom.val (.ctxDisarm comm.val) []) s

/-- LUNA_LOAD (R221). -/
def execLunaLoad (dom : Dom) (mask : BitVec 8) (image : List Byte) (s : State) : Host.Outcome State Fault Refusal :=
  hosted (runCmd dom.val (.lunaLoad mask.toNat 0 image.length) image) s

/-- LUNA_UNLOAD (R222). -/
def execLunaUnload (dom : Dom) (progId : BitVec 16) (mask : BitVec 8) (s : State) : Host.Outcome State Fault Refusal :=
  hosted (runCmd dom.val (.lunaUnload progId.toNat mask.toNat) []) s

/-- PROFILE_LOAD (R432). -/
def execProfileLoad (dom : Dom) (n : Fin 4) (s : State) : Host.Outcome State Fault Refusal :=
  hosted (runCmd dom.val (.profileLoad n.val) []) s

/-- PROFILE_STORE (R434). -/
def execProfileStore (dom : Dom) (n : Fin 4) (image : List Byte) (s : State) : Host.Outcome State Fault Refusal :=
  hosted (runCmd dom.val (.profileStore n.val 0 image.length) image) s

/-- FW_STAGE (R421). -/
def execFwStage (dom : Dom) (image : List Byte) (s : State) : Host.Outcome State Fault Refusal :=
  hosted (runCmd dom.val (.fwStage 0 image.length) image) s

/-- FABRIC_ENABLE (R427). -/
def execFabricEnable (dom : Dom) (s : State) : Host.Outcome State Fault Refusal := hosted (runCmd dom.val .fabricEnable []) s

/-- FABRIC_DISABLE (R446). -/
def execFabricDisable (dom : Dom) (s : State) : Host.Outcome State Fault Refusal := hosted (runCmd dom.val .fabricDisable []) s

/-- SNAP_AT (R396). -/
def execSnapAt (dom : Dom) (t : Word) (s : State) : Host.Outcome State Fault Refusal := hosted (runCmd dom.val (.snapAt t.toNat) []) s

/-- CALM (R407). -/
def execCalm (dom : Dom) (s : State) : Host.Outcome State Fault Refusal := hosted (runCmd dom.val .calm []) s

/-- CALM_AT (R407). -/
def execCalmAt (dom : Dom) (t : Word) (s : State) : Host.Outcome State Fault Refusal := hosted (runCmd dom.val (.calmAt t.toNat) []) s

/-- SIGNER_ENROLL (R360). -/
def execSignerEnroll (dom : Dom) (index : BitVec 4) (key : List Byte) (s : State) : Host.Outcome State Fault Refusal :=
  hosted (runCmd dom.val (.signerEnroll index.toNat 0) key) s

/-- SIGNER_REVOKE (R360). -/
def execSignerRevoke (dom : Dom) (index : BitVec 4) (s : State) : Host.Outcome State Fault Refusal :=
  hosted (runCmd dom.val (.signerRevoke index.toNat) []) s

/-- EXPEL (R386). -/
def execExpel (dom : Dom) (stmt : List Byte) (s : State) : Host.Outcome State Fault Refusal :=
  hosted (runCmd dom.val (.expel 0 stmt.length) stmt) s

/-- READMIT (R386). -/
def execReadmit (dom : Dom) (stmt : List Byte) (s : State) : Host.Outcome State Fault Refusal :=
  hosted (runCmd dom.val (.readmit 0 stmt.length) stmt) s

/-- MONARCH_SWITCH (R389). -/
def execMonarchSwitch (dom : Dom) (s : State) : Host.Outcome State Fault Refusal := hosted (runCmd dom.val .monarchSwitch []) s

/-- The number of a unit kind in Table 19-6. -/
def kindNum : UnitKind → Nat
  | .laneSite => 0
  | .lunaCore => 1
  | .sliceDie => 2
  | .monarchDie => 3
  | .skipperDie => 4

/-- RETIRE_UNIT (R421). -/
def execRetireUnit (dom : Dom) (kind : UnitKind) (num : Nat) (s : State) : Host.Outcome State Fault Refusal :=
  hosted (runCmd dom.val (.retireUnit (kindNum kind) num) []) s

/-- SERVICE_TEST (R390). -/
def execServiceTest (dom : Dom) (kind : UnitKind) (num : Nat) (s : State) : Host.Outcome State Fault Refusal :=
  hosted (runCmd dom.val (.serviceTest (kindNum kind) num) []) s

/-- RESTORE_UNIT (R390). -/
def execRestoreUnit (dom : Dom) (kind : UnitKind) (num : Nat) (s : State) : Host.Outcome State Fault Refusal :=
  hosted (runCmd dom.val (.restoreUnit (kindNum kind) num) []) s

/-- GW_TX_RESUME (R421). -/
def execGwTxResume (dom : Dom) (k : Skip) (s : State) : Host.Outcome State Fault Refusal :=
  hosted (runCmd dom.val (.gwTxResume k.val) []) s

/-- COMMIT_AT (R420). -/
def execCommitAt (dom : Dom) (t : Word) (s : State) : Host.Outcome State Fault Refusal := hosted (runCmd dom.val (.commitAt t.toNat) []) s

/-- NOP (R421). -/
def execNop (dom : Dom) (s : State) : Host.Outcome State Fault Refusal := hosted (runCmd dom.val .nop []) s

/-! ### The chain's command frames (R418, R419; bodies as log entry 15, DESIGN CHOICE, says) -/

/-- A number in a frame's body. -/
def bodyNum (f : List Byte) (o n : Nat) : Nat := byteFld (frameBody f) o n

/-- Command words received: a program whose COMMIT_AT has come is ready for take-up. -/
def gotWords (f : List Byte) (s : State) : State :=
  let pseq := bodyNum f 0 4
  let dom := bodyNum f 4 1 % 8
  let word := bodyNum f 5 2
  let n := min 3 (bodyNum f 7 1)
  let new := (List.range n).map fun k => (dom, pseq, word + k, bodyNum f (8 + 16 * k) 8, bodyNum f (16 + 16 * k) 8)
  let l := s.monarch.inbox ++ new
  let ws := (l.filter fun e => e.1 = dom && e.2.1 = pseq).map fun e => (e.2.2.2.1, e.2.2.2.2)
  match progLen 0 ws with
  | none => { s with monarch := { s.monarch with inbox := l } }
  | some k =>
    { s with monarch := { s.monarch with
      inbox := l.filter fun e => !(e.1 = dom && e.2.1 = pseq)
      ready := s.monarch.ready ++ [makeProg dom pseq 0 true (ws.take k)] } }

/-- Words for a position beyond the last OX9: the head is told NO_ROUTE with the first of them. -/
def wordsBeyond (f : List Byte) (s : State) : State :=
  if bodyNum f 5 2 ≠ 0 then s
  else sendCpl (cplRecord (bodyNum f 4 1) ⟨bodyNum f 0 4, stNoRoute, 0, 1, false, 0xFFFF, 0, 0⟩) s

/-- A CMD frame arrives. -/
def cmdFrameRx (i : Nat) (f : List Byte) (s : State) : State :=
  match frameArrives i f s with
  | (.pass, s1) =>
    if frameByte 0 f = 2 && !chainUp (1 - i) s1 then wordsBeyond f s1
    else passFrame (1 - i) f s1
  | (.drop, s1) => s1
  | (_, s1) => if frameByte 0 f = 2 then gotWords f s1 else s1

/-- CMD_FRAME_RX (R418). -/
def execCmdFrameRx (link : Fin 2) (frame : List Byte) (s : State) : Host.Outcome State Fault Refusal :=
  manned (cmdFrameRx link.val frame) s

/-- The head has a completion record or an RD result: it enters the domain's ring; FIRST is the head's own, and stands where the
program has had its last record. A DEV beyond the chain is a refusal, which the head counts and raises (R428). -/
def gotCpl (f : List Byte) (s : State) : State :=
  let dom := bodyNum f 1 1 % 8
  if bodyNum f 0 1 = 1 then setW .ox9 .ringRd (3072 * dom + bodyNum f 2 2 % 3072) 0 (BitVec.ofNat 64 (bodyNum f 4 8)) s
  else
    let w0 := bodyNum f 4 8
    let pseq := w0 % 2 ^ 32
    let first := (s.monarch.sent.find? fun p => p.dom = dom && p.pseq = pseq).map (·.first)
    let st := bits w0 44 2
    let s0 := if st = 1 && bits w0 32 4 = stNoRoute && first.isSome then refusedTraces dom pseq 0 0xFFFF s else s
    let s1 := emit (.msix dom 0) (setRecWord dom pseq 3 0 (setRecWord dom pseq 2 (first.getD (gx RING_REC.FIRST (128 * dom + pseq % 128) s))
      (setRecWord dom pseq 1 (bodyNum f 12 8) (setRecWord dom pseq 0 w0 s0))))
    if st = 2 then s1
    else { s1 with monarch := { s1.monarch with sent := s1.monarch.sent.filter fun p => !(p.dom = dom && p.pseq = pseq) } }

/-- CPL_FRAME_RX (R418). -/
def execCplFrameRx (link : Fin 2) (frame : List Byte) (s : State) : Host.Outcome State Fault Refusal :=
  manned (onFrame link.val frame fun s => if frameByte 0 frame = 3 && isHead s then gotCpl frame s else s) s

/-- The bytes fetched so far complete the first payload awaited. -/
def fetchedEnough (s : State) : State :=
  match s.monarch.checking with
  | some (p, w :: _) =>
    match (p.cmds.find? fun x => x.word = w).bind fun x => payloadOf x.cmd with
    | some y =>
      if y.2 ≤ s.monarch.fetched.length then
        gotPayload w (some (s.monarch.fetched.take y.2)) { s with monarch := { s.monarch with fetched := [] } }
      else s
    | none => s
  | _ => s

/-- A FETCH frame: the head reads the member's payload from host memory; a member collects the data. -/
def gotFetch (f : List Byte) (s : State) : State :=
  if isHead s then
    let r : Relay := { tag := 1 + (s.monarch.relays.map (·.tag)).foldl max 1023, pos := bodyNum f 0 1, dom := bodyNum f 1 1 % 8, len := bodyNum f 10 4 }
    startFetch r.tag r.dom (bodyNum f 2 8) r.len { s with monarch := { s.monarch with relays := s.monarch.relays ++ [r] } }
  else fetchedEnough { s with monarch := { s.monarch with fetched := s.monarch.fetched ++ frameBody f } }

/-- FETCH_FRAME_RX (R418). -/
def execFetchFrameRx (link : Fin 2) (frame : List Byte) (s : State) : Host.Outcome State Fault Refusal :=
  manned (onFrame link.val frame fun s => if frameByte 0 frame = 4 then gotFetch frame s else s) s

/-- A chain link drops: counted and raised with the position beyond it; the head's programs there whose record does not show
them pending complete with NO_ROUTE (R419). -/
def chainDrop (i : Nat) (s : State) : State :=
  if !chainUp i s then s
  else
    let pos := if i = 0 then chainPos s - 1 else chainPos s + 1
    let s1 := reselect .ox9 (linkLost i s)
    let s2 := raise .ox9 (Event.mk0 .ox9 .chainDown false (activeMonarch s1) 9 pos [na pos] s1) (countG .chainDown s1)
    if i = 1 && isHead s2 then
      let gone := s2.monarch.sent.filter fun p =>
        !(gx RING_REC.STATE (128 * p.dom + p.pseq % 128) s2 == 2 && gx RING_REC.PSEQ (128 * p.dom + p.pseq % 128) s2 == p.pseq)
      gone.foldl (fun s p => turnAway p stNoRoute s)
        { s2 with monarch := { s2.monarch with sent := s2.monarch.sent.filter fun p => !gone.contains p } }
    else s2

/-- CHAIN_DOWN (R419). -/
def execChainDown (link : Fin 2) (s : State) : Host.Outcome State Fault Refusal := manned (chainDrop link.val) s

/-- A chain link trains: delay samples are exchanged, ENUM runs again, records that waited leave (R417 to R419). -/
def chainLinkUp (i : Nat) (s : State) : State :=
  if chainUp i s then s
  else
    let s1 := sx CHAIN_STAT.UP i 1 (setChainLink i { ChainLink.reset with breezeFt := ft s } s)
    let s2 := if i = 1 && s1.chain.posTaken then sendFrame 1 1 0xFF [BitVec.ofNat 8 (chainPos s1)] s1 else s1
    let s3 := sendDelay i 0 0 0xFF s2
    if i = 0 then
      s3.chain.heldCpl.foldl (fun s b => sendFrame 0 3 0 b s) { s3 with chain := { s3.chain with heldCpl := [] } }
    else s3

/-- CHAIN_LINK_UP (R419). -/
def execChainLinkUp (link : Fin 2) (s : State) : Host.Outcome State Fault Refusal := manned (chainLinkUp link.val) s

/-! ### STEP_LAUNCH (R430, R431, Table 19-8) -/

/-- A byte field of a packet's payload. -/
def payFld (pk : Packet) (o n : Nat) : Nat := ofLE ((pk.payload.drop o).take n)

/-- The first check of R430 that a CTL fails: its STATUS. -/
def launchRefusal (pk : Packet) (s : State) : Option Nat :=
  let h := pk.hdr
  let c := payFld pk 8 2 % 2 ^ 14
  let step := payFld pk 10 1
  let ahead (d : Nat) : Nat := (step + 256 - (lctx d c s).curStep) % 256
  if payFld pk 0 1 ≠ 1 || h.len.toNat ≠ 24 || h.enc || payFld pk 1 7 ≠ 0 || payFld pk 8 2 ≥ 2 ^ 14 || payFld pk 11 5 ≠ 0 then
    some stCheckFail
  else if gx LUNA_CTX.VALID c s = 0 || gx LUNA_CTX.PART c s ≠ h.part.toNat then some stPartDeny
  else if gx LUNA_MEMBER.EP (gx LUNA_CTX.MEMBASE c s) s ≠ h.srcEp.toNat then some stPartDeny
  else if gx LUNA_CTX.DL_MODE c s ≠ 2 || (ctxDies c s).any fun d => ahead d ≠ 1 && ahead d ≠ 2 then some stCheckFail
  else if (ctxDies c s).any fun d => (lctx d c s).held.isSome then some stCheckFail
  else none

/-- A CTL refused: counted, raised folded with SRC_EP and PART, answered. -/
def refuseLaunch (pk : Packet) (st : Nat) (s : State) : State :=
  let h := pk.hdr
  let e := { Event.mk0 .ox9 .ctlRefused true (activeMonarch s) 2 h.srcEp.toNat [na h.srcEp.toNat, na h.part.toNat] s with
    srcEp := some h.srcEp.toNat, part := some h.part.toNat }
  respond (activeMonarch s) h st (raise .ox9 e (countG .ctlRefused s))

/-- A launch that passes: DEADLINE is written on each die at step − 1, held on each at step − 2; the answer OK follows when
every die is written. -/
def launch (pk : Packet) (s : State) : State :=
  let c := payFld pk 8 2 % 2 ^ 14
  let step := payFld pk 10 1
  let v := payFld pk 16 8
  let s1 := (ctxDies c s).foldl (fun s d =>
    if (step + 256 - (lctx d c s).curStep) % 256 = 1 then modCtx d c (fun x => { x with dlReg := some v }) s
    else modCtx d c (fun x => { x with held := some v }) s) s
  finishLaunches c { s1 with monarch := { s1.monarch with launches := s1.monarch.launches ++ [(c, pk.hdr)] } }

/-- The Monarch's queues of CTLs replaced. -/
def setCtls (ins q : List (Packet × Bool)) (s : State) : State := { s with monarch := { s.monarch with ctlIn := ins, ctls := q } }

/-- A CTL that has come in enters the queue; with 256 there it is answered NOT_READY (R431). -/
def ctlQueue (x : Packet × Bool) (s : State) : State :=
  if s.monarch.ctls.length < 256 then setCtls s.monarch.ctlIn (s.monarch.ctls ++ [x]) s
  else respond (activeMonarch s) x.1.hdr stNotReady (countG .ctlBusy s)

/-- A CTL checked: one marked bad is answered POISON (R58). -/
def checkCtl (x : Packet × Bool) (s : State) : State :=
  if x.2 then respond (activeMonarch s) x.1.hdr stPoison s
  else match launchRefusal x.1 s with
    | some st => refuseLaunch x.1 st s
    | none => launch x.1 s

/-- The CTLs that have come in enter the queue, in their order. -/
def takeCtls (s : State) : State := s.monarch.ctlIn.foldl (fun s x => ctlQueue x s) (setCtls [] s.monarch.ctls s)

/-- The CTL at the front of the queue is checked. -/
def frontCtl (s : State) : State :=
  match s.monarch.ctls with
  | [] => s
  | x :: rest => checkCtl x (setCtls s.monarch.ctlIn rest s)

/-- STEP_LAUNCH's effect: the Monarch takes in what has come and checks the first CTL of its queue (R430, R431; log entry 62,
DEDUCED). -/
def stepLaunch (s : State) : State := frontCtl (takeCtls s)

/-- STEP_LAUNCH (R430). -/
def execStepLaunch (s : State) : Host.Outcome State Fault Refusal := live stepLaunch s

end Sys2Proof.Machine
end

