-- ==== Sys2Proof/Machine/Power.lean ====
section
/-! DEFINITION. Reset, start-up, Chrysalis, Cocoon, the Luna clock and voltage, the load-slew governor, thermal limits, the
sideband pins, insertion and removal of the tray (chapter 20, R382, R454 to R456, R480). -/

namespace Sys2Proof.Machine

/-! ### Reset and start-up (R438, R440) -/

/-- Everything of the OX9 as right after reset; flash, the OEBs, the pins and the reference stay (R438). -/
def resetOx9 (s : State) : State :=
  { s with
    ox := .reset, fwd := .reset, obs := .reset, slices := .reset
    links := { Links.reset with
      ends := s.links.ends.filter fun e => 288 ≤ e.1, aux := s.links.aux.filter fun e => 288 ≤ e.1, refLost := s.links.refLost }
    power := { Power.reset with held := s.power.held, removed := s.power.removed, inserted := s.power.inserted }
    sram := .reset, rates := s.rates.filter fun e => e.1 < 2, cw := [], cwGone := [], chain := .reset
    tele := { Tele.reset with oebA := s.tele.oebA, oebB := s.tele.oebB }
    keys := s.keys.filter fun e => e.1 ≠ 0, mailboxes := [], skips := [], luna := [], cores := [], monarch := .reset }

/-- A fall of PWR_GOOD or PERST_N: the OX9 is reset and held (R438). -/
def resetFalls (s : State) : State := let t := resetOx9 s; { t with power := { t.power with held := true } }

/-- RESET (R438). -/
def execReset (s : State) : Host.Outcome State Fault Refusal := .next (resetFalls s)

/-- PWR_GOOD, PERST_N and HP_PRESENT_N are all at their running level: phase 0 begins. After a removal the OX9 starts from
reset. -/
def startUp (s : State) : State :=
  if !(s.power.held || s.power.removed) || !s.power.inserted then s
  else
    let t := if s.power.removed then resetOx9 s else s
    { t with power := { t.power with held := false, removed := false, tripped := false, bootCycles := 0 } }

/-- START_UP (R440). -/
def execStartUp (s : State) : Host.Outcome State Fault Refusal := .next (startUp s)

/-- A start-up phase ends, where it is the phase in progress. -/
def inPhase (n : Nat) (f : State → State) (s : State) : Host.Outcome State Fault Refusal :=
  if dark s || gx START_STAT.PHASE 0 s ≠ n then .next s else .next (f s)

/-- The stages in which the domains start: PD165 and PD166, PD073 to PD088, PD001 to PD072, PD161 to PD164, PD089 to PD160
(R440). -/
def powerStages : List (List Nat) :=
  [[165, 166], (List.range 16).map (73 + ·), (List.range 72).map (1 + ·), [161, 162, 163, 164], (List.range 72).map (89 + ·)]

/-- The domains of a stage take a state. -/
def stageState (v : Nat) (l : List Nat) (s : State) : State := l.foldl (fun s d => sx DOM_STAT.STATE d v s) s

/-- Phase 0 ends: PSEL is sampled, the fuses are read, the first domains start. -/
def aonDone (psel : Nat) (fusesOk aonOk : Bool) (s : State) : State :=
  let s1 := stageState 3 [165, 166] (sx DOM_STAT.STATE 0 1 s)
  sx START_STAT.PHASE 0 1 (sx PROFILE_STAT.PSEL 0 psel
    { s1 with power := { s1.power with fusesBad := !fusesOk, aonBad := !aonOk } })

/-- AON_PHASE_DONE (R440). -/
def execAonPhaseDone (psel : Fin 4) (fusesOk aonOk : Bool) (s : State) : Host.Outcome State Fault Refusal :=
  inPhase 0 (aonDone psel.val fusesOk aonOk) s

/-- Phase 1 ends: stage after stage has started, and every domain is ON (log entry 137, DEDUCED). -/
def powerDone (s : State) : State :=
  sx START_STAT.PHASE 0 2 (powerStages.foldl (fun s l => stageState 1 l s) s)

/-- POWER_PHASE_DONE (R440). -/
def execPowerPhaseDone (s : State) : Host.Outcome State Fault Refusal := inPhase 1 powerDone s

/-! ### Self-test (R21, R441, R442) -/

/-- A flash bank passes (R359): the cause it fails with, else none. -/
def bankCause (b : Nat) (s : State) : Option Nat :=
  let img := (SMap.get (fun _ => none) s.flash.banks b).getD (Config.fwFactory b)
  if !Config.fwSigned img then some 1 else if Config.fwVersion img < Config.fwMinimum then some 2 else none

/-- The bank that boots: of those that pass, the one of higher security version (R359). -/
def bootBank (s : State) : Option Nat :=
  match bankCause 0 s, bankCause 1 s with
  | none, none => some (if Config.fwVersion (bankImage 0 s) < Config.fwVersion (bankImage 1 s) then 1 else 0)
  | none, some _ => some 0
  | some _, none => some 1
  | some _, some _ => none

/-- The banks that are skipped, counted and raised with bank and cause. -/
def rejectTraces (s : State) : State :=
  [0, 1].foldl (fun s b => match bankCause b s with
    | some c => raise0 .fwBankReject false (activeMonarch s) [na b, na c] (countG .fwBankReject s)
    | none => s) s

/-- The roles of the dies that passed: the slices 0 to 14 with the live spare where all pass, else those that pass; D62 the
active Monarch and D63 the standby where both pass (R14, R21). The bank sets of a slice that fails stand on others from then on
(R18). -/
def assignRoles (failed : List Nat) (s : State) : State :=
  let ok (d : Nat) : Bool := !failed.contains d
  let sl := (List.range 16).filter fun x => ok (36 + x)
  let spare := if sl.length = 16 then some 15 else none
  let act := if sl.length = 16 then List.range 15 else sl
  let mon := [62, 63].filter ok
  let actives := ((List.range 62).filter fun d => ok d && (dieRole d != 1)) ++ act.map (36 + ·) ++ mon.take 1
  let standbys := (spare.toList.map (36 + ·)) ++ mon.drop 1
  let s1 := actives.foldl (fun s d => sx DIE_INFO.ACTIVE d 1 s) s
  let s2 := standbys.foldl (fun s d => sx DIE_INFO.STANDBY d 1 s) s1
  let s3 := failed.foldl (fun s d => (domsOfDie d).foldl (fun s p => sx DOM_STAT.FAILED p 1 (sx DOM_STAT.STATE p 0 s)) s) s2
  let s4 := spare.toList.foldl (fun s x => sx DOM_STAT.PINNED (73 + x) 1 s) s3
  ((List.range 16).filter fun x => !ok (36 + x)).foldl (fun s x => moveBanks x none s)
    { s4 with slices := { s4.slices with active := act, spare := spare }
              power := { s4.power with passed := (List.range 64).filter ok } }

/-- A lane site that fails: a spare one goes; one that carries a lane is replaced by the lowest unused spare, else its lane
has no site (R26, R27). -/
def siteFails (t : Nat) (s : State) : State :=
  let d := t / 18
  let l := gx LANE_STAT.LLANE t s
  if gx LANE_STAT.SPARE t s = 1 then sx LANE_STAT.FAILED t 1 (spareTaken t s)
  else if gx LANE_STAT.IN_USE t s = 0 then sx LANE_STAT.FAILED t 1 s
  else
    let s1 := sx LANE_STAT.FAILED t 1 (siteLeaves t s)
    match spareSite d s1 with
    | some u => raiseDie .laneSpared false d [na t, na u, na l] (countD d .laneSpared (siteTakes u l (spareTaken u s1)))
    | none => s1

/-- A core that fails: an unused spare goes; another is replaced (R28, R171). No fault was found in service. -/
def coreFails (k : Nat) (s : State) : State :=
  let d := k / 108
  if (lunaDie d s).spares.contains k then
    sx DIE_INFO.SPARES_LEFT (52 + d) (gx DIE_INFO.SPARES_LEFT (52 + d) s - 1) (modLuna d (fun x => { x with spares := x.spares.erase k }) s)
  else
    let t := retireCore k false none s
    { t with flash := { t.flash with units := s.flash.units } }

/-- A row that fails is replaced by a spare row, or fenced out (R32, R34); the repair enters the log. -/
def rowFails (die bank row : Nat) (s : State) : State :=
  let r : RowId := ⟨die, bank, row⟩
  let t := rowRepair die bank row { s with sram := { s.sram with faulty := s.sram.faulty ++ [r] } }
  if t.sram.copying.contains r then
    { t with sram := { t.sram with copying := t.sram.copying.erase r }, flash := { t.flash with rowLog := t.flash.rowLog ++ [r] } }
  else t

/-! ### The repair log (R391, R442) -/

/-- An effect without its traces: the counters and events of the OX9 stay. -/
def quiet (f : State → State) (s : State) : State :=
  let t := f s
  { t with ox := { t.ox with ctrs := s.ox.ctrs, events := s.ox.events } }

/-- A unit that the repair log marks permanently retired is withdrawn again (R391). -/
def applyRetired (x : UnitLog) (s : State) : State :=
  match x.kind with
  | .laneSite => siteFails x.num s
  | .lunaCore => coreFails x.num s
  | .sliceDie =>
    let k := x.num - 36
    if s.slices.spare = some k then sliceRetired k (moveBanks k none { s with slices := { s.slices with spare := none } })
    else if s.slices.active.contains k then
      let t := sliceRetired k (moveBanks k s.slices.spare (replaceSlice k s.slices.spare s))
      { t with slices := { t.slices with frozen := false } }
    else s
  | .monarchDie =>
    let other := if x.num = 62 then 63 else 62
    let off := sx DOM_STAT.FAILED (165 + (x.num - 62)) 1 (sx DIE_INFO.RETIRED x.num 1 (sx DIE_INFO.STANDBY x.num 0 s))
    if gx DIE_INFO.STANDBY x.num s = 1 then off
    else if gx DIE_INFO.ACTIVE x.num s = 1 && gx DIE_INFO.STANDBY other s = 1 then
      sx DIE_INFO.ACTIVE other 1 (sx DIE_INFO.STANDBY other 0 (sx DIE_INFO.ACTIVE x.num 0 off))
    else s
  | .skipperDie => s

/-- The repair log applied, at every reset (R442), before self-test's own repairs: the rows it lists have their spares, permanently
retired units stay out, others return. -/
def applyRepairLog (s : State) : State :=
  let s1 := s.flash.rowLog.foldl (fun s r => { s with sram := { s.sram with
    sparesUsed := SMap.set (fun _ => 0) s.sram.sparesUsed (bankKey r.die r.bank) ((s.flash.rowLog.filter fun y => y.die = r.die && y.bank = r.bank).length) } }) s
  let s2 := (s1.flash.units.filter (·.perm)).foldl (fun s x => quiet (applyRetired x) s) s1
  { s2 with flash := { s2.flash with units := s.flash.units.map fun x => { x with out := x.perm, counted := x.perm } } }

/-! ### The end of self-test -/

/-- The Chrysalis causes that hold after self-test, in ascending order (Table 20-4). -/
def chrysalisCauses (failed : List Nat) (s : State) : List Nat :=
  let some_ (p : Nat → Bool) : Bool := failed.any p
  ([(failed.contains 62 && failed.contains 63, 1), ((bootBank s).isNone, 2), (s.power.fusesBad, 3),
    (decide (2 ≤ (failed.filter fun d => dieRole d == 1).length), 4), (some_ fun d => dieRole d == 0, 5),
    (some_ fun d => dieRole d == 2, 6), (some_ fun d => dieRole d == 3, 7), (s.power.aonBad, 8)].filter (·.1)).map (·.2)

/-- The lanes of the port dies that passed send the NR pattern (R304, R443). -/
def portsNotReady (s : State) : State := sendNr (s.power.passed.filter fun d => dieRole d == 0) s

/-- Chrysalis, with its cause; every port that would train sends the NR pattern (R442, R443). -/
def enterChrysalis (c : Nat) (s : State) : State := portsNotReady (sx START_STAT.CAUSE 0 c (sx START_STAT.PHASE 0 7 s))

/-- Self-test ends: roles, the repair log, spares, then phase 3 or Chrysalis. Neither bank passing is found in phase 3, unless another cause
keeps the OX9 from it. -/
def selftestDone (dies sites cores : List Nat) (rows : List (Nat × Nat × Nat)) (s : State) : State :=
  let s1 := applyRepairLog (assignRoles dies s)
  let spareFirst := (sites.filter fun t => gx LANE_STAT.SPARE t s1 = 1) ++ sites.filter fun t => gx LANE_STAT.SPARE t s1 ≠ 1
  let s2 := spareFirst.foldl (fun s t => siteFails t s) s1
  let idle := cores.filter fun k => (lunaDie (k / 108) s2).spares.contains k
  let s3 := (idle ++ cores.filter fun k => !idle.contains k).foldl (fun s k => coreFails k s) s2
  let s4 := rows.foldl (fun s r => rowFails r.1 r.2.1 r.2.2 s) s3
  let cs := chrysalisCauses dies s4
  match cs.filter (· ≠ 2), cs with
  | [], _ => sx START_STAT.PHASE 0 3 s4
  | _, c :: _ => enterChrysalis c (if c = 1 then s4 else rejectTraces s4)
  | _, [] => sx START_STAT.PHASE 0 3 s4

/-- The members of a list in ascending order, each once. -/
def inAscent (l : List Nat) : List Nat := l.foldl (fun a x => insertSorted x a) []

/-- SELFTEST_PHASE_DONE (R440). -/
def execSelftestPhaseDone (failedDies : List Die) (failedSites : List Site) (failedCores : List Core)
    (failedRows : List (Die × Nat × Nat)) (s : State) : Host.Outcome State Fault Refusal :=
  inPhase 2 (selftestDone (inAscent (failedDies.map (·.val))) (inAscent (failedSites.map (·.val)))
    (inAscent (failedCores.map (·.val))) (failedRows.map fun r => (r.1.val, r.2.1, r.2.2))) s

/-! ### Boot and profile (R359, R432) -/

/-- Boot ends: the firmware bank, the list of expulsions; phase 4, or Chrysalis where neither bank passes. -/
def bootDone (s : State) : State :=
  let s1 := rejectTraces s
  match bootBank s1 with
  | none => enterChrysalis 2 s1
  | some b =>
    let img := bankImage b s1
    let dies := [62, 63].filter fun d => s1.power.passed.contains d
    let s2 := { s1 with monarch := { s1.monarch with bank := b, boots := dies.map fun d => (d, img) } }
    portsNotReady (sx START_STAT.PHASE 0 4 (sx EXPEL_STAT.LISTED 0 s2.flash.expelled.length s2))

/-- BOOT_PHASE_DONE (R440). -/
def execBootPhaseDone (s : State) : Host.Outcome State Fault Refusal := inPhase 3 bootDone s

/-- The PSEL profile is loaded, or fails its load and leaves the reset values (R432, R433); phase 5 begins. -/
def profileDone (s : State) : State :=
  let n := gx PROFILE_STAT.PSEL 0 s
  let p := { oneProg 0 (.profileLoad n) [] s with e := ft s }
  let s1 := match profileReason p n s s with
    | some f => profileFailed n f.1 s
    | none => applyProfile 0 0 (ft s) n false s
  refreshReady (sx START_STAT.PHASE 0 5 (settleCocoon s1))

/-- PROFILE_PHASE_DONE (R440). -/
def execProfilePhaseDone (s : State) : Host.Outcome State Fault Refusal := inPhase 4 profileDone s

/-! ### Cocoon (R448, R449) -/

/-- A cluster has no open chunk, queued task or hold range. -/
def clusterIdle (d cl : Nat) (s : State) : Bool :=
  ((lunaDie d s).chunks.all fun c => !(homeClusters d c.cluster s).contains cl) &&
    ((dieCores d).filter fun k => clusterOf k = cl || (serveOf d cl s).contains k).all fun k =>
      (lcore k s).run.isNone && (lcore k s).queue.isEmpty

/-- A Luna cluster idle for LUNA_AFTER enters Cocoon, where Table 20-7 permits it. -/
def lunaCocoon (d cl : Nat) (s : State) : State :=
  let p := clusterDom d cl
  if gb COCOON_CTL.LUNA_EN 0 s && gx DOM_STAT.STATE p s == 1 && gx DOM_STAT.PINNED p s == 0 && clusterIdle d cl s then
    sx DOM_STAT.STATE p 2 s
  else s

/-- LUNA_COCOON_ENTRY (R448). -/
def execLunaCocoonEntry (die : LDie) (cluster : Fin 9) (s : State) : Host.Outcome State Fault Refusal :=
  live (lunaCocoon die.val cluster.val) s

/-- The writes of registers of dies that are awake now take effect, in their order (R463). -/
def flushCocoon (s : State) : State :=
  let (due, rest) := s.power.cocoonWrites.partition fun x =>
    !((domsOfDie (regDie x.1 x.2.1)).all fun p => gx DOM_STAT.STATE p s == 2 || gx DOM_STAT.STATE p s == 3)
  due.foldl (fun s x => applyWrites [⟨x.1, x.2.1, x.2.2.1, x.2.2.2⟩] s) { s with power := { s.power with cocoonWrites := rest } }

/-- A wake ends: the domain is ON; what was written to registers of its die meanwhile takes effect; the chunks that waited
for a cluster open. -/
def wakeDone (p : Nat) (s : State) : State :=
  if gx DOM_STAT.STATE p s ≠ 3 then s
  else
    let s1 := flushCocoon (sx DOM_STAT.STATE p 1 s)
    if 89 ≤ p && p ≤ 160 then wakeChunks ((p - 89) / 9) s1 else s1

/-- COCOON_WAKE_DONE (R449). -/
def execCocoonWakeDone (dom : Fin 167) (s : State) : Host.Outcome State Fault Refusal := live (wakeDone dom.val) s

/-! ### The Luna clock and voltage (R450) -/

/-- The reading of a sensor: the raw value plus E_OFF (R435). -/
def reading (k : Nat) (raw : Int) (s : State) : Int := raw + (sensEff k s).1

/-- Sensor 129 reads, in units of 0.5 mV: from REQ_MV − 10 mV on the clock changes (R435). -/
def voltageReached (raw : Int) (s : State) : State :=
  match s.power.dvfsGoal with
  | none => s
  | some f =>
    if reading 129 raw s + 20 < 2 * (gx LUNA_DVFS.REQ_MV 0 s : Int) then s
    else
      let s1 := sx LUNA_DVFS.BUSY 0 0 (sx LUNA_DVFS.CUR_FREQ 0 f s)
      { s1 with power := { s1.power with dvfsGoal := none } }

/-- DVFS_VOLTAGE_REACHED (R450). -/
def execDvfsVoltageReached (raw : Int) (s : State) : Host.Outcome State Fault Refusal := live (voltageReached raw) s

/-- 10 ms pass first: FREQ reverts to CUR_FREQ and REQ_MV to its requirement. -/
def voltageTimeout (s : State) : State :=
  match s.power.dvfsGoal with
  | none => s
  | some _ =>
    if locOf .ox9 s < s.power.dvfsSince + 25000000 then s
    else
      let f := gx LUNA_DVFS.CUR_FREQ 0 s
      let s1 := setReqMv (lunaMv f) (sx LUNA_DVFS.BUSY 0 0 (sx LUNA_DVFS.FREQ 0 f s))
      raise0 .dvfsTimeout false (activeMonarch s1) [] (countG .dvfsTimeout { s1 with power := { s1.power with dvfsGoal := none } })

/-- DVFS_TIMEOUT (R450). -/
def execDvfsTimeout (s : State) : Host.Outcome State Fault Refusal := live voltageTimeout s

/-! ### The load-slew governor (R451) -/

/-- The lane directions in electrical idle: each direction of a link idles by itself, all its lanes together (R309, R451). -/
def idleDirs (s : State) : Nat :=
  ((s.links.ends.filter fun e => e.1 < 288 && linkUp e.2).map fun e =>
    (e.2.txIdle.toNat + (decide (e.2.st = 7)).toNat) * (((portInfo e.1 s).map (·.2)).getD 0)).sum

/-- The powered slice dies. -/
def poweredSlices (s : State) : Nat := ((List.range 16).filter fun x => gx DOM_STAT.STATE (73 + x) s == 1).length

/-- The holds of the next microsecond: while demand is above the reference, a free value paces the task starts, the same for
every awake cluster (R452; log entry 116, DESIGN CHOICE). -/
def setPace (hold : Bool) (s : State) : State :=
  let s1 := sx GOV_STAT.HOLDING 0 hold.toNat s
  if hold then draw { s1 with power := { s1.power with pace := freeVal s1, starts := [] } }
  else { s1 with power := { s1.power with pace := 0, starts := [] } }

/-- One microsecond of the governor, in mW, with the demand it estimates. -/
def governor (demand : Nat) (s : State) : State :=
  if !gb GOV_CTL.EN 0 s then s
  else
    let r : Int := gx GOV_CTL.LIMIT 0 s * 10
    let d := demand * 1000
    let res := if gb GOV_CTL.IDLE_RESV 0 s then 175 * idleDirs s else 0
    let g := ((s.power.govG : Int) + clampInt (((d + res : Nat) : Int) - s.power.govG) (-r) r).toNat
    let cap := 80000 * poweredSlices s
    let ramp := decide (d + res < g)
    let pad := if ramp then min (g - d) cap else res
    let w (x : Nat) : Nat := min (x / 1000) 4095
    let s1 := setPace (decide (g < d)) (sx GOV_STAT.PAD 0 (w pad) (sx GOV_STAT.D 0 (w d) (sx GOV_STAT.G 0 (w g)
      { s with power := { s.power with govG := g } })))
    if ramp && decide (cap < g - d) then sx ALERT_STAT.GOV 0 1 (countG .govPadShort s1) else s1

/-- GOVERNOR_TICK (R451). It runs from phase 3 on, in Calm too (R410, R440). -/
def execGovernorTick (demand : Nat) (s : State) : Host.Outcome State Fault Refusal :=
  served (fun s => if gx START_STAT.PHASE 0 s < 3 then s else governor demand s) s

/-! ### Thermal limits (R453) -/

/-- A temperature sensor reads at least THERM_CFG.WARN. -/
def thermWarn (k : Nat) (raw : Int) (s : State) : State :=
  if 128 ≤ k || reading k raw s < gx THERM_CFG.WARN 0 s then s
  else raise0 .thermalWarn true (k / 2) [] (sx ALERT_STAT.THERMAL 0 1 s)

/-- THERMAL_WARN (R453). -/
def execThermalWarn (sensor : Fin 134) (raw : Int) (s : State) : Host.Outcome State Fault Refusal := live (thermWarn sensor.val raw) s

/-- A temperature sensor has read 115 °C for 10 µs: every domain but PD000 loses power; the event stays in the always-on
buffer. -/
def thermTrip (k : Nat) (raw : Int) (s : State) : State :=
  if 128 ≤ k || reading k raw s < 1840 then s
  else
    let s1 := raise0 .thermalTrip false (k / 2) [] s
    let s2 := (List.range 166).foldl (fun s d => sx DOM_STAT.STATE (d + 1) 0 s) s1
    { s2 with power := { s2.power with tripped := true } }

/-- THERMAL_TRIP (R453). -/
def execThermalTrip (sensor : Fin 134) (raw : Int) (s : State) : Host.Outcome State Fault Refusal := served (thermTrip sensor.val raw) s

/-! ### The tray (R382, R455, R456) -/

/-- HP_PRESENT_N high for 200 ns: DOWN inserts leave, TRAY_REMOVAL is logged on its own, the OX9 stops. A frozen OX9 has sent its
DOWN inserts and its log stands (R409, R410); a tripped one has no power for either (R453). -/
def trayOut (s : State) : State :=
  if !s.power.inserted then s
  else if s.power.held || s.power.removed then { s with power := { s.power with inserted := false } }
  else if halted s then { s with power := { s.power with inserted := false, removed := true } }
  else
    let s1 := downPorts (upPorts s) s
    let s2 := logEvent .ox9 (Event.mk0 .ox9 .trayRemoval false (activeMonarch s1) 0 0 [] s1) 0 false s1
    { s2 with power := { s2.power with inserted := false, removed := true } }

/-- TRAY_REMOVAL (R382). -/
def execTrayRemoval (s : State) : Host.Outcome State Fault Refusal := .next (trayOut s)

/-- HP_GLITCH (R456). Counters of a frozen OX9 stand (R409). -/
def execHpGlitch (s : State) : Host.Outcome State Fault Refusal := live (countG .hpGlitch) s

/-- HP_PRESENT_N low for 10 ms: the tray is inserted, and the OX9 is held until its start-up. -/
def trayIn (s : State) : State :=
  if s.power.inserted then s
  else let t := resetOx9 s; { t with power := { t.power with inserted := true, removed := false, held := true } }

/-- TRAY_INSERTION (R455). -/
def execTrayInsertion (s : State) : Host.Outcome State Fault Refusal := .next (trayIn s)

/-! ### Sideband pins (R454, R480) -/

/-- FAULT_N is driven low: in Chrysalis, in Calm, after a trip, after removal; released while held in reset. -/
def faultLow (s : State) : Bool :=
  !s.power.held && (gx START_STAT.PHASE 0 s == 7 || gb CALM_STAT.CALM 0 s || s.power.tripped || s.power.removed)

/-- ALERT_N is driven low: an ALERT_STAT bit is 1; released while held in reset and after removal. -/
def alertLow (s : State) : Bool :=
  !s.power.held && !s.power.removed &&
    (gb ALERT_STAT.THERMAL 0 s || gb ALERT_STAT.DVFS 0 s || gb ALERT_STAT.GOV 0 s || gb ALERT_STAT.EVENT 0 s)

/-- One read of a pin every µs: `bad` where it reads other than it is driven; counted once per run that reaches `n` reads. -/
def pinRead (i n : Nat) (bad : Bool) (s : State) : State :=
  let k := if bad then nth s.power.pinRun i + 1 else 0
  let s1 := { s with power := { s.power with pinRun := setAt s.power.pinRun i k } }
  if k = n then countG .pinContention s1 else s1

/-- TIME_PPS_OUT of output `k` rises now. -/
def ppsRises (k : Nat) (s : State) : Bool := (ppsOutOf k s).2.2 && (ppsOutOf k s).2.1 == ft s

/-- Contention seen at once, counted where it is there. -/
def contends (bad : Bool) (s : State) : State := if bad then countG .pinContention s else s

/-- A readback of the pins, true where high: a released open-drain pin may be pulled low by another. FAULT_N and ALERT_N are read
every µs and count after 10 µs; TIME_PPS_OUT is read at its rising edges, each of which counts; an I3C line that is driven high
and reads low (`i3c`) counts at once. -/
def readback (fault alert pps0 pps1 i3c : Bool) (s : State) : State :=
  contends i3c (contends (ppsRises 1 s && !pps1) (contends (ppsRises 0 s && !pps0)
    (pinRead 1 10 (alertLow s && alert) (pinRead 0 10 (faultLow s && fault) s))))

/-- PIN_READBACK (R480). Nothing is driven after a removal (R456), nothing counted after a trip (R453) or in Calm (R409). -/
def execPinReadback (fault alert pps0 pps1 i3c : Bool) (s : State) : Host.Outcome State Fault Refusal :=
  live (readback fault alert pps0 pps1 i3c) s

end Sys2Proof.Machine
end

