-- ==== Sys2Proof/Machine/Spdm.lean ====
section
/-! DEFINITION. SPDM (R358, R364, R373, Table 16-6), the security mailbox (R469, R470) and DEBUG_UNLOCK (R361). The codes of
the answers are the DMTF standard's (log entry 16, PRESUMED); what the spec does not state of an answer is opaque (log entry 9, DESIGN CHOICE). -/

namespace Sys2Proof.Machine

/-! ### Answers -/

/-- The next random number of a unit's DRBG (R373). -/
def nonce (u : UnitId) (s : State) : Nat :=
  let x := keySec u s
  let i := trngIdx u s
  (drbgWord u i (seedsOf i x) (requestsOf i x)).toNat

/-- An answer: its code, its body as the standard forms it from the request and a number. -/
def spdmReply (u : UnitId) (code : Nat) (req : List Byte) (n : Nat) (s : State) : State :=
  emit (.spdm (unitIdx u) code (Config.spdmBody code req n)) s

/-- A request that needs randomness: Busy while READY = 0, Unspecified after FAILED (R373). -/
def needRandom (u : UnitId) (f : State → State) (s : State) : State :=
  if rngReady u s then f (drbgUse u s)
  else spdmFail u (if gf u TRNG_STAT.FAILED (trngIdx u s) s = 1 then 5 else 3) s

/-- GET_VERSION (R469, Table 16-6). -/
def execGetVersion (u : UnitId) (_conn : Nat) (s : State) : Host.Outcome State Fault Refusal := spdmAt u (spdmReply u 0x04 [] 0) s

/-- GET_CAPABILITIES (R469, Table 16-6). -/
def execGetCapabilities (u : UnitId) (_conn : Nat) (req : List Byte) (s : State) : Host.Outcome State Fault Refusal :=
  spdmAt u (spdmReply u 0x61 req 0) s

/-- NEGOTIATE_ALGORITHMS (R469, Table 16-6). -/
def execNegotiateAlgorithms (u : UnitId) (_conn : Nat) (req : List Byte) (s : State) : Host.Outcome State Fault Refusal :=
  spdmAt u (spdmReply u 0x63 req 0) s

/-! ### Measurements (Table 16-5) -/

/-- The firmware image a unit booted: that of the active Monarch die. -/
def firmwareOf (u : UnitId) (s : State) : List Byte :=
  match u with
  | .ox9 => (bootImage (activeMonarch s) s).getD []
  | .oeb side => Config.oebFirmware (1 + side.val)

/-- What decides the certificates: the measured firmware gives the Alias key (R358). -/
def identity (u : UnitId) (s : State) : Nat :=
  (Config.sha384 (firmwareOf u s)).toNat

/-- The list that index 6 measures: index, key digest and state of each program-signer key (R360). -/
def signerList (s : State) : List Byte :=
  (List.range 16).flatMap fun k =>
    if k < 4 then [BitVec.ofNat 8 k] ++ toLE 48 (Config.dolvySigner k).toNat ++ [if Config.dolvyRevoked k then 2 else 1]
    else match SMap.get (fun _ => none) s.flash.signers k with
      | none => [BitVec.ofNat 8 k] ++ List.replicate 49 0
      | some x => [BitVec.ofNat 8 k] ++ toLE 48 (Config.sha384 x.key).toNat ++ [if x.revoked then 2 else 1]

/-- The manifest of a Luna die's image store: its pairs of PROG_ID and digest in ascending PROG_ID (R223). -/
def manifest (d : Nat) (s : State) : List Byte :=
  let l := (lunaDie d s).images
  (inAscent (l.map (·.prog))).flatMap fun p =>
    toLE 2 p ++ toLE 48 (match l.find? fun x => x.prog = p with | some x => x.meas.toNat | none => 0)

/-- A firmware bank has booted. -/
def booted (u : UnitId) (s : State) : Bool := u ≠ .ox9 || (bootImage (activeMonarch s) s).isSome

/-- A measurement of a unit: its value type in the DMTF format and its value; none at an index it does not have. An OEB has
no 4, 6 and 16 to 23. -/
def measurement (u : UnitId) (i : Nat) (s : State) : Option (Nat × List Byte) :=
  let fw := firmwareOf u s
  let ox := u = .ox9
  match i with
  | 1 => some (0, toLE 48 Config.romDigest.toNat)
  | 2 => if booted u s then some (1, toLE 48 (Config.sha384 fw).toNat) else none
  | 3 => if booted u s then some (0x87, toLE 4 (Config.fwVersion fw)) else none
  | 4 => if ox then some (3, toLE 48 (Config.sha384 s.monarch.profile).toNat) else none
  | 5 => some (2, toLE 48 (Config.sha384 (Config.fuseState (unitIdx u) ++
      [BitVec.ofNat 8 (if ox then gx SEC_CAP.DEBUG 0 s else 0)])).toNat)
  | 6 => if ox then some (3, toLE 48 (Config.sha384 (signerList s)).toNat) else none
  | _ => if ox && 16 ≤ i && i ≤ 23 then some (0x83, manifest (i - 16) s) else none

/-- A measurement block: index, specification 1 (DMTF), size, value type, value size, value. -/
def measBlock (i : Nat) (m : Nat × List Byte) : List Byte :=
  [BitVec.ofNat 8 i, 1] ++ toLE 2 (m.2.length + 3) ++ [BitVec.ofNat 8 m.1] ++ toLE 2 m.2.length ++ m.2

/-- The indices a unit has. -/
def measIndices (u : UnitId) (s : State) : List Nat := (List.range 24).filter fun i => (measurement u i s).isSome

/-- The blocks a request names: one index, or with 0xFF all; with 0 none, only their number. -/
def measBlocks (u : UnitId) (i : Nat) (s : State) : Option (List Byte) :=
  if i = 0 then some [BitVec.ofNat 8 (measIndices u s).length]
  else if i = 0xFF then
    some ((measIndices u s).flatMap fun k => match measurement u k s with | some m => measBlock k m | none => [])
  else (measurement u i s).map (measBlock i)

/-- The measurements answered in clear; a signed answer carries a nonce and a signature after them. -/
def getMeasurements (u : UnitId) (i : Nat) (signed : Bool) (req : List Byte) (s : State) : State :=
  match measBlocks u i s with
  | none => spdmFail u 1 s
  | some b =>
    let answer (n : Nat) (s : State) : State :=
      emit (.spdm (unitIdx u) 0x60 (b ++ if signed then Config.spdmBody 0x60 (req ++ b) n else [])) s
    if signed then needRandom u (answer (nonce u s)) s else answer 0 s

/-- GET_MEASUREMENTS (R358). -/
def execGetMeasurements (u : UnitId) (_conn : Nat) (index : Nat) (signed : Bool) (req : List Byte) (s : State) :
    Host.Outcome State Fault Refusal :=
  spdmAt u (getMeasurements u index signed req) s

/-- GET_DIGESTS (R469): of slot 0, the only one that holds a chain. -/
def execGetDigests (u : UnitId) (_conn : Nat) (s : State) : Host.Outcome State Fault Refusal :=
  spdmAt u (fun s => spdmReply u 0x01 [] (identity u s) s) s

/-- GET_CERTIFICATE (R469): slots 1 to 7 are empty. -/
def execGetCertificate (u : UnitId) (_conn : Nat) (slot : Nat) (offset length : Nat) (s : State) :
    Host.Outcome State Fault Refusal :=
  spdmAt u (fun s => if slot ≠ 0 then spdmFail u 1 s else spdmReply u 0x02 (toLE 2 offset ++ toLE 2 length) (identity u s) s) s

/-- CHALLENGE (R373). -/
def execChallenge (u : UnitId) (_conn : Nat) (slot : Nat) (req : List Byte) (s : State) : Host.Outcome State Fault Refusal :=
  spdmAt u (fun s => if slot ≠ 0 then spdmFail u 1 s
    else needRandom u (spdmReply u 0x03 (req ++ toLE 48 (identity u s)) (nonce u s)) s) s

/-! ### Sessions -/

/-- Sessions at once: 16 at an OX9, 4 at an OEB (Table 16-6). -/
def sessionCap (u : UnitId) : Nat := match u with | .ox9 => 16 | .oeb _ => 4

/-- The state with a unit's sessions replaced. -/
def setSessions (u : UnitId) (l : List Session) (s : State) : State := setKeySec u { keySec u s with sessions := l } s

/-- A session opens; it needs randomness, and a place among the sessions. -/
def keyExchange (u : UnitId) (id : Nat) (req : List Byte) (s : State) : State :=
  let l := (keySec u s).sessions
  if !rngReady u s then needRandom u (fun s => s) s
  else if l.any fun x => x.id = id then spdmFail u 1 s
  else if sessionCap u ≤ l.length then spdmFail u 0x0A s
  else
    let open_ (s : State) : State := setSessions u (l ++ [{ id := id, established := false, owner := none, updates := 0 }]) s
    needRandom u (fun t => spdmReply u 0x64 req (nonce u s) (open_ t)) s

/-- KEY_EXCHANGE (R373). -/
def execKeyExchange (u : UnitId) (_conn : Nat) (sess : Nat) (req : List Byte) (s : State) : Host.Outcome State Fault Refusal :=
  spdmAt u (keyExchange u sess req) s

/-- FINISH establishes the session where its proof verifies; with mutual authentication the digest of the requester's leaf
key stays with it (R364, R365). One that does not verify ends the session. -/
def finish (u : UnitId) (id : Nat) (req leafKey : List Byte) (s : State) : State :=
  let l := (keySec u s).sessions
  if !(l.any fun x => x.id = id && !x.established) then spdmFail u 2 s
  else if !Config.spdmSealOk id req then spdmFail u 6 (setSessions u (l.filter fun x => x.id ≠ id) s)
  else
    let owner := if leafKey.isEmpty then none else some (Config.sha384 leafKey)
    spdmReply u 0x65 req 0 (setSessions u (l.map fun x => if x.id = id then { x with established := true, owner := owner } else x) s)

/-- FINISH (R469). -/
def execFinish (u : UnitId) (sess : Nat) (req leafKey : List Byte) (s : State) : Host.Outcome State Fault Refusal :=
  spdmAt u (finish u sess req leafKey) s

/-- A request inside a session that the unit holds. -/
def inSession (u : UnitId) (id : Nat) (f : State → State) (s : State) : State :=
  match sessionOf u id s with
  | none => spdmFail u 2 s
  | some _ => f s

/-- The keys of a session are renewed; refused while the generator is not ready (R373). -/
def keyUpdate (u : UnitId) (id : Nat) (req : List Byte) (s : State) : State :=
  inSession u id (needRandom u fun t =>
    spdmReply u 0x69 req 0 (setSessions u ((keySec u t).sessions.map fun x =>
      if x.id = id then { x with updates := x.updates + 1 } else x) t)) s

/-- KEY_UPDATE (R373). -/
def execKeyUpdate (u : UnitId) (sess : Nat) (req : List Byte) (s : State) : Host.Outcome State Fault Refusal :=
  spdmAt u (keyUpdate u sess req) s

/-- HEARTBEAT (R469). -/
def execHeartbeat (u : UnitId) (sess : Nat) (s : State) : Host.Outcome State Fault Refusal :=
  spdmAt u (inSession u sess (spdmReply u 0x68 [] 0)) s

/-- END_SESSION (R469). -/
def execEndSession (u : UnitId) (sess : Nat) (s : State) : Host.Outcome State Fault Refusal :=
  spdmAt u (inSession u sess fun t =>
    spdmReply u 0x6C [] 0 (setSessions u ((keySec u t).sessions.filter fun x => x.id ≠ sess) t)) s

/-- A vendor-defined request carries a key command where it names StandardID 4 and the vendor number of SEC_CAP (R364). -/
def vendorRequest (u : UnitId) (id std pen : Nat) (payload : List Byte) (s : State) : State :=
  inSession u id (fun s =>
    if std ≠ 4 || pen ≠ gx SEC_CAP.PEN 0 s then spdmFail u 7 s else keyPayload u id payload s) s

/-- VENDOR_DEFINED_REQUEST (R364). -/
def execVendorDefinedRequest (u : UnitId) (sess : Nat) (std : BitVec 16) (pen : BitVec 32) (payload : List Byte) (s : State) :
    Host.Outcome State Fault Refusal :=
  spdmAt u (vendorRequest u sess std.toNat pen.toNat payload) s

/-! ### The debug port (R361) -/

/-- A token that verifies, at reset: every key slot, every staging page and every core-local SRAM is erased, the debug bit
stands until the next reset. -/
def debugUnlock (token : List Byte) (s : State) : State :=
  if 3 < gx START_STAT.PHASE 0 s || !Config.debugTokenOk token then s
  else
    let s1 := eraseSlots .ox9 (fun _ => true) s
    sx SEC_CAP.DEBUG 0 1 { s1 with luna := s1.luna.map fun e => (e.1, { e.2 with chunks := [] }), cores := [] }

/-- DEBUG_UNLOCK (R361). -/
def execDebugUnlock (token : List Byte) (s : State) : Host.Outcome State Fault Refusal :=
  served (debugUnlock token) s

/-! ### The security mailbox (R469, R470) -/

/-- A domain's mailbox. -/
def mailbox (d : Nat) (s : State) : Mailbox := SMap.get (fun _ => Mailbox.reset) s.mailboxes d

/-- The state with a domain's mailbox replaced. -/
def setMailbox (d : Nat) (x : Mailbox) (s : State) : State :=
  { s with mailboxes := SMap.set (fun _ => Mailbox.reset) s.mailboxes d x }

/-- The message type of the request: its first byte. -/
def mbType (d : Nat) (s : State) : Nat := (SMap.get (fun _ => (0 : Byte)) (mailbox d s).req 0).toNat

/-- GO written with REQ_LEN: ignored while BUSY; a bad length or type sets ERR; else the request is taken (R470). -/
def mailboxGo (d len : Nat) (s : State) : State :=
  let s1 := sx MB_CTL.REQ_LEN d len s
  if gx MB_STAT.BUSY d s = 1 then countG .mbBusyWrite s1
  else if len = 0 || 4096 < len || (mbType d s ≠ 5 && mbType d s ≠ 6) then countG .mbReqBad (sx MB_STAT.ERR d 1 s1)
  else sx MB_STAT.BUSY d 1 s1

/-- MAILBOX_GO (R470). Through any function but its own the mailbox is an undefined offset (R469). -/
def execMailboxGo (d fn : Dom) (reqLen : BitVec 13) (s : State) : Host.Outcome State Fault Refusal :=
  hosted (if d = fn then mailboxGo d.val reqLen.toNat else unmapped) s

/-- The response is written: BUSY clears, DONE and RSP_LEN are set, MSI-X vector 1 of the function fires (R470). -/
def mailboxResponse (d : Nat) (rsp : List Byte) (s : State) : State :=
  if gx MB_STAT.BUSY d s = 0 then s
  else
    emit (.msix d 1) (sx MB_STAT.RSP_LEN d rsp.length (sx MB_STAT.DONE d 1 (sx MB_STAT.BUSY d 0
      (setMailbox d { mailbox d s with rsp := rsp } s))))

/-- MAILBOX_RESPONSE (R470). -/
def execMailboxResponse (d : Dom) (rsp : List Byte) (s : State) : Host.Outcome State Fault Refusal :=
  manned (mailboxResponse d.val rsp) s

end Sys2Proof.Machine
end

