-- ==== Sys2Proof/Machine/Reads.lean ====
section
/-! DEFINITION. What a read through a function of BAR0 returns: the event log (R357, R465 to R467), the snapshot area (R397,
R401), SCAN_DATA (R412), the mailbox buffers (R469), every register and window (R458, R462, R463); TRNG_STAT_READ. -/

namespace Sys2Proof.Machine

/-- A domain observes a partition: PART_SEC names it, or it holds the fabric telemetry right (R357). -/
def observes (fn p : Nat) (s : State) : Bool := gx PART_SEC.DOM p s == fn || gx DOM_RIGHTS.TELEMETRY fn s == 1

/-! ### The event log -/

/-- The partition that a record carries (Table 21-7). -/
def recPart (ws : List Nat) : Option Nat :=
  if bits (nth ws 2) 40 1 = 1 then some (bits (nth ws 2) 28 12) else none

/-- Word `k` of the record in a slot: of a partition that the domain does not observe it shows SEQ alone (R466). -/
def logWord (fn slot k : Nat) (s : State) : Nat :=
  let ws := SMap.get (fun _ => ([] : List Nat)) s.ox.events.log slot
  match recPart ws with
  | some p => if k = 0 || observes fn p s then nth ws k else 0
  | none => nth ws k

/-! ### The snapshot area (R397) -/

/-- The per-port entries (Table 18-4). -/
def snapPort : List Ctr := [
  .flitsRx, .flitsTx, .bytesRx, .bytesTx, .pktsRx, .pktsTx, .fecCorrected, .fecUncorrectable, .replayNak, .replayTimeout,
  .echoSent, .echoSuppressed, .creditStall, .linkDown, .tailMarked, .ctStallAbort]

/-- The per-partition entries (Table 18-4). -/
def snapPart : List Ctr := [
  .pktsAdmitted, .cellsAdmitted, .contribsAdmitted, .pktsDelivered, .quotaHold, .shapeHold, .agedPkt, .ingressPartDeny,
  .noRoutePkt, .tailMarked, .mcgDeny, .lunaChunksOk, .lunaChunksFailed, .lunaDeadlinePartial, .usedPeak]

/-- Word `k` of a snapshot's header (Table 18-5). -/
def snapHeader (x : Snap) (k : Nat) : Nat :=
  match k with
  | 0 => x.seq % 2 ^ 32 + x.oneshot.toNat * 2 ^ 32 + x.calm.toNat * 2 ^ 33 + x.late.toNat * 2 ^ 34 + x.qual % 8 * 2 ^ 35
  | 1 => x.ft % 2 ^ 64
  | 2 => x.taken % 2 ^ 64
  | 3 => (x.stale.map fun d => 2 ^ d).sum
  | _ => 0

/-- A latched counter of a group. -/
def snapCtr (x : Snap) (p : Place) (group : List Ctr) (i : Nat) : Nat :=
  match group[i]? with
  | none => 0
  | some c => SMap.get (fun _ => 0) x.ctrs (ctrKey p c)

/-- The word at an offset of a snapshot buffer: rows of partitions that the domain does not observe read zero (R401). -/
def snapWord (fn b off : Nat) (s : State) : Nat :=
  match if b = 0 then s.tele.ox.buf0 else s.tele.ox.buf1 with
  | none => 0
  | some x =>
    if off < 0x1000 then snapHeader x (off / 8)
    else if off < 0x2000 then snapCtr x .glob groupGlobal ((off - 0x1000) / 8)
    else if off < 0x102000 then
      let d := (off - 0x2000) / 0x4000
      snapCtr x (.die d) (groupOf (some d)) ((off - 0x2000) % 0x4000 / 8)
    else if off < 0x114000 then snapCtr x (.port ((off - 0x102000) / 0x100)) snapPort ((off - 0x102000) % 0x100 / 8)
    else if off < 0x194000 then
      let p := (off - 0x114000) / 0x80
      if observes fn p s then snapCtr x (.part p) snapPart ((off - 0x114000) % 0x80 / 8) else 0
    else 0

/-! ### Reads -/

/-- A byte of a mailbox's buffers (Table 21-10). -/
def mailboxByte (fn off : Nat) (s : State) : Byte :=
  if off < 0x2000 then SMap.get (fun _ => (0 : Byte)) (mailbox fn s).req (off - 0x1000)
  else ((mailbox fn s).rsp[off - 0x2000]?).getD 0

/-- Bytes of BAR0 that also accept aligned 4-byte reads and reads of up to 4 KiB: the log, the snapshot area, SCAN_DATA,
completion records and RD slots, the mailbox buffers (R458). -/
def bufferAt (fn off len : Nat) : Bool :=
  let mb := 0x6000000 + 0x4000 * fn
  let ring := 0x100000 + 0x10000 * fn
  let inside (lo hi : Nat) : Bool := decide (lo ≤ off) && decide (off + len ≤ hi)
  inside 0x200000 0x800000 || inside 0x80000 0x81000 || inside (ring + 0x1000) (ring + 0x8000) ||
    inside (mb + 0x1000) (mb + 0x3000)

/-- The aligned word at an offset of those buffers; SCAN_DATA as served. -/
def bufferWord (fn off : Nat) (s : State) : Nat :=
  let mb := 0x6000000 + 0x4000 * fn
  if 0x200000 ≤ off && off < 0x400000 then logWord fn ((off - 0x200000) / 64) (off % 64 / 8) s
  else if 0x400000 ≤ off && off < 0x800000 then snapWord fn ((off - 0x400000) / 0x200000) (off % 0x200000) s
  else if 0x80000 ≤ off && off < 0x81000 then (if scanServed fn s then scanValue fn (off - 0x80000) s else 0)
  else if mb + 0x1000 ≤ off && off < mb + 0x3000 then
    ofLE ((List.range 8).map fun k => mailboxByte fn (off - mb + k) s)
  else match ctlAt fn off with
    | some (some a) => ctlValue fn a s
    | _ => 0

/-- Byte `off` of those buffers. -/
def bufferByte (fn off : Nat) (s : State) : Nat := bufferWord fn (off / 8 * 8) s / 256 ^ (off % 8) % 256

/-- `len` bytes of those buffers, little-endian. -/
def bufferBytes (fn off len : Nat) (s : State) : Nat :=
  (List.range len).foldr (fun k n => bufferByte fn (off + k) s + 256 * n) 0

/-- The OX9 is in Chrysalis. -/
def inChrysalis (s : State) : Bool := gx START_STAT.PHASE 0 s == 7

/-- What BAR0 serves of itself in Chrysalis: the global block, DIE_INFO, the event log, the mailbox, and the rings of the programs it
serves (R443; log entry 139, DEDUCED). -/
def chrysalisReads (fn off : Nat) : Bool :=
  let inside (lo hi : Nat) : Bool := decide (lo ≤ off) && decide (off < hi)
  inside 0 0x100000 || inside (0x100000 + 0x10000 * fn) (0x110000 + 0x10000 * fn) || inside 0x200000 0x400000 ||
    (inside 0x1000000 0x5000000 && off % 0x100000 == 0) || inside (0x6000000 + 0x4000 * fn) (0x6004000 + 0x4000 * fn)

/-- What it lets a host write there: the mailbox, the ring, the status bits that a write clears. -/
def chrysalisWrites (fn off : Nat) : Bool :=
  let inside (lo hi : Nat) : Bool := decide (lo ≤ off) && decide (off < hi)
  inside (0x100000 + 0x10000 * fn) (0x110000 + 0x10000 * fn) || inside (0x6000000 + 0x4000 * fn) (0x6004000 + 0x4000 * fn) ||
    off == 0x18 || off == 0x20

/-- A read that BAR0 accepts: of SCAN_DATA and SCAN_CTL under R412, of the event log what the Monarch's SRAM gives (R31), of a
buffer its bytes, of a register its word, whose RC fields it clears; the window of a die that is OFF, failed or retired reads
zero (R463). -/
def bar0Read (fn off len : Nat) (s : State) : State :=
  if inChrysalis s && !chrysalisReads fn off then emit (.readData 0) s
  else if 0x80000 ≤ off && off < 0x81000 && !scanServed fn s then scanDenied s
  else if 0x80000 ≤ off && off < 0x81000 then
    emit (.readData (bufferBytes fn off len s)) (noteUe fn (off / 8 * 8 - 0x80000) (ceilDiv (off % 8 + len) 8) s)
  else if 0x200000 ≤ off && off + len ≤ 0x400000 then
    let r := monarchRead (toLE len (bufferBytes fn off len s)) s
    emit (.readData (ofLE r.1)) r.2
  else if bufferAt fn off len then emit (.readData (bufferBytes fn off len s)) s
  else match ctlRead fn off s with
    | some (v, s1) => emit (.readData v) s1
    | none => emit (.readData 0) s

/-- A read of TRNG_STAT returns the word and clears the failure counts, but those of a frozen die (R409). -/
def trngStatRead (t : TrngUnit) (s : State) : State :=
  let (u, i) := trngAt t
  let s1 := emit (.readData (getW u .trngStat i 0 s).toNat) s
  if u = .ox9 && frozenReg .trngStat i s then s1
  else sf u TRNG_STAT.APT_FAILS i 0 (sf u TRNG_STAT.RCT_FAILS i 0 s1)

/-- TRNG_STAT_READ (R373): the window of a die that is OFF, failed or retired reads zero (R463), and BAR0 does not serve it in
Chrysalis (R443). -/
def execTrngStatRead (t : TrngUnit) (s : State) : Host.Outcome State Fault Refusal :=
  match t with
  | .monarch d => hosted (fun s => if dieDead (62 + d.val) s || inChrysalis s then emit (.readData 0) s else trngStatRead t s) s
  | .oeb _ => run (trngStatRead t) s

end Sys2Proof.Machine
end

