-- ==== Sys2Proof/Machine/RegAccess.lean ====
section
/-! DEFINITION. Writes of registers outside Monarch programs: through BAR0 (R4, R5, R8, R458, R459, R463, R491), in an OEB's
register space (R238, R245 to R253, R266, R274, R277, R346), through a Skipper's host-facing BAR0 (Table 14-5):
REGISTER_WRITE, UNMAPPED_ACCESS. -/

namespace Sys2Proof.Machine

/-- A write of a word whose named bits are `mask`. The effect of a nonzero rsv bit is undefined (R5): the named bits then
take a free value, the rsv bits keep reading zero (log entry 18, DESIGN CHOICE). -/
def openWrite (mask v : Nat) (f : Nat → State → State) (s : State) : State :=
  if v - Nat.land v mask ≠ 0 then f (Nat.land (freeVal s) mask) (draw s) else f v s

/-- A write of word `w` of a register, by its field map. -/
def checkedWrite (r : Reg) (w v : Nat) (f : Nat → State → State) (s : State) : State := openWrite (fieldMask r w) v f s

/-! ### BAR0 -/

/-- The function's domain may write a directly written register (R491). -/
def directRight (fn : Nat) (r : Reg) (i : Nat) (s : State) : Bool :=
  match r with
  | .foldCtl | .cmapCtl | .snapCtl => gx DOM_RIGHTS.TELEMETRY fn s == 1
  | .hostCfg => if i = 0 then gx DOM_RIGHTS.SKIP0 fn s == 1 else gx DOM_RIGHTS.SKIP1 fn s == 1
  | _ => false

/-- A write by a domain that holds the right; a frozen OX9 keeps the register (R409). -/
def directWrite (r : Reg) (i w v : Nat) (s : State) : State :=
  if gb CALM_STAT.CALM 0 s then s else commitWrites [⟨r, i, w, v⟩] s

/-- RING_CTL written: EN, and FLUSH where it is 1 (Table 19-4a); a ring enabled with an overrun halts (R420). -/
def ringCtlWrite (d v : Nat) (s : State) : State :=
  let s1 := sx RING_CTL.EN d (bits v 0 1) s
  let s2 := if bits v 1 1 = 1 then ringFlush d s1 else s1
  if bits v 0 1 = 1 then ringHalt d s2 else s2

/-- A write of `RING_TAIL`: its TAIL field is the low 32 bits (R357). -/
def ringTailWrite (d v : Nat) (s : State) : State := ringTail d (v % 2 ^ 32) s

/-- The mailbox's first register written: REQ_LEN, and GO where it is 1 (Table 21-10). -/
def mbCtlWrite (d v : Nat) (s : State) : State :=
  if bits v 0 1 = 1 then mailboxGo d (bits v 1 13) s else sx MB_CTL.REQ_LEN d (bits v 1 13) s

/-- An aligned 8-byte write of word `w` of entry `i` of a register through function `fn`. -/
def regDirect (fn : Nat) (r : Reg) (i w v : Nat) (s : State) : State :=
  if programMay r then
    if directRight fn r i s then checkedWrite r w v (directWrite r i w) s else unmapped s
  else
    match r with
    | .scanCtl => if scanServed fn s then checkedWrite r w v (regWrite .ox9 r i w) s else countG .scanDeny s
    | .smpRing => if i = fn then checkedWrite r w v (regWrite .ox9 r i w) s else s
    | .ctxIndex => checkedWrite r w v (directWrite r i w) s
    | .ringCtl => openWrite 3 v (ringCtlWrite i) s
    | .ringTail => checkedWrite r w v (ringTailWrite i) s
    | .mbCtl => openWrite (2 ^ 14 - 1) v (mbCtlWrite i) s
    | _ => checkedWrite r w v (regWrite .ox9 r i w) s

/-- Bytes of the request buffer written; ignored and counted while BUSY (R470). -/
def reqWrite (d off n v : Nat) (s : State) : State :=
  if gx MB_STAT.BUSY d s = 1 then countG .mbBusyWrite s
  else
    let m := mailbox d s
    let req := (List.range n).foldl (fun m k => SMap.set (fun _ => (0 : Byte)) m (off + k) (BitVec.ofNat 8 (v / 256 ^ k))) m.req
    setMailbox d { m with req := req } s

/-- Half of a command word slot's 64-bit word written, or all of it. -/
def slotWrite (d off n v : Nat) (s : State) : State :=
  let i := 2048 * d + off / 16
  let w := off % 16 / 8
  let lo := if off % 8 = 4 then 32 else 0
  setW .ox9 .ringWord i w (BitVec.ofNat 64 (setBits (getW .ox9 .ringWord i w s).toNat lo (8 * n) v)) s

/-- A write of 8 or 4 bytes through function `fn`. -/
def bar0Write (fn off : Nat) (four : Bool) (v : Nat) (s : State) : State :=
  let n := if four then 4 else 8
  let mb := 0x6000000 + 0x4000 * fn
  let ring := 0x100000 + 0x10000 * fn
  if off % n ≠ 0 then unmapped s
  else if mb + 0x1000 ≤ off && off < mb + 0x2000 then reqWrite fn (off - (mb + 0x1000)) n v s
  else if ring + 0x8000 ≤ off && off < ring + 0x10000 then slotWrite fn (off - (ring + 0x8000)) n v s
  else if four then unmapped s
  else if (mb + 0x2000 ≤ off && off < mb + 0x3000) || (0x200000 ≤ off && off < 0x800000) then s
  else if 0x80000 ≤ off && off < 0x81000 then (if scanServed fn s then s else countG .scanDeny s)
  else
    let win := 0x1000000 ≤ off && off < 0x5000000
    if win && off % 0x100000 ≠ 0 && dieDead ((off - 0x1000000) / 0x100000) s then s
    else
      match ctlAt fn off with
      | none => unmapped s
      | some (some (.reg r i w)) => regDirect fn r i w v s
      | some _ => s

/-- An offset of the window of a die that is OFF, failed or retired, but for its DIE_INFO (R463). -/
def deadWindow (off : Nat) (s : State) : Bool :=
  decide (0x1000000 ≤ off) && decide (off < 0x5000000) && off % 0x100000 != 0 && dieDead ((off - 0x1000000) / 0x100000) s

/-- A host's write over the management port; in Chrysalis BAR0 serves little of itself (R443). -/
def hostWrite (fn off : Nat) (four : Bool) (v : Nat) (s : State) : State :=
  if inChrysalis s && !chrysalisWrites fn off then s else bar0Write fn off four v s

/-- An access that BAR0 accepts: 8 aligned bytes of a register; of the log, the snapshot area, SCAN_DATA, completion records,
RD slots and mailbox buffers also reads of 4 aligned bytes and of up to 4 KiB; of word slots and the request buffer also
writes of 4 aligned bytes (R458); of a dead die's window any 8 aligned bytes (R463). -/
def bar0Accepts (fn off len : Nat) (write : Bool) (s : State) : Bool :=
  let mb := 0x6000000 + 0x4000 * fn
  let ring := 0x100000 + 0x10000 * fn
  let inside (lo hi : Nat) : Bool := decide (lo ≤ off) && decide (off + len ≤ hi)
  let word8 := len = 8 && off % 8 = 0 &&
    (deadWindow off s || bufferAt fn off len || inside (ring + 0x8000) (ring + 0x10000) || (ctlAt fn off).isSome)
  let small := if write then len = 4 && off % 4 = 0 && (inside (mb + 0x1000) (mb + 0x2000) || inside (ring + 0x8000) (ring + 0x10000))
    else ((len = 4 && off % 4 = 0) || (1 ≤ len && len ≤ 4096)) && bufferAt fn off len
  word8 || small

/-- Any other access reads zero, is ignored, counts and raises (R8, R458). A read that BAR0 accepts returns what its address
holds (log entry 82, DESIGN CHOICE: the table has no row for it); a write that it accepts is REGISTER_WRITE's. -/
def unmappedAccess (fn off len : Nat) (write : Bool) (s : State) : State :=
  if bar0Accepts fn off len write s then (if write then s else bar0Read fn off len s)
  else
    let s1 := unmapped s
    if write then s1 else emit (.readData 0) s1

/-! ### An OEB's register space -/

/-- The registers of an OEB (chapters 3, 11, 12, 15 to 18). R308 gives it the fields of LINK_CFG and no offset: they stand at
0x00020 (log entry 133, DESIGN CHOICE). -/
def oebMap : List MapRow := [
  ⟨0x00000, 8, 1, 1, .oebId⟩, ⟨0x00008, 8, 1, 1, .oebCfg⟩, ⟨0x00010, 8, 1, 1, .expBase⟩, ⟨0x00018, 8, 1, 1, .expSize⟩,
  ⟨0x00020, 16, 1, 2, .linkCfg⟩,
  ⟨0x00200, 8, 64, 1, .sideMap⟩, ⟨0x01000, 8, 16, 1, .portCfg⟩, ⟨0x01100, 8, 16, 1, .portArb⟩, ⟨0x10000, 16, 1024, 2, .ctxCfg⟩,
  ⟨0x20000, 8, 4096, 1, .lcEntry⟩, ⟨0x30000, 64, 1024, 8, .collRx⟩, ⟨0x50000, 16, 1024, 2, .xlatCfg⟩,
  ⟨0x54000, 16, 1024, 2, .xlatFault⟩, ⟨0x58000, 8, 1, 1, .xlatInv⟩, ⟨0x58008, 8, 1, 1, .xlatInvStatus⟩,
  ⟨0x58010, 8, 1, 1, .xlatInvVa⟩, ⟨0x60000, 8, 4096, 1, .apt⟩, ⟨0x70000, 8, 1, 1, .dmaCfg⟩, ⟨0x71000, 32, 64, 4, .dmaCh⟩,
  ⟨0x80000, 24, 1, 3, .timeStat⟩, ⟨0x80020, 16, 1, 2, .timeCfg⟩, ⟨0x80100, 8, 16, 1, .timeAsym⟩, ⟨0x80200, 8, 1, 1, .foldCtl⟩,
  ⟨0x80210, 8, 1, 1, .logSeq⟩, ⟨0x80300, 8, 1, 1, .snapCtl⟩, ⟨0x9F000, 8, 1, 1, .trngStat⟩, ⟨0xD0000, 16, 8192, 2, .ksInfo⟩]

/-- The bits an OEB register names: in its TIME_CFG, ROOT, PPS_EN, RATE_SET and PPS_PHASE are rsv (R346). -/
def oebMask (r : Reg) (w : Nat) : Nat :=
  if r = .timeCfg then
    if w = 0 then fieldMask r w - Nat.land (fieldMask r w) (3 + (2 ^ 16 - 1) * 2 ^ 20)
    else fieldMask r w - Nat.land (fieldMask r w) (2 ^ 32 - 1)
  else fieldMask r w

/-- The entries whose SEND bit is set. -/
def sendCount (side : Side) (s : State) : Nat :=
  ((regEntries .collRx (s.unit (.oeb side)).regs).filter fun e => e.2.1 = 0 && go side COLL_RX.SEND e.1 s == 1).length

/-- COLL_RX written: a 65th SEND bit is refused; an entry that starts to send starts at position 0 (R253, R255). -/
def collWrite (side : Side) (i w v : Nat) (s : State) : State :=
  let u : UnitId := .oeb side
  if w ≠ 0 then regWrite u .collRx i w v s
  else
    let was := go side COLL_RX.SEND i s = 1
    if !was && bits v COLL_RX.SEND.lo 1 = 1 && 64 ≤ sendCount side s then countO side .collSendFull s
    else
      let live := was && go side COLL_RX.VALID i s = 1
      let s1 := regWrite u .collRx i w v s
      if live then s1 else modOeb side (fun o => { o with windows := o.windows.filter fun e => e.1 / 32 ≠ i }) s1

/-- DMA_CH written: STOP, ERR and TAIL act as their rows do; CTX, RING_LOG2 and RING_BASE are fixed while EN = 1 (R277). -/
def dmaChWrite (side : Side) (c w v : Nat) (s : State) : State :=
  let u : UnitId := .oeb side
  let on := go side DMA_CH.EN c s = 1
  match w with
  | 0 =>
    let ctx := bits v DMA_CH.CTX.lo DMA_CH.CTX.len
    let lg := bits v DMA_CH.RING_LOG2.lo DMA_CH.RING_LOG2.len
    let changes := ctx ≠ go side DMA_CH.CTX c s || lg ≠ go side DMA_CH.RING_LOG2 c s
    let s1 := if !on then so side DMA_CH.RING_LOG2 c lg (so side DMA_CH.CTX c ctx s)
              else if changes then countO side .dmaCfgLocked s else s
    let s2 := so side DMA_CH.PRIO c (bits v DMA_CH.PRIO.lo DMA_CH.PRIO.len) s1
    let s3 := if bits v DMA_CH.EN.lo 1 = 1 then so side DMA_CH.EN c 1 s2 else if on then dmaDisable side c s2 else s2
    if bits v DMA_CH.STOP.lo 1 = 1 then dmaStop side c s3 else s3
  | 1 => if on then countO side .dmaCfgLocked s else regWrite u .dmaCh c 1 v s
  | 2 => tailWrite side c (v % 2 ^ 32) s
  | _ => if bits v DMA_CH.ERR.lo 1 = 1 then dmaErrClear side c s else s

/-- XLAT_CFG written: fixed while its context is valid; MODE 5 to 7 refused (R266). -/
def xlatCfgWrite (side : Side) (i w v : Nat) (s : State) : State :=
  if go side CTX_CFG.VALID i s = 1 || (w = 0 && 5 ≤ bits v 0 3) then countO side .xlatCfgLocked s
  else regWrite (.oeb side) .xlatCfg i w v s

/-- A field of a written value replaced by what the register holds, where it is locked. -/
def keepField (side : Side) (f : Fld) (i v : Nat) (s : State) : Nat :=
  if go side OEB_ID.LOCK 0 s = 1 then setBits v f.lo f.len (go side f i s) else v

/-- PORT_CFG written: a port whose EN becomes 1 starts to train (R304). -/
def portCfgWrite (side : Side) (q : Nat) (v : Nat) (s : State) : State :=
  let was := go side PORT_CFG.EN q s
  let s1 := nportsSet side (regWrite (.oeb side) .portCfg q 0 v s)
  if was = 0 && bits v PORT_CFG.EN.lo 1 = 1 then
    if h : q < 16 then oebPortEnable side ⟨q, h⟩ s1 else s1
  else s1

/-- A write of word `w` of entry `i` of an OEB register. -/
def oebWrite (side : Side) (r : Reg) (i w v : Nat) (s : State) : State :=
  let u : UnitId := .oeb side
  match r with
  | .oebId => regWrite u r i w (keepField side OEB_ID.EP 0 v s) s
  | .oebCfg => regWrite u r i w (keepField side OEB_CFG.GW_SIDE 0 v s) s
  | .sideMap => if go side OEB_ID.LOCK 0 s = 1 then s else regWrite u r i w v s
  | .portCfg => portCfgWrite side i v s
  | .lcEntry => lcTest side i (regWrite u r i w v s)
  | .collRx => collWrite side i w v s
  | .xlatCfg => xlatCfgWrite side i w v s
  | .xlatInv => xlatInv side (bits v 0 3) (bits v 3 1 == 1) (bits v 4 16) (bits v 20 4) (bits v 24 16) s
  | .dmaCh => dmaChWrite side i w v s
  | _ => regWrite u r i w v s

/-- A write in an OEB's register space; one that is no aligned 8-byte write of a register is ignored. -/
def oebAccess (side : Side) (off : Nat) (four : Bool) (v : Nat) (s : State) : State :=
  if four || off % 8 ≠ 0 then s
  else
    match findRow oebMap off with
    | none => s
    | some (r, i, w) => openWrite (oebMask r w) v (oebWrite side r i w) s

/-- The word of an OEB's snapshot buffer at a byte offset: SEQ, FT and QUAL, from 0x1000 on the counters (R400). -/
def oebSnapWord (side : Side) (off : Nat) (s : State) : Nat :=
  match (snapOf (.oeb side) s).buf0 with
  | none => 0
  | some x =>
    if off = 0 then x.seq
    else if off = 8 then x.ft
    else if off = 16 then x.qual % 8
    else if 0x1000 ≤ off then snapCtr x (.oeb side.val) groupOeb ((off - 0x1000) / 8)
    else 0

/-- A counter of an OEB by its number (R394, R464). -/
def oebCounter (side : Side) (i : Nat) (s : State) : Nat :=
  match groupOeb[i]? with
  | some c => counter (.oeb side) (.oeb side.val) c s
  | none => 0

/-- The word at an offset of an OEB's register space: its registers, its counters at 0xA_0000 with COUNTER_DIR at 0xA_4000 (R394,
R464), its snapshot buffer at 0xB_0000 (R400), its log ring of 1,024 records at 0xC_0000 (R468). -/
def oebWord (side : Side) (off : Nat) (s : State) : Nat :=
  if 0xA0000 ≤ off && off < 0xA4000 then oebCounter side ((off - 0xA0000) / 8) s
  else if 0xA4000 ≤ off && off < 0xB0000 then dirWord groupOeb (off - 0xA4000)
  else if 0xB0000 ≤ off && off < 0xC0000 then oebSnapWord side (off - 0xB0000) s
  else if 0xC0000 ≤ off && off < 0xD0000 then
    nth (SMap.get (fun _ => ([] : List Nat)) (s.unit (.oeb side)).events.log ((off - 0xC0000) / 64)) (off % 64 / 8)
  else match findRow oebMap off with
    | some (r, i, w) => (getW (.oeb side) r i w s).toNat
    | none => 0

/-- What the RC fields of an OEB register word lose when it is read (R4). -/
def oebClearRc (side : Side) (off : Nat) (s : State) : State :=
  match findRow oebMap off with
  | some (r, i, w) => (fieldsOf r w).foldl (fun s x => if x.acc = .rc then sf (.oeb side) x.fld i 0 s else s) s
  | none => s

/-- A read in an OEB's register space; one that is no aligned 8-byte read returns zero. -/
def oebRead (side : Side) (off len : Nat) (s : State) : State :=
  if len ≠ 8 || off % 8 ≠ 0 then emit (.readData 0) s else emit (.readData (oebWord side off s)) (oebClearRc side off s)

/-! ### A Skipper's host-facing BAR0 -/

/-- The host writes RX_CONS and TX_TAIL; a write to any other field of HOST_CFG is ignored and counted (Table 14-5). -/
def hostAccess (k off : Nat) (four : Bool) (v : Nat) (s : State) : State :=
  if four || off % 8 ≠ 0 then s
  else if off = 0x30 then sx HOST_CFG.TX_TAIL k (bits v 32 32) (sx HOST_CFG.RX_CONS k (bits v 0 32) s)
  else if off < 0x30 then countD (60 + k) .gwHostCfgDeny s
  else s

/-- The word at an offset of a Skipper's host-facing BAR0: HOST_CFG and HOST_STAT (R462). -/
def hostFacing (k off : Nat) (s : State) : Nat :=
  if off % 8 ≠ 0 then 0 else if off < 0x38 then regValue .hostCfg k (off / 8) s else if off = 0x40 then regValue .hostStat k 0 s else 0

/-! ### The rows -/

/-- UNMAPPED_ACCESS (R8): an access of BAR0; a read in an OEB's register space or by a Skipper's host (log entry 82, DESIGN CHOICE). -/
def execUnmappedAccess (t : BusTarget) (off len : Nat) (write : Bool) (s : State) : Host.Outcome State Fault Refusal :=
  match t with
  | .bar0 fn => hosted (unmappedAccess fn.val off len write) s
  | .oeb side => run (if write then id else oebRead side off len) s
  | .host k => live (if write then id else emit (.readData (if len = 8 then hostFacing k.val off s else 0))) s

/-- REGISTER_WRITE (R4). -/
def execRegisterWrite (t : BusTarget) (off : Nat) (four : Bool) (v : Word) (s : State) : Host.Outcome State Fault Refusal :=
  match t with
  | .bar0 fn => hosted (hostWrite fn.val off four v.toNat) s
  | .oeb side => run (oebAccess side off four v.toNat) s
  | .host k => live (hostAccess k.val off four v.toNat) s

end Sys2Proof.Machine
end

