-- ==== Sys2Proof/Machine/Deadlines.lean ====
section
/-! DEFINITION. What a forward step of fabric time fires (R351, Table 15-6), and the commands that may make one: BREEZE_RX,
BREEZE_FRAME_RX, PPS_IN_EDGE, TIME_SET, PROGRAM_COMMIT (R337, R338, R341, R426). -/

namespace Sys2Proof.Machine

/-! ### The deadlines that a step passes -/

/-- A deadline: its fabric time, the unit's clock test that finds it. The test looks at the state again. -/
abbrev Due := Nat × (State → State)

/-- A deadline in order of time, behind those of the same time. -/
def insertDue (d : Due) : List Due → List Due
  | [] => [d]
  | x :: xs => if d.1 < x.1 then d :: x :: xs else x :: insertDue d xs

/-- Deadlines in ascending fabric time. -/
def sortDue (l : List Due) : List Due := l.foldl (fun a d => insertDue d a) []

/-- The first multiple of a period after `f0`: a periodic event fires once in a step. -/
def nextMultiple (per f0 : Nat) : Nat := (f0 / per + 1) * per

/-- The pending programs (R426). -/
def dueProgs (s : State) : List Due :=
  (s.monarch.progs.map (·.e)).dedup.map fun t => (t, fun s => commitDue t (2 * s.monarch.progs.length + 2) s)

/-- The packets held at ingress: the ft at which their age passes the limit (R116, R117). -/
def dueHeld (f0 : Nat) (s : State) : List Due :=
  (s.fwd.held.filter fun x => vcAged x.pkt.hdr.vc.toNat && decide (ageOf x.pkt.hdr.ageStamp.toNat f0 < 32768)).map fun x =>
    (256 * (f0 / 256 + ageLimit s + 1 - ageOf x.pkt.hdr.ageStamp.toNat f0), fun s => heldAgeOut x.src x.pkt.hdr.vc.toNat s)

/-- The started packets whose next cell has not come (R108). -/
def dueStalls (s : State) : List Due :=
  (List.range 288).flatMap fun p => (List.range 6).flatMap fun v =>
    match queueOf p v s with
    | [] => []
    | c :: _ => if c.started && !flitReady p v s then [(c.since + 256 * gx FWD_CTRL.CT_STALL_LIMIT 0 s, ctStall p v)] else []

/-- The snoops that wait for an answer (R98). -/
def dueAcks (s : State) : List Due :=
  (List.range 64).flatMap fun m => (cwWaiting m s).flatMap fun x =>
    match cwLine x.1 x.2 s with
    | none => []
    | some l => [(l.since + 2500 * gx CW_CTRL.ACK_TIMEOUT 0 s, cwAckTimeout x.1 x.2 m)]

/-- The entries of the remote tables (R323). -/
def dueRemotes (s : State) : List Due :=
  (List.finRange 2).flatMap fun k => (skipOf k.val s).remote.map fun r =>
    (r.since + 2500 * gx GW_CTRL.REMOTE_TO 0 s, remoteTimeout k r.hdr.srcEp.toNat r.hdr.tag.toNat)

/-- The step deadlines of the Luna dies (R166). -/
def dueLuna (s : State) : List Due :=
  (List.range 8).flatMap fun d => ((lunaDie d s).ctxs.map (·.1)).flatMap fun c =>
    match stepDeadline d c s with
    | none => []
    | some t => [(t, lunaDeadline d c)]

/-- The transitions of key rotations (R372). -/
def dueKeys (u : UnitId) (s : State) : List Due :=
  (heldSlots u s).flatMap fun n =>
    let t := gf u KS_INFO.ROT_AT n s
    let e := t + 2500 * gf u KS_INFO.OVERLAP n s
    let st := gf u KS_INFO.STATE n s
    if st = 2 then [(t, rotationTime u n), (e, overlapEnd u n)] else if st = 3 then [(e, overlapEnd u n)] else []

/-- The fold entries: window and longest life (R377). -/
def dueFolds (u : UnitId) (s : State) : List Due :=
  (entriesOf u s).flatMap fun x =>
    [(x.winFt + x.foldWin * 2500, closeEntry u x.firstSeq fun y => decide (y.winFt + y.foldWin * 2500 ≤ ftOf u s)),
     (x.openFt + x.maxSpan * x.foldWin * 2500,
      closeEntry u x.firstSeq fun y => decide (y.openFt + y.maxSpan * y.foldWin * 2500 ≤ ftOf u s))]

/-- The marker due time of a unit's links (R339). -/
def dueMarkers (u : UnitId) (f0 : Nat) (s : State) : List Due :=
  let t := nextMultiple (max 1 (gf u TIME_CFG.MARKER_INT 0 s) * 2500) f0
  match u with
  | .ox9 => ((List.finRange 288).map fun p => (t, breezeSend (.ox p))) ++ [(t, breezeChain 0), (t, breezeChain 1)]
  | .oeb side => (List.finRange 16).map fun q => (t, breezeSend (.oeb side q))

/-- The snapshot instants: the periodic one, each one-shot (R396, R400). -/
def dueSnaps (u : UnitId) (f0 : Nat) (s : State) : List Due :=
  (nextMultiple (max 1 (snapOf u s).period * 2500) f0, snapUnit u) :: (snapOf u s).oneShots.map fun t => (t, snapUnit u)

/-- The OX9's other periodic deadlines: the map boundary, the pulse edges, the loss of the pulse input (R149, R349, R338). -/
def duePeriodic (f0 : Nat) (s : State) : List Due :=
  let edge (k : Nat) : Due :=
    let per := max 1 (gx PPS_OUT_CFG.PERIOD k s) * 2500
    let ph := gx PPS_OUT_CFG.PHASE k s
    (if f0 < ph then ph else ph + nextMultiple per (f0 - ph), ppsRise k)
  [(nextMultiple (max 1 s.obs.cmapPeriod * 2500) f0, cmapBoundary), edge 0, edge 1] ++
    (match s.ox.time.ppsPrevFt with | none => [] | some f => [(f + 5000000000, ppsLost)])

/-- An OEB's load timeouts, waits, quarantines and timer triggers (R249, R68, R279, R250, R285). -/
def dueOeb (side : Side) (s : State) : List Due :=
  let o := oebOf side s
  let to_ (r : Req) : Nat := r.acc + 2500 * go side CTX_CFG.LOAD_TO r.ctx s
  (o.outst.flatMap fun e => match e.2 with | none => [] | some r => [(to_ r, loadTimeout side e.1)]) ++
  ((o.waiting ++ o.queue).map fun r => (to_ r, waitingTimeout side r)) ++
  (o.waits.map fun w => (w.deadline, waitTimeout side w.dma w.ctx w.atag)) ++
  (o.quar.map fun x => (x.2, quarantineEnd side x.1)) ++
  (o.chans.flatMap fun e => match startable e.2 with
    | none => []
    | some d => if d.trig = 1 then [(d.word 4, timerTrigger side e.1)] else [])

/-- Every deadline of a unit. -/
def dueOf (u : UnitId) (f0 : Nat) (s : State) : List Due :=
  match u with
  | .ox9 => dueProgs s ++ dueHeld f0 s ++ dueStalls s ++ dueAcks s ++ dueRemotes s ++ dueLuna s ++ dueKeys u s ++ dueFolds u s ++
      dueMarkers u f0 s ++ dueSnaps u f0 s ++ duePeriodic f0 s
  | .oeb side => dueOeb side s ++ dueKeys u s ++ dueFolds u s ++ dueMarkers u f0 s ++ dueSnaps u f0 s

/-- The deadlines in (f0, f1] fire in ascending order; a step made meanwhile fires its own after them (R351). -/
def fireDeadlines : Nat → UnitId → Nat → Nat → State → State
  | 0, _, _, _, s => s
  | k + 1, u, f0, f1, s =>
    let due := sortDue ((dueOf u f0 s).filter fun d => decide (f0 < d.1) && decide (d.1 ≤ f1))
    let s1 := due.foldl (fun s d => d.2 s) s
    if f1 < ftOf u s1 then fireDeadlines k u f1 (ftOf u s1) s1 else s1

/-- A correction of ft and, where it was a forward step, what the step fires. -/
def afterStep (u : UnitId) (x : State × Option (Nat × Nat)) : State :=
  match x.2 with
  | none => x.1
  | some (f0, f1) => if f0 < f1 then fireDeadlines (x.1.monarch.progs.length + 2) u f0 f1 x.1 else x.1

/-! ### Markers -/

/-- What an OEB does at the first lock of its fabric time: `was` is its quality before (R346). -/
def firstLock (u : UnitId) (was : Nat) (s : State) : State :=
  match u with
  | .ox9 => s
  | .oeb side => if was = 0 && qualOf u s ≠ 0 then startTimeouts side s else s

/-- A BREEZE insert arrives in ACTIVE: acted on where its body has no erasure and its CRC-8 matches (R295, R340). -/
def breezeRx (e : LinkEnd) (line : Line) (s : State) : State :=
  insertIn e .breeze line (fun gs s =>
    match bodied e 12 gs s with
    | none => countLink e .breezeRxBad s
    | some body =>
      let u := linkUnit e
      let m := markerOfBytes (ftOf u s) body
      firstLock u (qualOf u s) (afterStep u (markerRx u (linkSource e) m.1 m.2 s))) s

/-- BREEZE_RX (R341). -/
def execBreezeRx (e : LinkEnd) (line : Line) (s : State) : Host.Outcome State Fault Refusal :=
  liveAt (linkUnit e) (breezeRx e line) s

/-- A BREEZE frame on a chain link: a marker of that link. It is not forwarded, each OX9 sends its own; a frozen OX9's time
only counts (R410, R418). -/
def breezeFrameRx (i : Nat) (f : List Byte) (s : State) : State :=
  match frameArrives i f s with
  | (.drop, s1) => s1
  | (_, s1) =>
    if frameByte 0 f ≠ 5 || gb CALM_STAT.CALM 0 s1 then s1
    else
      let m := markerOfBytes (ft s1) (frameBody f)
      afterStep .ox9 (markerRx .ox9 (288 + i) m.1 m.2 s1)

/-- BREEZE_FRAME_RX (R418). -/
def execBreezeFrameRx (link : Fin 2) (frame : List Byte) (s : State) : Host.Outcome State Fault Refusal :=
  served (breezeFrameRx link.val frame) s

/-- PPS_IN_EDGE (R338, R350). -/
def execPpsInEdge (s : State) : Host.Outcome State Fault Refusal := live (fun s => afterStep .ox9 (ppsIn s)) s

/-! ### Programs -/

/-- An effect that may step ft, and what a forward step fires. -/
def withStep (f : State → State) (s : State) : State :=
  let s1 := f s
  afterStep .ox9 (s1, some (ft s, ft s1))

/-- TIME_SET (R337). -/
def execTimeSet (dom : Dom) (t : Word) (s : State) : Host.Outcome State Fault Refusal :=
  hosted (withStep (runCmd dom.val (.timeSet t.toNat) [])) s

/-- Programs commit while one is due; each step of ft among them fires what it passes. -/
def commitLoop : Nat → State → State
  | 0, s => s
  | k + 1, s =>
    let s1 := commitDue (ft s) (2 * s.monarch.progs.length + 2) s
    if ft s1 = ft s then s1 else commitLoop k (afterStep .ox9 (s1, some (ft s, ft s1)))

/-- PROGRAM_COMMIT (R426). -/
def execProgramCommit (s : State) : Host.Outcome State Fault Refusal :=
  live (fun s => commitLoop (s.monarch.progs.length + 1) s) s

end Sys2Proof.Machine
end

