-- ==== Sys2Proof/Machine/Flags.lean ====
section
/-! DEFINITION. The truth values the block computes from operands: the comparisons of scalar registers and of vector lanes
(R209, R210), the enabled lanes of a predicate (Table 9-2). The block has no condition flags. -/

namespace Sys2Proof.Machine

/-- The value of a lane (R176, R178); bytes have none. -/
def laneVal (t : ElemT) (x : Nat) : Val := decodeLane t.code x

/-- slt: a signed comparison of two scalars. -/
def sLess (a b : Word) : Bool := decide (a.toInt < b.toInt)

/-- sltu: an unsigned comparison of two scalars. -/
def uLess (a b : Word) : Bool := decide (a.toNat < b.toNat)

/-- A truth value as a scalar. -/
def boolWord (b : Bool) : Word := if b then 1 else 0

/-- The comparisons of vcmp (Table 9-11). -/
inductive Cmp where
  | eq | lt | le | ne
deriving DecidableEq, Repr

/-- The order of two values that are no NaN, as a comparison. -/
def Cmp.ofOrder (c : Cmp) (le ge : Bool) : Bool :=
  match c with
  | .eq => le && ge
  | .lt => le && !ge
  | .le => le
  | .ne => !(le && ge)

/-- A comparison of two lanes: integers as signed, the others by value; with a NaN only `ne` holds. -/
def Cmp.holds (c : Cmp) (t : ElemT) (x y : Nat) : Bool :=
  match laneVal t x, laneVal t y with
  | .nan, _ => decide (c = .ne)
  | _, .nan => decide (c = .ne)
  | a, b => c.ofOrder (leVal a b) (leVal b a)

/-- The enabled lanes below `n` of a predicate: bit `i` governs lane `i` (Table 9-2). -/
def enabledLanes (p : Word) (n : Nat) : List Nat := (List.range n).filter fun i => p.getLsbD i

/-- The word of the bits in a list. -/
def bitsOf (l : List Nat) : Word := l.foldl (fun w i => w ||| BitVec.twoPow 64 i) 0

end Sys2Proof.Machine
end

