-- ==== Sys2Proof/Machine/Operands.lean ====
section
/-! DEFINITION. The operand forms of the Luna instruction set: register files, core-local SRAM, constants, handles and their
entries; how an instruction issues and how it raises an exception (R201 to R209, R215). -/

namespace Sys2Proof.Machine

/-! ### The running task -/

/-- A core with its running task, the open chunk of it and the address of the chunk's scratch record there. -/
structure Run where
  core : Core
  d : Nat
  t : LTask
  c : LChunk
  x : LCore
  scratch : Nat
deriving DecidableEq, Repr

/-- What a core runs; none where it is idle. -/
def runOf (core : Core) (s : State) : Option Run :=
  let d := core.val / 108
  let x := lcore core.val s
  match x.run with
  | none => none
  | some t => (chunkOf d t.id s).map fun c => { core := core, d := d, t := t, c := c, x := x, scratch := scratchOf c t }

/-- The instruction at a task's program counter (R207). -/
def fetchOf (r : Run) (s : State) : Option Instr :=
  ((progOf r.d r.t.id.comm s).bind fun p => textWord p r.x.pc).bind fun w => decodeLunaWord r.core w

/-- Exception causes (Table 9-13). -/
def excBounds : Nat := 1
def excType : Nat := 2
def excOutput : Nat := 4

/-- How an instruction ends: the state after it, or the cause of an exception. -/
abbrev Exec := Except Nat State

/-- An instruction issues on a core: it runs where the core's task has it at its program counter (log entry 48, DEDUCED); an exception
ends the task (R215, R216). -/
def issue (core : Core) (i : Instr) (f : Run → State → Exec) (s : State) : State :=
  match runOf core s with
  | none => s
  | some r =>
    if fetchOf r s = some i then
      match f r s with
      | .ok s1 => s1
      | .error cause => progFault core.val cause s
    else s

/-- The running task meets a word that an uncorrectable error has taken: its chunk fails with POISON (R33, R162). -/
def lostWord (core : Nat) (t : LTask) (s : State) : State :=
  settle (core / 108) t.id.comm (failOpen (core / 108) t.id stPoison s)

/-- An instruction that reads core-local SRAM or staging (R31 to R33): it waits while the row is copied, an error is
counted, a lost word fails the chunk and the instruction does not complete. -/
def issueRead (core : Core) (i : Instr) (r : SramRead) (f : Run → State → Exec) (s : State) : State :=
  match runOf core s with
  | none => s
  | some k =>
    let die := 52 + k.d
    if fetchOf k s ≠ some i || rowStalled die r s then s
    else if readLost r then lostWord core.val k.t (sramRead die r s)
    else issue core i f (sramRead die r s)

/-- The same on an OX9 that does not stand still. -/
def lunaRead (core : Core) (i : Instr) (r : SramRead) (f : Run → State → Exec) (s : State) : Host.Outcome State Fault Refusal :=
  live (issueRead core i r f) s

/-- An instruction that reads neither, on an OX9 that does not stand still. -/
def lunaOp (core : Core) (i : Instr) (f : Run → State → Exec) (s : State) : Host.Outcome State Fault Refusal :=
  live (issue core i f) s

/-- The state with the core as the instruction leaves it, its program counter past the instruction. -/
def retire (r : Run) (x : LCore) (s : State) : State := setCore r.core.val { x with pc := r.x.pc + 1 } s

/-- The state with the chunk and the core as the instruction leaves them. -/
def retireChunk (r : Run) (c : LChunk) (x : LCore) (s : State) : State := retire r x (modChunk r.d r.c.id (fun _ => c) s)

/-! ### Registers (R201) -/

/-- A scalar register; s0 reads zero. -/
def sGet (x : LCore) (n : SReg) : Word := if n.val = 0 then 0 else SMap.get (fun _ => 0) x.sregs n.val

/-- A scalar register written; writes to s0 are ignored. -/
def sPut (x : LCore) (n : SReg) (v : Word) : LCore :=
  if n.val = 0 then x else { x with sregs := SMap.set (fun _ => 0) x.sregs n.val v }

/-- A vector register. -/
def vGet (x : LCore) (n : VReg) : BitVec 512 := SMap.get (fun _ => 0) x.vregs n.val

/-- A vector register written. -/
def vPut (x : LCore) (n : VReg) (v : BitVec 512) : LCore := { x with vregs := SMap.set (fun _ => 0) x.vregs n.val v }

/-- A predicate register; p0 reads all ones. -/
def pGet (x : LCore) (n : PReg) : Word := if n.val = 0 then BitVec.allOnes 64 else SMap.get (fun _ => 0) x.pregs n.val

/-- A predicate register written; writes to p0 are ignored. -/
def pPut (x : LCore) (n : PReg) (v : Word) : LCore :=
  if n.val = 0 then x else { x with pregs := SMap.set (fun _ => 0) x.pregs n.val v }

/-- A handle's view. -/
def aGet (x : LCore) (n : AReg) : View := SMap.get (fun _ => .unbound) x.views n.val

/-- A handle bound. -/
def aPut (x : LCore) (n : AReg) (v : View) : LCore := { x with views := SMap.set (fun _ => .unbound) x.views n.val v }

/-- A lane of `w` bytes of a vector. -/
def laneGet (w : Nat) (v : BitVec 512) (i : Nat) : Nat := bits v.toNat (8 * w * i) (8 * w)

/-- The vector whose lanes of `w` bytes a function gives. -/
def packLanes (w : Nat) (f : Nat → Nat) : BitVec 512 :=
  BitVec.ofNat 512 ((List.range (64 / w)).foldl (fun a i => a + f i % 2 ^ (8 * w) * 2 ^ (8 * w * i)) 0)

/-- The vector with the enabled lanes replaced, the others as they were. -/
def mergeLanes (w : Nat) (old : BitVec 512) (on : Nat → Bool) (f : Nat → Nat) : BitVec 512 :=
  packLanes w fun i => if on i then f i else laneGet w old i

/-- An immediate, sign-extended. -/
def immS (i : Imm) : Word := i.signExtend 64
/-- An immediate, zero-extended. -/
def immZ (i : Imm) : Word := i.zeroExtend 64

/-! ### Memory (R205) -/

/-- Whether `n` bytes at an address lie in a range. -/
def within (a n lo hi : Nat) : Bool := decide (lo ≤ a) && decide (a + n ≤ hi)

/-- An access that R205 permits: aligned; a read within the task's hold range, its scratch record or the task-local area, a
write in the last two. -/
def memOk (r : Run) (a n align : Nat) (write : Bool) : Bool :=
  a % align == 0 &&
    ((!write && within a n r.t.holdAt (r.t.holdAt + r.t.holdLen)) ||
      within a n r.scratch (r.scratch + 16) || within a n 0x34000 0x34400)

/-- A read of `n` bytes. -/
def loadN (r : Run) (a n : Nat) : Except Nat Nat :=
  if memOk r a n n false then .ok (ofLE (memRead r.x a n)) else .error excBounds

/-- A write of `n` bytes. -/
def storeN (r : Run) (a n v : Nat) : Except Nat LCore :=
  if memOk r a n n true then .ok (r.x.write a (toLE n v)) else .error excBounds

/-- A read of `n` bytes of the program's constants. -/
def loadConst (r : Run) (a n : Nat) (s : State) : Except Nat Nat :=
  match progOf r.d r.t.id.comm s with
  | none => .error excBounds
  | some p =>
    if a % n = 0 && decide (a + n ≤ imgFld p 16 4) then .ok (ofLE ((p.bytes.drop (constStart p + a)).take n)) else .error excBounds

/-- The address sA + imm. -/
def addrOf (r : Run) (a : SReg) (imm : Imm) : Nat := (sGet r.x a + immS imm).toNat

/-! ### Handles (R203, R204) -/

/-- The index fields of the records of the core's list. -/
def runRecs (r : Run) : List Nat := coreRecs r.c r.t.elems

/-- The entries of a view. -/
def viewCount (r : Run) (v : View) : Nat :=
  match v with
  | .unbound => 0
  | .parts _ n => n
  | .recs off => (runRecs r).length - off
  | .acc _ n => n
  | .stored _ n => n

/-- elem(k): the element index of core-order index `k`, for a list chunk the index field of record `k` (R204). -/
def elemAt (r : Run) (k : Nat) : Option Nat := if taskList r.c r.t then (runRecs r)[k]? else r.t.elems[k]?

/-- The element behind an entry of a view of partials or records. -/
def partEntry (r : Run) (v : View) (k : Nat) : Option Nat :=
  match v with
  | .parts off n => if k < n then r.t.elems[off + k]? else none
  | .recs off => (runRecs r)[off + k]?
  | _ => none

/-- The element behind an entry of a view of FP32 accumulators. -/
def accEntry (r : Run) (v : View) (k : Nat) : Option Nat :=
  match v with
  | .acc off n => if k < n then r.t.elems[off + k]? else none
  | _ => none

/-- The element behind an entry of a view of stored contributions. -/
def storedEntry (r : Run) (v : View) (k : Nat) : Option Nat :=
  match v with
  | .stored off n => if k < n then r.t.elems[off + k]? else none
  | _ => none

/-- The elements behind a list of entries; none where one of them is beyond the view (R215). -/
def entries (f : Nat → Option Nat) : List Nat → Option (List Nat)
  | [] => some []
  | k :: ks => match f k, entries f ks with
    | some e, some es => some (e :: es)
    | _, _ => none

/-- The partial of an element: in RECOMP that of the recompute buffer; a record of a list where the element has one. -/
def partGet (r : Run) (c : LChunk) (e : Nat) : Partial :=
  if r.t.kind = 7 then SMap.get (fun _ => partialId c.rop) c.rparts e
  else if taskList r.c r.t then (SMap.get (fun _ => none) c.recs e).getD (partialId c.rop)
  else SMap.get (fun _ => partialId c.rop) c.parts e

/-- The chunk with the partial of an element replaced. -/
def partPut (r : Run) (e : Nat) (p : Partial) (c : LChunk) : LChunk :=
  if r.t.kind = 7 then { c with rparts := SMap.set (fun _ => partialId c.rop) c.rparts e p }
  else if taskList r.c r.t then { c with recs := SMap.put c.recs e (some p) }
  else { c with parts := SMap.set (fun _ => partialId c.rop) c.parts e p }

/-- The FP32 accumulator of an element. -/
def accGet (r : Run) (c : LChunk) (e : Nat) : Nat :=
  if r.t.kind = 7 then SMap.get (fun _ => 0) c.racc e else SMap.get (fun _ => 0) c.acc e

/-- The chunk with the accumulator of an element replaced. -/
def accPut (r : Run) (e v : Nat) (c : LChunk) : LChunk :=
  if r.t.kind = 7 then { c with racc := SMap.set (fun _ => 0) c.racc e v } else { c with acc := SMap.set (fun _ => 0) c.acc e v }

/-! ### Task parameters -/

/-- The chunk's output format. -/
def runOut (r : Run) (s : State) : Nat := outFmt r.c.id.comm r.c.fmt s
/-- The context's rounding mode. -/
def runRnd (r : Run) (s : State) : Nat := gx LUNA_CTX.RND r.c.id.comm s
/-- The context's NSRC. -/
def runNsrc (r : Run) (s : State) : Nat := gx LUNA_CTX.NSRC r.c.id.comm s

/-- Bits [63:32] of the generator output for an element of the chunk (R189, R190). -/
def runSr (r : Run) (e : Nat) (s : State) : Nat :=
  bits (srOut r.c.id.comm r.c.id.step r.c.id.chunk r.c.id.tree (gx LUNA_CTX.SR_SALT r.c.id.comm s) e) 32 32

/-- The committed slots of the chunk in ascending order (R211). -/
def runSlots (r : Run) (s : State) : List Nat := (List.range (runNsrc r s)).filter fun k => r.c.bitmap.contains k

end Sys2Proof.Machine
end

