-- ==== Sys2Proof/Machine/LunaScalar.lean ====
section
/-! DEFINITION. The scalar, memory, control and predicate instructions of the Luna core (Tables 9-9 and 9-10; R209, R214). -/

namespace Sys2Proof.Machine

/-! ### Shared forms -/

/-- A scalar result: sD takes `v`. -/
def scalarTo (r : Run) (d : SReg) (v : Word) (s : State) : Exec := .ok (retire r (sPut r.x d v) s)

/-- sD := sA op sB. -/
def alu (c : Core) (i : Instr) (d a b : SReg) (f : Word → Word → Word) (s : State) : Host.Outcome State Fault Refusal :=
  lunaOp c i (fun r s => scalarTo r d (f (sGet r.x a) (sGet r.x b)) s) s

/-- sD := a function of sA. -/
def aluImm (c : Core) (i : Instr) (d a : SReg) (f : Word → Word) (s : State) : Host.Outcome State Fault Refusal :=
  lunaOp c i (fun r s => scalarTo r d (f (sGet r.x a)) s) s

/-- The shift count of a register: sB[5:0]. -/
def shCount (b : Word) : Nat := b.toNat % 64

/-- A load of `n` bytes into sD, zero-extended. -/
def loadTo (c : Core) (i : Instr) (d a : SReg) (imm : Imm) (n : Nat) (sram : SramRead) (s : State) : Host.Outcome State Fault Refusal :=
  lunaRead c i sram (fun r s =>
    match loadN r (addrOf r a imm) n with
    | .ok v => scalarTo r d (BitVec.ofNat 64 v) s
    | .error e => .error e) s

/-- A store of `n` bytes of sD. -/
def storeFrom (c : Core) (i : Instr) (d a : SReg) (imm : Imm) (n : Nat) (s : State) : Host.Outcome State Fault Refusal :=
  lunaOp c i (fun r s =>
    match storeN r (addrOf r a imm) n (sGet r.x d).toNat with
    | .ok x => .ok (retire r x s)
    | .error e => .error e) s

/-- The word offset that a branch goes to: OFF words from the next instruction. -/
def target (pc : Nat) (off : Imm) : Nat := ((pc : Int) + 1 + off.toInt).toNat

/-- A jump. -/
def jumpTo (r : Run) (pc : Nat) (x : LCore) (s : State) : State := setCore r.core.val { x with pc := pc } s

/-- A branch on a condition of the core. -/
def branch (c : Core) (i : Instr) (off : Imm) (f : LCore → Bool) (s : State) : Host.Outcome State Fault Refusal :=
  lunaOp c i (fun r s => .ok (if f r.x then jumpTo r (target r.x.pc off) r.x s else retire r r.x s)) s

/-- A predicate has a lane bit set. -/
def anyLane (p : Word) : Bool := p != 0

/-- pD := a function of pA and pB. -/
def predOp (c : Core) (i : Instr) (d a b : PReg) (f : Word → Word → Word) (s : State) : Host.Outcome State Fault Refusal :=
  lunaOp c i (fun r s => .ok (retire r (pPut r.x d (f (pGet r.x a) (pGet r.x b))) s)) s

/-- The number of bits set. -/
def popCount (p : Word) : Nat := (enabledLanes p 64).length

/-- The lowest `n` bits set, all of them from 64 on. -/
def firstBits (n : Nat) : Word := bitsOf (List.range (min n 64))

/-! ### Scalar arithmetic -/

/-- ADD (R209). -/
def execAdd (c : Core) (d a b : SReg) (s : State) : Host.Outcome State Fault Refusal :=
  alu c (.add c d a b) d a b (fun a b => a + b) s

/-- SUB (R209). -/
def execSub (c : Core) (d a b : SReg) (s : State) : Host.Outcome State Fault Refusal :=
  alu c (.sub c d a b) d a b (fun a b => a - b) s

/-- AND (R209). -/
def execAndd (c : Core) (d a b : SReg) (s : State) : Host.Outcome State Fault Refusal :=
  alu c (.andd c d a b) d a b (fun a b => a &&& b) s

/-- OR (R209). -/
def execOrr (c : Core) (d a b : SReg) (s : State) : Host.Outcome State Fault Refusal :=
  alu c (.orr c d a b) d a b (fun a b => a ||| b) s

/-- XOR (R209). -/
def execXorr (c : Core) (d a b : SReg) (s : State) : Host.Outcome State Fault Refusal :=
  alu c (.xorr c d a b) d a b (fun a b => a ^^^ b) s

/-- SHL (R209). -/
def execShl (c : Core) (d a b : SReg) (s : State) : Host.Outcome State Fault Refusal :=
  alu c (.shl c d a b) d a b (fun a b => a <<< shCount b) s

/-- SHR (R209). -/
def execShr (c : Core) (d a b : SReg) (s : State) : Host.Outcome State Fault Refusal :=
  alu c (.shr c d a b) d a b (fun a b => a >>> shCount b) s

/-- SAR (R209). -/
def execSar (c : Core) (d a b : SReg) (s : State) : Host.Outcome State Fault Refusal :=
  alu c (.sar c d a b) d a b (fun a b => a.sshiftRight (shCount b)) s

/-- MUL (R209). -/
def execMul (c : Core) (d a b : SReg) (s : State) : Host.Outcome State Fault Refusal :=
  alu c (.mul c d a b) d a b (fun a b => a * b) s

/-- SLT (R209). -/
def execSlt (c : Core) (d a b : SReg) (s : State) : Host.Outcome State Fault Refusal :=
  alu c (.slt c d a b) d a b (fun a b => boolWord (sLess a b)) s

/-- SLTU (R209). -/
def execSltu (c : Core) (d a b : SReg) (s : State) : Host.Outcome State Fault Refusal :=
  alu c (.sltu c d a b) d a b (fun a b => boolWord (uLess a b)) s

/-- SEQ (R209). -/
def execSeqq (c : Core) (d a b : SReg) (s : State) : Host.Outcome State Fault Refusal :=
  alu c (.seqq c d a b) d a b (fun a b => boolWord (a == b)) s

/-- SMIN (R209). -/
def execSmin (c : Core) (d a b : SReg) (s : State) : Host.Outcome State Fault Refusal :=
  alu c (.smin c d a b) d a b (fun a b => if sLess a b then a else b) s

/-- SMAX (R209). -/
def execSmax (c : Core) (d a b : SReg) (s : State) : Host.Outcome State Fault Refusal :=
  alu c (.smax c d a b) d a b (fun a b => if sLess a b then b else a) s

/-- ADDI (R209). -/
def execAddi (c : Core) (d a : SReg) (imm : Imm) (s : State) : Host.Outcome State Fault Refusal :=
  aluImm c (.addi c d a imm) d a (fun a => a + immS imm) s

/-- ANDI (R209). -/
def execAndi (c : Core) (d a : SReg) (imm : Imm) (s : State) : Host.Outcome State Fault Refusal :=
  aluImm c (.andi c d a imm) d a (fun a => a &&& immZ imm) s

/-- ORI (R209). -/
def execOri (c : Core) (d a : SReg) (imm : Imm) (s : State) : Host.Outcome State Fault Refusal :=
  aluImm c (.ori c d a imm) d a (fun a => a ||| immZ imm) s

/-- SHLI (R209). -/
def execShli (c : Core) (d a : SReg) (imm : Fin 64) (s : State) : Host.Outcome State Fault Refusal :=
  aluImm c (.shli c d a imm) d a (fun a => a <<< imm.val) s

/-- SHRI (R209). -/
def execShri (c : Core) (d a : SReg) (imm : Fin 64) (s : State) : Host.Outcome State Fault Refusal :=
  aluImm c (.shri c d a imm) d a (fun a => a >>> imm.val) s

/-- LSH (R209). -/
def execLsh (c : Core) (d a : SReg) (imm : Imm) (s : State) : Host.Outcome State Fault Refusal :=
  aluImm c (.lsh c d a imm) d a (fun a => (a <<< 16) ||| immZ imm) s

/-- LI (R209). -/
def execLi (c : Core) (d : SReg) (imm : Imm) (s : State) : Host.Outcome State Fault Refusal :=
  lunaOp c (.li c d imm) (fun r s => scalarTo r d (immS imm) s) s

/-! ### Memory -/

/-- LD (R209). -/
def execLd (c : Core) (d a : SReg) (imm : Imm) (sram : SramRead) (s : State) : Host.Outcome State Fault Refusal := loadTo c (.ld c d a imm .clean) d a imm 8 sram s

/-- LDW (R209). -/
def execLdw (c : Core) (d a : SReg) (imm : Imm) (sram : SramRead) (s : State) : Host.Outcome State Fault Refusal := loadTo c (.ldw c d a imm .clean) d a imm 4 sram s

/-- ST (R209). -/
def execSt (c : Core) (d a : SReg) (imm : Imm) (s : State) : Host.Outcome State Fault Refusal := storeFrom c (.st c d a imm) d a imm 8 s

/-- STW (R209). -/
def execStw (c : Core) (d a : SReg) (imm : Imm) (s : State) : Host.Outcome State Fault Refusal := storeFrom c (.stw c d a imm) d a imm 4 s

/-- LDC (R209). -/
def execLdc (c : Core) (d a : SReg) (imm : Imm) (s : State) : Host.Outcome State Fault Refusal :=
  lunaOp c (.ldc c d a imm) (fun r s =>
    match loadConst r (addrOf r a imm) 8 s with
    | .ok v => scalarTo r d (BitVec.ofNat 64 v) s
    | .error e => .error e) s

/-! ### Control -/

/-- BEQ (R209). -/
def execBeq (c : Core) (a b : SReg) (off : Imm) (s : State) : Host.Outcome State Fault Refusal :=
  branch c (.beq c a b off) off (fun x => sGet x a == sGet x b) s

/-- BNE (R209). -/
def execBne (c : Core) (a b : SReg) (off : Imm) (s : State) : Host.Outcome State Fault Refusal :=
  branch c (.bne c a b off) off (fun x => sGet x a != sGet x b) s

/-- BLT (R209). -/
def execBlt (c : Core) (a b : SReg) (off : Imm) (s : State) : Host.Outcome State Fault Refusal :=
  branch c (.blt c a b off) off (fun x => sLess (sGet x a) (sGet x b)) s

/-- BLTU (R209). -/
def execBltu (c : Core) (a b : SReg) (off : Imm) (s : State) : Host.Outcome State Fault Refusal :=
  branch c (.bltu c a b off) off (fun x => uLess (sGet x a) (sGet x b)) s

/-- BANY (R209). -/
def execBany (c : Core) (a : PReg) (off : Imm) (s : State) : Host.Outcome State Fault Refusal :=
  branch c (.bany c a off) off (fun x => anyLane (pGet x a)) s

/-- BNONE (R209). -/
def execBnone (c : Core) (a : PReg) (off : Imm) (s : State) : Host.Outcome State Fault Refusal :=
  branch c (.bnone c a off) off (fun x => !anyLane (pGet x a)) s

/-- JMP (R209). -/
def execJmp (c : Core) (off : Imm) (s : State) : Host.Outcome State Fault Refusal := branch c (.jmp c off) off (fun _ => true) s

/-- CALL (R209): the next address is pushed; the return stack holds eight (Table 9-2). -/
def execCall (c : Core) (off : Imm) (s : State) : Host.Outcome State Fault Refusal :=
  lunaOp c (.call c off) (fun r s =>
    .ok (jumpTo r (target r.x.pc off) { r.x with ret := ((r.x.pc + 1) :: r.x.ret).take 8 } s)) s

/-- RET (R209): an empty stack holds zeros (R202). -/
def execRet (c : Core) (s : State) : Host.Outcome State Fault Refusal :=
  lunaOp c (.ret c) (fun r s => .ok (jumpTo r (nth r.x.ret 0) { r.x with ret := r.x.ret.drop 1 } s)) s

/-- The output lanes of a core that an EMIT task leaves: lane `j` at element elem(j), or beside record `j` (R214). -/
def placeLanes (r : Run) (c : LChunk) : LChunk :=
  { c with outs := r.x.lanes.zipIdx.foldl (fun m (e : Nat × Nat) =>
      match elemAt r e.2 with | some k => SMap.set (fun _ => 0) m k e.1 | none => m) c.outs }

/-- A COMMIT whose xmrg found no room: the chunk converts, once, and the COMMIT is dispatched again in dense form (R194,
R213). -/
def commitAgain (r : Run) (s : State) : State :=
  let s1 := if r.c.dense then s
    else modChunk r.d r.c.id (fun c => { c with dense := true })
      (dispatchAll r.d r.c 6 (countD (52 + r.d) .lunaSparseDenseFb s))
  pushTask r.core.val { r.t with dense := true } s1

/-- The required count of output lanes (R214). -/
def outRequired (r : Run) : Nat := r.t.s3

/-- The task ends; what it leaves; what its chunk does next. -/
def taskDone (r : Run) (s : State) : Exec :=
  if r.t.kind = 5 && decide (r.x.lanes.length < outRequired r) then .error excOutput
  else
    let s1 := setCore r.core.val { r.x with run := none, lanes := [], noRoom := false } s
    let s2 := if r.t.kind = 5 then modChunk r.d r.c.id (placeLanes r) s1 else s1
    let s3 := if r.t.kind = 2 && r.x.noRoom then commitAgain r s2 else s2
    .ok (progress r.d r.c.id s3)

/-- DONE (R209, R214). -/
def execDone (c : Core) (s : State) : Host.Outcome State Fault Refusal := lunaOp c (.done c) taskDone s

/-- Task information (Table 9-9, rdt). -/
def taskInfo (r : Run) (n : Nat) (a : Word) (s : State) : Except Nat Nat :=
  match n with
  | 0 => .ok r.t.elems.length
  | 1 => .ok r.c.e
  | 2 => .ok (gx LUNA_CTX.MAXELEM r.c.id.comm s)
  | 3 => .ok (runNsrc r s)
  | 4 => match aGet r.x 1 with | .unbound => .error excBounds | v => .ok (viewCount r v)
  | _ => match elemAt r a.toNat with | some e => .ok e | none => .error excBounds

/-- RDT (R209). -/
def execRdt (c : Core) (d a : SReg) (n : Fin 6) (s : State) : Host.Outcome State Fault Refusal :=
  lunaOp c (.rdt c d a n) (fun r s =>
    match taskInfo r n.val (sGet r.x a) s with
    | .ok v => scalarTo r d (BitVec.ofNat 64 v) s
    | .error e => .error e) s

/-- BITM (R209). -/
def execBitm (c : Core) (d a : SReg) (s : State) : Host.Outcome State Fault Refusal :=
  lunaOp c (.bitm c d a) (fun r s => scalarTo r d (boolWord ((runSlots r s).contains (sGet r.x a).toNat)) s) s

/-! ### Predicates (Table 9-10) -/

/-- PAND (R209). -/
def execPand (c : Core) (d a b : PReg) (s : State) : Host.Outcome State Fault Refusal :=
  predOp c (.pand c d a b) d a b (fun a b => a &&& b) s

/-- POR (R209). -/
def execPor (c : Core) (d a b : PReg) (s : State) : Host.Outcome State Fault Refusal :=
  predOp c (.por c d a b) d a b (fun a b => a ||| b) s

/-- PXOR (R209). -/
def execPxor (c : Core) (d a b : PReg) (s : State) : Host.Outcome State Fault Refusal :=
  predOp c (.pxor c d a b) d a b (fun a b => a ^^^ b) s

/-- PANDN (R209). -/
def execPandn (c : Core) (d a b : PReg) (s : State) : Host.Outcome State Fault Refusal :=
  predOp c (.pandn c d a b) d a b (fun a b => a &&& ~~~b) s

/-- PMOV (R209). -/
def execPmov (c : Core) (d : PReg) (a : SReg) (s : State) : Host.Outcome State Fault Refusal :=
  lunaOp c (.pmov c d a) (fun r s => .ok (retire r (pPut r.x d (sGet r.x a)) s)) s

/-- PGET (R209). -/
def execPget (c : Core) (d : SReg) (a : PReg) (s : State) : Host.Outcome State Fault Refusal :=
  lunaOp c (.pget c d a) (fun r s => scalarTo r d (pGet r.x a) s) s

/-- PFIRST (R209). -/
def execPfirst (c : Core) (d : PReg) (a : SReg) (s : State) : Host.Outcome State Fault Refusal :=
  lunaOp c (.pfirst c d a) (fun r s => .ok (retire r (pPut r.x d (firstBits (sGet r.x a).toNat)) s)) s

/-- PCNT (R209). -/
def execPcnt (c : Core) (d : SReg) (a : PReg) (s : State) : Host.Outcome State Fault Refusal :=
  lunaOp c (.pcnt c d a) (fun r s => scalarTo r d (BitVec.ofNat 64 (popCount (pGet r.x a))) s) s

end Sys2Proof.Machine
end

