-- ==== Sys2Proof/Machine/LunaVector.lean ====
section
/-! DEFINITION. The vector instructions of the Luna core (Table 9-11; R210, R212). -/

namespace Sys2Proof.Machine

/-! ### Lane arithmetic (R210) -/

/-- A sum, difference, maximum or minimum of two lanes: floats by value, rounded to nearest even, integers modulo the lane's
width and compared as signed. -/
def laneArith (t : ElemT) (fv : Val → Val → Val) (fi : Int → Int → Int) (x y : Nat) : Nat :=
  if t.isInt then unsigned (8 * t.size) (fi (signed (8 * t.size) x) (signed (8 * t.size) y))
  else encodeIeee t.code (fv (laneVal t x) (laneVal t y))

/-- The difference of two values. -/
def subVal (a b : Val) : Val := addVal a (negVal b)

/-- vD := vA op vB in the enabled lanes. -/
def vecOp (c : Core) (i : Instr) (t : ElemT) (d a b : VReg) (p : PReg) (f : Nat → Nat → Nat) (s : State) :
    Host.Outcome State Fault Refusal :=
  lunaOp c i (fun r s =>
    let va := vGet r.x a
    let vb := vGet r.x b
    .ok (retire r (vPut r.x d (mergeLanes t.size (vGet r.x d) (fun i => (pGet r.x p).getLsbD i)
      fun i => f (laneGet t.size va i) (laneGet t.size vb i))) s)) s

/-- pD := the comparison of the enabled lanes; bytes have none, so the bits are then free (log entry 3, DESIGN CHOICE). -/
def vecCmp (c : Core) (i : Instr) (t : ElemT) (d : PReg) (a b : VReg) (p : PReg) (k : Cmp) (s : State) :
    Host.Outcome State Fault Refusal :=
  lunaOp c i (fun r s =>
    let on := enabledLanes (pGet r.x p) t.lanes
    if t = .raw then
      .ok (retire r (pPut r.x d (bitsOf (on.filter fun i => (freeVal s).testBit i))) (draw s))
    else
      .ok (retire r (pPut r.x d (bitsOf (on.filter fun i =>
        k.holds t (laneGet t.size (vGet r.x a) i) (laneGet t.size (vGet r.x b) i)))) s)) s

/-! ### Memory -/

/-- VLD (R209). -/
def execVld (c : Core) (d : VReg) (a : SReg) (imm : Imm) (sram : SramRead) (s : State) : Host.Outcome State Fault Refusal :=
  lunaRead c (.vld c d a imm .clean) sram (fun r s =>
    match loadN r (addrOf r a imm) 64 with
    | .ok v => .ok (retire r (vPut r.x d (BitVec.ofNat 512 v)) s)
    | .error e => .error e) s

/-- VST (R209). -/
def execVst (c : Core) (d : VReg) (a : SReg) (imm : Imm) (s : State) : Host.Outcome State Fault Refusal :=
  lunaOp c (.vst c d a imm) (fun r s =>
    match storeN r (addrOf r a imm) 64 (vGet r.x d).toNat with
    | .ok x => .ok (retire r x s)
    | .error e => .error e) s

/-- VLDC (R209). -/
def execVldc (c : Core) (d : VReg) (a : SReg) (imm : Imm) (s : State) : Host.Outcome State Fault Refusal :=
  lunaOp c (.vldc c d a imm) (fun r s =>
    match loadConst r (addrOf r a imm) 64 s with
    | .ok v => .ok (retire r (vPut r.x d (BitVec.ofNat 512 v)) s)
    | .error e => .error e) s

/-! ### Arithmetic and logic -/

/-- VADD (R210). -/
def execVadd (c : Core) (t : ElemT) (d a b : VReg) (p : PReg) (s : State) : Host.Outcome State Fault Refusal :=
  vecOp c (.vadd c t d a b p) t d a b p (laneArith t addVal (· + ·)) s

/-- VSUB (R210). -/
def execVsub (c : Core) (t : ElemT) (d a b : VReg) (p : PReg) (s : State) : Host.Outcome State Fault Refusal :=
  vecOp c (.vsub c t d a b p) t d a b p (laneArith t subVal (· - ·)) s

/-- VMAX (R210). -/
def execVmax (c : Core) (t : ElemT) (d a b : VReg) (p : PReg) (s : State) : Host.Outcome State Fault Refusal :=
  vecOp c (.vmax c t d a b p) t d a b p (laneArith t maxVal max) s

/-- VMIN (R210). -/
def execVmin (c : Core) (t : ElemT) (d a b : VReg) (p : PReg) (s : State) : Host.Outcome State Fault Refusal :=
  vecOp c (.vmin c t d a b p) t d a b p (laneArith t minVal min) s

/-- VAND (R210). -/
def execVand (c : Core) (t : ElemT) (d a b : VReg) (p : PReg) (s : State) : Host.Outcome State Fault Refusal :=
  vecOp c (.vand c t d a b p) t d a b p (Nat.land) s

/-- VOR (R210). -/
def execVor (c : Core) (t : ElemT) (d a b : VReg) (p : PReg) (s : State) : Host.Outcome State Fault Refusal :=
  vecOp c (.vor c t d a b p) t d a b p (Nat.lor) s

/-- VXOR (R210). -/
def execVxor (c : Core) (t : ElemT) (d a b : VReg) (p : PReg) (s : State) : Host.Outcome State Fault Refusal :=
  vecOp c (.vxor c t d a b p) t d a b p (Nat.xor) s

/-- VSEL (R210): a lane that is not enabled takes vB. -/
def execVsel (c : Core) (t : ElemT) (d a b : VReg) (p : PReg) (s : State) : Host.Outcome State Fault Refusal :=
  lunaOp c (.vsel c t d a b p) (fun r s =>
    let va := vGet r.x a
    .ok (retire r (vPut r.x d (mergeLanes t.size (vGet r.x b) (fun i => (pGet r.x p).getLsbD i) fun i => laneGet t.size va i)) s)) s

/-- VCMP_EQ (R209). -/
def execVcmpEq (c : Core) (t : ElemT) (d : PReg) (a b : VReg) (p : PReg) (s : State) : Host.Outcome State Fault Refusal :=
  vecCmp c (.vcmpEq c t d a b p) t d a b p .eq s

/-- VCMP_LT (R209). -/
def execVcmpLt (c : Core) (t : ElemT) (d : PReg) (a b : VReg) (p : PReg) (s : State) : Host.Outcome State Fault Refusal :=
  vecCmp c (.vcmpLt c t d a b p) t d a b p .lt s

/-- VCMP_LE (R209). -/
def execVcmpLe (c : Core) (t : ElemT) (d : PReg) (a b : VReg) (p : PReg) (s : State) : Host.Outcome State Fault Refusal :=
  vecCmp c (.vcmpLe c t d a b p) t d a b p .le s

/-- VCMP_NE (R209). -/
def execVcmpNe (c : Core) (t : ElemT) (d : PReg) (a b : VReg) (p : PReg) (s : State) : Host.Outcome State Fault Refusal :=
  vecCmp c (.vcmpNe c t d a b p) t d a b p .ne s

/-- VCVT (R209): lanes 16F to 16F + 15 as FP32; a lane beyond the vector, or of bytes, gives a free value (log entry 3, DESIGN CHOICE). -/
def execVcvt (c : Core) (t : ElemT) (d a : VReg) (f : Fin 4) (s : State) : Host.Outcome State Fault Refusal :=
  lunaOp c (.vcvt c t d a f) (fun r s =>
    let va := vGet r.x a
    let v := packLanes 4 fun i =>
      if t = .raw || t.lanes ≤ 16 * f.val + i then bits (freeVal s) (32 * i) 32
      else toFp32 (laneVal t (laneGet t.size va (16 * f.val + i)))
    .ok (retire r (vPut r.x d v) (if t = .raw || t.lanes < 16 * f.val + 16 then draw s else s))) s

/-- VSPLAT (R209). -/
def execVsplat (c : Core) (t : ElemT) (d : VReg) (a : SReg) (s : State) : Host.Outcome State Fault Refusal :=
  lunaOp c (.vsplat c t d a) (fun r s =>
    .ok (retire r (vPut r.x d (packLanes t.size fun _ => (sGet r.x a).toNat)) s)) s

/-! ### FP32 accumulators -/

/-- VLDA (R209): sixteen entries, each within the view. -/
def execVlda (c : Core) (d : VReg) (a : AReg) (b : SReg) (sram : SramRead) (s : State) : Host.Outcome State Fault Refusal :=
  lunaRead c (.vlda c d a b .clean) sram (fun r s =>
    match entries (accEntry r (aGet r.x a)) ((List.range 16).map fun i => (sGet r.x b).toNat + i) with
    | none => .error excBounds
    | some es => .ok (retire r (vPut r.x d (packLanes 4 fun i => accGet r r.c (nth es i))) s)) s

/-- VSTA (R209): the enabled lanes to their entries. -/
def execVsta (c : Core) (d : VReg) (a : AReg) (b : SReg) (p : PReg) (s : State) : Host.Outcome State Fault Refusal :=
  lunaOp c (.vsta c d a b p) (fun r s =>
    let on := enabledLanes (pGet r.x p) 16
    if aGet r.x a = .unbound then .error excBounds
    else
      match entries (accEntry r (aGet r.x a)) (on.map fun i => (sGet r.x b).toNat + i) with
      | none => .error excBounds
      | some es =>
        let ch := (on.zip es).foldl (fun ch e => accPut r e.2 (laneGet 4 (vGet r.x d) e.1) ch) r.c
        .ok (retireChunk r ch r.x s)) s

/-! ### Rounding to the output (R185 to R191, R212) -/

/-- A magnitude at the end of FIX: that of a saturated FIX, or of the identity of min (R179, R181, R184). It lies beyond
every integer format. -/
def fixEnd (m : Nat) : Bool := m == 2 ^ 317 - 1

/-- A value rounded to the output type for an element: the unpacked lane, whether it was out of range. A value that an
integer output does not hold as it is, a fraction or a special, gives a free value (log entry 3, DESIGN CHOICE). -/
def roundLane (r : Run) (v : Val) (e : Nat) (s : State) : Nat × Bool :=
  let out := runOut r s
  let rnd := runRnd r s
  let u := runSr r e s
  if isMx out then
    let x := SMap.get (fun _ => 0) r.c.scales (e / 32)
    let (b, o) := roundMx out rnd u x v
    (b + x * 256, o)
  else if out = 11 || out = 12 then
    match v with
    | .fin _ m => if m % 2 ^ 149 = 0 || fixEnd m then roundInt (if out = 11 then 32 else 64) v else (freeVal s, false)
    | _ => (freeVal s, false)
  else roundFp out rnd u v

/-- The rounding of a lane draws a free value. -/
def roundFree (r : Run) (v : Val) (s : State) : Bool :=
  decide (runOut r s = 11 ∨ runOut r s = 12) && (match v with | .fin _ m => m % 2 ^ 149 != 0 && !fixEnd m | _ => true)

/-- VRND (R212): an element beyond the core order takes a free number for its place (log entry 3, DESIGN CHOICE). -/
def execVrnd (c : Core) (t : ElemT) (d a : VReg) (b : SReg) (p : PReg) (f : Fin 4) (s : State) :
    Host.Outcome State Fault Refusal :=
  lunaOp c (.vrnd c t d a b p f) (fun r s =>
    if t.code ≠ runOut r s then .error excType
    else
      let on := (enabledLanes (pGet r.x p) 16).filter fun i => 16 * f.val + i < t.lanes
      let val := fun i => decodeFp (fpOf 0) (laneGet 4 (vGet r.x a) i)
      let el := fun i => (elemAt r ((sGet r.x b).toNat + i)).getD (freeVal s % 8192)
      let res := fun i => roundLane r (val i) (el i) s
      let v := mergeLanes t.size (vGet r.x d) (fun j => on.any fun i => 16 * f.val + i = j) fun j => (res (j - 16 * f.val)).1
      let free := on.any fun i => (elemAt r ((sGet r.x b).toNat + i)).isNone || roundFree r (val i) s
      .ok (retireChunk r { r.c with outRange := r.c.outRange || on.any fun i => (res i).2 } (vPut r.x d v)
        (if free then draw s else s))) s

end Sys2Proof.Machine
end

