-- ==== Sys2Proof/Machine/LunaX.lean ====
section
/-! DEFINITION. The X unit and output instructions of the Luna core (Table 9-12; R180, R182, R183, R211 to R214). -/

namespace Sys2Proof.Machine

/-! ### Accumulation (R180, R211) -/

/-- What an accumulation does to a partial. -/
inductive XOp where
  | add | sub | max | min | and | or | xor | set
deriving DecidableEq, Repr

/-- The operator code an accumulation combines by (Table 2-5). -/
def XOp.rop : XOp → Nat
  | .max => 1
  | .min => 2
  | .and => 3
  | .or => 4
  | .xor => 5
  | _ => 0

/-- A bitwise combination. -/
def XOp.bitwise (op : XOp) : Bool := decide (op = .and ∨ op = .or ∨ op = .xor)

/-- An element combined into a partial: the partial, whether FIX has just saturated. A bitwise combination of an element that
is no integer leaves FIX open: it takes the free value `fresh` (log entry 3, DESIGN CHOICE). -/
def xCombine (op : XOp) (t : ElemT) (x fresh : Nat) (p : Partial) : Partial × Bool :=
  let v := laneVal t x
  match op with
  | .sub => p.sub (Partial.ofVal v)
  | .set => (Partial.ofVal v, false)
  | op => if op.bitwise && !t.isInt then ({ p with fix := signed 318 fresh }, false) else Partial.combine op.rop p v

/-- A partial combined into a partial: wide-form partials under a sweep (R180, log entry 49, DEDUCED). -/
def xMerge (op : XOp) (p w : Partial) : Partial × Bool :=
  let counts := fun (f : Int) => { p with fix := f, nan := cntAdd 4095 p.nan w.nan, pinf := cntAdd 2047 p.pinf w.pinf
                                          ninf := cntAdd 2047 p.ninf w.ninf }
  match op with
  | .sub => p.sub w
  | .set => (w, false)
  | .max => (counts (max p.fix w.fix), false)
  | .min => (counts (min p.fix w.fix), false)
  | .and => ({ p with fix := fixBits Nat.land p.fix w.fix }, false)
  | .or => ({ p with fix := fixBits Nat.lor p.fix w.fix }, false)
  | .xor => ({ p with fix := fixBits Nat.xor p.fix w.fix }, false)
  | .add => p.add w

/-- LUNA_ACC_SAT counted and raised with COMM and CHUNK, once for each saturation (R181). -/
def accSat (r : Run) : Nat → State → State
  | 0, s => s
  | n + 1, s => accSat r n (raise .ox9 (Event.mk0 .ox9 .lunaAccSat true (52 + r.d) 5 r.c.id.comm
      [na r.c.id.comm, wa r.c.id.chunk] s) (countD (52 + r.d) .lunaAccSat s))

/-- A partial of the chunk changed, with the saturations so far. -/
def partStep (r : Run) (e : Nat) (f : Partial → Partial × Bool) (acc : LChunk × Nat) : LChunk × Nat :=
  let (p, st) := f (partGet r acc.1 e)
  (partPut r e p acc.1, acc.2 + st.toNat)

/-- A handle that views no partials and no records raises BOUNDS where it is used. -/
def viewsParts (v : View) : Bool := match v with | .parts _ _ => true | .recs _ => true | _ => false

/-- xop.T aD, vA, sB, pP (R211): every entry is checked before any is changed (R215). -/
def xop (c : Core) (i : Instr) (op : XOp) (t : ElemT) (d : AReg) (a : VReg) (b : SReg) (p : PReg) (sram : SramRead) (s : State) :
    Host.Outcome State Fault Refusal :=
  lunaRead c i sram (fun r s =>
    let on := enabledLanes (pGet r.x p) t.lanes
    if t.code ≠ r.c.fmt then .error excType
    else if !viewsParts (aGet r.x d) then .error excBounds
    else
      match entries (partEntry r (aGet r.x d)) (on.map fun i => (sGet r.x b).toNat + i) with
      | none => .error excBounds
      | some es =>
        let fr := freeVal s
        let (ch, n) := (on.zip es).foldl (fun acc e =>
          partStep r e.2 (xCombine op t (laneGet t.size (vGet r.x a) e.1) (bits fr (318 * e.1) 318)) acc) (r.c, 0)
        .ok (accSat r n (retireChunk r ch r.x (if op.bitwise && !t.isInt then draw s else s)))) s

/-- xid aD, sA, sB: entries sB to sB + sA - 1 take an operator's identity (Table 8-5). -/
def xid (c : Core) (i : Instr) (rop : Nat) (d : AReg) (a b : SReg) (s : State) : Host.Outcome State Fault Refusal :=
  lunaOp c i (fun r s =>
    let n := (sGet r.x a).toNat
    let b := (sGet r.x b).toNat
    if !viewsParts (aGet r.x d) then .error excBounds
    else if 0 < n && decide (viewCount r (aGet r.x d) < b + n) then .error excBounds
    else
      match entries (partEntry r (aGet r.x d)) ((List.range n).map fun i => b + i) with
      | none => .error excBounds
      | some es => .ok (retireChunk r (es.foldl (fun ch e => partPut r e (partialId rop) ch) r.c) r.x s)) s

/-- xaddw and xsubw aD, sA, sB: wide-form partials from the hold range (R211). -/
def xWide (c : Core) (i : Instr) (op : XOp) (d : AReg) (a b : SReg) (sram : SramRead) (s : State) : Host.Outcome State Fault Refusal :=
  lunaRead c i sram (fun r s =>
    let at0 := (sGet r.x a).toNat
    let n := (sGet r.x b).toNat
    if !viewsParts (aGet r.x d) then .error excBounds
    else if decide (viewCount r (aGet r.x d) < n) || !within at0 (44 * n) r.t.holdAt (r.t.holdAt + r.t.holdLen) then
      .error excBounds
    else
      match entries (partEntry r (aGet r.x d)) (List.range n) with
      | none => .error excBounds
      | some es =>
        let bs := memRead r.x at0 (44 * n)
        let (ch, k) := es.zipIdx.foldl (fun acc e => partStep r e.1 (fun p => xMerge op p (widePartial bs e.2)) acc) (r.c, 0)
        .ok (accSat r k (retireChunk r ch r.x s))) s

/-- A view narrowed from an entry on: never at or beyond its count (R203). -/
def narrow (v : View) (k : Nat) : View :=
  match v with
  | .unbound => .unbound
  | .parts off n => .parts (off + k) (n - k)
  | .recs off => .recs (off + k)
  | .acc off n => .acc (off + k) (n - k)
  | .stored off n => .stored (off + k) (n - k)

/-- AOFF (R209). -/
def execAoff (c : Core) (d a : AReg) (b : SReg) (s : State) : Host.Outcome State Fault Refusal :=
  lunaOp c (.aoff c d a b) (fun r s =>
    let v := aGet r.x a
    if viewCount r v ≤ (sGet r.x b).toNat then .error excBounds
    else .ok (retire r (aPut r.x d (narrow v (sGet r.x b).toNat)) s)) s

/-! ### Sweeps over stored contributions (R183, R211) -/

/-- The payload stored for a slot. -/
def storedOf (r : Run) (slot : Nat) : List Byte := (SMap.get (fun _ => none) r.c.stored slot).getD []

/-- The unpacked lane of an element in a stored contribution; a sparse one reads as dense, zero where an index is absent
(Table 9-5). -/
def storedLane (r : Run) (slot e : Nat) : Nat :=
  let bs := storedOf r slot
  if r.c.rop = 6 then (((sparseEntries r.c.fmt bs).find? fun x => x.1 = e).map (·.2)).getD 0 else laneOf r.c.fmt bs e

/-- The partial of an element `dst` over the stored lanes of an element `src` of the committed slots, in ascending order. -/
def sweepElem (r : Run) (op : XOp) (copy : Bool) (t : ElemT) (dst src fresh : Nat) (acc : LChunk × Nat) (s : State) :
    LChunk × Nat :=
  let one := fun (op : XOp) (acc : LChunk × Nat) (k : Nat) =>
    partStep r dst (fun p => if slotWide r.c.id.comm k s then xMerge op p (widePartial (storedOf r k) src)
                             else xCombine op t (storedLane r k src) fresh p) acc
  if copy then match runSlots r s with | [] => acc | k :: _ => one .set acc k
  else (runSlots r s).foldl (one op) acc

/-- xswp.f.T aD, aA, sB, pP (R211). -/
def xswp (c : Core) (i : Instr) (op : XOp) (copy : Bool) (t : ElemT) (d a : AReg) (b : SReg) (p : PReg) (sram : SramRead) (s : State) :
    Host.Outcome State Fault Refusal :=
  lunaRead c i sram (fun r s =>
    let on := enabledLanes (pGet r.x p) t.lanes
    let ks := on.map fun i => (sGet r.x b).toNat + i
    if t.code ≠ r.c.fmt then .error excType
    else if !viewsParts (aGet r.x d) || aGet r.x a = .unbound then .error excBounds
    else
      match entries (partEntry r (aGet r.x d)) ks, entries (storedEntry r (aGet r.x a)) ks with
      | some es, some fs =>
        let fr := freeVal s
        let (ch, n) := ((on.zip es).zip fs).foldl (fun acc x =>
          sweepElem r op copy t x.1.2 x.2 (bits fr (318 * x.1.1) 318) acc s) (r.c, 0)
        .ok (accSat r n (retireChunk r ch r.x (if op.bitwise && !t.isInt && !copy then draw s else s)))
      | _, _ => .error excBounds) s

/-- FSWP (R183, R211): the native fixed-order sum of the enabled lanes. -/
def execFswp (c : Core) (t : ElemT) (d : VReg) (a : AReg) (b : SReg) (p : PReg) (sram : SramRead) (s : State) :
    Host.Outcome State Fault Refusal :=
  lunaRead c (.fswp c t d a b p .clean) sram (fun r s =>
    let on := enabledLanes (pGet r.x p) 16
    if t.code ≠ r.c.fmt then .error excType
    else if aGet r.x a = .unbound then .error excBounds
    else
      match entries (storedEntry r (aGet r.x a)) (on.map fun i => (sGet r.x b).toNat + i) with
      | none => .error excBounds
      | some es =>
        let sum := fun e => (runSlots r s).foldl (fun acc k => fp32Add acc (toFp32 (laneVal t (storedLane r k e)))) 0
        let el := fun i => (((on.zip es).find? fun x => x.1 = i).map (·.2)).getD 0
        .ok (retire r (vPut r.x d (mergeLanes 4 (vGet r.x d) (fun i => on.contains i) fun i => sum (el i))) s)) s

/-! ### Rounding and block exponents (R212) -/

/-- The value of a partial (R184). -/
def partVal (r : Run) (e : Nat) (s : State) : Val := Sys2Proof.resolve r.c.rop r.c.fmt (runOut r s) (partGet r r.c e)

/-- XRND (R212): an integer identity of max or min is no clamp (R184). -/
def execXrnd (c : Core) (t : ElemT) (d : VReg) (a : AReg) (b : SReg) (p : PReg) (sram : SramRead) (s : State) : Host.Outcome State Fault Refusal :=
  lunaRead c (.xrnd c t d a b p .clean) sram (fun r s =>
    let on := enabledLanes (pGet r.x p) t.lanes
    if t.code ≠ runOut r s then .error excType
    else if !viewsParts (aGet r.x a) then .error excBounds
    else
      match entries (partEntry r (aGet r.x a)) (on.map fun i => (sGet r.x b).toNat + i) with
      | none => .error excBounds
      | some es =>
        let el := fun i => (((on.zip es).find? fun x => x.1 = i).map (·.2)).getD 0
        let res := fun i => roundLane r (partVal r (el i) s) (el i) s
        let v := mergeLanes t.size (vGet r.x d) (fun i => on.contains i) fun i => (res i).1
        let clamped := on.any fun i => (res i).2 && !isIdentity r.c.rop (partGet r r.c (el i))
        let free := on.any fun i => roundFree r (partVal r (el i) s) s
        .ok (retireChunk r { r.c with outRange := r.c.outRange || clamped } (vPut r.x d v) (if free then draw s else s))) s

/-- A value posted to a block of the chunk's block table. -/
def postBlock (c : LChunk) (e : Nat) (v : Val) : LChunk :=
  let b := SMap.get (fun _ => { nan := false, inf := false, max := 0 : LBlock }) c.blocks (e / 32)
  let b := match v with
    | .nan => { b with nan := true }
    | .inf _ => { b with inf := true }
    | .fin _ m => { b with max := max b.max m }
  { c with blocks := SMap.put c.blocks (e / 32) b }

/-- XBEXP (R212). -/
def execXbexp (c : Core) (t : ElemT) (d : AReg) (b : SReg) (p : PReg) (sram : SramRead) (s : State) : Host.Outcome State Fault Refusal :=
  lunaRead c (.xbexp c t d b p .clean) sram (fun r s =>
    let on := enabledLanes (pGet r.x p) t.lanes
    if t.code ≠ runOut r s || !isMx t.code then .error excType
    else if !viewsParts (aGet r.x d) then .error excBounds
    else
      match entries (partEntry r (aGet r.x d)) (on.map fun i => (sGet r.x b).toNat + i) with
      | none => .error excBounds
      | some es => .ok (retireChunk r (es.foldl (fun ch e => postBlock ch e (partVal r e s)) r.c) r.x s)) s

/-- VBEXP (R212): sixteen FP32 lanes at their places in the core order. -/
def execVbexp (c : Core) (t : ElemT) (a : VReg) (b : SReg) (p : PReg) (s : State) : Host.Outcome State Fault Refusal :=
  lunaOp c (.vbexp c t a b p) (fun r s =>
    let on := enabledLanes (pGet r.x p) 16
    if t.code ≠ runOut r s || !isMx t.code then .error excType
    else
      match entries (elemAt r) (on.map fun i => (sGet r.x b).toNat + i) with
      | none => .error excBounds
      | some es =>
        .ok (retireChunk r ((on.zip es).foldl (fun ch x =>
          postBlock ch x.2 (decodeFp (fpOf 0) (laneGet 4 (vGet r.x a) x.1))) r.c) r.x s)) s

/-! ### Sparse merge (R192 to R194, R213) -/

/-- The entries of the hold range: index and element bits (R206). -/
def holdEntries (r : Run) (a n : Nat) : List (Nat × Nat) :=
  (List.range n).map fun i => (ofLE (memRead r.x (a + 16 * i) 4), ofLE (memRead r.x (a + 16 * i + 8) 8))

/-- An entry added to its record, which is created where there is none (R193). -/
def addRecord (t : ElemT) (x : Nat × Nat) (acc : LChunk × Nat) : LChunk × Nat :=
  let (p, st) := xCombine .add t x.2 0 ((SMap.get (fun _ => none) acc.1.recs x.1).getD (partialId 6))
  ({ acc.1 with recs := SMap.put acc.1.recs x.1 (some p) }, acc.2 + st.toNat)

/-- A handle that views a record list. -/
def viewsRecs (v : View) : Bool := match v with | .recs _ => true | _ => false

/-- XMRG (R213): into the records of a1, or into partial(a0, k) where elem(k) is the entry's index. -/
def execXmrg (c : Core) (t : ElemT) (d a b : SReg) (sram : SramRead) (s : State) : Host.Outcome State Fault Refusal :=
  lunaRead c (.xmrg c t d a b .clean) sram (fun r s =>
    let at0 := (sGet r.x a).toNat
    let n := (sGet r.x b).toNat
    if t.code ≠ r.c.fmt || r.c.rop ≠ 6 then .error excType
    else if at0 % 16 ≠ 0 || !within at0 (16 * n) r.t.holdAt (r.t.holdAt + r.t.holdLen) then .error excBounds
    else
      let es := holdEntries r at0 n
      if taskList r.c r.t then
        if !viewsRecs (aGet r.x 1) then .error excBounds
        else
        let new := (es.filter fun e => !(r.c.recs.map (·.1)).contains e.1).length
        if 0 < new && decide (gx LUNA_CTX.SPARSE_CAP r.c.id.comm s < r.c.recs.length + new) then
          .ok (retire r (sPut { r.x with noRoom := true } d (BitVec.allOnes 64)) s)
        else
          let (ch, k) := es.foldl (fun acc e => addRecord t e acc) (r.c, 0)
          .ok (accSat r k (retireChunk r ch (sPut r.x d (BitVec.ofNat 64 new)) s))
      else
        match entries (fun j => (r.t.elems.findIdx? fun e => e = j).bind (partEntry r (aGet r.x 0))) (es.map (·.1)) with
        | none => .error excBounds
        | some ks =>
          let (ch, k) := (ks.zip es).foldl (fun acc e => partStep r e.1 (xCombine .add t e.2.2 0) acc) (r.c, 0)
          .ok (accSat r k (retireChunk r ch (sPut r.x d 0) s))) s

/-- The records of a core become dense partials, with the identity for an absent index (R194). -/
def densify (elems : List Nat) (c : LChunk) : LChunk :=
  { c with
    parts := elems.foldl (fun m e =>
      SMap.set (fun _ => partialId c.rop) m e ((SMap.get (fun _ => none) c.recs e).getD (partialId 6))) c.parts
    recs := c.recs.filter fun x => !elems.contains x.1 }

/-- XDNS (R213): a chunk without a record list has nothing to convert. -/
def execXdns (c : Core) (sram : SramRead) (s : State) : Host.Outcome State Fault Refusal :=
  lunaRead c (.xdns c .clean) sram (fun r s =>
    .ok (retireChunk r (if taskList r.c r.t then densify r.t.elems r.c else r.c) r.x s)) s

/-- OST (R214). -/
def execOst (c : Core) (t : ElemT) (a : VReg) (p : PReg) (s : State) : Host.Outcome State Fault Refusal :=
  lunaOp c (.ost c t a p) (fun r s =>
    let on := enabledLanes (pGet r.x p) t.lanes
    if t.code ≠ runOut r s then .error excType
    else if r.t.kind ≠ 5 || decide (r.t.s3 < r.x.lanes.length + on.length) then .error excOutput
    else
      .ok (retire r { r.x with lanes := r.x.lanes ++ on.map fun i => laneGet t.size (vGet r.x a) i } s)) s

/-! ### The accumulation and sweep instructions -/

/-- XADD (R211). -/
def execXadd (c : Core) (t : ElemT) (d : AReg) (a : VReg) (b : SReg) (p : PReg) (sram : SramRead) (s : State) : Host.Outcome State Fault Refusal :=
  xop c (.xadd c t d a b p .clean) .add t d a b p sram s

/-- XSUB (R211). -/
def execXsub (c : Core) (t : ElemT) (d : AReg) (a : VReg) (b : SReg) (p : PReg) (sram : SramRead) (s : State) : Host.Outcome State Fault Refusal :=
  xop c (.xsub c t d a b p .clean) .sub t d a b p sram s

/-- XMAX (R211). -/
def execXmax (c : Core) (t : ElemT) (d : AReg) (a : VReg) (b : SReg) (p : PReg) (sram : SramRead) (s : State) : Host.Outcome State Fault Refusal :=
  xop c (.xmax c t d a b p .clean) .max t d a b p sram s

/-- XMIN (R211). -/
def execXmin (c : Core) (t : ElemT) (d : AReg) (a : VReg) (b : SReg) (p : PReg) (sram : SramRead) (s : State) : Host.Outcome State Fault Refusal :=
  xop c (.xmin c t d a b p .clean) .min t d a b p sram s

/-- XAND (R211). -/
def execXand (c : Core) (t : ElemT) (d : AReg) (a : VReg) (b : SReg) (p : PReg) (sram : SramRead) (s : State) : Host.Outcome State Fault Refusal :=
  xop c (.xand c t d a b p .clean) .and t d a b p sram s

/-- XIOR (R211). -/
def execXior (c : Core) (t : ElemT) (d : AReg) (a : VReg) (b : SReg) (p : PReg) (sram : SramRead) (s : State) : Host.Outcome State Fault Refusal :=
  xop c (.xior c t d a b p .clean) .or t d a b p sram s

/-- XXOR (R211). -/
def execXxor (c : Core) (t : ElemT) (d : AReg) (a : VReg) (b : SReg) (p : PReg) (sram : SramRead) (s : State) : Host.Outcome State Fault Refusal :=
  xop c (.xxor c t d a b p .clean) .xor t d a b p sram s

/-- XSET (R211). -/
def execXset (c : Core) (t : ElemT) (d : AReg) (a : VReg) (b : SReg) (p : PReg) (s : State) : Host.Outcome State Fault Refusal :=
  xop c (.xset c t d a b p) .set t d a b p .clean s

/-- XID_SUM (R209). -/
def execXidSum (c : Core) (d : AReg) (a b : SReg) (s : State) : Host.Outcome State Fault Refusal :=
  xid c (.xidSum c d a b) 0 d a b s

/-- XID_MAX (R209). -/
def execXidMax (c : Core) (d : AReg) (a b : SReg) (s : State) : Host.Outcome State Fault Refusal :=
  xid c (.xidMax c d a b) 1 d a b s

/-- XID_MIN (R209). -/
def execXidMin (c : Core) (d : AReg) (a b : SReg) (s : State) : Host.Outcome State Fault Refusal :=
  xid c (.xidMin c d a b) 2 d a b s

/-- XID_AND (R209). -/
def execXidAnd (c : Core) (d : AReg) (a b : SReg) (s : State) : Host.Outcome State Fault Refusal :=
  xid c (.xidAnd c d a b) 3 d a b s

/-- XID_OR (R209). -/
def execXidOr (c : Core) (d : AReg) (a b : SReg) (s : State) : Host.Outcome State Fault Refusal :=
  xid c (.xidOr c d a b) 4 d a b s

/-- XID_XOR (R209). -/
def execXidXor (c : Core) (d : AReg) (a b : SReg) (s : State) : Host.Outcome State Fault Refusal :=
  xid c (.xidXor c d a b) 5 d a b s

/-- XID_COPY (R209). -/
def execXidCopy (c : Core) (d : AReg) (a b : SReg) (s : State) : Host.Outcome State Fault Refusal :=
  xid c (.xidCopy c d a b) 7 d a b s

/-- XADDW (R211). -/
def execXaddw (c : Core) (d : AReg) (a b : SReg) (sram : SramRead) (s : State) : Host.Outcome State Fault Refusal :=
  xWide c (.xaddw c d a b .clean) .add d a b sram s

/-- XSUBW (R211). -/
def execXsubw (c : Core) (d : AReg) (a b : SReg) (sram : SramRead) (s : State) : Host.Outcome State Fault Refusal :=
  xWide c (.xsubw c d a b .clean) .sub d a b sram s

/-- XSWP_ADD (R211). -/
def execXswpAdd (c : Core) (t : ElemT) (d a : AReg) (b : SReg) (p : PReg) (sram : SramRead) (s : State) : Host.Outcome State Fault Refusal :=
  xswp c (.xswpAdd c t d a b p .clean) .add false t d a b p sram s

/-- XSWP_MAX (R211). -/
def execXswpMax (c : Core) (t : ElemT) (d a : AReg) (b : SReg) (p : PReg) (sram : SramRead) (s : State) : Host.Outcome State Fault Refusal :=
  xswp c (.xswpMax c t d a b p .clean) .max false t d a b p sram s

/-- XSWP_MIN (R211). -/
def execXswpMin (c : Core) (t : ElemT) (d a : AReg) (b : SReg) (p : PReg) (sram : SramRead) (s : State) : Host.Outcome State Fault Refusal :=
  xswp c (.xswpMin c t d a b p .clean) .min false t d a b p sram s

/-- XSWP_AND (R211). -/
def execXswpAnd (c : Core) (t : ElemT) (d a : AReg) (b : SReg) (p : PReg) (sram : SramRead) (s : State) : Host.Outcome State Fault Refusal :=
  xswp c (.xswpAnd c t d a b p .clean) .and false t d a b p sram s

/-- XSWP_OR (R211). -/
def execXswpOr (c : Core) (t : ElemT) (d a : AReg) (b : SReg) (p : PReg) (sram : SramRead) (s : State) : Host.Outcome State Fault Refusal :=
  xswp c (.xswpOr c t d a b p .clean) .or false t d a b p sram s

/-- XSWP_XOR (R211). -/
def execXswpXor (c : Core) (t : ElemT) (d a : AReg) (b : SReg) (p : PReg) (sram : SramRead) (s : State) : Host.Outcome State Fault Refusal :=
  xswp c (.xswpXor c t d a b p .clean) .xor false t d a b p sram s

/-- XSWP_COPY (R211). -/
def execXswpCopy (c : Core) (t : ElemT) (d a : AReg) (b : SReg) (p : PReg) (sram : SramRead) (s : State) : Host.Outcome State Fault Refusal :=
  xswp c (.xswpCopy c t d a b p .clean) .set true t d a b p sram s

end Sys2Proof.Machine
end

