-- ==== Sys2Proof/Machine/Dispatch.lean ====
section
/-! DEFINITION. The meaning of every command: one arm per constructor. -/

namespace Sys2Proof.Machine

/-- What a command does to everything but the queue. -/
def exec (i : Instr) (s : State) : Host.Outcome State Fault Refusal :=
  match i with
  | .registerWrite t off four v => Sys2Proof.Machine.execRegisterWrite t off four v s
  | .unmappedAccess t off len write => Sys2Proof.Machine.execUnmappedAccess t off len write s
  | .oebIdLock side => Sys2Proof.Machine.execOebIdLock side s
  | .foldStatRead fn => Sys2Proof.Machine.execFoldStatRead fn s
  | .ctxCfgErrCountRead side x => Sys2Proof.Machine.execCtxCfgErrCountRead side x s
  | .xlatFaultCountRead side x => Sys2Proof.Machine.execXlatFaultCountRead side x s
  | .trngStatRead u => Sys2Proof.Machine.execTrngStatRead u s
  | .sramRowRepaired die bank row => Sys2Proof.Machine.execSramRowRepaired die bank row s
  | .sramRowCopyDone die bank => Sys2Proof.Machine.execSramRowCopyDone die bank s
  | .ingressLookup src pkt eop bad reads => Sys2Proof.Machine.execIngressLookup src pkt eop bad reads s
  | .trackingHoldRelease bank reads => Sys2Proof.Machine.execTrackingHoldRelease bank reads s
  | .heldPacketAdmit src vc reads => Sys2Proof.Machine.execHeldPacketAdmit src vc reads s
  | .heldPacketAgeOut src vc => Sys2Proof.Machine.execHeldPacketAgeOut src vc s
  | .mcOx7Eop pid bad => Sys2Proof.Machine.execMcOx7Eop pid bad s
  | .eopCellBuffered pid bad reads => Sys2Proof.Machine.execEopCellBuffered pid bad reads s
  | .egressQueueHead p vc => Sys2Proof.Machine.execEgressQueueHead p vc s
  | .egressFlitSlot e sram => Sys2Proof.Machine.execEgressFlitSlot e sram s
  | .ctStallAbort p vc => Sys2Proof.Machine.execCtStallAbort p vc s
  | .bufGrantRequest die part => Sys2Proof.Machine.execBufGrantRequest die part s
  | .bufGrantReturn die part => Sys2Proof.Machine.execBufGrantReturn die part s
  | .tokenBlockRequest die part => Sys2Proof.Machine.execTokenBlockRequest die part s
  | .tokenBlockReturn die part => Sys2Proof.Machine.execTokenBlockReturn die part s
  | .mirrorCopy sess p egress pkt bad sopFt sopQual => Sys2Proof.Machine.execMirrorCopy sess p egress pkt bad sopFt sopQual s
  | .sampleRecordWrite sram => Sys2Proof.Machine.execSampleRecordWrite sram s
  | .creditStall e vc => Sys2Proof.Machine.execCreditStall e vc s
  | .echoSend p => Sys2Proof.Machine.execEchoSend p s
  | .echoRx x => Sys2Proof.Machine.execEchoRx x s
  | .rateRecovery u dst vc => Sys2Proof.Machine.execRateRecovery u dst vc s
  | .cmapBoundary => Sys2Proof.Machine.execCmapBoundary s
  | .flitRx e line slip => Sys2Proof.Machine.execFlitRx e line slip s
  | .replayTimeout e => Sys2Proof.Machine.execReplayTimeout e s
  | .nakResend e => Sys2Proof.Machine.execNakResend e s
  | .skipInsertSend e => Sys2Proof.Machine.execSkipInsertSend e s
  | .skipRx e line slip => Sys2Proof.Machine.execSkipRx e line slip s
  | .breezeSend e => Sys2Proof.Machine.execBreezeSend e s
  | .breezeRx e line => Sys2Proof.Machine.execBreezeRx e line s
  | .idleRx e line => Sys2Proof.Machine.execIdleRx e line s
  | .swapRx e line => Sys2Proof.Machine.execSwapRx e line s
  | .downRx e line => Sys2Proof.Machine.execDownRx e line s
  | .gustRx e line => Sys2Proof.Machine.execGustRx e line s
  | .electricalIdleEntry e => Sys2Proof.Machine.execElectricalIdleEntry e s
  | .gustExit e => Sys2Proof.Machine.execGustExit e s
  | .idleKeepalive e => Sys2Proof.Machine.execIdleKeepalive e s
  | .los e => Sys2Proof.Machine.execLos e s
  | .losIdle e => Sys2Proof.Machine.execLosIdle e s
  | .fecBurst e => Sys2Proof.Machine.execFecBurst e s
  | .replayMaxExceeded e => Sys2Proof.Machine.execReplayMaxExceeded e s
  | .silentTimeout e => Sys2Proof.Machine.execSilentTimeout e s
  | .gustTimeout e => Sys2Proof.Machine.execGustTimeout e s
  | .nrPatternRx e line => Sys2Proof.Machine.execNrPatternRx e line s
  | .ts1Rx e line arrivals => Sys2Proof.Machine.execTs1Rx e line arrivals s
  | .ts2Rx e line => Sys2Proof.Machine.execTs2Rx e line s
  | .tsoRx e line arrival => Sys2Proof.Machine.execTsoRx e line arrival s
  | .tscRx e line => Sys2Proof.Machine.execTscRx e line s
  | .marginCheckDone e eyes => Sys2Proof.Machine.execMarginCheckDone e eyes s
  | .alignTimeout e => Sys2Proof.Machine.execAlignTimeout e s
  | .marginTimeout e => Sys2Proof.Machine.execMarginTimeout e s
  | .timeStateTimeout e => Sys2Proof.Machine.execTimeStateTimeout e s
  | .creditStateTimeout e => Sys2Proof.Machine.execCreditStateTimeout e s
  | .downHoldEnd e => Sys2Proof.Machine.execDownHoldEnd e s
  | .refclkLost => Sys2Proof.Machine.execRefclkLost s
  | .refclkRestored => Sys2Proof.Machine.execRefclkRestored s
  | .laneDegraded site => Sys2Proof.Machine.execLaneDegraded site s
  | .laneSwapRxSwitch p => Sys2Proof.Machine.execLaneSwapRxSwitch p s
  | .laneSwapTxSwitch p => Sys2Proof.Machine.execLaneSwapTxSwitch p s
  | .oebPortEnable side q => Sys2Proof.Machine.execOebPortEnable side q s
  | .load side d => Sys2Proof.Machine.execLoad side d s
  | .store side d => Sys2Proof.Machine.execStore side d s
  | .storeNp side d => Sys2Proof.Machine.execStoreNp side d s
  | .atomic side d => Sys2Proof.Machine.execAtomic side d s
  | .msgSend side d => Sys2Proof.Machine.execMsgSend side d s
  | .contrib side d => Sys2Proof.Machine.execContrib side d s
  | .fenceSys side d => Sys2Proof.Machine.execFenceSys side d s
  | .fenceSysComplete ctx atag => Sys2Proof.Machine.execFenceSysComplete ctx atag s
  | .lcWait side d => Sys2Proof.Machine.execLcWait side d s
  | .lcWaitTimeout side ctx atag => Sys2Proof.Machine.execLcWaitTimeout side ctx atag s
  | .lcRd side d => Sys2Proof.Machine.execLcRd side d s
  | .lcWr side d => Sys2Proof.Machine.execLcWr side d s
  | .dmaRingDoorbell side d => Sys2Proof.Machine.execDmaRingDoorbell side d s
  | .dmaCompletionWait side d => Sys2Proof.Machine.execDmaCompletionWait side d s
  | .dmaWaitTimeout side ctx atag => Sys2Proof.Machine.execDmaWaitTimeout side ctx atag s
  | .cwGetS side d => Sys2Proof.Machine.execCwGetS side d s
  | .cwGetM side d => Sys2Proof.Machine.execCwGetM side d s
  | .cwUpg side d => Sys2Proof.Machine.execCwUpg side d s
  | .cwWb side d => Sys2Proof.Machine.execCwWb side d s
  | .walkStart side => Sys2Proof.Machine.execWalkStart side s
  | .requestIssue side => Sys2Proof.Machine.execRequestIssue side s
  | .loadTimeout side tag => Sys2Proof.Machine.execLoadTimeout side tag s
  | .quarantineEnd side tag => Sys2Proof.Machine.execQuarantineEnd side tag s
  | .responseRx side q pkt bad => Sys2Proof.Machine.execResponseRx side q pkt bad s
  | .seqExhausted u slot unit => Sys2Proof.Machine.execSeqExhausted u slot unit s
  | .inboundRequest side q pkt bad => Sys2Proof.Machine.execInboundRequest side q pkt bad s
  | .mrspRx side mtag status data => Sys2Proof.Machine.execMrspRx side mtag status data s
  | .mrspTimeout side mtag => Sys2Proof.Machine.execMrspTimeout side mtag s
  | .rresultRx side q pkt bad => Sys2Proof.Machine.execRresultRx side q pkt bad s
  | .xlatInvAll side drain => Sys2Proof.Machine.execXlatInvAll side drain s
  | .xlatInvAsid side drain asid => Sys2Proof.Machine.execXlatInvAsid side drain asid s
  | .xlatInvAsidRange side drain asid npages => Sys2Proof.Machine.execXlatInvAsidRange side drain asid npages s
  | .xlatInvRange side drain npages => Sys2Proof.Machine.execXlatInvRange side drain npages s
  | .xlatInvApt side drain apt => Sys2Proof.Machine.execXlatInvApt side drain apt s
  | .invPurge side => Sys2Proof.Machine.execInvPurge side s
  | .invDrainComplete side => Sys2Proof.Machine.execInvDrainComplete side s
  | .dmaTailWrite side ch tail => Sys2Proof.Machine.execDmaTailWrite side ch tail s
  | .descriptorFetch side ch => Sys2Proof.Machine.execDescriptorFetch side ch s
  | .dmaCopy side ch => Sys2Proof.Machine.execDmaCopy side ch s
  | .dmaFill side ch => Sys2Proof.Machine.execDmaFill side ch s
  | .dmaCompare side ch => Sys2Proof.Machine.execDmaCompare side ch s
  | .dmaDecrypt side ch => Sys2Proof.Machine.execDmaDecrypt side ch s
  | .dmaNoOperation side ch => Sys2Proof.Machine.execDmaNoOperation side ch s
  | .dmaBurstIssue side => Sys2Proof.Machine.execDmaBurstIssue side s
  | .dmaTimerTrigger side ch => Sys2Proof.Machine.execDmaTimerTrigger side ch s
  | .dmaDescriptorComplete side ch => Sys2Proof.Machine.execDmaDescriptorComplete side ch s
  | .dmaStop side ch => Sys2Proof.Machine.execDmaStop side ch s
  | .dmaErrClear side ch => Sys2Proof.Machine.execDmaErrClear side ch s
  | .dmaChannelDisable side ch => Sys2Proof.Machine.execDmaChannelDisable side ch s
  | .cwBankRequest pkts => Sys2Proof.Machine.execCwBankRequest pkts s
  | .cohWbAtBank pkt => Sys2Proof.Machine.execCohWbAtBank pkt s
  | .cohDataAtBank pkt => Sys2Proof.Machine.execCohDataAtBank pkt s
  | .cohAckAtBank pkt => Sys2Proof.Machine.execCohAckAtBank pkt s
  | .cwAckTimeout bank line member => Sys2Proof.Machine.execCwAckTimeout bank line member s
  | .cohInvRx side pkt bad => Sys2Proof.Machine.execCohInvRx side pkt bad s
  | .cohRecallRx side pkt bad => Sys2Proof.Machine.execCohRecallRx side pkt bad s
  | .contribSopRx die pkt => Sys2Proof.Machine.execContribSopRx die pkt s
  | .holdRangeAllocated die id slot => Sys2Proof.Machine.execHoldRangeAllocated die id slot s
  | .contribCellRx die id slot bytes sram => Sys2Proof.Machine.execContribCellRx die id slot bytes sram s
  | .contribEopCheck die id slot bad trailer => Sys2Proof.Machine.execContribEopCheck die id slot bad trailer s
  | .taskStart core => Sys2Proof.Machine.execTaskStart core s
  | .lunaStepDeadline die comm => Sys2Proof.Machine.execLunaStepDeadline die comm s
  | .checkRecordRx die rec => Sys2Proof.Machine.execCheckRecordRx die rec s
  | .verifyTimeout die id => Sys2Proof.Machine.execVerifyTimeout die id s
  | .lunaHwfault core row => Sys2Proof.Machine.execLunaHwfault core row s
  | .taskBudgetExceeded core => Sys2Proof.Machine.execTaskBudgetExceeded core s
  | .armComplete die comm => Sys2Proof.Machine.execArmComplete die comm s
  | .disarmComplete die comm => Sys2Proof.Machine.execDisarmComplete die comm s
  | .add c d a b => Sys2Proof.Machine.execAdd c d a b s
  | .sub c d a b => Sys2Proof.Machine.execSub c d a b s
  | .andd c d a b => Sys2Proof.Machine.execAndd c d a b s
  | .orr c d a b => Sys2Proof.Machine.execOrr c d a b s
  | .xorr c d a b => Sys2Proof.Machine.execXorr c d a b s
  | .shl c d a b => Sys2Proof.Machine.execShl c d a b s
  | .shr c d a b => Sys2Proof.Machine.execShr c d a b s
  | .sar c d a b => Sys2Proof.Machine.execSar c d a b s
  | .mul c d a b => Sys2Proof.Machine.execMul c d a b s
  | .slt c d a b => Sys2Proof.Machine.execSlt c d a b s
  | .sltu c d a b => Sys2Proof.Machine.execSltu c d a b s
  | .seqq c d a b => Sys2Proof.Machine.execSeqq c d a b s
  | .smin c d a b => Sys2Proof.Machine.execSmin c d a b s
  | .smax c d a b => Sys2Proof.Machine.execSmax c d a b s
  | .addi c d a imm => Sys2Proof.Machine.execAddi c d a imm s
  | .andi c d a imm => Sys2Proof.Machine.execAndi c d a imm s
  | .ori c d a imm => Sys2Proof.Machine.execOri c d a imm s
  | .shli c d a n => Sys2Proof.Machine.execShli c d a n s
  | .shri c d a n => Sys2Proof.Machine.execShri c d a n s
  | .li c d imm => Sys2Proof.Machine.execLi c d imm s
  | .lsh c d a imm => Sys2Proof.Machine.execLsh c d a imm s
  | .ld c d a imm sram => Sys2Proof.Machine.execLd c d a imm sram s
  | .ldw c d a imm sram => Sys2Proof.Machine.execLdw c d a imm sram s
  | .st c d a imm => Sys2Proof.Machine.execSt c d a imm s
  | .stw c d a imm => Sys2Proof.Machine.execStw c d a imm s
  | .ldc c d a imm => Sys2Proof.Machine.execLdc c d a imm s
  | .beq c a b off => Sys2Proof.Machine.execBeq c a b off s
  | .bne c a b off => Sys2Proof.Machine.execBne c a b off s
  | .blt c a b off => Sys2Proof.Machine.execBlt c a b off s
  | .bltu c a b off => Sys2Proof.Machine.execBltu c a b off s
  | .bany c a off => Sys2Proof.Machine.execBany c a off s
  | .bnone c a off => Sys2Proof.Machine.execBnone c a off s
  | .jmp c off => Sys2Proof.Machine.execJmp c off s
  | .call c off => Sys2Proof.Machine.execCall c off s
  | .ret c => Sys2Proof.Machine.execRet c s
  | .done c => Sys2Proof.Machine.execDone c s
  | .rdt c d a n => Sys2Proof.Machine.execRdt c d a n s
  | .bitm c d a => Sys2Proof.Machine.execBitm c d a s
  | .pand c d a b => Sys2Proof.Machine.execPand c d a b s
  | .por c d a b => Sys2Proof.Machine.execPor c d a b s
  | .pxor c d a b => Sys2Proof.Machine.execPxor c d a b s
  | .pandn c d a b => Sys2Proof.Machine.execPandn c d a b s
  | .pmov c d a => Sys2Proof.Machine.execPmov c d a s
  | .pget c d a => Sys2Proof.Machine.execPget c d a s
  | .pfirst c d a => Sys2Proof.Machine.execPfirst c d a s
  | .pcnt c d a => Sys2Proof.Machine.execPcnt c d a s
  | .vld c d a imm sram => Sys2Proof.Machine.execVld c d a imm sram s
  | .vst c d a imm => Sys2Proof.Machine.execVst c d a imm s
  | .vldc c d a imm => Sys2Proof.Machine.execVldc c d a imm s
  | .vadd c t d a b p => Sys2Proof.Machine.execVadd c t d a b p s
  | .vsub c t d a b p => Sys2Proof.Machine.execVsub c t d a b p s
  | .vmax c t d a b p => Sys2Proof.Machine.execVmax c t d a b p s
  | .vmin c t d a b p => Sys2Proof.Machine.execVmin c t d a b p s
  | .vand c t d a b p => Sys2Proof.Machine.execVand c t d a b p s
  | .vor c t d a b p => Sys2Proof.Machine.execVor c t d a b p s
  | .vxor c t d a b p => Sys2Proof.Machine.execVxor c t d a b p s
  | .vsel c t d a b p => Sys2Proof.Machine.execVsel c t d a b p s
  | .vcmpEq c t d a b p => Sys2Proof.Machine.execVcmpEq c t d a b p s
  | .vcmpLt c t d a b p => Sys2Proof.Machine.execVcmpLt c t d a b p s
  | .vcmpLe c t d a b p => Sys2Proof.Machine.execVcmpLe c t d a b p s
  | .vcmpNe c t d a b p => Sys2Proof.Machine.execVcmpNe c t d a b p s
  | .vcvt c t d a f => Sys2Proof.Machine.execVcvt c t d a f s
  | .vrnd c t d a b p f => Sys2Proof.Machine.execVrnd c t d a b p f s
  | .vsplat c t d a => Sys2Proof.Machine.execVsplat c t d a s
  | .vlda c d a b sram => Sys2Proof.Machine.execVlda c d a b sram s
  | .vsta c d a b p => Sys2Proof.Machine.execVsta c d a b p s
  | .xadd c t d a b p sram => Sys2Proof.Machine.execXadd c t d a b p sram s
  | .xsub c t d a b p sram => Sys2Proof.Machine.execXsub c t d a b p sram s
  | .xmax c t d a b p sram => Sys2Proof.Machine.execXmax c t d a b p sram s
  | .xmin c t d a b p sram => Sys2Proof.Machine.execXmin c t d a b p sram s
  | .xand c t d a b p sram => Sys2Proof.Machine.execXand c t d a b p sram s
  | .xior c t d a b p sram => Sys2Proof.Machine.execXior c t d a b p sram s
  | .xxor c t d a b p sram => Sys2Proof.Machine.execXxor c t d a b p sram s
  | .xset c t d a b p => Sys2Proof.Machine.execXset c t d a b p s
  | .xidSum c d a b => Sys2Proof.Machine.execXidSum c d a b s
  | .xidMax c d a b => Sys2Proof.Machine.execXidMax c d a b s
  | .xidMin c d a b => Sys2Proof.Machine.execXidMin c d a b s
  | .xidAnd c d a b => Sys2Proof.Machine.execXidAnd c d a b s
  | .xidOr c d a b => Sys2Proof.Machine.execXidOr c d a b s
  | .xidXor c d a b => Sys2Proof.Machine.execXidXor c d a b s
  | .xidCopy c d a b => Sys2Proof.Machine.execXidCopy c d a b s
  | .xaddw c d a b sram => Sys2Proof.Machine.execXaddw c d a b sram s
  | .xsubw c d a b sram => Sys2Proof.Machine.execXsubw c d a b sram s
  | .aoff c d a b => Sys2Proof.Machine.execAoff c d a b s
  | .xswpAdd c t d a b p sram => Sys2Proof.Machine.execXswpAdd c t d a b p sram s
  | .xswpMax c t d a b p sram => Sys2Proof.Machine.execXswpMax c t d a b p sram s
  | .xswpMin c t d a b p sram => Sys2Proof.Machine.execXswpMin c t d a b p sram s
  | .xswpAnd c t d a b p sram => Sys2Proof.Machine.execXswpAnd c t d a b p sram s
  | .xswpOr c t d a b p sram => Sys2Proof.Machine.execXswpOr c t d a b p sram s
  | .xswpXor c t d a b p sram => Sys2Proof.Machine.execXswpXor c t d a b p sram s
  | .xswpCopy c t d a b p sram => Sys2Proof.Machine.execXswpCopy c t d a b p sram s
  | .fswp c t d a b p sram => Sys2Proof.Machine.execFswp c t d a b p sram s
  | .xrnd c t d a b p sram => Sys2Proof.Machine.execXrnd c t d a b p sram s
  | .xbexp c t d b p sram => Sys2Proof.Machine.execXbexp c t d b p sram s
  | .vbexp c t a b p => Sys2Proof.Machine.execVbexp c t a b p s
  | .xmrg c t d a b sram => Sys2Proof.Machine.execXmrg c t d a b sram s
  | .xdns c sram => Sys2Proof.Machine.execXdns c sram s
  | .ost c t a p => Sys2Proof.Machine.execOst c t a p s
  | .segmentEgress k pkt bad => Sys2Proof.Machine.execSegmentEgress k pkt bad s
  | .segmentRelease k src part region sram => Sys2Proof.Machine.execSegmentRelease k src part region sram s
  | .segmentArrival k pkt bad => Sys2Proof.Machine.execSegmentArrival k pkt bad s
  | .remoteTimeout k src tag => Sys2Proof.Machine.execRemoteTimeout k src tag s
  | .hostRequest k pkt bad => Sys2Proof.Machine.execHostRequest k pkt bad s
  | .pcieCompletionRx k ptag status data => Sys2Proof.Machine.execPcieCompletionRx k ptag status data s
  | .hostCplTimeout k ptag => Sys2Proof.Machine.execHostCplTimeout k ptag s
  | .hostRxConsWrite k v => Sys2Proof.Machine.execHostRxConsWrite k v s
  | .hostTxTailWrite k v => Sys2Proof.Machine.execHostTxTailWrite k v s
  | .hostTxDescriptor k words data => Sys2Proof.Machine.execHostTxDescriptor k words data s
  | .skipperWrRspRx k pkt => Sys2Proof.Machine.execSkipperWrRspRx k pkt s
  | .hostTxDescriptorComplete k => Sys2Proof.Machine.execHostTxDescriptorComplete k s
  | .ppsInEdge => Sys2Proof.Machine.execPpsInEdge s
  | .ppsInLost => Sys2Proof.Machine.execPpsInLost s
  | .markerLoss u => Sys2Proof.Machine.execMarkerLoss u s
  | .ppsOutEdge k => Sys2Proof.Machine.execPpsOutEdge k s
  | .ppsOutFall k => Sys2Proof.Machine.execPpsOutFall k s
  | .keySet u sess c => Sys2Proof.Machine.execKeySet u sess c s
  | .keyRotate u sess c => Sys2Proof.Machine.execKeyRotate u sess c s
  | .keyErase u sess c => Sys2Proof.Machine.execKeyErase u sess c s
  | .keyQuery u sess c => Sys2Proof.Machine.execKeyQuery u sess c s
  | .devsetSet u sess c => Sys2Proof.Machine.execDevsetSet u sess c s
  | .keyRotationTime u slot => Sys2Proof.Machine.execKeyRotationTime u slot s
  | .keyOverlapEnd u slot => Sys2Proof.Machine.execKeyOverlapEnd u slot s
  | .getVersion u conn => Sys2Proof.Machine.execGetVersion u conn s
  | .getCapabilities u conn req => Sys2Proof.Machine.execGetCapabilities u conn req s
  | .negotiateAlgorithms u conn req => Sys2Proof.Machine.execNegotiateAlgorithms u conn req s
  | .getDigests u conn => Sys2Proof.Machine.execGetDigests u conn s
  | .getCertificate u conn slot offset length => Sys2Proof.Machine.execGetCertificate u conn slot offset length s
  | .challenge u conn slot req => Sys2Proof.Machine.execChallenge u conn slot req s
  | .getMeasurements u conn index signed req => Sys2Proof.Machine.execGetMeasurements u conn index signed req s
  | .keyExchange u conn sess req => Sys2Proof.Machine.execKeyExchange u conn sess req s
  | .finish u sess req leafKey => Sys2Proof.Machine.execFinish u sess req leafKey s
  | .keyUpdate u sess req => Sys2Proof.Machine.execKeyUpdate u sess req s
  | .heartbeat u sess => Sys2Proof.Machine.execHeartbeat u sess s
  | .endSession u sess => Sys2Proof.Machine.execEndSession u sess s
  | .vendorDefinedRequest u sess std pen payload => Sys2Proof.Machine.execVendorDefinedRequest u sess std pen payload s
  | .trngStartupDone u pass => Sys2Proof.Machine.execTrngStartupDone u pass s
  | .trngHealthFail u apt => Sys2Proof.Machine.execTrngHealthFail u apt s
  | .drbgReseed u => Sys2Proof.Machine.execDrbgReseed u s
  | .debugUnlock token => Sys2Proof.Machine.execDebugUnlock token s
  | .monarchHeartbeatLoss => Sys2Proof.Machine.execMonarchHeartbeatLoss s
  | .monarchFaultReport => Sys2Proof.Machine.execMonarchFaultReport s
  | .eventFold u => Sys2Proof.Machine.execEventFold u s
  | .foldWindowExpiry u seq => Sys2Proof.Machine.execFoldWindowExpiry u seq s
  | .foldMaxspanExpiry u seq => Sys2Proof.Machine.execFoldMaxspanExpiry u seq s
  | .trayRemoval => Sys2Proof.Machine.execTrayRemoval s
  | .hpGlitch => Sys2Proof.Machine.execHpGlitch s
  | .trayInsertion => Sys2Proof.Machine.execTrayInsertion s
  | .backgroundSelftestFail sl => Sys2Proof.Machine.execBackgroundSelftestFail sl s
  | .sliceCutClock => Sys2Proof.Machine.execSliceCutClock s
  | .grantFreezeEnd => Sys2Proof.Machine.execGrantFreezeEnd s
  | .sliceDrained sl => Sys2Proof.Machine.execSliceDrained sl s
  | .sliceFail sl => Sys2Proof.Machine.execSliceFail sl s
  | .unitTestDone kind num pass => Sys2Proof.Machine.execUnitTestDone kind num pass s
  | .unitShadowDone kind num pass => Sys2Proof.Machine.execUnitShadowDone kind num pass s
  | .snapshotInstant => Sys2Proof.Machine.execSnapshotInstant s
  | .snapshotCopyDone => Sys2Proof.Machine.execSnapshotCopyDone s
  | .calmFreeze => Sys2Proof.Machine.execCalmFreeze s
  | .calmFrameRx link frame => Sys2Proof.Machine.execCalmFrameRx link frame s
  | .scanRead fn off => Sys2Proof.Machine.execScanRead fn off s
  | .mailboxGo d fn reqLen => Sys2Proof.Machine.execMailboxGo d fn reqLen s
  | .mailboxResponse d rsp => Sys2Proof.Machine.execMailboxResponse d rsp s
  | .ringTailWrite d tail => Sys2Proof.Machine.execRingTailWrite d tail s
  | .ringFlush d => Sys2Proof.Machine.execRingFlush d s
  | .programCheck => Sys2Proof.Machine.execProgramCheck s
  | .payloadFetchDone pos word res => Sys2Proof.Machine.execPayloadFetchDone pos word res s
  | .programCommit => Sys2Proof.Machine.execProgramCommit s
  | .wr dom addr v => Sys2Proof.Machine.execWr dom addr v s
  | .blkWr dom addr vs => Sys2Proof.Machine.execBlkWr dom addr vs s
  | .rd dom addr slot => Sys2Proof.Machine.execRd dom addr slot s
  | .ctxArm dom comm => Sys2Proof.Machine.execCtxArm dom comm s
  | .ctxDisarm dom comm => Sys2Proof.Machine.execCtxDisarm dom comm s
  | .lunaLoad dom mask image => Sys2Proof.Machine.execLunaLoad dom mask image s
  | .lunaUnload dom progId mask => Sys2Proof.Machine.execLunaUnload dom progId mask s
  | .profileLoad dom n => Sys2Proof.Machine.execProfileLoad dom n s
  | .profileStore dom n image => Sys2Proof.Machine.execProfileStore dom n image s
  | .fwStage dom image => Sys2Proof.Machine.execFwStage dom image s
  | .fabricEnable dom => Sys2Proof.Machine.execFabricEnable dom s
  | .fabricDisable dom => Sys2Proof.Machine.execFabricDisable dom s
  | .timeSet dom ft => Sys2Proof.Machine.execTimeSet dom ft s
  | .snapAt dom ft => Sys2Proof.Machine.execSnapAt dom ft s
  | .calm dom => Sys2Proof.Machine.execCalm dom s
  | .calmAt dom ft => Sys2Proof.Machine.execCalmAt dom ft s
  | .signerEnroll dom index key => Sys2Proof.Machine.execSignerEnroll dom index key s
  | .signerRevoke dom index => Sys2Proof.Machine.execSignerRevoke dom index s
  | .expel dom stmt => Sys2Proof.Machine.execExpel dom stmt s
  | .readmit dom stmt => Sys2Proof.Machine.execReadmit dom stmt s
  | .monarchSwitch dom => Sys2Proof.Machine.execMonarchSwitch dom s
  | .retireUnit dom kind num => Sys2Proof.Machine.execRetireUnit dom kind num s
  | .serviceTest dom kind num => Sys2Proof.Machine.execServiceTest dom kind num s
  | .restoreUnit dom kind num => Sys2Proof.Machine.execRestoreUnit dom kind num s
  | .gwTxResume dom k => Sys2Proof.Machine.execGwTxResume dom k s
  | .commitAt dom ft => Sys2Proof.Machine.execCommitAt dom ft s
  | .nop dom => Sys2Proof.Machine.execNop dom s
  | .enumFrameRx frame => Sys2Proof.Machine.execEnumFrameRx frame s
  | .chainHeadTimeout => Sys2Proof.Machine.execChainHeadTimeout s
  | .cmdFrameRx link frame => Sys2Proof.Machine.execCmdFrameRx link frame s
  | .cplFrameRx link frame => Sys2Proof.Machine.execCplFrameRx link frame s
  | .fetchFrameRx link frame => Sys2Proof.Machine.execFetchFrameRx link frame s
  | .breezeFrameRx link frame => Sys2Proof.Machine.execBreezeFrameRx link frame s
  | .eventFrameRx link frame => Sys2Proof.Machine.execEventFrameRx link frame s
  | .delayFrameRx link frame arrival => Sys2Proof.Machine.execDelayFrameRx link frame arrival s
  | .chainFrameResend link => Sys2Proof.Machine.execChainFrameResend link s
  | .chainDown link => Sys2Proof.Machine.execChainDown link s
  | .stepLaunch => Sys2Proof.Machine.execStepLaunch s
  | .reset => Sys2Proof.Machine.execReset s
  | .startUp => Sys2Proof.Machine.execStartUp s
  | .aonPhaseDone psel fusesOk aonOk => Sys2Proof.Machine.execAonPhaseDone psel fusesOk aonOk s
  | .powerPhaseDone => Sys2Proof.Machine.execPowerPhaseDone s
  | .selftestPhaseDone failedDies failedSites failedCores failedRows => Sys2Proof.Machine.execSelftestPhaseDone failedDies failedSites failedCores failedRows s
  | .bootPhaseDone => Sys2Proof.Machine.execBootPhaseDone s
  | .profilePhaseDone => Sys2Proof.Machine.execProfilePhaseDone s
  | .lunaCocoonEntry die cluster => Sys2Proof.Machine.execLunaCocoonEntry die cluster s
  | .cocoonWakeDone dom => Sys2Proof.Machine.execCocoonWakeDone dom s
  | .dvfsVoltageReached raw => Sys2Proof.Machine.execDvfsVoltageReached raw s
  | .dvfsTimeout => Sys2Proof.Machine.execDvfsTimeout s
  | .governorTick demand => Sys2Proof.Machine.execGovernorTick demand s
  | .thermalWarn sensor raw => Sys2Proof.Machine.execThermalWarn sensor raw s
  | .thermalTrip sensor raw => Sys2Proof.Machine.execThermalTrip sensor raw s
  | .pinReadback fault alert pps0 pps1 i3c => Sys2Proof.Machine.execPinReadback fault alert pps0 pps1 i3c s
  | .cohRequestAtHome side pkt bad => Sys2Proof.Machine.execCohRequestAtHome side pkt bad s
  | .chainLinkUp link => Sys2Proof.Machine.execChainLinkUp link s
  | .managementPortTrained => Sys2Proof.Machine.execManagementPortTrained s
  | .skipModeEnd e => Sys2Proof.Machine.execSkipModeEnd e s
  | .oebReset side strap => Sys2Proof.Machine.execOebReset side strap s

end Sys2Proof.Machine
end

