-- ==== Sys2Proof/Machine/Tick.lean ====
section
/-! DEFINITION. One reference cycle of 6.4 ns, in which nothing is commanded: fabric time advances and slews, the
shaper buckets fill, ports that starve are noted (R334, R341, R147, R149; log entry 4, DESIGN CHOICE). -/

namespace Sys2Proof.Machine

/-- The slew of one reference cycle in 2^-32 ft: sign(r) × min(|r|, 16 × SLEW_MAX × 10^-6) (R341). -/
def slewStep (r : Int) (slewMax : Nat) : Int :=
  let lim : Int := (16 * slewMax * 2 ^ 32 / 1000000 : Nat)
  clampInt r (-lim) lim

/-- The advance of one reference cycle in 2^-32 ft without slew: 16 × (1 + RATE × 10^-7) (R334). -/
def rateStep (rate : Int) : Int := 16 * 2 ^ 32 + 16 * 2 ^ 32 * rate / 10000000

/-- One reference cycle of a unit's counter (R334). -/
def tickTime (rate : Int) (slewMax : Nat) (t : TimeUnit) : TimeUnit :=
  let sl := slewStep t.r slewMax
  let total := (t.ft * 2 ^ 32 + t.frac : Nat) + rateStep rate + sl
  { t with ft := (total / 2 ^ 32).toNat % 2 ^ 64, loc := t.loc + 16, frac := (total % 2 ^ 32).toNat, r := t.r - sl
           ppsSlewed := t.ppsSlewed + sl }

/-- One reference cycle of a unit; the quality of one that tracks follows its remaining correction (R343). -/
def tickUnit (u : UnitId) (s : State) : State :=
  let x := s.unit u
  refreshQual u (s.setUnit u { x with
    time := tickTime (signed 16 (gf u TIME_STAT.RATE 0 s)) (gf u TIME_CFG.SLEW_MAX 0 s) x.time })

/-- The buckets of every shaped partition fill (R147). -/
def tickBuckets (s : State) : State :=
  (regEntries .partShape s.ox.regs).foldl (fun s e => if gx PART_SHAPE.EN e.1 s = 1 then bucketStep e.1 s else s) s

/-- The ports where a flit waits with no credit on its VC. -/
def starvedNow (s : State) : List Nat :=
  ((s.fwd.queues.filter fun e => nth (getAux (e.1 / 8) s).credits (e.1 % 8) = 0 && flitReady (e.1 / 8) (e.1 % 8) s).map
    (·.1 / 8)).dedup

/-- A port that starves is noted; at the end of a unit of 256 ft each port noted in it counts the unit once (Table 6-15). The
units are those of ft, and the one open at a map boundary is dropped (log entry 127, DESIGN CHOICE). -/
def tickStarved (before : Nat) (s : State) : State :=
  if !s.obs.cmapOn then s
  else
    let s1 := if before / 256 = ft s / 256 then s
      else s.obs.starved.foldl (fun s p => cmapAdd CMAP_REC.STARVED p s) { s with obs := { s.obs with starved := [] } }
    { s1 with obs := { s1.obs with starved := (s1.obs.starved ++ starvedNow s1).dedup } }

/-- One reference cycle of the block. -/
def tick (s : State) : State :=
  let s1 := tickUnit (.oeb 1) (tickUnit (.oeb 0) s)
  if dark s1 then s1
  else
    let s2 := tickUnit .ox9 { s1 with power := { s1.power with bootCycles := s1.power.bootCycles + 1 } }
    if halted s2 then s2 else tickStarved (ft s1) (tickBuckets s2)

end Sys2Proof.Machine
end

