-- ==== Sys2Proof/WellFormed.lean ====
section
/-! DEFINITION. What a command's operands must satisfy beyond their types to be one that the block can meet (log entry 6, DESIGN CHOICE). -/

namespace Sys2Proof

/-- An offset inside the address range of a target (R457, R238, Table 14-4). -/
def offOk (t : BusTarget) (off : Nat) : Bool :=
  match t with
  | .bar0 _ => decide (off < 2 ^ 27)
  | .oeb _ => decide (off < 2 ^ 20)
  | .host _ => decide (off < 2 ^ 20)

/-- A row of an SRAM bank (chapter 1). -/
def rowOk (row : Nat) : Bool := decide (row < 1024)

/-- The result of an SRAM read names a row of a bank. -/
def readOk (r : SramRead) : Bool :=
  match r with
  | .clean => true
  | .atRow _ row => rowOk row
  | .corrected _ row => rowOk row
  | .uncorrectable _ row => rowOk row

/-- A packet whose payload and trailer fit LEN (13 bits) and a tag. -/
def pktOk (p : Packet) : Bool := decide (p.payload.length < 2 ^ 13) && decide (p.trailer.length ≤ 16)

/-- A descriptor whose data beats fit LEN. -/
def areqOk (d : Areq) : Bool := decide (d.data.length < 2 ^ 13)

/-- A fabric time, or another 64-bit number. -/
def ftOk (n : Nat) : Bool := decide (n < 2 ^ 64)

/-- Every code group of a line has five symbols (R289). -/
def symbolsOk (line : Line) : Bool := line.all fun g => g.length == 5

/-- A line that fills whole slots of a link of 2, 4 or 8 lanes, `n` code groups long at each width (R293). -/
def lineOk (n : Nat → Nat) (line : Line) : Bool := symbolsOk line && [2, 4, 8].any fun w => line.length == n w

/-- An echo's line, or its four bytes inside the OX9 (R143, R144). -/
def echoOk (x : EchoIn) : Bool :=
  match x with
  | .oeb _ _ line => lineOk (fun w => w + ceilDiv 4 w * w) line
  | .ox _ line => lineOk (fun w => w + ceilDiv 4 w * w) line
  | .skipper _ body => body.length == 4

/-- The lanes of a port (R22). -/
def widthOk (n : Nat) : Bool := n == 2 || n == 4 || n == 8

/-- The fields of a chunk's identity (Table 2-3). -/
def idOk (i : ChunkId) : Bool :=
  decide (i.comm < 16384) && decide (i.tree < 2) && decide (i.chunk < 2 ^ 24) && decide (i.step < 256)

/-- A contributor slot. -/
def slotOk (n : Nat) : Bool := decide (n < 1024)

/-- A check record: its identity and 132 column digests, unless it failed (R169). -/
def recordOk (r : CheckRecord) : Bool :=
  idOk ⟨r.comm, 0, r.chunk, r.step⟩ && r.bitmap.all slotOk && (r.failed || r.digests.length == 132)

/-- An SPDM session number. -/
def sessOk (n : Nat) : Bool := decide (n < 2 ^ 32)

/-- A unit number of a service command, A[13:4] (Table 19-6). -/
def numOk (n : Nat) : Bool := decide (n < 1024)

/-- A chain frame (R418). -/
def frame64 (f : List Byte) : Bool := f.length == 64

/-- A raw sensor value of 12 bits (R435). -/
def rawOk (raw : Int) : Bool := decide (-2048 ≤ raw) && decide (raw < 2048)

/-- A command's operands are ones that the block can meet. -/
def WellFormed (i : Instr) : Bool :=
  match i with
  | .registerWrite t off four v => offOk t off && (!four || decide (v.toNat < 2 ^ 32))
  | .unmappedAccess t off len _ => offOk t off && decide (1 ≤ len) && offOk t (off + len - 1)
  | .oebIdLock _ => true
  | .foldStatRead _ => true
  | .ctxCfgErrCountRead _ _ => true
  | .xlatFaultCountRead _ _ => true
  | .trngStatRead _ => true
  | .sramRowRepaired _ _ row => rowOk row
  | .sramRowCopyDone _ _ => true
  | .ingressLookup _ pkt _ _ reads => pktOk pkt && reads.all (fun r => readOk r.2)
  | .trackingHoldRelease _ reads => reads.all (fun r => readOk r.2)
  | .heldPacketAdmit _ _ reads => reads.all (fun r => readOk r.2)
  | .heldPacketAgeOut _ _ => true
  | .mcOx7Eop _ _ => true
  | .eopCellBuffered _ _ reads => reads.all (fun r => readOk r.2)
  | .egressQueueHead _ _ => true
  | .egressFlitSlot _ sram => readOk sram
  | .ctStallAbort _ _ => true
  | .bufGrantRequest _ _ => true
  | .bufGrantReturn _ _ => true
  | .tokenBlockRequest _ _ => true
  | .tokenBlockReturn _ _ => true
  | .mirrorCopy _ _ _ pkt _ sopFt _ => pktOk pkt && ftOk sopFt
  | .sampleRecordWrite sram => readOk sram
  | .creditStall _ _ => true
  | .echoSend _ => true
  | .echoRx x => echoOk x
  | .rateRecovery _ _ _ => true
  | .cmapBoundary => true
  | .flitRx _ line _ => line.length == 128 && symbolsOk line
  | .replayTimeout _ => true
  | .nakResend _ => true
  | .skipInsertSend _ => true
  | .skipRx _ line _ => lineOk id line
  | .breezeSend _ => true
  | .breezeRx _ line => lineOk (fun w => w + ceilDiv 12 w * w) line
  | .idleRx _ line => lineOk (4 * ·) line
  | .swapRx _ line => lineOk (4 * ·) line
  | .downRx _ line => lineOk (4 * ·) line
  | .gustRx _ line => symbolsOk line
  | .electricalIdleEntry _ => true
  | .gustExit _ => true
  | .idleKeepalive _ => true
  | .los _ => true
  | .losIdle _ => true
  | .fecBurst _ => true
  | .replayMaxExceeded _ => true
  | .silentTimeout _ => true
  | .gustTimeout _ => true
  | .nrPatternRx _ line => lineOk (16 * ·) line
  | .ts1Rx _ line arrivals => lineOk (16 * ·) line && widthOk arrivals.length
  | .ts2Rx _ line => lineOk (16 * ·) line
  | .tsoRx _ line _ => lineOk (16 * ·) line
  | .tscRx _ line => lineOk (16 * ·) line
  | .marginCheckDone _ eyes => widthOk eyes.length
  | .alignTimeout _ => true
  | .marginTimeout _ => true
  | .timeStateTimeout _ => true
  | .creditStateTimeout _ => true
  | .downHoldEnd _ => true
  | .refclkLost => true
  | .refclkRestored => true
  | .laneDegraded _ => true
  | .laneSwapRxSwitch _ => true
  | .laneSwapTxSwitch _ => true
  | .oebPortEnable _ _ => true
  | .load _ d => areqOk d
  | .store _ d => areqOk d
  | .storeNp _ d => areqOk d
  | .atomic _ d => areqOk d
  | .msgSend _ d => areqOk d
  | .contrib _ d => areqOk d
  | .fenceSys _ d => areqOk d
  | .fenceSysComplete _ _ => true
  | .lcWait _ d => areqOk d
  | .lcWaitTimeout _ _ _ => true
  | .lcRd _ d => areqOk d
  | .lcWr _ d => areqOk d
  | .dmaRingDoorbell _ d => areqOk d
  | .dmaCompletionWait _ d => areqOk d
  | .dmaWaitTimeout _ _ _ => true
  | .cwGetS _ d => areqOk d
  | .cwGetM _ d => areqOk d
  | .cwUpg _ d => areqOk d
  | .cwWb _ d => areqOk d
  | .walkStart _ => true
  | .requestIssue _ => true
  | .loadTimeout _ _ => true
  | .quarantineEnd _ _ => true
  | .responseRx _ _ pkt _ => pktOk pkt
  | .seqExhausted _ _ unit => decide (unit < 2 ^ 11)
  | .inboundRequest _ _ pkt _ => pktOk pkt
  | .mrspRx _ _ _ data => decide (data.length < 2 ^ 13)
  | .mrspTimeout _ _ => true
  | .rresultRx _ _ pkt _ => pktOk pkt
  | .xlatInvAll _ _ => true
  | .xlatInvAsid _ _ _ => true
  | .xlatInvAsidRange _ _ _ _ => true
  | .xlatInvRange _ _ _ => true
  | .xlatInvApt _ _ _ => true
  | .invPurge _ => true
  | .invDrainComplete _ => true
  | .dmaTailWrite _ _ _ => true
  | .descriptorFetch _ _ => true
  | .dmaCopy _ _ => true
  | .dmaFill _ _ => true
  | .dmaCompare _ _ => true
  | .dmaDecrypt _ _ => true
  | .dmaNoOperation _ _ => true
  | .dmaBurstIssue _ => true
  | .dmaTimerTrigger _ _ => true
  | .dmaDescriptorComplete _ _ => true
  | .dmaStop _ _ => true
  | .dmaErrClear _ _ => true
  | .dmaChannelDisable _ _ => true
  | .cwBankRequest pkts => pkts.all pktOk
  | .cohWbAtBank pkt => pktOk pkt
  | .cohDataAtBank pkt => pktOk pkt
  | .cohAckAtBank pkt => pktOk pkt
  | .cwAckTimeout _ line _ => decide (line < 2 ^ 64) && decide (line % 64 = 0)
  | .cohInvRx _ pkt _ => pktOk pkt
  | .cohRecallRx _ pkt _ => pktOk pkt
  | .contribSopRx _ pkt => pktOk pkt
  | .holdRangeAllocated _ id slot => idOk id && slotOk slot
  | .contribCellRx _ id slot bytes sram => idOk id && slotOk slot && decide (bytes.length ≤ 112) && readOk sram
  | .contribEopCheck _ id slot _ trailer => idOk id && slotOk slot && decide (trailer.length ≤ 16)
  | .taskStart _ => true
  | .lunaStepDeadline _ _ => true
  | .checkRecordRx _ rec => recordOk rec
  | .verifyTimeout _ id => idOk id
  | .lunaHwfault _ _ => true
  | .taskBudgetExceeded _ => true
  | .armComplete _ _ => true
  | .disarmComplete _ _ => true
  | .add _ _ _ _ => true
  | .sub _ _ _ _ => true
  | .andd _ _ _ _ => true
  | .orr _ _ _ _ => true
  | .xorr _ _ _ _ => true
  | .shl _ _ _ _ => true
  | .shr _ _ _ _ => true
  | .sar _ _ _ _ => true
  | .mul _ _ _ _ => true
  | .slt _ _ _ _ => true
  | .sltu _ _ _ _ => true
  | .seqq _ _ _ _ => true
  | .smin _ _ _ _ => true
  | .smax _ _ _ _ => true
  | .addi _ _ _ _ => true
  | .andi _ _ _ _ => true
  | .ori _ _ _ _ => true
  | .shli _ _ _ _ => true
  | .shri _ _ _ _ => true
  | .li _ _ _ => true
  | .lsh _ _ _ _ => true
  | .ld _ _ _ _ sram => readOk sram
  | .ldw _ _ _ _ sram => readOk sram
  | .st _ _ _ _ => true
  | .stw _ _ _ _ => true
  | .ldc _ _ _ _ => true
  | .beq _ _ _ _ => true
  | .bne _ _ _ _ => true
  | .blt _ _ _ _ => true
  | .bltu _ _ _ _ => true
  | .bany _ _ _ => true
  | .bnone _ _ _ => true
  | .jmp _ _ => true
  | .call _ _ => true
  | .ret _ => true
  | .done _ => true
  | .rdt _ _ _ _ => true
  | .bitm _ _ _ => true
  | .pand _ _ _ _ => true
  | .por _ _ _ _ => true
  | .pxor _ _ _ _ => true
  | .pandn _ _ _ _ => true
  | .pmov _ _ _ => true
  | .pget _ _ _ => true
  | .pfirst _ _ _ => true
  | .pcnt _ _ _ => true
  | .vld _ _ _ _ sram => readOk sram
  | .vst _ _ _ _ => true
  | .vldc _ _ _ _ => true
  | .vadd _ t _ _ _ _ => t.arith
  | .vsub _ t _ _ _ _ => t.arith
  | .vmax _ t _ _ _ _ => t.arith
  | .vmin _ t _ _ _ _ => t.arith
  | .vand _ _ _ _ _ _ => true
  | .vor _ _ _ _ _ _ => true
  | .vxor _ _ _ _ _ _ => true
  | .vsel _ _ _ _ _ _ => true
  | .vcmpEq _ _ _ _ _ _ => true
  | .vcmpLt _ _ _ _ _ _ => true
  | .vcmpLe _ _ _ _ _ _ => true
  | .vcmpNe _ _ _ _ _ _ => true
  | .vcvt _ t _ _ f => decide (16 * f.val < t.lanes)
  | .vrnd _ t _ _ _ _ f => decide (16 * f.val < t.lanes)
  | .vsplat _ _ _ _ => true
  | .vlda _ _ _ _ sram => readOk sram
  | .vsta _ _ _ _ _ => true
  | .xadd _ _ _ _ _ _ sram => readOk sram
  | .xsub _ _ _ _ _ _ sram => readOk sram
  | .xmax _ _ _ _ _ _ sram => readOk sram
  | .xmin _ _ _ _ _ _ sram => readOk sram
  | .xand _ _ _ _ _ _ sram => readOk sram
  | .xior _ _ _ _ _ _ sram => readOk sram
  | .xxor _ _ _ _ _ _ sram => readOk sram
  | .xset _ _ _ _ _ _ => true
  | .xidSum _ _ _ _ => true
  | .xidMax _ _ _ _ => true
  | .xidMin _ _ _ _ => true
  | .xidAnd _ _ _ _ => true
  | .xidOr _ _ _ _ => true
  | .xidXor _ _ _ _ => true
  | .xidCopy _ _ _ _ => true
  | .xaddw _ _ _ _ sram => readOk sram
  | .xsubw _ _ _ _ sram => readOk sram
  | .aoff _ _ _ _ => true
  | .xswpAdd _ _ _ _ _ _ sram => readOk sram
  | .xswpMax _ _ _ _ _ _ sram => readOk sram
  | .xswpMin _ _ _ _ _ _ sram => readOk sram
  | .xswpAnd _ _ _ _ _ _ sram => readOk sram
  | .xswpOr _ _ _ _ _ _ sram => readOk sram
  | .xswpXor _ _ _ _ _ _ sram => readOk sram
  | .xswpCopy _ _ _ _ _ _ sram => readOk sram
  | .fswp _ _ _ _ _ _ sram => readOk sram
  | .xrnd _ _ _ _ _ _ sram => readOk sram
  | .xbexp _ _ _ _ _ sram => readOk sram
  | .vbexp _ _ _ _ _ => true
  | .xmrg _ _ _ _ _ sram => readOk sram
  | .xdns _ sram => readOk sram
  | .ost _ _ _ _ => true
  | .segmentEgress _ pkt _ => pktOk pkt
  | .segmentRelease _ src part region sram => decide (src < 4096) && decide (part < 4096) && decide (region < 16) && readOk sram
  | .segmentArrival _ pkt _ => pktOk pkt
  | .remoteTimeout _ _ _ => true
  | .hostRequest _ pkt _ => pktOk pkt
  | .pcieCompletionRx _ ptag _ data => decide (ptag < 1024) && decide (data.length ≤ 256)
  | .hostCplTimeout _ ptag => decide (ptag < 1024)
  | .hostRxConsWrite _ _ => true
  | .hostTxTailWrite _ _ => true
  | .hostTxDescriptor _ words data => words.length == 8 && decide (data.length < 2 ^ 40 + 2 ^ 37)
  | .skipperWrRspRx _ pkt => pktOk pkt
  | .hostTxDescriptorComplete _ => true
  | .ppsInEdge => true
  | .ppsInLost => true
  | .markerLoss _ => true
  | .ppsOutEdge _ => true
  | .ppsOutFall _ => true
  | .keySet _ sess c => sessOk sess && decide (c.meas.length ≤ 255)
  | .keyRotate _ sess c => sessOk sess && decide (c.meas.length ≤ 255)
  | .keyErase _ sess c => sessOk sess && decide (c.meas.length ≤ 255)
  | .keyQuery _ sess c => sessOk sess && decide (c.meas.length ≤ 255)
  | .devsetSet _ sess c => sessOk sess && decide (c.meas.length ≤ 255)
  | .keyRotationTime _ _ => true
  | .keyOverlapEnd _ _ => true
  | .getVersion _ _ => true
  | .getCapabilities _ _ _ => true
  | .negotiateAlgorithms _ _ _ => true
  | .getDigests _ _ => true
  | .getCertificate _ _ slot offset length => decide (slot < 16) && decide (offset < 2 ^ 16) && decide (length < 2 ^ 16)
  | .challenge _ _ slot _ => decide (slot < 256)
  | .getMeasurements _ _ index _ _ => decide (index < 256)
  | .keyExchange _ _ sess _ => sessOk sess
  | .finish _ sess _ leafKey => sessOk sess && decide (leafKey.length ≤ 97)
  | .keyUpdate _ sess _ => sessOk sess
  | .heartbeat _ sess => sessOk sess
  | .endSession _ sess => sessOk sess
  | .vendorDefinedRequest _ sess _ _ payload => sessOk sess && decide (payload.length ≤ 4096)
  | .trngStartupDone _ _ => true
  | .trngHealthFail _ _ => true
  | .drbgReseed _ => true
  | .debugUnlock _ => true
  | .monarchHeartbeatLoss => true
  | .monarchFaultReport => true
  | .eventFold _ => true
  | .foldWindowExpiry _ seq => ftOk seq
  | .foldMaxspanExpiry _ seq => ftOk seq
  | .trayRemoval => true
  | .hpGlitch => true
  | .trayInsertion => true
  | .backgroundSelftestFail _ => true
  | .sliceCutClock => true
  | .grantFreezeEnd => true
  | .sliceDrained _ => true
  | .sliceFail _ => true
  | .unitTestDone _ num _ => numOk num
  | .unitShadowDone _ num _ => numOk num
  | .snapshotInstant => true
  | .snapshotCopyDone => true
  | .calmFreeze => true
  | .calmFrameRx _ frame => frame64 frame
  | .scanRead _ off => decide (off < 4096)
  | .mailboxGo _ _ _ => true
  | .mailboxResponse _ rsp => decide (rsp.length ≤ 4096)
  | .ringTailWrite _ _ => true
  | .ringFlush _ => true
  | .programCheck => true
  | .payloadFetchDone _ word _ => decide (word < 1024)
  | .programCommit => true
  | .wr _ _ _ => true
  | .blkWr _ _ vs => decide (vs.length < 2 ^ 21)
  | .rd _ _ _ => true
  | .ctxArm _ _ => true
  | .ctxDisarm _ _ => true
  | .lunaLoad _ _ image => decide (image.length < 2 ^ 17)
  | .lunaUnload _ _ _ => true
  | .profileLoad _ _ => true
  | .profileStore _ _ image => decide (image.length < 2 ^ 22)
  | .fwStage _ image => decide (image.length < 2 ^ 23)
  | .fabricEnable _ => true
  | .fabricDisable _ => true
  | .timeSet _ _ => true
  | .snapAt _ _ => true
  | .calm _ => true
  | .calmAt _ _ => true
  | .signerEnroll _ _ key => key.length == 97
  | .signerRevoke _ _ => true
  | .expel _ stmt => decide (stmt.length < 2 ^ 12)
  | .readmit _ stmt => decide (stmt.length < 2 ^ 12)
  | .monarchSwitch _ => true
  | .retireUnit _ _ num => numOk num
  | .serviceTest _ _ num => numOk num
  | .restoreUnit _ _ num => numOk num
  | .gwTxResume _ _ => true
  | .commitAt _ _ => true
  | .nop _ => true
  | .enumFrameRx frame => frame64 frame
  | .chainHeadTimeout => true
  | .cmdFrameRx _ frame => frame64 frame
  | .cplFrameRx _ frame => frame64 frame
  | .fetchFrameRx _ frame => frame64 frame
  | .breezeFrameRx _ frame => frame64 frame
  | .eventFrameRx _ frame => frame64 frame
  | .delayFrameRx _ frame _ => frame64 frame
  | .chainFrameResend _ => true
  | .chainDown _ => true
  | .stepLaunch => true
  | .reset => true
  | .startUp => true
  | .aonPhaseDone _ _ _ => true
  | .powerPhaseDone => true
  | .selftestPhaseDone _ _ _ rows => rows.all (fun r => rowOk r.2.2)
  | .bootPhaseDone => true
  | .profilePhaseDone => true
  | .lunaCocoonEntry _ _ => true
  | .cocoonWakeDone _ => true
  | .dvfsVoltageReached raw => rawOk raw
  | .dvfsTimeout => true
  | .governorTick _ => true
  | .thermalWarn _ raw => rawOk raw
  | .thermalTrip _ raw => rawOk raw
  | .pinReadback _ _ _ _ _ => true
  | .cohRequestAtHome _ pkt _ => pktOk pkt
  | .chainLinkUp _ => true
  | .managementPortTrained => true
  | .skipModeEnd _ => true
  | .oebReset _ _ => true

end Sys2Proof
end

