-- ==== Sys2Proof/Safety.lean ====
section
/-! DEFINITION. The terms that statements are written in: a safe step, the commands that an OX9 which stands still ignores,
the commands of one OEB, what is another unit's, a Luna instruction about to issue. -/

namespace Sys2Proof

open Sys2Proof.Machine

/-- A step that neither faults nor is refused. -/
def stepsOn (s : State) : Prop := ∃ t, step s = .next t

/-- The commands that act on the OX9 and that an OX9 which stands still ignores (R409, R438, R382, R453). -/
def oxStops (c : Instr) : Bool :=
  match c with
  | .sramRowRepaired _ _ _ => true
  | .sramRowCopyDone _ _ => true
  | .ingressLookup _ _ _ _ _ => true
  | .trackingHoldRelease _ _ => true
  | .heldPacketAdmit _ _ _ => true
  | .heldPacketAgeOut _ _ => true
  | .mcOx7Eop _ _ => true
  | .eopCellBuffered _ _ _ => true
  | .egressQueueHead _ _ => true
  | .egressFlitSlot e _ => decide (linkUnit e = .ox9)
  | .ctStallAbort _ _ => true
  | .bufGrantRequest _ _ => true
  | .bufGrantReturn _ _ => true
  | .tokenBlockRequest _ _ => true
  | .tokenBlockReturn _ _ => true
  | .mirrorCopy _ _ _ _ _ _ _ => true
  | .sampleRecordWrite _ => true
  | .creditStall e _ => decide (linkUnit e = .ox9)
  | .echoSend _ => true
  | .echoRx x => (match x with | .skipper _ _ => true | .ox _ _ => true | .oeb _ _ _ => false)
  | .rateRecovery u _ _ => (match u with | .skipper _ => true | .oeb _ => false)
  | .cmapBoundary => true
  | .flitRx e _ _ => decide (linkUnit e = .ox9)
  | .replayTimeout e => decide (linkUnit e = .ox9)
  | .nakResend e => decide (linkUnit e = .ox9)
  | .skipInsertSend e => decide (linkUnit e = .ox9)
  | .skipRx e _ _ => decide (linkUnit e = .ox9)
  | .breezeRx e _ => decide (linkUnit e = .ox9)
  | .idleRx e _ => decide (linkUnit e = .ox9)
  | .swapRx e _ => decide (linkUnit e = .ox9)
  | .downRx e _ => decide (linkUnit e = .ox9)
  | .gustRx e _ => decide (linkUnit e = .ox9)
  | .electricalIdleEntry e => decide (linkUnit e = .ox9)
  | .gustExit e => decide (linkUnit e = .ox9)
  | .idleKeepalive e => decide (linkUnit e = .ox9)
  | .los e => decide (linkUnit e = .ox9)
  | .losIdle e => decide (linkUnit e = .ox9)
  | .fecBurst e => decide (linkUnit e = .ox9)
  | .replayMaxExceeded e => decide (linkUnit e = .ox9)
  | .silentTimeout e => decide (linkUnit e = .ox9)
  | .gustTimeout e => decide (linkUnit e = .ox9)
  | .nrPatternRx e _ => decide (linkUnit e = .ox9)
  | .ts1Rx e _ _ => decide (linkUnit e = .ox9)
  | .ts2Rx e _ => decide (linkUnit e = .ox9)
  | .tsoRx e _ _ => decide (linkUnit e = .ox9)
  | .tscRx e _ => decide (linkUnit e = .ox9)
  | .marginCheckDone e _ => decide (linkUnit e = .ox9)
  | .alignTimeout e => decide (linkUnit e = .ox9)
  | .marginTimeout e => decide (linkUnit e = .ox9)
  | .timeStateTimeout e => decide (linkUnit e = .ox9)
  | .creditStateTimeout e => decide (linkUnit e = .ox9)
  | .downHoldEnd e => decide (linkUnit e = .ox9)
  | .refclkLost => true
  | .refclkRestored => true
  | .laneDegraded _ => true
  | .laneSwapRxSwitch _ => true
  | .laneSwapTxSwitch _ => true
  | .seqExhausted u _ _ => decide (u = .ox9)
  | .cwBankRequest _ => true
  | .cohWbAtBank _ => true
  | .cohDataAtBank _ => true
  | .cohAckAtBank _ => true
  | .cwAckTimeout _ _ _ => true
  | .contribSopRx _ _ => true
  | .holdRangeAllocated _ _ _ => true
  | .contribCellRx _ _ _ _ _ => true
  | .contribEopCheck _ _ _ _ _ => true
  | .taskStart _ => true
  | .lunaStepDeadline _ _ => true
  | .checkRecordRx _ _ => true
  | .verifyTimeout _ _ => true
  | .lunaHwfault _ _ => true
  | .taskBudgetExceeded _ => true
  | .armComplete _ _ => true
  | .disarmComplete _ _ => true
  | .add _ _ _ _ => true
  | .sub _ _ _ _ => true
  | .andd _ _ _ _ => true
  | .orr _ _ _ _ => true
  | .xorr _ _ _ _ => true
  | .shl _ _ _ _ => true
  | .shr _ _ _ _ => true
  | .sar _ _ _ _ => true
  | .mul _ _ _ _ => true
  | .slt _ _ _ _ => true
  | .sltu _ _ _ _ => true
  | .seqq _ _ _ _ => true
  | .smin _ _ _ _ => true
  | .smax _ _ _ _ => true
  | .addi _ _ _ _ => true
  | .andi _ _ _ _ => true
  | .ori _ _ _ _ => true
  | .shli _ _ _ _ => true
  | .shri _ _ _ _ => true
  | .li _ _ _ => true
  | .lsh _ _ _ _ => true
  | .ld _ _ _ _ _ => true
  | .ldw _ _ _ _ _ => true
  | .st _ _ _ _ => true
  | .stw _ _ _ _ => true
  | .ldc _ _ _ _ => true
  | .beq _ _ _ _ => true
  | .bne _ _ _ _ => true
  | .blt _ _ _ _ => true
  | .bltu _ _ _ _ => true
  | .bany _ _ _ => true
  | .bnone _ _ _ => true
  | .jmp _ _ => true
  | .call _ _ => true
  | .ret _ => true
  | .done _ => true
  | .rdt _ _ _ _ => true
  | .bitm _ _ _ => true
  | .pand _ _ _ _ => true
  | .por _ _ _ _ => true
  | .pxor _ _ _ _ => true
  | .pandn _ _ _ _ => true
  | .pmov _ _ _ => true
  | .pget _ _ _ => true
  | .pfirst _ _ _ => true
  | .pcnt _ _ _ => true
  | .vld _ _ _ _ _ => true
  | .vst _ _ _ _ => true
  | .vldc _ _ _ _ => true
  | .vadd _ _ _ _ _ _ => true
  | .vsub _ _ _ _ _ _ => true
  | .vmax _ _ _ _ _ _ => true
  | .vmin _ _ _ _ _ _ => true
  | .vand _ _ _ _ _ _ => true
  | .vor _ _ _ _ _ _ => true
  | .vxor _ _ _ _ _ _ => true
  | .vsel _ _ _ _ _ _ => true
  | .vcmpEq _ _ _ _ _ _ => true
  | .vcmpLt _ _ _ _ _ _ => true
  | .vcmpLe _ _ _ _ _ _ => true
  | .vcmpNe _ _ _ _ _ _ => true
  | .vcvt _ _ _ _ _ => true
  | .vrnd _ _ _ _ _ _ _ => true
  | .vsplat _ _ _ _ => true
  | .vlda _ _ _ _ _ => true
  | .vsta _ _ _ _ _ => true
  | .xadd _ _ _ _ _ _ _ => true
  | .xsub _ _ _ _ _ _ _ => true
  | .xmax _ _ _ _ _ _ _ => true
  | .xmin _ _ _ _ _ _ _ => true
  | .xand _ _ _ _ _ _ _ => true
  | .xior _ _ _ _ _ _ _ => true
  | .xxor _ _ _ _ _ _ _ => true
  | .xset _ _ _ _ _ _ => true
  | .xidSum _ _ _ _ => true
  | .xidMax _ _ _ _ => true
  | .xidMin _ _ _ _ => true
  | .xidAnd _ _ _ _ => true
  | .xidOr _ _ _ _ => true
  | .xidXor _ _ _ _ => true
  | .xidCopy _ _ _ _ => true
  | .xaddw _ _ _ _ _ => true
  | .xsubw _ _ _ _ _ => true
  | .aoff _ _ _ _ => true
  | .xswpAdd _ _ _ _ _ _ _ => true
  | .xswpMax _ _ _ _ _ _ _ => true
  | .xswpMin _ _ _ _ _ _ _ => true
  | .xswpAnd _ _ _ _ _ _ _ => true
  | .xswpOr _ _ _ _ _ _ _ => true
  | .xswpXor _ _ _ _ _ _ _ => true
  | .xswpCopy _ _ _ _ _ _ _ => true
  | .fswp _ _ _ _ _ _ _ => true
  | .xrnd _ _ _ _ _ _ _ => true
  | .xbexp _ _ _ _ _ _ => true
  | .vbexp _ _ _ _ _ => true
  | .xmrg _ _ _ _ _ _ => true
  | .xdns _ _ => true
  | .ost _ _ _ _ => true
  | .segmentEgress _ _ _ => true
  | .segmentRelease _ _ _ _ _ => true
  | .segmentArrival _ _ _ => true
  | .remoteTimeout _ _ _ => true
  | .hostRequest _ _ _ => true
  | .pcieCompletionRx _ _ _ _ => true
  | .hostCplTimeout _ _ => true
  | .hostRxConsWrite _ _ => true
  | .hostTxTailWrite _ _ => true
  | .hostTxDescriptor _ _ _ => true
  | .skipperWrRspRx _ _ => true
  | .hostTxDescriptorComplete _ => true
  | .ppsInEdge => true
  | .ppsInLost => true
  | .markerLoss u => decide (u = .ox9)
  | .ppsOutEdge _ => true
  | .ppsOutFall _ => true
  | .keyRotationTime u _ => decide (u = .ox9)
  | .keyOverlapEnd u _ => decide (u = .ox9)
  | .trngStartupDone u _ => decide ((trngAt u).1 = .ox9)
  | .trngHealthFail u _ => decide ((trngAt u).1 = .ox9)
  | .drbgReseed u => decide ((trngAt u).1 = .ox9)
  | .monarchHeartbeatLoss => true
  | .monarchFaultReport => true
  | .eventFold u => decide (u = .ox9)
  | .foldWindowExpiry u _ => decide (u = .ox9)
  | .foldMaxspanExpiry u _ => decide (u = .ox9)
  | .hpGlitch => true
  | .backgroundSelftestFail _ => true
  | .sliceCutClock => true
  | .grantFreezeEnd => true
  | .sliceDrained _ => true
  | .sliceFail _ => true
  | .unitTestDone _ _ _ => true
  | .unitShadowDone _ _ _ => true
  | .calmFreeze => true
  | .programCommit => true
  | .stepLaunch => true
  | .lunaCocoonEntry _ _ => true
  | .cocoonWakeDone _ => true
  | .dvfsVoltageReached _ => true
  | .dvfsTimeout => true
  | .thermalWarn _ _ => true
  | .pinReadback _ _ _ _ _ => true
  | .skipModeEnd e => decide (linkUnit e = .ox9)
  | _ => false

/-- The OEB that a command of an OEB alone acts on. -/
def oebSide (c : Instr) : Option Side :=
  match c with
  | .oebIdLock side => some side
  | .ctxCfgErrCountRead side _ => some side
  | .xlatFaultCountRead side _ => some side
  | .echoRx x => (match x with | .oeb side _ _ => some side | .ox _ _ => none | .skipper _ _ => none)
  | .rateRecovery u _ _ => (match u with | .oeb side => some side | .skipper _ => none)
  | .oebPortEnable side _ => some side
  | .load side _ => some side
  | .store side _ => some side
  | .storeNp side _ => some side
  | .atomic side _ => some side
  | .msgSend side _ => some side
  | .contrib side _ => some side
  | .fenceSys side _ => some side
  | .lcWait side _ => some side
  | .lcWaitTimeout side _ _ => some side
  | .lcRd side _ => some side
  | .lcWr side _ => some side
  | .dmaRingDoorbell side _ => some side
  | .dmaCompletionWait side _ => some side
  | .dmaWaitTimeout side _ _ => some side
  | .cwGetS side _ => some side
  | .cwGetM side _ => some side
  | .cwUpg side _ => some side
  | .cwWb side _ => some side
  | .walkStart side => some side
  | .requestIssue side => some side
  | .loadTimeout side _ => some side
  | .quarantineEnd side _ => some side
  | .responseRx side _ _ _ => some side
  | .inboundRequest side _ _ _ => some side
  | .mrspRx side _ _ _ => some side
  | .mrspTimeout side _ => some side
  | .rresultRx side _ _ _ => some side
  | .xlatInvAll side _ => some side
  | .xlatInvAsid side _ _ => some side
  | .xlatInvAsidRange side _ _ _ => some side
  | .xlatInvRange side _ _ => some side
  | .xlatInvApt side _ _ => some side
  | .invPurge side => some side
  | .invDrainComplete side => some side
  | .dmaTailWrite side _ _ => some side
  | .descriptorFetch side _ => some side
  | .dmaCopy side _ => some side
  | .dmaFill side _ => some side
  | .dmaCompare side _ => some side
  | .dmaDecrypt side _ => some side
  | .dmaNoOperation side _ => some side
  | .dmaBurstIssue side => some side
  | .dmaTimerTrigger side _ => some side
  | .dmaDescriptorComplete side _ => some side
  | .dmaStop side _ => some side
  | .dmaErrClear side _ => some side
  | .dmaChannelDisable side _ => some side
  | .cohInvRx side _ _ => some side
  | .cohRecallRx side _ _ => some side
  | .cohRequestAtHome side _ _ => some side
  | .oebReset side _ => some side
  | _ => none

/-- Everything of the OX9 is the same in two states: its registers, counters, time and events, its forwarding core, slices,
power, flash, SRAM, directory, chain, keys, Skippers, Luna dies and cores, Monarch, port links; and the queue. -/
def sameOx9 (s t : State) : Prop :=
  t.ox = s.ox ∧ t.fwd = s.fwd ∧ t.obs = s.obs ∧ t.slices = s.slices ∧ t.power = s.power ∧ t.flash = s.flash ∧
    t.sram = s.sram ∧ t.cw = s.cw ∧ t.cwGone = s.cwGone ∧ t.chain = s.chain ∧ t.mailboxes = s.mailboxes ∧ t.skips = s.skips ∧
    t.luna = s.luna ∧ t.cores = s.cores ∧ t.monarch = s.monarch ∧ t.pending = s.pending ∧ keySec .ox9 t = keySec .ox9 s ∧
    (∀ p : Port, getLink p.val t = getLink p.val s ∧ getAux p.val t = getAux p.val s) ∧
    ∀ k : Skip, ratesOf (.skipper k) t = ratesOf (.skipper k) s

/-- Everything of one OEB is the same in two states: its registers, counters, time and events, its engines, its keys, its
rate entries. -/
def sameOeb (side : Side) (s t : State) : Prop :=
  t.unit (.oeb side) = s.unit (.oeb side) ∧ oebOf side t = oebOf side s ∧ keySec (.oeb side) t = keySec (.oeb side) s ∧
    ratesOf (.oeb side) t = ratesOf (.oeb side) s

/-- Two states differ in one register word of a unit, and in what has left the block, and in nothing else. -/
def oneWord (u : UnitId) (r : Reg) (i w : Nat) (s t : State) : Prop :=
  { t with out := s.out, ox := s.ox, oebA := s.oebA, oebB := s.oebB } = s ∧ (∀ v : UnitId, v ≠ u → t.unit v = s.unit v) ∧
    { t.unit u with regs := (s.unit u).regs } = s.unit u ∧
    ∀ (q : Reg) (j k : Nat), regKey q j k ≠ regKey r i w → getW u q j k t = getW u q j k s

/-- Two states differ by one count and one event of the OX9, and in what has left the block, and in nothing else: the
counter is one higher, the event is the last raised (lost where a Monarch switch holds 1,024 of them already, R389). -/
def countedAndRaised (p : Place) (c : Ctr) (e : Event) (s t : State) : Prop :=
  { t with out := s.out, ox := s.ox } = s ∧ t.ox.regs = s.ox.regs ∧ t.ox.time = s.ox.time ∧
    counter .ox9 p c t = (counter .ox9 p c s + 1) % 2 ^ 64 ∧
    (∀ (q : Place) (d : Ctr), ctrKey q d ≠ ctrKey p c → counter .ox9 q d t = counter .ox9 q d s) ∧
    t.ox.events = { s.ox.events with raised := raisedWith .ox9 e s }

/-- A tree of additions of exact partials: how contributions meet in one reduction (R181). -/
inductive SumTree where
  | leaf (v : Val)
  | node (a b : SumTree)
deriving DecidableEq, Repr

/-- The elements of a tree. -/
def SumTree.leaves : SumTree → List Val
  | .leaf v => [v]
  | .node a b => a.leaves ++ b.leaves

/-- The partial that a tree gives. -/
def SumTree.sum : SumTree → Partial
  | .leaf v => Partial.ofVal v
  | .node a b => (a.sum.add b.sum).1

/-- An addition of the tree saturates FIX. -/
def SumTree.saturates : SumTree → Bool
  | .leaf _ => false
  | .node a b => a.saturates || b.saturates || (a.sum.add b.sum).2

/-- A Luna instruction as its word spells it: with an SRAM read that meets no error. -/
def bareRead (i : Instr) : Instr :=
  match i with
  | .ld c d a imm _ => .ld c d a imm .clean
  | .ldw c d a imm _ => .ldw c d a imm .clean
  | .vld c d a imm _ => .vld c d a imm .clean
  | .vlda c d a b _ => .vlda c d a b .clean
  | .xadd c t d a b p _ => .xadd c t d a b p .clean
  | .xsub c t d a b p _ => .xsub c t d a b p .clean
  | .xmax c t d a b p _ => .xmax c t d a b p .clean
  | .xmin c t d a b p _ => .xmin c t d a b p .clean
  | .xand c t d a b p _ => .xand c t d a b p .clean
  | .xior c t d a b p _ => .xior c t d a b p .clean
  | .xxor c t d a b p _ => .xxor c t d a b p .clean
  | .xaddw c d a b _ => .xaddw c d a b .clean
  | .xsubw c d a b _ => .xsubw c d a b .clean
  | .xswpAdd c t d a b p _ => .xswpAdd c t d a b p .clean
  | .xswpMax c t d a b p _ => .xswpMax c t d a b p .clean
  | .xswpMin c t d a b p _ => .xswpMin c t d a b p .clean
  | .xswpAnd c t d a b p _ => .xswpAnd c t d a b p .clean
  | .xswpOr c t d a b p _ => .xswpOr c t d a b p .clean
  | .xswpXor c t d a b p _ => .xswpXor c t d a b p .clean
  | .xswpCopy c t d a b p _ => .xswpCopy c t d a b p .clean
  | .fswp c t d a b p _ => .fswp c t d a b p .clean
  | .xrnd c t d a b p _ => .xrnd c t d a b p .clean
  | .xbexp c t d b p _ => .xbexp c t d b p .clean
  | .xmrg c t d a b _ => .xmrg c t d a b .clean
  | .xdns c _ => .xdns c .clean
  | i => i

/-- The result of the SRAM read of a Luna instruction. -/
def readOf (i : Instr) : SramRead :=
  match i with
  | .ld _ _ _ _ sram => sram
  | .ldw _ _ _ _ sram => sram
  | .vld _ _ _ _ sram => sram
  | .vlda _ _ _ _ sram => sram
  | .xadd _ _ _ _ _ _ sram => sram
  | .xsub _ _ _ _ _ _ sram => sram
  | .xmax _ _ _ _ _ _ sram => sram
  | .xmin _ _ _ _ _ _ sram => sram
  | .xand _ _ _ _ _ _ sram => sram
  | .xior _ _ _ _ _ _ sram => sram
  | .xxor _ _ _ _ _ _ sram => sram
  | .xaddw _ _ _ _ sram => sram
  | .xsubw _ _ _ _ sram => sram
  | .xswpAdd _ _ _ _ _ _ sram => sram
  | .xswpMax _ _ _ _ _ _ sram => sram
  | .xswpMin _ _ _ _ _ _ sram => sram
  | .xswpAnd _ _ _ _ _ _ sram => sram
  | .xswpOr _ _ _ _ _ _ sram => sram
  | .xswpXor _ _ _ _ _ _ sram => sram
  | .xswpCopy _ _ _ _ _ _ sram => sram
  | .fswp _ _ _ _ _ _ sram => sram
  | .xrnd _ _ _ _ _ _ sram => sram
  | .xbexp _ _ _ _ _ sram => sram
  | .xmrg _ _ _ _ _ sram => sram
  | .xdns _ sram => sram
  | _ => .clean

/-- A Luna core is about to issue an instruction: the OX9 does not stand still, the core runs a task, whose word at the
program counter decodes to it (R207, R208; log entry 48). -/
structure Issues (core : Core) (i : Instr) (s : State) (r : Run) : Prop where
  awake : halted s = false
  task : runOf core s = some r
  word : fetchOf r s = some i

end Sys2Proof
end

