-- ==== Sys2Proof/Certificates/Slice0/Obligations.lean ====
section
/-! DEFINITION. The statements for the provers: what the commands and the machine do, rule by rule. -/

open Sys2Proof Sys2Proof.Machine

/-- The form of a step of this block: commands wait first in, first out, as the log entry 4 says. -/
def Obligations.StepRunsFrontCommand : Prop :=
  ∀ (c : Instr) (rest : List Instr) (s : State), s.pending = c :: rest → step s = exec c { s with pending := rest }

/-- Whatever a command does to the block, the order of the commands behind it stands (log entry 4). -/
def Obligations.ExecLeavesTheQueueAlone : Prop :=
  (∀ (c : Instr) (s t : State), exec c s = .next t → t.pending = s.pending) ∧
    (∀ s t : State, step s = .next t → t.pending = s.pending.tail)

/-- R334 with the slew of R341. That a step with an empty queue is one reference cycle is the choice of log entry 4. -/
def Obligations.IdleStepAdvancesTime : Prop :=
  ∀ s : State, s.pending = [] → ∃ t, step s = .next t ∧
    (dark s = true → t.ox = s.ox) ∧
    (∀ side : Side, let o : UnitId := .oeb side
      (∀ (r : Reg) (i w : Nat), regKey r i w ≠ regKey TIME_STAT.QUAL.reg 0 TIME_STAT.QUAL.word → getW o r i w t = getW o r i w s) ∧
      (qualOf o t = qualOf o s → (t.unit o).regs = (s.unit o).regs ∧ (t.unit o).ctrs = (s.unit o).ctrs ∧
        (t.unit o).events = (s.unit o).events)) ∧
    ∀ u : UnitId, (u = .ox9 → dark s = false) →
      let x := (s.unit u).time
      let y := (t.unit u).time
      let lim : Int := ((16 * gf u TIME_CFG.SLEW_MAX 0 s * 2 ^ 32 / 1000000 : Nat) : Int)
      let slew : Int := max (-lim) (min x.r lim)
      let rate : Int := signed 16 (gf u TIME_STAT.RATE 0 s)
      ((y.ft * 2 ^ 32 + y.frac : Nat) : Int) =
          (((x.ft * 2 ^ 32 + x.frac : Nat) : Int) + 16 * 2 ^ 32 + 16 * 2 ^ 32 * rate / 10000000 + slew) % 2 ^ 96 ∧
        y.frac < 2 ^ 32 ∧ y.r = x.r - slew ∧ y.loc = x.loc + 16

/-- What reset leaves, where the spec gives it. -/
def Obligations.ResetHoldsTheSpecValues : Prop :=
  (∀ (u : UnitId) (r : Reg) (i : Nat), ∀ x ∈ fieldMap r,
      r ∉ [Reg.dieInfo, .deviceId, .laneStat, .lunaCoreMap, .sampleCtl, .domRights, .eqF, .eqE, .sensCal, .trngStat, .oebId] →
      gf u x.fld i State.reset = x.reset) ∧
    (∀ side : Side, ∀ x ∈ fieldMap .oebId, gf (.oeb side) x.fld 0 State.reset = if x.fld = OEB_ID.SIDE then side.val else x.reset) ∧
    (∀ (u : UnitId) (p : Place) (c : Ctr), counter u p c State.reset = 0) ∧
    (∀ u : UnitId, ftOf u State.reset = 0 ∧ qualOf u State.reset = 0) ∧
    (∀ n < 64, gx DIE_INFO.DIE_NUM n State.reset = n ∧ gx DIE_INFO.ROLE n State.reset =
      (if n < 36 then 0 else if n < 52 then 1 else if n < 60 then 2 else if n < 62 then 3 else 4)) ∧
    (∀ d < 8, getW .ox9 .domRights d 0 State.reset = if d = 0 then 0x3F else 0) ∧
    (∀ q < 288, gx SAMPLE_CTL.SEED q State.reset = q + 1 ∧ gx SAMPLE_CTL.RATE_LOG2 q State.reset = 10) ∧
    State.reset.pending = []

/-- R409: every die stops all state changes; the gate of each command is read from it and R410. -/
def Obligations.StandingStillOx9IgnoresCommands : Prop :=
  ∀ (c : Instr) (s : State), oxStops c = true → halted s = true → exec c s = .next s

/-- The block's units are apart: what one OEB is commanded reaches another unit only by packets, which leave as outputs. -/
def Obligations.OebCommandsLeaveTheRestAlone : Prop :=
  ∀ (c : Instr) (side : Side) (s t : State), oebSide c = some side → exec c s = .next t →
    sameOx9 s t ∧ ∀ other : Side, other ≠ side → sameOeb other s t

/-- Table 0-4: what RW and the hardware's own updates of a field do, and what they leave alone. -/
def Obligations.WrittenFieldReadsBack : Prop :=
  (∀ (u : UnitId) (f : Fld) (i v : Nat) (s : State), f.lo + f.len ≤ 64 →
      gf u f i (sf u f i v s) = v % 2 ^ f.len ∧
      (∀ (g : Fld) (j : Nat), (g.reg = f.reg ∧ j = i ∧ g.word = f.word ∧ (g.lo + g.len ≤ f.lo ∨ f.lo + f.len ≤ g.lo)) ∨
        regKey g.reg j g.word ≠ regKey f.reg i f.word → gf u g j (sf u f i v s) = gf u g j s) ∧
      (sf u f i v s).out = s.out ∧ oneWord u f.reg i f.word s (sf u f i v s)) ∧
    (∀ (r q : Reg) (i j w k : Nat), i < 2 ^ 20 → j < 2 ^ 20 → w < 128 → k < 128 → regKey r i w = regKey q j k →
      r = q ∧ i = j ∧ w = k)

/-- R8, for both directions and for both commands that make an access. -/
def Obligations.UndefinedAccessReadsZeroAndCounts : Prop :=
  (∀ (fn : Dom) (off len : Nat) (write : Bool) (s : State), dark s = false → hostServed s = true →
      bar0Accepts fn.val off len write s = false →
      ∃ t e, exec (.unmappedAccess (.bar0 fn) off len write) s = .next t ∧ e.code = .unmappedAccess ∧
        t.out = s.out ++ (if write then [] else [.readData 0]) ∧ countedAndRaised .glob .unmappedAccess e s t) ∧
    (∀ (fn : Dom) (off : Nat) (v : Word) (s : State), dark s = false → hostServed s = true → inChrysalis s = false →
      off < 0x1000000 → bar0Accepts fn.val off 8 true s = false →
      ∃ t e, exec (.registerWrite (.bar0 fn) off false v) s = .next t ∧ e.code = .unmappedAccess ∧ t.out = s.out ∧
        countedAndRaised .glob .unmappedAccess e s t)

/-- R7: the four reads of the table that clear. In Calm a frozen FOLD_STAT is not cleared (a reading in the log). -/
def Obligations.ReadClearFieldsLoseNothing : Prop :=
  ∀ s : State,
    (∀ fn : Dom, dark s = false → hostServed s = true → gb CALM_STAT.CALM 0 s = false → ∃ t, exec (.foldStatRead fn) s = .next t ∧
        t.out = s.out ++ [.readData (getW .ox9 .foldStat 0 0 s).toNat] ∧
        gf .ox9 FOLD_STAT.OVERFLOW 0 t = 0 ∧ (∀ n < 2 ^ FOLD_STAT.OVERFLOW.len, gf .ox9 FOLD_STAT.OVERFLOW 0 (satAdd .ox9 FOLD_STAT.OVERFLOW 0 n t) = n) ∧
        (∀ g : Fld, g.reg = .foldStat → g.word = 0 → (g.lo + g.len ≤ FOLD_STAT.OVERFLOW.lo ∨ FOLD_STAT.OVERFLOW.lo + FOLD_STAT.OVERFLOW.len ≤ g.lo) → gf .ox9 g 0 t = gf .ox9 g 0 s) ∧
        oneWord .ox9 .foldStat 0 0 s t) ∧
    (∀ (side : Side) (x : Ctx), ∃ t, exec (.ctxCfgErrCountRead side x) s = .next t ∧
        t.out = s.out ++ [.readData (getW (.oeb side) .ctxCfg x.val 1 s).toNat] ∧
        gf (.oeb side) CTX_CFG.ERR_COUNT x.val t = 0 ∧ (∀ n < 2 ^ CTX_CFG.ERR_COUNT.len, gf (.oeb side) CTX_CFG.ERR_COUNT x.val (satAdd (.oeb side) CTX_CFG.ERR_COUNT x.val n t) = n) ∧
        (∀ g : Fld, g.reg = .ctxCfg → g.word = 1 → (g.lo + g.len ≤ CTX_CFG.ERR_COUNT.lo ∨ CTX_CFG.ERR_COUNT.lo + CTX_CFG.ERR_COUNT.len ≤ g.lo) → gf (.oeb side) g x.val t = gf (.oeb side) g x.val s) ∧
        oneWord (.oeb side) .ctxCfg x.val 1 s t) ∧
    (∀ (side : Side) (x : Ctx), ∃ t, exec (.xlatFaultCountRead side x) s = .next t ∧
        t.out = s.out ++ [.readData (getW (.oeb side) .xlatFault x.val 1 s).toNat] ∧
        gf (.oeb side) XLAT_FAULT.COUNT x.val t = 0 ∧ (∀ n < 2 ^ XLAT_FAULT.COUNT.len, gf (.oeb side) XLAT_FAULT.COUNT x.val (satAdd (.oeb side) XLAT_FAULT.COUNT x.val n t) = n) ∧
        (∀ g : Fld, g.reg = .xlatFault → g.word = 1 → (g.lo + g.len ≤ XLAT_FAULT.COUNT.lo ∨ XLAT_FAULT.COUNT.lo + XLAT_FAULT.COUNT.len ≤ g.lo) → gf (.oeb side) g x.val t = gf (.oeb side) g x.val s) ∧
        oneWord (.oeb side) .xlatFault x.val 1 s t) ∧
    (∀ k : TrngUnit, (∀ d : Fin 2, k = .monarch d → dark s = false ∧ hostServed s = true ∧ inChrysalis s = false ∧ dieDead (62 + d.val) s = false ∧ frozenReg .trngStat d.val s = false) → ∃ t, exec (.trngStatRead k) s = .next t ∧
        t.out = s.out ++ [.readData (getW (trngAt k).1 .trngStat (trngAt k).2 0 s).toNat] ∧
        gf (trngAt k).1 TRNG_STAT.RCT_FAILS (trngAt k).2 t = 0 ∧ (∀ n < 2 ^ TRNG_STAT.RCT_FAILS.len, gf (trngAt k).1 TRNG_STAT.RCT_FAILS (trngAt k).2 (satAdd (trngAt k).1 TRNG_STAT.RCT_FAILS (trngAt k).2 n t) = n) ∧
        gf (trngAt k).1 TRNG_STAT.APT_FAILS (trngAt k).2 t = 0 ∧ (∀ n < 2 ^ TRNG_STAT.APT_FAILS.len, gf (trngAt k).1 TRNG_STAT.APT_FAILS (trngAt k).2 (satAdd (trngAt k).1 TRNG_STAT.APT_FAILS (trngAt k).2 n t) = n) ∧
        (∀ g : Fld, g.reg = .trngStat → g.word = 0 → (g.lo + g.len ≤ TRNG_STAT.RCT_FAILS.lo ∨ TRNG_STAT.RCT_FAILS.lo + TRNG_STAT.RCT_FAILS.len ≤ g.lo) ∧ (g.lo + g.len ≤ TRNG_STAT.APT_FAILS.lo ∨ TRNG_STAT.APT_FAILS.lo + TRNG_STAT.APT_FAILS.len ≤ g.lo) → gf (trngAt k).1 g (trngAt k).2 t = gf (trngAt k).1 g (trngAt k).2 s) ∧
        oneWord (trngAt k).1 .trngStat (trngAt k).2 0 s t)

/-- Table 3-1 with the codes of Table 0-4; the waits are tested again, as for any change of COUNT (R68). The free value of a write with rsv bits is log entry 18's. -/
def Obligations.LandingCounterRegisterWrite : Prop :=
  ∀ (side : Side) (n : Fin 4096) (v : Word) (s : State),
    let w := if v.toNat / 2 ^ 47 = 0 then v.toNat else freeVal s
    ∃ t, exec (.registerWrite (.oeb side) (0x20000 + 8 * n.val) false v) s = .next t ∧
      go side LC_ENTRY.COUNT n.val t = bits w 0 32 ∧ go side LC_ENTRY.PART n.val t = bits w 32 12 ∧
      go side LC_ENTRY.EN n.val t = bits w 44 1 ∧
      go side LC_ENTRY.POISONED n.val t = (if bits w 45 1 = 1 then 0 else go side LC_ENTRY.POISONED n.val s) ∧
      go side LC_ENTRY.DENIED n.val t = (if bits w 46 1 = 1 then 0 else go side LC_ENTRY.DENIED n.val s) ∧
      (∀ (q : Reg) (j k : Nat), regKey q j k ≠ regKey .lcEntry n.val 0 → getW (.oeb side) q j k t = getW (.oeb side) q j k s) ∧
      (∀ u : UnitId, u ≠ .oeb side → t.unit u = s.unit u) ∧ (t.unit (.oeb side)).ctrs = (s.unit (.oeb side)).ctrs ∧
      List.Sublist (oebOf side t).waits (oebOf side s).waits

/-- Table 11-1 (R238), LOCK: W1S, until reset. -/
def Obligations.EndpointIdLock : Prop :=
  ∀ (side : Side) (s : State),
    (∃ t, exec (.oebIdLock side) s = .next t ∧ go side OEB_ID.LOCK 0 t = 1 ∧ go side OEB_ID.EP 0 t = go side OEB_ID.EP 0 s ∧
      t.out = s.out ∧ oneWord (.oeb side) .oebId 0 0 s t) ∧
    (∀ (off : Nat) (v : Word), go side OEB_ID.LOCK 0 s = 1 → off = 0 ∨ off = 8 ∨ (∃ k < 64, off = 0x200 + 8 * k) →
      (∀ r i w, findRow oebMap off = some (r, i, w) → v.toNat - Nat.land v.toNat (oebMask r w) = 0) →
      ∃ t, exec (.registerWrite (.oeb side) off false v) s = .next t ∧
        go side OEB_ID.EP 0 t = go side OEB_ID.EP 0 s ∧ go side OEB_ID.LOCK 0 t = 1 ∧
        go side OEB_CFG.GW_SIDE 0 t = go side OEB_CFG.GW_SIDE 0 s ∧
        (∀ k : Nat, getW (.oeb side) .sideMap k 0 t = getW (.oeb side) .sideMap k 0 s) ∧
        (off = 8 → go side OEB_CFG.QUAR 0 t = bits v.toNat 23 13 ∧ go side OEB_CFG.ERR_BYTE 0 t = bits v.toNat 0 8))

/-- R491: who may write a register directly. -/
def Obligations.RightlessDirectWriteIsIgnored : Prop :=
  ∀ (fn : Dom) (off : Nat) (v : Word) (r : Reg) (i w : Nat) (s : State), dark s = false → hostServed s = true → inChrysalis s = false → off % 8 = 0 →
    ctlAt fn.val off = some (some (.reg r i w)) → programMay r = true →
    (0x1000000 ≤ off → off < 0x5000000 → off % 0x100000 ≠ 0 → dieDead ((off - 0x1000000) / 0x100000) s = false) →
    (directRight fn.val r i s = false → ∃ t e, exec (.registerWrite (.bar0 fn) off false v) s = .next t ∧
      e.code = .unmappedAccess ∧ t.out = s.out ∧ countedAndRaised .glob .unmappedAccess e s t) ∧
    (r ∈ [Reg.foldCtl, .cmapCtl, .snapCtl] → gx DOM_RIGHTS.TELEMETRY fn.val s = 1 → gb CALM_STAT.CALM 0 s = false →
      v.toNat - Nat.land v.toNat (fieldMask r w) = 0 →
      exec (.registerWrite (.bar0 fn) off false v) s = .next (commitWrites [⟨r, i, w, v.toNat⟩] s))

/-- Where each of these commands completes, and with which state (R32, R101, R107, R113, R115, R117, R120, R124, R138, R143, R144, R145, and the rules its operation cites). -/
def Obligations.ForwardingCommandsAct : Prop :=
  ∀ s : State,
    (∀ (die : Die) (bank : Nat) (row : Nat), halted s = false → exec (.sramRowRepaired die bank row) s = .next ((rowRepair die.val bank row) s)) ∧
    (∀ (die : Die) (bank : Nat), halted s = false → exec (.sramRowCopyDone die bank) s = .next ((rowCopyDone die.val bank) s)) ∧
    (∀ (src : Entry) (pk : Packet) (eop : Bool) (bad : Bool) (reads : List (Nat × SramRead)), halted s = false → exec (.ingressLookup src pk eop bad reads) s = .next ((ingressLookup src pk eop bad reads) s)) ∧
    (∀ (bank : Slice) (reads : List (Nat × SramRead)), halted s = false → exec (.trackingHoldRelease bank reads) s = .next ((trackingRelease bank.val reads) s)) ∧
    (∀ (src : Entry) (vc : Vc) (reads : List (Nat × SramRead)), halted s = false → exec (.heldPacketAdmit src vc reads) s = .next ((heldAdmit src vc.val reads) s)) ∧
    (∀ (src : Entry) (vc : Vc), halted s = false → exec (.heldPacketAgeOut src vc) s = .next ((heldAgeOut src vc.val) s)) ∧
    (∀ (pid : Nat) (bad : Bool), halted s = false → exec (.mcOx7Eop pid bad) s = .next ((mcOx7Eop pid bad) s)) ∧
    (∀ (pid : Nat) (bad : Bool) (reads : List (Nat × SramRead)), halted s = false → exec (.eopCellBuffered pid bad reads) s = .next ((eopArrive pid bad reads) s)) ∧
    (∀ (p : Port) (vc : Vc), halted s = false → exec (.egressQueueHead p vc) s = .next ((egressHead p.val vc.val) s)) ∧
    (∀ (p : Port) (vc : Vc), halted s = false → exec (.ctStallAbort p vc) s = .next ((ctStall p.val vc.val) s)) ∧
    (∀ (die : Die) (part : Part), halted s = false → exec (.bufGrantRequest die part) s = .next ((bufGrantRequest die.val part.val) s)) ∧
    (∀ (die : Die) (part : Part), halted s = false → exec (.bufGrantReturn die part) s = .next ((bufGrantReturn die.val part.val) s)) ∧
    (∀ (die : Die) (part : Part), halted s = false → exec (.tokenBlockRequest die part) s = .next ((tokenRequest die.val part.val) s)) ∧
    (∀ (die : Die) (part : Part), halted s = false → exec (.tokenBlockReturn die part) s = .next ((tokenReturn die.val part.val) s)) ∧
    (∀ (sess : Fin 8) (p : Port) (egress : Bool) (pk : Packet) (bad : Bool) (sopFt : Nat) (sopQual : Fin 8), halted s = false → exec (.mirrorCopy sess p egress pk bad sopFt sopQual) s = .next ((mirrorCopy sess.val p.val egress pk bad sopFt sopQual.val) s)) ∧
    (∀ (sram : SramRead), halted s = false → exec (.sampleRecordWrite sram) s = .next ((sampleWrite sram) s)) ∧
    (∀ (e : LinkEnd) (vc : Vc), ((linkUnit e) = .ox9 → halted s = false) → exec (.creditStall e vc) s = .next ((creditStall e vc.val) s)) ∧
    (∀ (p : Port), halted s = false → exec (.echoSend p) s = .next ((echoSend p.val) s)) ∧
    (halted s = false → exec .cmapBoundary s = .next (cmapBoundary s)) ∧
    (∀ (side : Side) (q : OPort) (line : Line), exec (.echoRx (.oeb side q line)) s = .next (echoRx (.oeb side q line) s)) ∧
    (∀ (p : Port) (line : Line), halted s = false → exec (.echoRx (.ox p line)) s = .next (echoRx (.ox p line) s)) ∧
    (∀ (k : Skip) (body : List Byte), halted s = false → exec (.echoRx (.skipper k body)) s = .next (echoRx (.skipper k body) s)) ∧
    (∀ (side : Side) (dst : BitVec 12) (vc : Vc), exec (.rateRecovery (.oeb side) dst vc) s = .next (rateRecover (.oeb side) dst.toNat vc.val s)) ∧
    (∀ (k : Skip) (dst : BitVec 12) (vc : Vc), halted s = false → exec (.rateRecovery (.skipper k) dst vc) s = .next (rateRecover (.skipper k) dst.toNat vc.val s))

/-- Where each of these commands completes, and with which state (R298, R299, R302, R303, R305, R306, R307, R309, R310, R312, R313, R315, and the rules its operation cites). -/
def Obligations.LinkCommandsAct : Prop :=
  ∀ s : State,
    (∀ (e : LinkEnd) (line : Line) (slip : Bool), ((linkUnit e) = .ox9 → halted s = false) → exec (.flitRx e line slip) s = .next ((flitRx e line slip) s)) ∧
    (∀ (e : LinkEnd), ((linkUnit e) = .ox9 → halted s = false) → exec (.replayTimeout e) s = .next ((replayTimeout e) s)) ∧
    (∀ (e : LinkEnd), ((linkUnit e) = .ox9 → halted s = false) → exec (.nakResend e) s = .next ((nakResend e) s)) ∧
    (∀ (e : LinkEnd), ((linkUnit e) = .ox9 → halted s = false) → exec (.skipInsertSend e) s = .next ((skipSend e) s)) ∧
    (∀ (e : LinkEnd) (line : Line) (slip : Bool), ((linkUnit e) = .ox9 → halted s = false) → exec (.skipRx e line slip) s = .next ((skipRx e line slip) s)) ∧
    (∀ (e : LinkEnd) (line : Line), ((linkUnit e) = .ox9 → halted s = false) → exec (.idleRx e line) s = .next ((idleRx e line) s)) ∧
    (∀ (e : LinkEnd) (line : Line), ((linkUnit e) = .ox9 → halted s = false) → exec (.swapRx e line) s = .next ((swapRx e line) s)) ∧
    (∀ (e : LinkEnd) (line : Line), ((linkUnit e) = .ox9 → halted s = false) → exec (.downRx e line) s = .next ((downRx e line) s)) ∧
    (∀ (e : LinkEnd) (line : Line), ((linkUnit e) = .ox9 → halted s = false) → exec (.gustRx e line) s = .next ((gustRx e line) s)) ∧
    (∀ (e : LinkEnd), ((linkUnit e) = .ox9 → halted s = false) → exec (.electricalIdleEntry e) s = .next ((idleEntry e) s)) ∧
    (∀ (e : LinkEnd), ((linkUnit e) = .ox9 → halted s = false) → exec (.gustExit e) s = .next ((gustExit e) s)) ∧
    (∀ (e : LinkEnd), ((linkUnit e) = .ox9 → halted s = false) → exec (.idleKeepalive e) s = .next ((keepAlive e) s)) ∧
    (∀ (e : LinkEnd), ((linkUnit e) = .ox9 → halted s = false) → exec (.los e) s = .next ((dropWhere (fun l => decide (2 ≤ l.st) && decide (l.st ≤ 8) && decide (l.st ≠ 7)) 1 e) s)) ∧
    (∀ (e : LinkEnd), ((linkUnit e) = .ox9 → halted s = false) → exec (.losIdle e) s = .next ((dropWhere (fun l => l.st == 7) 2 e) s)) ∧
    (∀ (e : LinkEnd), ((linkUnit e) = .ox9 → halted s = false) → exec (.fecBurst e) s = .next ((dropWhere (fun l => l.st == 6 && decide (16 ≤ l.fecRun)) 3 e) s)) ∧
    (∀ (e : LinkEnd), ((linkUnit e) = .ox9 → halted s = false) → exec (.replayMaxExceeded e) s = .next ((fun (s : State) => if replaySpent e s then dropWhere linkUp 4 e s else s) s)) ∧
    (∀ (e : LinkEnd), ((linkUnit e) = .ox9 → halted s = false) → exec (.silentTimeout e) s = .next ((dropWhere (fun l => l.st == 6) 5 e) s)) ∧
    (∀ (e : LinkEnd), ((linkUnit e) = .ox9 → halted s = false) → exec (.gustTimeout e) s = .next ((dropWhere (fun l => l.st == 8) 8 e) s)) ∧
    (∀ (e : LinkEnd) (line : Line), ((linkUnit e) = .ox9 → halted s = false) → exec (.nrPatternRx e line) s = .next ((nrPatternRx e line) s)) ∧
    (∀ (e : LinkEnd) (line : Line) (arrivals : List Nat), ((linkUnit e) = .ox9 → halted s = false) → exec (.ts1Rx e line arrivals) s = .next ((ts1Rx e line arrivals) s)) ∧
    (∀ (e : LinkEnd) (line : Line), ((linkUnit e) = .ox9 → halted s = false) → exec (.ts2Rx e line) s = .next ((ts2Rx e line) s)) ∧
    (∀ (e : LinkEnd) (line : Line) (arrival : BitVec 40), ((linkUnit e) = .ox9 → halted s = false) → exec (.tsoRx e line arrival) s = .next ((tsoRx e line arrival.toNat) s)) ∧
    (∀ (e : LinkEnd) (line : Line), ((linkUnit e) = .ox9 → halted s = false) → exec (.tscRx e line) s = .next ((tscRx e line) s)) ∧
    (∀ (e : LinkEnd) (eyes : List EyeResult), ((linkUnit e) = .ox9 → halted s = false) → exec (.marginCheckDone e eyes) s = .next ((marginDone e eyes) s)) ∧
    (∀ (e : LinkEnd), ((linkUnit e) = .ox9 → halted s = false) → exec (.alignTimeout e) s = .next ((stateTimeout 2 9 e) s)) ∧
    (∀ (e : LinkEnd), ((linkUnit e) = .ox9 → halted s = false) → exec (.marginTimeout e) s = .next ((stateTimeout 3 12 e) s)) ∧
    (∀ (e : LinkEnd), ((linkUnit e) = .ox9 → halted s = false) → exec (.timeStateTimeout e) s = .next ((stateTimeout 4 14 e) s)) ∧
    (∀ (e : LinkEnd), ((linkUnit e) = .ox9 → halted s = false) → exec (.creditStateTimeout e) s = .next ((stateTimeout 5 15 e) s)) ∧
    (∀ (e : LinkEnd), ((linkUnit e) = .ox9 → halted s = false) → exec (.downHoldEnd e) s = .next ((downEnd e) s)) ∧
    (halted s = false → exec .refclkLost s = .next (refclkLost s)) ∧
    (halted s = false → exec .refclkRestored s = .next (refclkRestored s)) ∧
    (∀ (site : Site), halted s = false → exec (.laneDegraded site) s = .next ((laneDegraded site.val) s)) ∧
    (∀ (p : Port), halted s = false → exec (.laneSwapRxSwitch p) s = .next ((swapRxSwitch p.val) s)) ∧
    (∀ (p : Port), halted s = false → exec (.laneSwapTxSwitch p) s = .next ((swapTxSwitch p.val) s)) ∧
    (∀ (side : Side) (q : OPort), exec (.oebPortEnable side q) s = .next ((oebPortEnable side q) s)) ∧
    (∀ (e : LinkEnd), ((linkUnit e) = .ox9 → halted s = false) → exec (.skipModeEnd e) s = .next ((skipEnd e) s)) ∧
    (∀ e : LinkEnd, (linkUnit e = .ox9 → halted s = false) → exec (.breezeSend (.link e)) s = .next (breezeSend e s)) ∧
    (∀ i : Fin 2, dark s = false → exec (.breezeSend (.chain i)) s = .next (breezeChain i.val s))

/-- Where each of these commands completes, and with which state (R68, R94, R95, R240, R242, R244, R248, R251, R253, R264, R274, R276, and the rules its operation cites). -/
def Obligations.EndpointCommandsAct : Prop :=
  ∀ s : State,
    (∀ (side : Side), exec (.oebIdLock side) s = .next ((so side OEB_ID.LOCK 0 1) s)) ∧
    (∀ (side : Side) (x : Ctx), exec (.ctxCfgErrCountRead side x) s = .next ((ctxCfgRead side x.val) s)) ∧
    (∀ (side : Side) (x : Ctx), exec (.xlatFaultCountRead side x) s = .next ((xlatFaultRead side x.val) s)) ∧
    (∀ (e : LinkEnd) (sram : SramRead), ((linkUnit e) = .ox9 → halted s = false) → exec (.egressFlitSlot e sram) s = .next ((fun (s : State) => slotDone e (flitSlot e sram s)) s)) ∧
    (∀ (side : Side) (d : Areq), exec (.load side d) s = .next ((attach side .load d) s)) ∧
    (∀ (side : Side) (d : Areq), exec (.store side d) s = .next ((attach side .store d) s)) ∧
    (∀ (side : Side) (d : Areq), exec (.storeNp side d) s = .next ((attach side .storeNp d) s)) ∧
    (∀ (side : Side) (d : Areq), exec (.atomic side d) s = .next ((attach side .atomic d) s)) ∧
    (∀ (side : Side) (d : Areq), exec (.msgSend side d) s = .next ((attach side .msg d) s)) ∧
    (∀ (side : Side) (d : Areq), exec (.contrib side d) s = .next ((attach side .contrib d) s)) ∧
    (∀ (side : Side) (d : Areq), exec (.fenceSys side d) s = .next ((fenceSys side d) s)) ∧
    (∀ (ctx : Ctx) (atag : BitVec 14), exec (.fenceSysComplete ctx atag) s = .next ((fenceComplete ctx.val atag.toNat) s)) ∧
    (∀ (side : Side) (d : Areq), exec (.lcWait side d) s = .next ((lcWait side d) s)) ∧
    (∀ (side : Side) (ctx : Ctx) (atag : BitVec 14), exec (.lcWaitTimeout side ctx atag) s = .next ((waitTimeout side false ctx.val atag.toNat) s)) ∧
    (∀ (side : Side) (d : Areq), exec (.lcRd side d) s = .next ((lcRd side d) s)) ∧
    (∀ (side : Side) (d : Areq), exec (.lcWr side d) s = .next ((lcWr side d) s)) ∧
    (∀ (side : Side) (d : Areq), exec (.cwGetS side d) s = .next ((attach side .getS d) s)) ∧
    (∀ (side : Side) (d : Areq), exec (.cwGetM side d) s = .next ((attach side .getM d) s)) ∧
    (∀ (side : Side) (d : Areq), exec (.cwUpg side d) s = .next ((attach side .upg d) s)) ∧
    (∀ (side : Side) (d : Areq), exec (.cwWb side d) s = .next ((attach side .wb d) s)) ∧
    (∀ (side : Side), exec (.walkStart side) s = .next ((walkNext side) s)) ∧
    (∀ (side : Side), exec (.requestIssue side) s = .next ((requestIssue side) s)) ∧
    (∀ (side : Side) (tag : BitVec 14), exec (.loadTimeout side tag) s = .next ((loadTimeout side tag.toNat) s)) ∧
    (∀ (side : Side) (tag : BitVec 14), exec (.quarantineEnd side tag) s = .next ((quarantineEnd side tag.toNat) s)) ∧
    (∀ (side : Side) (q : OPort) (pkt : Packet) (bad : Bool), exec (.responseRx side q pkt bad) s = .next ((responseRx side q.val pkt bad) s)) ∧
    (∀ (side : Side) (q : OPort) (pkt : Packet) (bad : Bool), exec (.inboundRequest side q pkt bad) s = .next ((inboundRequest side q.val pkt bad) s)) ∧
    (∀ (side : Side) (mtag : BitVec 14) (status : BitVec 4) (data : List Byte), exec (.mrspRx side mtag status data) s = .next ((mrspRx side mtag.toNat status.toNat data) s)) ∧
    (∀ (side : Side) (mtag : BitVec 14), exec (.mrspTimeout side mtag) s = .next ((mrspTimeout side mtag.toNat) s)) ∧
    (∀ (side : Side) (q : OPort) (pkt : Packet) (bad : Bool), exec (.rresultRx side q pkt bad) s = .next ((rresultRx side q.val pkt bad) s)) ∧
    (∀ (side : Side) (drain : Bool), exec (.xlatInvAll side drain) s = .next ((xlatInv side 0 drain 0 0 0) s)) ∧
    (∀ (side : Side) (drain : Bool) (asid : BitVec 16), exec (.xlatInvAsid side drain asid) s = .next ((xlatInv side 1 drain asid.toNat 0 0) s)) ∧
    (∀ (side : Side) (drain : Bool) (asid : BitVec 16) (npages : BitVec 16), exec (.xlatInvAsidRange side drain asid npages) s = .next ((xlatInv side 2 drain asid.toNat 0 npages.toNat) s)) ∧
    (∀ (side : Side) (drain : Bool) (npages : BitVec 16), exec (.xlatInvRange side drain npages) s = .next ((xlatInv side 3 drain 0 0 npages.toNat) s)) ∧
    (∀ (side : Side) (drain : Bool) (apt : BitVec 4), exec (.xlatInvApt side drain apt) s = .next ((xlatInv side 4 drain 0 apt.toNat 0) s)) ∧
    (∀ (side : Side), exec (.invPurge side) s = .next ((invPurge side) s)) ∧
    (∀ (side : Side), exec (.invDrainComplete side) s = .next ((invDrain side) s)) ∧
    (∀ (side : Side) (pkt : Packet) (bad : Bool), exec (.cohInvRx side pkt bad) s = .next ((snoopRx side pkt bad (cohInvRx side pkt)) s)) ∧
    (∀ (side : Side) (pkt : Packet) (bad : Bool), exec (.cohRecallRx side pkt bad) s = .next ((snoopRx side pkt bad (recallIn side pkt)) s)) ∧
    (∀ (side : Side) (pkt : Packet) (bad : Bool), exec (.cohRequestAtHome side pkt bad) s = .next ((cohAtHome side pkt bad) s)) ∧
    (∀ (side : Side) (strap : Bool), exec (.oebReset side strap) s = .next ((oebReset side strap) s))

/-- Where each of these commands completes, and with which state (R278, R279, R281, R282, R283, R285, R286, R287, R288, and the rules its operation cites). -/
def Obligations.DmaCommandsAct : Prop :=
  ∀ s : State,
    (∀ (side : Side) (d : Areq), exec (.dmaRingDoorbell side d) s = .next ((dmaRing side d) s)) ∧
    (∀ (side : Side) (d : Areq), exec (.dmaCompletionWait side d) s = .next ((dmaRing side d) s)) ∧
    (∀ (side : Side) (ctx : Ctx) (atag : BitVec 14), exec (.dmaWaitTimeout side ctx atag) s = .next ((waitTimeout side true ctx.val atag.toNat) s)) ∧
    (∀ (side : Side) (ch : Chan) (tail : BitVec 32), exec (.dmaTailWrite side ch tail) s = .next ((tailWrite side ch.val tail.toNat) s)) ∧
    (∀ (side : Side) (ch : Chan), exec (.descriptorFetch side ch) s = .next ((descFetch side ch.val) s)) ∧
    (∀ (side : Side) (ch : Chan), exec (.dmaCopy side ch) s = .next ((startDesc side ch.val 0) s)) ∧
    (∀ (side : Side) (ch : Chan), exec (.dmaFill side ch) s = .next ((startDesc side ch.val 1) s)) ∧
    (∀ (side : Side) (ch : Chan), exec (.dmaCompare side ch) s = .next ((startDesc side ch.val 2) s)) ∧
    (∀ (side : Side) (ch : Chan), exec (.dmaDecrypt side ch) s = .next ((startDesc side ch.val 3) s)) ∧
    (∀ (side : Side) (ch : Chan), exec (.dmaNoOperation side ch) s = .next ((startDesc side ch.val 4) s)) ∧
    (∀ (side : Side), exec (.dmaBurstIssue side) s = .next ((dmaBurst side) s)) ∧
    (∀ (side : Side) (ch : Chan), exec (.dmaTimerTrigger side ch) s = .next ((timerTrigger side ch.val) s)) ∧
    (∀ (side : Side) (ch : Chan), exec (.dmaDescriptorComplete side ch) s = .next ((descComplete side ch.val) s)) ∧
    (∀ (side : Side) (ch : Chan), exec (.dmaStop side ch) s = .next ((dmaStop side ch.val) s)) ∧
    (∀ (side : Side) (ch : Chan), exec (.dmaErrClear side ch) s = .next ((dmaErrClear side ch.val) s)) ∧
    (∀ (side : Side) (ch : Chan), exec (.dmaChannelDisable side ch) s = .next ((dmaDisable side ch.val) s))

/-- Where each of these commands completes, and with which state (R85, R89, R90, R91, R92, R98, and the rules its operation cites). -/
def Obligations.DirectoryCommandsAct : Prop :=
  ∀ s : State,
    (∀ (pks : List Packet), halted s = false → exec (.cwBankRequest pks) s = .next ((cwBankCycle pks) s)) ∧
    (∀ (pk : Packet), halted s = false → exec (.cohWbAtBank pk) s = .next ((cohWbAtBank pk) s)) ∧
    (∀ (pk : Packet), halted s = false → exec (.cohDataAtBank pk) s = .next ((cohDataAtBank pk) s)) ∧
    (∀ (pk : Packet), halted s = false → exec (.cohAckAtBank pk) s = .next ((cohAckAtBank pk) s)) ∧
    (∀ (bank : Slice) (line : Nat) (member : Fin 64), halted s = false → exec (.cwAckTimeout bank line member) s = .next ((cwAckTimeout bank.val line member.val) s)) ∧
    (∀ (pk : Packet) (l : CwLine) (m : Nat), let b := bankOfAddr pk.hdr.addr
      halted s = false → pk.hdr.opcode.toNat = opACK → bits pk.hdr.subop.toNat 0 2 = 0 → cwLine b pk.hdr.addr s = some l → l.st = .bInv →
      senderOf pk.hdr s = some m → m ∈ l.acks → (∃ k ∈ l.acks, k ≠ m) → ∃ t l1, exec (.cohAckAtBank pk) s = .next t ∧
      cwLine b pk.hdr.addr t = some l1 ∧ l1.st = .bInv ∧ l1.acks = l.acks.filter (fun k => decide (k ≠ m)) ∧
      l1.sharers = l.sharers.filter (fun k => decide (k ≠ m)) ∧ l1.req = l.req ∧ (cwBank b t).queue = (cwBank b s).queue ∧
      (∀ a : Nat, lineAddr a ≠ lineAddr pk.hdr.addr → cwLine b a t = cwLine b a s) ∧
      (∀ j : Nat, j ≠ b → cwBank j t = cwBank j s) ∧ t.out = s.out ∧ t.ox = s.ox) ∧
    (∀ pk : Packet, let b := bankOfAddr pk.hdr.addr
      halted s = false → bankRequest pk.hdr.opcode.toNat = true →
      (∃ q ∈ (cwBank b s).queue, lineAddr q.hdr.addr = lineAddr pk.hdr.addr) →
      ∃ t, exec (.cwBankRequest [pk]) s = .next t ∧ cwBank b t = { cwBank b s with queue := (cwBank b s).queue ++ [pk] } ∧
      (∀ j : Nat, j ≠ b → cwBank j t = cwBank j s) ∧ t.out = s.out ∧ t.ox = s.ox) ∧
    (∀ (bank : Slice) (line : Nat) (member : Fin 64) (l : CwLine), halted s = false → cwLine bank.val line s = some l →
      ft s < l.since + 2500 * gx CW_CTRL.ACK_TIMEOUT 0 s → exec (.cwAckTimeout bank line member) s = .next s)

/-- Where each of these commands completes, and with which state (R154, R159, R160, R161, R166, R169, R170, R197, R198, R216, and the rules its operation cites). -/
def Obligations.LunaEngineCommandsAct : Prop :=
  ∀ s : State,
    (∀ (die : LDie) (pkt : Packet), halted s = false → exec (.contribSopRx die pkt) s = .next ((contribSop die.val pkt) s)) ∧
    (∀ (die : LDie) (id : ChunkId) (slot : Nat), halted s = false → exec (.holdRangeAllocated die id slot) s = .next ((holdAllocated die.val id slot) s)) ∧
    (∀ (die : LDie) (id : ChunkId) (slot : Nat) (bytes : List Byte) (sram : SramRead), halted s = false → exec (.contribCellRx die id slot bytes sram) s = .next ((contribCell die.val id slot bytes sram) s)) ∧
    (∀ (die : LDie) (id : ChunkId) (slot : Nat) (bad : Bool) (trailer : List Byte), halted s = false → exec (.contribEopCheck die id slot bad trailer) s = .next ((contribEop die.val id slot bad trailer) s)) ∧
    (∀ (core : Core), halted s = false → exec (.taskStart core) s = .next ((taskStart core.val) s)) ∧
    (∀ (die : LDie) (comm : Fin 16384), halted s = false → exec (.lunaStepDeadline die comm) s = .next ((lunaDeadline die.val comm.val) s)) ∧
    (∀ (die : LDie) (rec : CheckRecord), halted s = false → exec (.checkRecordRx die rec) s = .next ((recordRx die.val rec) s)) ∧
    (∀ (die : LDie) (id : ChunkId), halted s = false → exec (.verifyTimeout die id) s = .next ((verifyTimeout die.val id) s)) ∧
    (∀ (core : Core) (row : Option (Nat × Nat)), halted s = false → exec (.lunaHwfault core row) s = .next ((hwFault core.val row) s)) ∧
    (∀ (core : Core), halted s = false → exec (.taskBudgetExceeded core) s = .next ((progFault core.val 3) s)) ∧
    (∀ (die : LDie) (comm : Fin 16384), halted s = false → exec (.armComplete die comm) s = .next ((armDone die.val comm.val) s)) ∧
    (∀ (die : LDie) (comm : Fin 16384), halted s = false → exec (.disarmComplete die comm) s = .next ((disarmDone die.val comm.val) s))

/-- Where each of these commands completes, and with which state (R322, R323, R324, R325, R327, R328, R330, R331, R332, and the rules its operation cites). -/
def Obligations.SkipperCommandsAct : Prop :=
  ∀ s : State,
    (∀ (k : Skip) (pkt : Packet) (bad : Bool), halted s = false → exec (.segmentEgress k pkt bad) s = .next ((segmentEgress k pkt bad) s)) ∧
    (∀ (k : Skip) (src : Nat) (part : Nat) (region : Nat) (sram : SramRead), halted s = false → exec (.segmentRelease k src part region sram) s = .next ((segmentRelease k src part region sram) s)) ∧
    (∀ (k : Skip) (pkt : Packet) (bad : Bool), halted s = false → exec (.segmentArrival k pkt bad) s = .next ((segmentArrival k pkt bad) s)) ∧
    (∀ (k : Skip) (src : BitVec 12) (tag : BitVec 14), halted s = false → exec (.remoteTimeout k src tag) s = .next ((remoteTimeout k src.toNat tag.toNat) s)) ∧
    (∀ (k : Skip) (pkt : Packet) (bad : Bool), halted s = false → exec (.hostRequest k pkt bad) s = .next ((hostRequest k pkt bad) s)) ∧
    (∀ (k : Skip) (ptag : Nat) (status : PcieStatus) (data : List Byte), halted s = false → exec (.pcieCompletionRx k ptag status data) s = .next ((pcieCompletion k ptag status data) s)) ∧
    (∀ (k : Skip) (ptag : Nat), halted s = false → exec (.hostCplTimeout k ptag) s = .next ((hostCplTimeout k ptag) s)) ∧
    (∀ (k : Skip) (v : BitVec 32), halted s = false → exec (.hostRxConsWrite k v) s = .next ((sx HOST_CFG.RX_CONS k.val v.toNat) s)) ∧
    (∀ (k : Skip) (v : BitVec 32), halted s = false → exec (.hostTxTailWrite k v) s = .next ((sx HOST_CFG.TX_TAIL k.val v.toNat) s)) ∧
    (∀ (k : Skip) (words : List Word) (data : List Byte), halted s = false → exec (.hostTxDescriptor k words data) s = .next ((txStart k words data) s)) ∧
    (∀ (k : Skip) (pkt : Packet), halted s = false → exec (.skipperWrRspRx k pkt) s = .next ((skipperWrRsp k pkt) s)) ∧
    (∀ (k : Skip), halted s = false → exec (.hostTxDescriptorComplete k) s = .next ((txComplete k) s)) ∧
    (∀ (k : Skip) (v : BitVec 32), halted s = false → ∃ t, exec (.hostRxConsWrite k v) s = .next t ∧
      gx HOST_CFG.RX_CONS k.val t = v.toNat ∧ gx HOST_CFG.TX_TAIL k.val t = gx HOST_CFG.TX_TAIL k.val s ∧
      oneWord .ox9 .hostCfg k.val 6 s t ∧ t.out = s.out) ∧
    (∀ (k : Skip) (v : BitVec 32), halted s = false → ∃ t, exec (.hostTxTailWrite k v) s = .next t ∧
      gx HOST_CFG.TX_TAIL k.val t = v.toNat ∧ gx HOST_CFG.RX_CONS k.val t = gx HOST_CFG.RX_CONS k.val s ∧
      oneWord .ox9 .hostCfg k.val 6 s t ∧ t.out = s.out) ∧
    (∀ (k : Skip) (src : BitVec 12) (tag : BitVec 14), halted s = false →
      (∀ r ∈ (skipOf k.val s).remote, r.hdr.srcEp = src → r.hdr.tag = tag → ft s < r.since + 2500 * gx GW_CTRL.REMOTE_TO 0 s) →
      exec (.remoteTimeout k src tag) s = .next s) ∧
    (∀ (k : Skip) (ptag : Nat), halted s = false → (∀ r ∈ (skipOf k.val s).reads, r.ptag = ptag → locOf .ox9 s < r.since + 25000000) →
      exec (.hostCplTimeout k ptag) s = .next s) ∧
    (∀ (k : Skip) (words : List Word) (data : List Byte), let w := words.map (·.toNat)
      halted s = false → (skipOf k.val s).tx = none → (skipOf k.val s).txDone ≠ gx HOST_CFG.TX_TAIL k.val s →
      gx HOST_STAT.TX_HALT k.val s = 0 → ∀ tag : Nat, hostTag k s = some tag →
      (bits (nth w 0) 28 36 ≠ 0 ∨ bits (nth w 3) 40 24 ≠ 0 ∨ bits (nth w 4) 48 16 ≠ 0 ∨ nth w 5 ≠ 0 ∨ nth w 6 ≠ 0 ∨ nth w 7 ≠ 0 ∨
        (bits (nth w 0) 0 1 = 1 ∧ bits (nth w 0) 1 1 = 1) ∨ bits (nth w 2) 60 4 ≠ 0) →
      ∃ (t : State) (e : Event), exec (.hostTxDescriptor k words data) s = .next t ∧ gx HOST_STAT.TX_HALT k.val t = 1 ∧
      gx HOST_STAT.TX_ERR k.val t = stCheckFail ∧ skipOf k.val t = skipOf k.val s ∧
      counter .ox9 (.die (60 + k.val)) .gwTxErr t = (counter .ox9 (.die (60 + k.val)) .gwTxErr s + 1) % 2 ^ 64 ∧
      t.ox.events.raised = raisedWith .ox9 e s ∧ e.code = .gwTxErr ∧
      e.args = [wa (skipOf k.val s).txDone, na stCheckFail] ∧ t.out = s.out ++ [.pcieRead k.val tag ((gx HOST_CFG.TX_BASE k.val s + 64 * ((skipOf k.val s).txDone % 2 ^ gx HOST_CFG.TX_LOG2 k.val s)) % 2 ^ 64) 64 snooped,
        .hostMsix k.val 1])

/-- Where each of these commands completes, and with which state (R338, R339, R340, R343, R347, R349, R350, R426, and the rules its operation cites). -/
def Obligations.TimeCommandsAct : Prop :=
  ∀ s : State,
    (∀ (e : LinkEnd) (line : Line), ((linkUnit e) = .ox9 → halted s = false) → exec (.breezeRx e line) s = .next ((breezeRx e line) s)) ∧
    (halted s = false → exec .ppsInEdge s = .next ((fun (s : State) => afterStep .ox9 (ppsIn s)) s)) ∧
    (halted s = false → exec .ppsInLost s = .next (ppsLost s)) ∧
    (∀ (u : UnitId), (u = .ox9 → halted s = false) → exec (.markerLoss u) s = .next ((markerLoss u) s)) ∧
    (∀ (k : Fin 2), halted s = false → exec (.ppsOutEdge k) s = .next ((ppsRise k.val) s)) ∧
    (∀ (k : Fin 2), halted s = false → exec (.ppsOutFall k) s = .next ((ppsFall k.val) s)) ∧
    (halted s = false → exec .programCommit s = .next ((fun (s : State) => commitLoop (s.monarch.progs.length + 1) s) s)) ∧
    (∀ (dom : Dom) (t : Word), dark s = false → hostServed s = true → exec (.timeSet dom t) s = .next ((withStep (runCmd dom.val (.timeSet t.toNat) [])) s)) ∧
    (∀ (link : Fin 2) (frame : List Byte), dark s = false → exec (.breezeFrameRx link frame) s = .next ((breezeFrameRx link.val frame) s))

/-- Where each of these commands completes, and with which state (R7, R48, R358, R361, R364, R366, R367, R372, R373, R470, and the rules its operation cites). -/
def Obligations.SecurityCommandsAct : Prop :=
  ∀ s : State,
    (∀ (u : UnitId) (slot : BitVec 13) (unit : Nat), (u = .ox9 → halted s = false) → exec (.seqExhausted u slot unit) s = .next ((seqExhausted u slot.toNat unit) s)) ∧
    (∀ (u : UnitId) (sess : Nat) (c : KeyCmd), spdmLive u s = true → exec (.keySet u sess c) s = .next ((keyCommand u .set sess c) s)) ∧
    (∀ (u : UnitId) (sess : Nat) (c : KeyCmd), spdmLive u s = true → exec (.keyRotate u sess c) s = .next ((keyCommand u .rotate sess c) s)) ∧
    (∀ (u : UnitId) (sess : Nat) (c : KeyCmd), spdmLive u s = true → exec (.keyErase u sess c) s = .next ((keyCommand u .erase sess c) s)) ∧
    (∀ (u : UnitId) (sess : Nat) (c : KeyCmd), spdmLive u s = true → exec (.keyQuery u sess c) s = .next ((keyCommand u .query sess c) s)) ∧
    (∀ (u : UnitId) (sess : Nat) (c : KeyCmd), spdmLive u s = true → exec (.devsetSet u sess c) s = .next ((keyCommand u .devset sess c) s)) ∧
    (∀ (u : UnitId) (slot : BitVec 13), (u = .ox9 → halted s = false) → exec (.keyRotationTime u slot) s = .next ((rotationTime u slot.toNat) s)) ∧
    (∀ (u : UnitId) (slot : BitVec 13), (u = .ox9 → halted s = false) → exec (.keyOverlapEnd u slot) s = .next ((overlapEnd u slot.toNat) s)) ∧
    (∀ (u : UnitId) (conn : Nat), spdmLive u s = true → exec (.getVersion u conn) s = .next ((spdmReply u 0x04 [] 0) s)) ∧
    (∀ (u : UnitId) (conn : Nat) (req : List Byte), spdmLive u s = true → exec (.getCapabilities u conn req) s = .next ((spdmReply u 0x61 req 0) s)) ∧
    (∀ (u : UnitId) (conn : Nat) (req : List Byte), spdmLive u s = true → exec (.negotiateAlgorithms u conn req) s = .next ((spdmReply u 0x63 req 0) s)) ∧
    (∀ (u : UnitId) (conn : Nat), spdmLive u s = true → exec (.getDigests u conn) s = .next ((fun (s : State) => spdmReply u 0x01 [] (identity u s) s) s)) ∧
    (∀ (u : UnitId) (conn : Nat) (slot : Nat) (offset : Nat) (length : Nat), spdmLive u s = true → exec (.getCertificate u conn slot offset length) s = .next ((fun (s : State) => if slot ≠ 0 then spdmFail u 1 s else spdmReply u 0x02 (toLE 2 offset ++ toLE 2 length) (identity u s) s) s)) ∧
    (∀ (u : UnitId) (conn : Nat) (slot : Nat) (req : List Byte), spdmLive u s = true → exec (.challenge u conn slot req) s = .next ((fun (s : State) => if slot ≠ 0 then spdmFail u 1 s else needRandom u (spdmReply u 0x03 (req ++ toLE 48 (identity u s)) (nonce u s)) s) s)) ∧
    (∀ (u : UnitId) (conn : Nat) (index : Nat) (signed : Bool) (req : List Byte), spdmLive u s = true → exec (.getMeasurements u conn index signed req) s = .next ((getMeasurements u index signed req) s)) ∧
    (∀ (u : UnitId) (conn : Nat) (sess : Nat) (req : List Byte), spdmLive u s = true → exec (.keyExchange u conn sess req) s = .next ((keyExchange u sess req) s)) ∧
    (∀ (u : UnitId) (sess : Nat) (req : List Byte) (leafKey : List Byte), spdmLive u s = true → exec (.finish u sess req leafKey) s = .next ((finish u sess req leafKey) s)) ∧
    (∀ (u : UnitId) (sess : Nat) (req : List Byte), spdmLive u s = true → exec (.keyUpdate u sess req) s = .next ((keyUpdate u sess req) s)) ∧
    (∀ (u : UnitId) (sess : Nat), spdmLive u s = true → exec (.heartbeat u sess) s = .next ((inSession u sess (spdmReply u 0x68 [] 0)) s)) ∧
    (∀ (u : UnitId) (sess : Nat), spdmLive u s = true → exec (.endSession u sess) s = .next ((inSession u sess fun t => spdmReply u 0x6C [] 0 (setSessions u ((keySec u t).sessions.filter fun x => x.id ≠ sess) t)) s)) ∧
    (∀ (u : UnitId) (sess : Nat) (std : BitVec 16) (pen : BitVec 32) (payload : List Byte), spdmLive u s = true → exec (.vendorDefinedRequest u sess std pen payload) s = .next ((vendorRequest u sess std.toNat pen.toNat payload) s)) ∧
    (∀ (u : TrngUnit) (pass : Bool), ((trngAt u).1 = .ox9 → halted s = false) → exec (.trngStartupDone u pass) s = .next ((trngStartup u pass) s)) ∧
    (∀ (u : TrngUnit) (apt : Bool), ((trngAt u).1 = .ox9 → halted s = false) → exec (.trngHealthFail u apt) s = .next ((trngHealth u apt) s)) ∧
    (∀ (u : TrngUnit), ((trngAt u).1 = .ox9 → halted s = false) → exec (.drbgReseed u) s = .next ((drbgReseed u) s)) ∧
    (∀ (token : List Byte), dark s = false → exec (.debugUnlock token) s = .next ((debugUnlock token) s)) ∧
    (∀ (d : Dom) (fn : Dom) (reqLen : BitVec 13), dark s = false → hostServed s = true → exec (.mailboxGo d fn reqLen) s = .next ((if d = fn then mailboxGo d.val reqLen.toNat else unmapped) s)) ∧
    (∀ (d : Dom) (rsp : List Byte), dark s = false → monarchLive s = true → exec (.mailboxResponse d rsp) s = .next ((mailboxResponse d.val rsp) s)) ∧
    (∀ d : Fin 2, dark s = false → hostServed s = true → dieDead (62 + d.val) s = false → inChrysalis s = false → exec (.trngStatRead (.monarch d)) s = .next (trngStatRead (.monarch d) s)) ∧
    (∀ d : Fin 2, dark s = false → hostServed s = true → (dieDead (62 + d.val) s = true ∨ inChrysalis s = true) → exec (.trngStatRead (.monarch d)) s = .next (emit (.readData 0) s)) ∧
    (∀ side : Side, exec (.trngStatRead (.oeb side)) s = .next (trngStatRead (.oeb side) s)) ∧
    (∀ (u : UnitId) (sess : Nat) (std : BitVec 16) (pen : BitVec 32) (payload : List Byte), spdmLive u s = true → exec (.vendorDefinedRequest u sess std pen payload) s = .next (vendorRequest u sess std.toNat pen.toNat payload s))

/-- Where each of these commands completes, and with which state (R396, R398, R409, R412, R374, R376, R377, R387, R388, R389, R390, R457, and the rules its operation cites). -/
def Obligations.FaultAndServiceCommandsAct : Prop :=
  ∀ s : State,
    (∀ (fn : Dom), dark s = false → hostServed s = true → exec (.foldStatRead fn) s = .next (foldStatRead s)) ∧
    (halted s = false → exec .monarchHeartbeatLoss s = .next (failoverFault s)) ∧
    (halted s = false → exec .monarchFaultReport s = .next (failoverFault s)) ∧
    (∀ (u : UnitId), (u = .ox9 → halted s = false) → exec (.eventFold u) s = .next ((eventFold u) s)) ∧
    (∀ (u : UnitId) (seq : Nat), (u = .ox9 → halted s = false) → exec (.foldWindowExpiry u seq) s = .next ((closeEntry u seq (fun x => decide (x.winFt + x.foldWin * 2500 ≤ ftOf u s))) s)) ∧
    (∀ (u : UnitId) (seq : Nat), (u = .ox9 → halted s = false) → exec (.foldMaxspanExpiry u seq) s = .next ((closeEntry u seq (fun x => decide (x.openFt + x.maxSpan * x.foldWin * 2500 ≤ ftOf u s))) s)) ∧
    (∀ (x : Slice), halted s = false → exec (.backgroundSelftestFail x) s = .next ((selftestFail x.val) s)) ∧
    (halted s = false → exec .sliceCutClock s = .next (cutClock s)) ∧
    (halted s = false → exec .grantFreezeEnd s = .next (grantsResume s)) ∧
    (∀ (x : Slice), halted s = false → exec (.sliceDrained x) s = .next ((sliceDrained x.val) s)) ∧
    (∀ (x : Slice), halted s = false → exec (.sliceFail x) s = .next ((sliceFail x.val) s)) ∧
    (∀ (kind : UnitKind) (num : Nat) (pass : Bool), halted s = false → exec (.unitTestDone kind num pass) s = .next ((testDone kind num pass) s)) ∧
    (∀ (kind : UnitKind) (num : Nat) (pass : Bool), halted s = false → exec (.unitShadowDone kind num pass) s = .next ((shadowDone kind num pass) s)) ∧
    (dark s = false → monarchLive s = true → exec .managementPortTrained s = .next (mgmtTrained s)) ∧
    (exec .snapshotInstant s = .next (snapshotInstant s)) ∧
    (exec .snapshotCopyDone s = .next (copiesEnd s)) ∧
    (halted s = false → exec .calmFreeze s = .next (calmFreeze s)) ∧
    (∀ (fn : Dom) (off : Nat), dark s = false → hostServed s = true → exec (.scanRead fn off) s = .next ((scanRead fn.val off) s)) ∧
    (∀ (fn : Dom) (off len : Nat) (write : Bool), dark s = false → hostServed s = true → exec (.unmappedAccess (.bar0 fn) off len write) s = .next (unmappedAccess fn.val off len write s)) ∧
    (∀ (side : Side) (off len : Nat) (write : Bool), exec (.unmappedAccess (.oeb side) off len write) s = .next (if write then s else oebRead side off len s)) ∧
    (∀ (k : Skip) (off len : Nat) (write : Bool), halted s = false → exec (.unmappedAccess (.host k) off len write) s = .next (if write then s else emit (.readData (if len = 8 then hostFacing k.val off s else 0)) s)) ∧
    (∀ (fn : Dom) (off : Nat) (four : Bool) (v : Word), dark s = false → hostServed s = true → exec (.registerWrite (.bar0 fn) off four v) s = .next (hostWrite fn.val off four v.toNat s)) ∧
    (∀ (side : Side) (off : Nat) (four : Bool) (v : Word), exec (.registerWrite (.oeb side) off four v) s = .next (oebAccess side off four v.toNat s)) ∧
    (∀ (k : Skip) (off : Nat) (four : Bool) (v : Word), halted s = false → exec (.registerWrite (.host k) off four v) s = .next (hostAccess k.val off four v.toNat s))

/-- Where each of these commands completes, and with which state (R384, R417, R418, R420, R422, R424, R426, R427, R429, R431, R432, and the rules its operation cites). -/
def Obligations.MonarchCommandsAct : Prop :=
  ∀ s : State,
    (∀ (d : Dom) (tail : BitVec 32), dark s = false → hostServed s = true → exec (.ringTailWrite d tail) s = .next ((ringTail d.val tail.toNat) s)) ∧
    (∀ (d : Dom), dark s = false → hostServed s = true → exec (.ringFlush d) s = .next ((ringFlush d.val) s)) ∧
    (dark s = false → monarchLive s = true → exec .programCheck s = .next (programCheck s)) ∧
    (∀ (pos : Option (Fin 64)) (word : Nat) (res : FetchResult), dark s = false → hostServed s = true → exec (.payloadFetchDone pos word res) s = .next ((payloadFetchDone pos word res) s)) ∧
    (∀ (dom : Dom) (addr : BitVec 48) (v : Word), dark s = false → hostServed s = true → exec (.wr dom addr v) s = .next ((runCmd dom.val (.wr addr.toNat v.toNat) []) s)) ∧
    (∀ (dom : Dom) (addr : BitVec 48) (vs : List Word), dark s = false → hostServed s = true → exec (.blkWr dom addr vs) s = .next ((runCmd dom.val (.blkWr addr.toNat 0 vs.length) (vs.flatMap fun v => toLE 8 v.toNat)) s)) ∧
    (∀ (dom : Dom) (addr : BitVec 48) (slot : BitVec 12), dark s = false → hostServed s = true → exec (.rd dom addr slot) s = .next ((runCmd dom.val (.rd addr.toNat slot.toNat) []) s)) ∧
    (∀ (dom : Dom) (comm : Fin 16384), dark s = false → hostServed s = true → exec (.ctxArm dom comm) s = .next ((runCmd dom.val (.ctxArm comm.val) []) s)) ∧
    (∀ (dom : Dom) (comm : Fin 16384), dark s = false → hostServed s = true → exec (.ctxDisarm dom comm) s = .next ((runCmd dom.val (.ctxDisarm comm.val) []) s)) ∧
    (∀ (dom : Dom) (mask : BitVec 8) (image : List Byte), dark s = false → hostServed s = true → exec (.lunaLoad dom mask image) s = .next ((runCmd dom.val (.lunaLoad mask.toNat 0 image.length) image) s)) ∧
    (∀ (dom : Dom) (progId : BitVec 16) (mask : BitVec 8), dark s = false → hostServed s = true → exec (.lunaUnload dom progId mask) s = .next ((runCmd dom.val (.lunaUnload progId.toNat mask.toNat) []) s)) ∧
    (∀ (dom : Dom) (n : Fin 4), dark s = false → hostServed s = true → exec (.profileLoad dom n) s = .next ((runCmd dom.val (.profileLoad n.val) []) s)) ∧
    (∀ (dom : Dom) (n : Fin 4) (image : List Byte), dark s = false → hostServed s = true → exec (.profileStore dom n image) s = .next ((runCmd dom.val (.profileStore n.val 0 image.length) image) s)) ∧
    (∀ (dom : Dom) (image : List Byte), dark s = false → hostServed s = true → exec (.fwStage dom image) s = .next ((runCmd dom.val (.fwStage 0 image.length) image) s)) ∧
    (∀ (dom : Dom), dark s = false → hostServed s = true → exec (.fabricEnable dom) s = .next ((runCmd dom.val .fabricEnable []) s)) ∧
    (∀ (dom : Dom), dark s = false → hostServed s = true → exec (.fabricDisable dom) s = .next ((runCmd dom.val .fabricDisable []) s)) ∧
    (∀ (dom : Dom) (t : Word), dark s = false → hostServed s = true → exec (.snapAt dom t) s = .next ((runCmd dom.val (.snapAt t.toNat) []) s)) ∧
    (∀ (dom : Dom), dark s = false → hostServed s = true → exec (.calm dom) s = .next ((runCmd dom.val .calm []) s)) ∧
    (∀ (dom : Dom) (t : Word), dark s = false → hostServed s = true → exec (.calmAt dom t) s = .next ((runCmd dom.val (.calmAt t.toNat) []) s)) ∧
    (∀ (dom : Dom) (index : BitVec 4) (key : List Byte), dark s = false → hostServed s = true → exec (.signerEnroll dom index key) s = .next ((runCmd dom.val (.signerEnroll index.toNat 0) key) s)) ∧
    (∀ (dom : Dom) (index : BitVec 4), dark s = false → hostServed s = true → exec (.signerRevoke dom index) s = .next ((runCmd dom.val (.signerRevoke index.toNat) []) s)) ∧
    (∀ (dom : Dom) (stmt : List Byte), dark s = false → hostServed s = true → exec (.expel dom stmt) s = .next ((runCmd dom.val (.expel 0 stmt.length) stmt) s)) ∧
    (∀ (dom : Dom) (stmt : List Byte), dark s = false → hostServed s = true → exec (.readmit dom stmt) s = .next ((runCmd dom.val (.readmit 0 stmt.length) stmt) s)) ∧
    (∀ (dom : Dom), dark s = false → hostServed s = true → exec (.monarchSwitch dom) s = .next ((runCmd dom.val .monarchSwitch []) s)) ∧
    (∀ (dom : Dom) (kind : UnitKind) (num : Nat), dark s = false → hostServed s = true → exec (.retireUnit dom kind num) s = .next ((runCmd dom.val (.retireUnit (kindNum kind) num) []) s)) ∧
    (∀ (dom : Dom) (kind : UnitKind) (num : Nat), dark s = false → hostServed s = true → exec (.serviceTest dom kind num) s = .next ((runCmd dom.val (.serviceTest (kindNum kind) num) []) s)) ∧
    (∀ (dom : Dom) (kind : UnitKind) (num : Nat), dark s = false → hostServed s = true → exec (.restoreUnit dom kind num) s = .next ((runCmd dom.val (.restoreUnit (kindNum kind) num) []) s)) ∧
    (∀ (dom : Dom) (k : Skip), dark s = false → hostServed s = true → exec (.gwTxResume dom k) s = .next ((runCmd dom.val (.gwTxResume k.val) []) s)) ∧
    (∀ (dom : Dom) (t : Word), dark s = false → hostServed s = true → exec (.commitAt dom t) s = .next ((runCmd dom.val (.commitAt t.toNat) []) s)) ∧
    (∀ (dom : Dom), dark s = false → hostServed s = true → exec (.nop dom) s = .next ((runCmd dom.val .nop []) s)) ∧
    (∀ (link : Fin 2) (frame : List Byte), dark s = false → monarchLive s = true → exec (.cmdFrameRx link frame) s = .next ((cmdFrameRx link.val frame) s)) ∧
    (∀ (link : Fin 2) (frame : List Byte), dark s = false → monarchLive s = true → exec (.cplFrameRx link frame) s = .next ((onFrame link.val frame fun s => if frameByte 0 frame = 3 && isHead s then gotCpl frame s else s) s)) ∧
    (∀ (link : Fin 2) (frame : List Byte), dark s = false → monarchLive s = true → exec (.fetchFrameRx link frame) s = .next ((onFrame link.val frame fun s => if frameByte 0 frame = 4 then gotFetch frame s else s) s)) ∧
    (∀ (link : Fin 2), dark s = false → monarchLive s = true → exec (.chainDown link) s = .next ((chainDrop link.val) s)) ∧
    (halted s = false → exec .stepLaunch s = .next (stepLaunch s)) ∧
    (∀ (link : Fin 2), dark s = false → monarchLive s = true → exec (.chainLinkUp link) s = .next ((chainLinkUp link.val) s)) ∧
    (∀ (link : Fin 2) (frame : List Byte), dark s = false → monarchLive s = true → exec (.calmFrameRx link frame) s = .next ((calmFrameRx link.val frame) s)) ∧
    (∀ (frame : List Byte), dark s = false → monarchLive s = true → exec (.enumFrameRx frame) s = .next ((enumRx frame) s)) ∧
    (dark s = false → monarchLive s = true → exec .chainHeadTimeout s = .next (headTimeout s)) ∧
    (∀ (link : Fin 2) (frame : List Byte), dark s = false → monarchLive s = true → exec (.eventFrameRx link frame) s = .next ((eventFrameRx link.val frame) s)) ∧
    (∀ (link : Fin 2) (frame : List Byte) (arrival : BitVec 40), dark s = false → monarchLive s = true → exec (.delayFrameRx link frame arrival) s = .next ((delayRx link.val frame arrival.toNat) s)) ∧
    (∀ (link : Fin 2), dark s = false → monarchLive s = true → exec (.chainFrameResend link) s = .next ((chainResend link.val) s))

/-- Where each of these commands completes, and with which state (R382, R438, R440, R441, R448, R450, R451, R453, R454, R455, R456, and the rules its operation cites). -/
def Obligations.PowerCommandsAct : Prop :=
  ∀ s : State,
    (exec .trayRemoval s = .next (trayOut s)) ∧
    (halted s = false → exec .hpGlitch s = .next ((countG .hpGlitch) s)) ∧
    (exec .trayInsertion s = .next (trayIn s)) ∧
    (exec .reset s = .next (resetFalls s)) ∧
    (exec .startUp s = .next (startUp s)) ∧
    (∀ (psel : Fin 4) (fusesOk : Bool) (aonOk : Bool), dark s = false → gx START_STAT.PHASE 0 s = 0 → exec (.aonPhaseDone psel fusesOk aonOk) s = .next ((aonDone psel.val fusesOk aonOk) s)) ∧
    (dark s = false → gx START_STAT.PHASE 0 s = 1 → exec .powerPhaseDone s = .next (powerDone s)) ∧
    (∀ (failedDies : List Die) (failedSites : List Site) (failedCores : List Core) (failedRows : List (Die × Nat × Nat)), dark s = false → gx START_STAT.PHASE 0 s = 2 → exec (.selftestPhaseDone failedDies failedSites failedCores failedRows) s = .next ((selftestDone (inAscent (failedDies.map (·.val))) (inAscent (failedSites.map (·.val))) (inAscent (failedCores.map (·.val))) (failedRows.map fun r => (r.1.val, r.2.1, r.2.2))) s)) ∧
    (dark s = false → gx START_STAT.PHASE 0 s = 3 → exec .bootPhaseDone s = .next (bootDone s)) ∧
    (dark s = false → gx START_STAT.PHASE 0 s = 4 → exec .profilePhaseDone s = .next (profileDone s)) ∧
    (∀ (die : LDie) (cluster : Fin 9), halted s = false → exec (.lunaCocoonEntry die cluster) s = .next ((lunaCocoon die.val cluster.val) s)) ∧
    (∀ (dom : Fin 167), halted s = false → exec (.cocoonWakeDone dom) s = .next ((wakeDone dom.val) s)) ∧
    (∀ (raw : Int), halted s = false → exec (.dvfsVoltageReached raw) s = .next ((voltageReached raw) s)) ∧
    (halted s = false → exec .dvfsTimeout s = .next (voltageTimeout s)) ∧
    (∀ (demand : Nat), dark s = false → exec (.governorTick demand) s = .next ((fun (s : State) => if gx START_STAT.PHASE 0 s < 3 then s else governor demand s) s)) ∧
    (∀ (sensor : Fin 134) (raw : Int), halted s = false → exec (.thermalWarn sensor raw) s = .next ((thermWarn sensor.val raw) s)) ∧
    (∀ (sensor : Fin 134) (raw : Int), dark s = false → exec (.thermalTrip sensor raw) s = .next ((thermTrip sensor.val raw) s)) ∧
    (∀ (fault : Bool) (alert : Bool) (pps0 : Bool) (pps1 : Bool) (i3c : Bool), halted s = false → exec (.pinReadback fault alert pps0 pps1 i3c) s = .next ((readback fault alert pps0 pps1 i3c) s))

/-- Table 9-9, OP 0x01 to 0x08 (R209): the scalar operations, each with its whole next state. -/
def Obligations.LunaScalarArithmetic : Prop :=
  (∀ (c : Core) (d a b : SReg) (s : State) (r : Run),
    (Issues c (.add c d a b) s r →
      exec (.add c d a b) s = .next (retire r (sPut r.x d (sGet r.x a + sGet r.x b)) s)) ∧
    (Issues c (.sub c d a b) s r →
      exec (.sub c d a b) s = .next (retire r (sPut r.x d (sGet r.x a - sGet r.x b)) s)) ∧
    (Issues c (.andd c d a b) s r →
      exec (.andd c d a b) s = .next (retire r (sPut r.x d (sGet r.x a &&& sGet r.x b)) s)) ∧
    (Issues c (.orr c d a b) s r →
      exec (.orr c d a b) s = .next (retire r (sPut r.x d (sGet r.x a ||| sGet r.x b)) s)) ∧
    (Issues c (.xorr c d a b) s r →
      exec (.xorr c d a b) s = .next (retire r (sPut r.x d (sGet r.x a ^^^ sGet r.x b)) s)) ∧
    (Issues c (.shl c d a b) s r →
      exec (.shl c d a b) s = .next (retire r (sPut r.x d (sGet r.x a <<< ((sGet r.x b).toNat % 64))) s)) ∧
    (Issues c (.shr c d a b) s r →
      exec (.shr c d a b) s = .next (retire r (sPut r.x d (sGet r.x a >>> ((sGet r.x b).toNat % 64))) s)) ∧
    (Issues c (.sar c d a b) s r →
      exec (.sar c d a b) s = .next (retire r (sPut r.x d ((sGet r.x a).sshiftRight ((sGet r.x b).toNat % 64))) s)) ∧
    (Issues c (.mul c d a b) s r →
      exec (.mul c d a b) s = .next (retire r (sPut r.x d (sGet r.x a * sGet r.x b)) s)) ∧
    (Issues c (.slt c d a b) s r →
      exec (.slt c d a b) s = .next (retire r (sPut r.x d (if (sGet r.x a).toInt < (sGet r.x b).toInt then 1 else 0)) s)) ∧
    (Issues c (.sltu c d a b) s r →
      exec (.sltu c d a b) s = .next (retire r (sPut r.x d (if (sGet r.x a).toNat < (sGet r.x b).toNat then 1 else 0)) s)) ∧
    (Issues c (.seqq c d a b) s r →
      exec (.seqq c d a b) s = .next (retire r (sPut r.x d (if sGet r.x a = sGet r.x b then 1 else 0)) s)) ∧
    (Issues c (.smin c d a b) s r →
      exec (.smin c d a b) s = .next (retire r (sPut r.x d (if (sGet r.x a).toInt < (sGet r.x b).toInt then sGet r.x a else sGet r.x b)) s)) ∧
    (Issues c (.smax c d a b) s r →
      exec (.smax c d a b) s = .next (retire r (sPut r.x d (if (sGet r.x a).toInt < (sGet r.x b).toInt then sGet r.x b else sGet r.x a)) s))) ∧
    (∀ (c : Core) (d a : SReg) (s : State) (r : Run),
    (∀ imm : Imm, Issues c (.addi c d a imm) s r →
      exec (.addi c d a imm) s = .next (retire r (sPut r.x d (sGet r.x a + imm.signExtend 64)) s)) ∧
    (∀ imm : Imm, Issues c (.andi c d a imm) s r →
      exec (.andi c d a imm) s = .next (retire r (sPut r.x d (sGet r.x a &&& imm.zeroExtend 64)) s)) ∧
    (∀ imm : Imm, Issues c (.ori c d a imm) s r →
      exec (.ori c d a imm) s = .next (retire r (sPut r.x d (sGet r.x a ||| imm.zeroExtend 64)) s)) ∧
    (∀ imm : Imm, Issues c (.lsh c d a imm) s r →
      exec (.lsh c d a imm) s = .next (retire r (sPut r.x d ((sGet r.x a <<< 16) ||| imm.zeroExtend 64)) s)) ∧
    (∀ n : Fin 64, Issues c (.shli c d a n) s r →
      exec (.shli c d a n) s = .next (retire r (sPut r.x d (sGet r.x a <<< n.val)) s)) ∧
    (∀ n : Fin 64, Issues c (.shri c d a n) s r →
      exec (.shri c d a n) s = .next (retire r (sPut r.x d (sGet r.x a >>> n.val)) s)) ∧
    (∀ imm : Imm, Issues c (.li c d imm) s r → exec (.li c d imm) s = .next (retire r (sPut r.x d (imm.signExtend 64)) s)))

/-- Table 9-9, OP 0x10 to 0x18 (R209). That ret on an empty stack goes to word 0 is the model's reading of R202. -/
def Obligations.LunaBranches : Prop :=
  ∀ (c : Core) (off : Imm) (s : State) (r : Run),
    (∀ a b : SReg, Issues c (.beq c a b off) s r → exec (.beq c a b off) s =
      .next (if sGet r.x a = sGet r.x b then jumpTo r (target r.x.pc off) r.x s else retire r r.x s)) ∧
    (∀ a b : SReg, Issues c (.bne c a b off) s r → exec (.bne c a b off) s =
      .next (if sGet r.x a ≠ sGet r.x b then jumpTo r (target r.x.pc off) r.x s else retire r r.x s)) ∧
    (∀ a b : SReg, Issues c (.blt c a b off) s r → exec (.blt c a b off) s =
      .next (if (sGet r.x a).toInt < (sGet r.x b).toInt then jumpTo r (target r.x.pc off) r.x s else retire r r.x s)) ∧
    (∀ a b : SReg, Issues c (.bltu c a b off) s r → exec (.bltu c a b off) s =
      .next (if (sGet r.x a).toNat < (sGet r.x b).toNat then jumpTo r (target r.x.pc off) r.x s else retire r r.x s)) ∧
    (∀ a : PReg, Issues c (.bany c a off) s r → exec (.bany c a off) s =
      .next (if pGet r.x a ≠ 0 then jumpTo r (target r.x.pc off) r.x s else retire r r.x s)) ∧
    (∀ a : PReg, Issues c (.bnone c a off) s r → exec (.bnone c a off) s =
      .next (if pGet r.x a = 0 then jumpTo r (target r.x.pc off) r.x s else retire r r.x s)) ∧
    (Issues c (.jmp c off) s r → exec (.jmp c off) s = .next (jumpTo r (target r.x.pc off) r.x s)) ∧
    (Issues c (.call c off) s r → exec (.call c off) s =
      .next (jumpTo r (target r.x.pc off) { r.x with ret := ((r.x.pc + 1) :: r.x.ret).take 8 } s)) ∧
    (Issues c (.ret c) s r → exec (.ret c) s = .next (jumpTo r ((r.x.ret.head?).getD 0) { r.x with ret := r.x.ret.tail } s)) ∧
    (∀ pc : Nat, target pc off = ((pc : Int) + 1 + off.toInt).toNat)

/-- Table 9-10, and bitm of Table 9-9 (R209). -/
def Obligations.LunaPredicates : Prop :=
  ∀ (c : Core) (s : State) (r : Run),
    (∀ d a b : PReg, Issues c (.pand c d a b) s r →
      exec (.pand c d a b) s = .next (retire r (pPut r.x d (pGet r.x a &&& pGet r.x b)) s)) ∧
    (∀ d a b : PReg, Issues c (.por c d a b) s r →
      exec (.por c d a b) s = .next (retire r (pPut r.x d (pGet r.x a ||| pGet r.x b)) s)) ∧
    (∀ d a b : PReg, Issues c (.pxor c d a b) s r →
      exec (.pxor c d a b) s = .next (retire r (pPut r.x d (pGet r.x a ^^^ pGet r.x b)) s)) ∧
    (∀ d a b : PReg, Issues c (.pandn c d a b) s r →
      exec (.pandn c d a b) s = .next (retire r (pPut r.x d (pGet r.x a &&& ~~~(pGet r.x b))) s)) ∧
    (∀ (d : PReg) (a : SReg), Issues c (.pmov c d a) s r → exec (.pmov c d a) s = .next (retire r (pPut r.x d (sGet r.x a)) s)) ∧
    (∀ (d : SReg) (a : PReg), Issues c (.pget c d a) s r → exec (.pget c d a) s = .next (retire r (sPut r.x d (pGet r.x a)) s)) ∧
    (∀ (d : PReg) (a : SReg), Issues c (.pfirst c d a) s r → ∃ v : Word,
      exec (.pfirst c d a) s = .next (retire r (pPut r.x d v) s) ∧ ∀ i < 64, v.getLsbD i = decide (i < (sGet r.x a).toNat)) ∧
    (∀ (d : SReg) (a : PReg), Issues c (.pcnt c d a) s r → exec (.pcnt c d a) s =
      .next (retire r (sPut r.x d (BitVec.ofNat 64 ((List.range 64).countP fun i => (pGet r.x a).getLsbD i))) s)) ∧
    (∀ (d a : SReg), Issues c (.bitm c d a) s r → exec (.bitm c d a) s =
      .next (retire r (sPut r.x d (if (sGet r.x a).toNat < gx LUNA_CTX.NSRC r.c.id.comm s ∧ (sGet r.x a).toNat ∈ r.c.bitmap then 1 else 0)) s))

/-- Tables 9-6 and 9-9 (R205, R209, R215). -/
def Obligations.LunaLoadsAndStores : Prop :=
  ∀ (c : Core) (d a : SReg) (v : VReg) (imm : Imm) (s : State) (r : Run),
    (Issues c (.ld c d a imm .clean) s r → exec (.ld c d a imm .clean) s =
      .next (if memOk r (addrOf r a imm) 8 8 false then
          retire r (sPut r.x d (BitVec.ofNat 64 (ofLE (memRead r.x (addrOf r a imm) 8)))) s
        else progFault c.val excBounds s)) ∧
    (Issues c (.ldw c d a imm .clean) s r → exec (.ldw c d a imm .clean) s =
      .next (if memOk r (addrOf r a imm) 4 4 false then
          retire r (sPut r.x d (BitVec.ofNat 64 (ofLE (memRead r.x (addrOf r a imm) 4)))) s
        else progFault c.val excBounds s)) ∧
    (Issues c (.vld c v a imm .clean) s r → exec (.vld c v a imm .clean) s =
      .next (if memOk r (addrOf r a imm) 64 64 false then
          retire r (vPut r.x v (BitVec.ofNat 512 (ofLE (memRead r.x (addrOf r a imm) 64)))) s
        else progFault c.val excBounds s)) ∧
    (Issues c (.st c d a imm) s r → exec (.st c d a imm) s =
      .next (if memOk r (addrOf r a imm) 8 8 true then
          retire r (r.x.write (addrOf r a imm) (toLE 8 (sGet r.x d).toNat)) s
        else progFault c.val excBounds s)) ∧
    (Issues c (.stw c d a imm) s r → exec (.stw c d a imm) s =
      .next (if memOk r (addrOf r a imm) 4 4 true then
          retire r (r.x.write (addrOf r a imm) (toLE 4 (sGet r.x d).toNat)) s
        else progFault c.val excBounds s)) ∧
    (Issues c (.vst c v a imm) s r → exec (.vst c v a imm) s =
      .next (if memOk r (addrOf r a imm) 64 64 true then
          retire r (r.x.write (addrOf r a imm) (toLE 64 (vGet r.x v).toNat)) s
        else progFault c.val excBounds s)) ∧
    (Issues c (.ldc c d a imm) s r → ∀ p : LImage, progOf r.d r.t.id.comm s = some p → exec (.ldc c d a imm) s =
      .next (if addrOf r a imm % 8 = 0 ∧ addrOf r a imm + 8 ≤ imgFld p 16 4 then
          retire r (sPut r.x d (BitVec.ofNat 64 (ofLE ((p.bytes.drop (constStart p + addrOf r a imm)).take 8)))) s
        else progFault c.val excBounds s)) ∧
    (Issues c (.vldc c v a imm) s r → ∀ p : LImage, progOf r.d r.t.id.comm s = some p → exec (.vldc c v a imm) s =
      .next (if addrOf r a imm % 64 = 0 ∧ addrOf r a imm + 64 ≤ imgFld p 16 4 then
          retire r (vPut r.x v (BitVec.ofNat 512 (ofLE ((p.bytes.drop (constStart p + addrOf r a imm)).take 64)))) s
        else progFault c.val excBounds s))

/-- The write that st, stw and vst perform (R205), byte by byte. -/
def Obligations.LunaStoreChangesItsBytesAlone : Prop :=
  ∀ (x : LCore) (a n : Nat) (bs : List Byte),
    (∀ k, (hk : k < bs.length) → memRead (x.write a bs) (a + k) 1 = [bs[k]]) ∧
    (∀ b, (b < a ∨ a + bs.length ≤ b) → memRead (x.write a bs) b 1 = memRead x b 1) ∧
    (∀ k v, n = k → bs = toLE n v → v < 256 ^ k → ofLE (memRead (x.write a bs) a n) = v) ∧
    (x.write a bs).sregs = x.sregs ∧ (x.write a bs).vregs = x.vregs ∧ (x.write a bs).pregs = x.pregs ∧
    (x.write a bs).views = x.views ∧ (x.write a bs).ret = x.ret ∧ (x.write a bs).pc = x.pc ∧
    (x.write a bs).run = x.run ∧ (x.write a bs).queue = x.queue ∧ (x.write a bs).lanes = x.lanes ∧
    (SMap.wf (fun _ => (0 : Byte)) x.mem = true → SMap.wf (fun _ => (0 : Byte)) (x.write a bs).mem = true)

/-- Table 9-2 (R201): the register files the results of the other statements are written in. -/
def Obligations.LunaRegisterFiles : Prop :=
  (∀ (x : LCore) (d n : SReg) (v : Word), sGet (sPut x d v) n = if n.val ≠ 0 ∧ n = d then v else sGet x n) ∧
    (∀ (x : LCore) (n : SReg), n.val = 0 → sGet x n = 0) ∧
    (∀ (x : LCore) (v : Word) (d : SReg), d.val = 0 → sPut x d v = x) ∧
    (∀ (x : LCore) (d n : PReg) (v : Word), pGet (pPut x d v) n = if n.val ≠ 0 ∧ n = d then v else pGet x n) ∧
    (∀ (x : LCore) (n : PReg), n.val = 0 → pGet x n = BitVec.allOnes 64) ∧
    (∀ (x : LCore) (v : Word) (d : PReg), d.val = 0 → pPut x d v = x) ∧
    (∀ (x : LCore) (d n : VReg) (v : BitVec 512), vGet (vPut x d v) n = if n = d then v else vGet x n) ∧
    (∀ (x : LCore) (d n : AReg) (v : View), aGet (aPut x d v) n = if n = d then v else aGet x n) ∧
    (∀ (x : LCore) (d : SReg) (v : Word), { sPut x d v with sregs := x.sregs } = x) ∧
    (∀ (x : LCore) (d : PReg) (v : Word), { pPut x d v with pregs := x.pregs } = x) ∧
    (∀ (x : LCore) (d : VReg) (v : BitVec 512), { vPut x d v with vregs := x.vregs } = x) ∧
    (∀ (r : Run) (x : LCore) (s : State), lcore r.core.val (retire r x s) = { x with pc := r.x.pc + 1 } ∧
      (∀ k, k ≠ r.core.val → lcore k (retire r x s) = lcore k s) ∧
      { retire r x s with cores := s.cores } = s)

/-- Table 9-11, OP 0x23 (R210). -/
def Obligations.LunaVectorLanes : Prop :=
  ∀ (c : Core) (t : ElemT) (d a b : VReg) (p : PReg) (s : State) (r : Run),
    (t.arith = true → Issues c (.vadd c t d a b p) s r → ∃ v : BitVec 512,
      exec (.vadd c t d a b p) s = .next (retire r (vPut r.x d v) s) ∧
      ∀ i < t.lanes, laneGet t.size v i =
        if (pGet r.x p).getLsbD i then
          (let w := 8 * t.size; let x := laneGet t.size (vGet r.x a) i; let y := laneGet t.size (vGet r.x b) i
           (if t.isInt then unsigned w (signed w x + signed w y)
            else encodeIeee t.code (addVal (decodeLane t.code x) (decodeLane t.code y))) % 2 ^ w)
        else laneGet t.size (vGet r.x d) i) ∧
    (t.arith = true → Issues c (.vsub c t d a b p) s r → ∃ v : BitVec 512,
      exec (.vsub c t d a b p) s = .next (retire r (vPut r.x d v) s) ∧
      ∀ i < t.lanes, laneGet t.size v i =
        if (pGet r.x p).getLsbD i then
          (let w := 8 * t.size; let x := laneGet t.size (vGet r.x a) i; let y := laneGet t.size (vGet r.x b) i
           (if t.isInt then unsigned w (signed w x - signed w y)
            else encodeIeee t.code (subVal (decodeLane t.code x) (decodeLane t.code y))) % 2 ^ w)
        else laneGet t.size (vGet r.x d) i) ∧
    (t.arith = true → Issues c (.vmax c t d a b p) s r → ∃ v : BitVec 512,
      exec (.vmax c t d a b p) s = .next (retire r (vPut r.x d v) s) ∧
      ∀ i < t.lanes, laneGet t.size v i =
        if (pGet r.x p).getLsbD i then
          (let w := 8 * t.size; let x := laneGet t.size (vGet r.x a) i; let y := laneGet t.size (vGet r.x b) i
           (if t.isInt then unsigned w (max (signed w x) (signed w y))
            else encodeIeee t.code (maxVal (decodeLane t.code x) (decodeLane t.code y))) % 2 ^ w)
        else laneGet t.size (vGet r.x d) i) ∧
    (t.arith = true → Issues c (.vmin c t d a b p) s r → ∃ v : BitVec 512,
      exec (.vmin c t d a b p) s = .next (retire r (vPut r.x d v) s) ∧
      ∀ i < t.lanes, laneGet t.size v i =
        if (pGet r.x p).getLsbD i then
          (let w := 8 * t.size; let x := laneGet t.size (vGet r.x a) i; let y := laneGet t.size (vGet r.x b) i
           (if t.isInt then unsigned w (min (signed w x) (signed w y))
            else encodeIeee t.code (minVal (decodeLane t.code x) (decodeLane t.code y))) % 2 ^ w)
        else laneGet t.size (vGet r.x d) i) ∧
    (Issues c (.vand c t d a b p) s r → ∃ v : BitVec 512,
      exec (.vand c t d a b p) s = .next (retire r (vPut r.x d v) s) ∧
      ∀ i < t.lanes, laneGet t.size v i =
        if (pGet r.x p).getLsbD i then (laneGet t.size (vGet r.x a) i) &&& (laneGet t.size (vGet r.x b) i) else laneGet t.size (vGet r.x d) i) ∧
    (Issues c (.vor c t d a b p) s r → ∃ v : BitVec 512,
      exec (.vor c t d a b p) s = .next (retire r (vPut r.x d v) s) ∧
      ∀ i < t.lanes, laneGet t.size v i =
        if (pGet r.x p).getLsbD i then (laneGet t.size (vGet r.x a) i) ||| (laneGet t.size (vGet r.x b) i) else laneGet t.size (vGet r.x d) i) ∧
    (Issues c (.vxor c t d a b p) s r → ∃ v : BitVec 512,
      exec (.vxor c t d a b p) s = .next (retire r (vPut r.x d v) s) ∧
      ∀ i < t.lanes, laneGet t.size v i =
        if (pGet r.x p).getLsbD i then (laneGet t.size (vGet r.x a) i) ^^^ (laneGet t.size (vGet r.x b) i) else laneGet t.size (vGet r.x d) i) ∧
    (Issues c (.vsel c t d a b p) s r → ∃ v : BitVec 512,
      exec (.vsel c t d a b p) s = .next (retire r (vPut r.x d v) s) ∧
      ∀ i < t.lanes, laneGet t.size v i = if (pGet r.x p).getLsbD i then (laneGet t.size (vGet r.x a) i) else (laneGet t.size (vGet r.x b) i))

/-- Table 9-11, OP 0x24, 0x25, 0x27 (R209, R210). -/
def Obligations.LunaCompareSplatConvert : Prop :=
  ∀ (c : Core) (t : ElemT) (p : PReg) (s : State) (r : Run),
    (∀ (d : PReg) (a b : VReg), Issues c (.vcmpEq c t d a b p) s r → t ≠ .raw → ∃ v : Word,
      exec (.vcmpEq c t d a b p) s = .next (retire r (pPut r.x d v) s) ∧
      (∀ i < 64, v.getLsbD i = (decide (i < t.lanes) && (pGet r.x p).getLsbD i &&
        Cmp.holds .eq t (laneGet t.size (vGet r.x a) i) (laneGet t.size (vGet r.x b) i)))) ∧
    (∀ (d : PReg) (a b : VReg), Issues c (.vcmpLt c t d a b p) s r → t ≠ .raw → ∃ v : Word,
      exec (.vcmpLt c t d a b p) s = .next (retire r (pPut r.x d v) s) ∧
      (∀ i < 64, v.getLsbD i = (decide (i < t.lanes) && (pGet r.x p).getLsbD i &&
        Cmp.holds .lt t (laneGet t.size (vGet r.x a) i) (laneGet t.size (vGet r.x b) i)))) ∧
    (∀ (d : PReg) (a b : VReg), Issues c (.vcmpLe c t d a b p) s r → t ≠ .raw → ∃ v : Word,
      exec (.vcmpLe c t d a b p) s = .next (retire r (pPut r.x d v) s) ∧
      (∀ i < 64, v.getLsbD i = (decide (i < t.lanes) && (pGet r.x p).getLsbD i &&
        Cmp.holds .le t (laneGet t.size (vGet r.x a) i) (laneGet t.size (vGet r.x b) i)))) ∧
    (∀ (d : PReg) (a b : VReg), Issues c (.vcmpNe c t d a b p) s r → t ≠ .raw → ∃ v : Word,
      exec (.vcmpNe c t d a b p) s = .next (retire r (pPut r.x d v) s) ∧
      (∀ i < 64, v.getLsbD i = (decide (i < t.lanes) && (pGet r.x p).getLsbD i &&
        Cmp.holds .ne t (laneGet t.size (vGet r.x a) i) (laneGet t.size (vGet r.x b) i)))) ∧
    (∀ (d : VReg) (a : SReg), Issues c (.vsplat c t d a) s r → ∃ v : BitVec 512,
      exec (.vsplat c t d a) s = .next (retire r (vPut r.x d v) s) ∧
      ∀ i < t.lanes, laneGet t.size v i = (sGet r.x a).toNat % 2 ^ (8 * t.size)) ∧
    (∀ (d a : VReg) (f : Fin 4), Issues c (.vcvt c t d a f) s r → ∃ v : BitVec 512,
      exec (.vcvt c t d a f) s = .next (retire r (vPut r.x d v) (if t = .raw ∨ t.lanes < 16 * f.val + 16 then draw s else s)) ∧
      ∀ i < 16, t ≠ .raw → 16 * f.val + i < t.lanes →
        laneGet 4 v i = toFp32 (decodeLane t.code (laneGet t.size (vGet r.x a) (16 * f.val + i))) % 2 ^ 32) ∧
    (∀ (d : PReg) (a b : VReg) (i : Instr), t = .raw →
      i ∈ [.vcmpEq c t d a b p, .vcmpLt c t d a b p, .vcmpLe c t d a b p, .vcmpNe c t d a b p] → Issues c i s r →
      ∃ v : Word, exec i s = .next (retire r (pPut r.x d v) (draw s)) ∧
        ∀ k < 64, (pGet r.x p).getLsbD k = false → v.getLsbD k = false) ∧
    (∀ (u w : Nat), t ≠ .raw → (decodeLane t.code u = .nan ∨ decodeLane t.code w = .nan) →
      Cmp.holds .ne t u w = true ∧ Cmp.holds .eq t u w = false ∧ Cmp.holds .lt t u w = false ∧ Cmp.holds .le t u w = false)

/-- R211, the first program of the rule. What a bitwise combination of a lane that is no integer leaves in FIX is the model's free value (log entry 3). -/
def Obligations.LunaAccumulate : Prop :=
  ∀ (c : Core) (t : ElemT) (b : SReg) (p : PReg) (s : State) (r : Run),
    let on := enabledLanes (pGet r.x p) t.lanes
    (∀ (d : AReg) (a : VReg), Issues c (.xadd c t d a b p .clean) s r → exec (.xadd c t d a b p .clean) s =
      .next (if t.code ≠ r.c.fmt then progFault c.val excType s
        else if viewsParts (aGet r.x d) = false then progFault c.val excBounds s
        else match entries (partEntry r (aGet r.x d)) (on.map fun i => (sGet r.x b).toNat + i) with
          | none => progFault c.val excBounds s
          | some es =>
            let y := (on.zip es).foldl (fun acc e => partStep r e.2
              (xCombine .add t (laneGet t.size (vGet r.x a) e.1) (bits (freeVal s) (318 * e.1) 318)) acc) (r.c, 0)
            accSat r y.2 (retireChunk r y.1 r.x (if XOp.bitwise .add && !t.isInt then draw s else s)))) ∧
    (∀ (d : AReg) (a : VReg), Issues c (.xsub c t d a b p .clean) s r → exec (.xsub c t d a b p .clean) s =
      .next (if t.code ≠ r.c.fmt then progFault c.val excType s
        else if viewsParts (aGet r.x d) = false then progFault c.val excBounds s
        else match entries (partEntry r (aGet r.x d)) (on.map fun i => (sGet r.x b).toNat + i) with
          | none => progFault c.val excBounds s
          | some es =>
            let y := (on.zip es).foldl (fun acc e => partStep r e.2
              (xCombine .sub t (laneGet t.size (vGet r.x a) e.1) (bits (freeVal s) (318 * e.1) 318)) acc) (r.c, 0)
            accSat r y.2 (retireChunk r y.1 r.x (if XOp.bitwise .sub && !t.isInt then draw s else s)))) ∧
    (∀ (d : AReg) (a : VReg), Issues c (.xmax c t d a b p .clean) s r → exec (.xmax c t d a b p .clean) s =
      .next (if t.code ≠ r.c.fmt then progFault c.val excType s
        else if viewsParts (aGet r.x d) = false then progFault c.val excBounds s
        else match entries (partEntry r (aGet r.x d)) (on.map fun i => (sGet r.x b).toNat + i) with
          | none => progFault c.val excBounds s
          | some es =>
            let y := (on.zip es).foldl (fun acc e => partStep r e.2
              (xCombine .max t (laneGet t.size (vGet r.x a) e.1) (bits (freeVal s) (318 * e.1) 318)) acc) (r.c, 0)
            accSat r y.2 (retireChunk r y.1 r.x (if XOp.bitwise .max && !t.isInt then draw s else s)))) ∧
    (∀ (d : AReg) (a : VReg), Issues c (.xmin c t d a b p .clean) s r → exec (.xmin c t d a b p .clean) s =
      .next (if t.code ≠ r.c.fmt then progFault c.val excType s
        else if viewsParts (aGet r.x d) = false then progFault c.val excBounds s
        else match entries (partEntry r (aGet r.x d)) (on.map fun i => (sGet r.x b).toNat + i) with
          | none => progFault c.val excBounds s
          | some es =>
            let y := (on.zip es).foldl (fun acc e => partStep r e.2
              (xCombine .min t (laneGet t.size (vGet r.x a) e.1) (bits (freeVal s) (318 * e.1) 318)) acc) (r.c, 0)
            accSat r y.2 (retireChunk r y.1 r.x (if XOp.bitwise .min && !t.isInt then draw s else s)))) ∧
    (∀ (d : AReg) (a : VReg), Issues c (.xand c t d a b p .clean) s r → exec (.xand c t d a b p .clean) s =
      .next (if t.code ≠ r.c.fmt then progFault c.val excType s
        else if viewsParts (aGet r.x d) = false then progFault c.val excBounds s
        else match entries (partEntry r (aGet r.x d)) (on.map fun i => (sGet r.x b).toNat + i) with
          | none => progFault c.val excBounds s
          | some es =>
            let y := (on.zip es).foldl (fun acc e => partStep r e.2
              (xCombine .and t (laneGet t.size (vGet r.x a) e.1) (bits (freeVal s) (318 * e.1) 318)) acc) (r.c, 0)
            accSat r y.2 (retireChunk r y.1 r.x (if XOp.bitwise .and && !t.isInt then draw s else s)))) ∧
    (∀ (d : AReg) (a : VReg), Issues c (.xior c t d a b p .clean) s r → exec (.xior c t d a b p .clean) s =
      .next (if t.code ≠ r.c.fmt then progFault c.val excType s
        else if viewsParts (aGet r.x d) = false then progFault c.val excBounds s
        else match entries (partEntry r (aGet r.x d)) (on.map fun i => (sGet r.x b).toNat + i) with
          | none => progFault c.val excBounds s
          | some es =>
            let y := (on.zip es).foldl (fun acc e => partStep r e.2
              (xCombine .or t (laneGet t.size (vGet r.x a) e.1) (bits (freeVal s) (318 * e.1) 318)) acc) (r.c, 0)
            accSat r y.2 (retireChunk r y.1 r.x (if XOp.bitwise .or && !t.isInt then draw s else s)))) ∧
    (∀ (d : AReg) (a : VReg), Issues c (.xxor c t d a b p .clean) s r → exec (.xxor c t d a b p .clean) s =
      .next (if t.code ≠ r.c.fmt then progFault c.val excType s
        else if viewsParts (aGet r.x d) = false then progFault c.val excBounds s
        else match entries (partEntry r (aGet r.x d)) (on.map fun i => (sGet r.x b).toNat + i) with
          | none => progFault c.val excBounds s
          | some es =>
            let y := (on.zip es).foldl (fun acc e => partStep r e.2
              (xCombine .xor t (laneGet t.size (vGet r.x a) e.1) (bits (freeVal s) (318 * e.1) 318)) acc) (r.c, 0)
            accSat r y.2 (retireChunk r y.1 r.x (if XOp.bitwise .xor && !t.isInt then draw s else s)))) ∧
    (∀ (d : AReg) (a : VReg), Issues c (.xset c t d a b p) s r → exec (.xset c t d a b p) s =
      .next (if t.code ≠ r.c.fmt then progFault c.val excType s
        else if viewsParts (aGet r.x d) = false then progFault c.val excBounds s
        else match entries (partEntry r (aGet r.x d)) (on.map fun i => (sGet r.x b).toNat + i) with
          | none => progFault c.val excBounds s
          | some es =>
            let y := (on.zip es).foldl (fun acc e => partStep r e.2
              (xCombine .set t (laneGet t.size (vGet r.x a) e.1) (bits (freeVal s) (318 * e.1) 318)) acc) (r.c, 0)
            accSat r y.2 (retireChunk r y.1 r.x (if XOp.bitwise .set && !t.isInt then draw s else s))))

/-- Tables 9-11 and 9-12 (R209, R211). That aoff at an entry equal to the count ends with BOUNDS is the model's reading. -/
def Obligations.LunaIdentitiesWideAndViews : Prop :=
  ∀ (c : Core) (d : AReg) (a b : SReg) (s : State) (r : Run),
    let n := (sGet r.x a).toNat
    let k := (sGet r.x b).toNat
    (Issues c (.xidSum c d a b) s r → exec (.xidSum c d a b) s =
      .next (if viewsParts (aGet r.x d) = false ∨ (0 < n ∧ viewCount r (aGet r.x d) < k + n) then progFault c.val excBounds s
        else match entries (partEntry r (aGet r.x d)) ((List.range n).map fun i => k + i) with
          | none => progFault c.val excBounds s
          | some es => retireChunk r (es.foldl (fun ch e => partPut r e (partialId 0) ch) r.c) r.x s)) ∧
    (Issues c (.xidMax c d a b) s r → exec (.xidMax c d a b) s =
      .next (if viewsParts (aGet r.x d) = false ∨ (0 < n ∧ viewCount r (aGet r.x d) < k + n) then progFault c.val excBounds s
        else match entries (partEntry r (aGet r.x d)) ((List.range n).map fun i => k + i) with
          | none => progFault c.val excBounds s
          | some es => retireChunk r (es.foldl (fun ch e => partPut r e (partialId 1) ch) r.c) r.x s)) ∧
    (Issues c (.xidMin c d a b) s r → exec (.xidMin c d a b) s =
      .next (if viewsParts (aGet r.x d) = false ∨ (0 < n ∧ viewCount r (aGet r.x d) < k + n) then progFault c.val excBounds s
        else match entries (partEntry r (aGet r.x d)) ((List.range n).map fun i => k + i) with
          | none => progFault c.val excBounds s
          | some es => retireChunk r (es.foldl (fun ch e => partPut r e (partialId 2) ch) r.c) r.x s)) ∧
    (Issues c (.xidAnd c d a b) s r → exec (.xidAnd c d a b) s =
      .next (if viewsParts (aGet r.x d) = false ∨ (0 < n ∧ viewCount r (aGet r.x d) < k + n) then progFault c.val excBounds s
        else match entries (partEntry r (aGet r.x d)) ((List.range n).map fun i => k + i) with
          | none => progFault c.val excBounds s
          | some es => retireChunk r (es.foldl (fun ch e => partPut r e (partialId 3) ch) r.c) r.x s)) ∧
    (Issues c (.xidOr c d a b) s r → exec (.xidOr c d a b) s =
      .next (if viewsParts (aGet r.x d) = false ∨ (0 < n ∧ viewCount r (aGet r.x d) < k + n) then progFault c.val excBounds s
        else match entries (partEntry r (aGet r.x d)) ((List.range n).map fun i => k + i) with
          | none => progFault c.val excBounds s
          | some es => retireChunk r (es.foldl (fun ch e => partPut r e (partialId 4) ch) r.c) r.x s)) ∧
    (Issues c (.xidXor c d a b) s r → exec (.xidXor c d a b) s =
      .next (if viewsParts (aGet r.x d) = false ∨ (0 < n ∧ viewCount r (aGet r.x d) < k + n) then progFault c.val excBounds s
        else match entries (partEntry r (aGet r.x d)) ((List.range n).map fun i => k + i) with
          | none => progFault c.val excBounds s
          | some es => retireChunk r (es.foldl (fun ch e => partPut r e (partialId 5) ch) r.c) r.x s)) ∧
    (Issues c (.xidCopy c d a b) s r → exec (.xidCopy c d a b) s =
      .next (if viewsParts (aGet r.x d) = false ∨ (0 < n ∧ viewCount r (aGet r.x d) < k + n) then progFault c.val excBounds s
        else match entries (partEntry r (aGet r.x d)) ((List.range n).map fun i => k + i) with
          | none => progFault c.val excBounds s
          | some es => retireChunk r (es.foldl (fun ch e => partPut r e (partialId 7) ch) r.c) r.x s)) ∧
    (Issues c (.xaddw c d a b .clean) s r → exec (.xaddw c d a b .clean) s =
      .next (if viewsParts (aGet r.x d) = false ∨ viewCount r (aGet r.x d) < k ∨
            ¬(r.t.holdAt ≤ n ∧ n + 44 * k ≤ r.t.holdAt + r.t.holdLen) then progFault c.val excBounds s
        else match entries (partEntry r (aGet r.x d)) (List.range k) with
          | none => progFault c.val excBounds s
          | some es =>
            let y := es.zipIdx.foldl (fun acc e => partStep r e.1
              (fun q => q.add (widePartial (memRead r.x n (44 * k)) e.2)) acc) (r.c, 0)
            accSat r y.2 (retireChunk r y.1 r.x s))) ∧
    (Issues c (.xsubw c d a b .clean) s r → exec (.xsubw c d a b .clean) s =
      .next (if viewsParts (aGet r.x d) = false ∨ viewCount r (aGet r.x d) < k ∨
            ¬(r.t.holdAt ≤ n ∧ n + 44 * k ≤ r.t.holdAt + r.t.holdLen) then progFault c.val excBounds s
        else match entries (partEntry r (aGet r.x d)) (List.range k) with
          | none => progFault c.val excBounds s
          | some es =>
            let y := es.zipIdx.foldl (fun acc e => partStep r e.1
              (fun q => q.sub (widePartial (memRead r.x n (44 * k)) e.2)) acc) (r.c, 0)
            accSat r y.2 (retireChunk r y.1 r.x s))) ∧
    (∀ e : AReg, Issues c (.aoff c d e b) s r → exec (.aoff c d e b) s =
      .next (if viewCount r (aGet r.x e) ≤ k then progFault c.val excBounds s
        else retire r (aPut r.x d (narrow (aGet r.x e) k)) s)) ∧
    (∀ (v : VReg) (e : AReg), Issues c (.vlda c v e b .clean) s r → exec (.vlda c v e b .clean) s =
      .next (match entries (accEntry r (aGet r.x e)) ((List.range 16).map fun i => k + i) with
        | none => progFault c.val excBounds s
        | some es => retire r (vPut r.x v (packLanes 4 fun i => accGet r r.c (nth es i))) s)) ∧
    (∀ (v : VReg) (e : AReg) (p : PReg), Issues c (.vsta c v e b p) s r → exec (.vsta c v e b p) s =
      .next (let on := enabledLanes (pGet r.x p) 16
        if aGet r.x e = .unbound then progFault c.val excBounds s
        else match entries (accEntry r (aGet r.x e)) (on.map fun i => k + i) with
          | none => progFault c.val excBounds s
          | some es => retireChunk r ((on.zip es).foldl (fun ch x => accPut r x.2 (laneGet 4 (vGet r.x v) x.1) ch) r.c) r.x s))

/-- R211 with Table 8-5 (R180), one lane and one partial at a time. -/
def Obligations.LanesCombineIntoPartials : Prop :=
  (∀ (p : Partial) (t : ElemT) (x fr : Nat), let v := decodeLane t.code x
      xCombine .add t x fr p = p.add (Partial.ofVal v) ∧ xCombine .sub t x fr p = p.sub (Partial.ofVal v) ∧
      xCombine .set t x fr p = (Partial.ofVal v, false) ∧
      (∀ (neg : Bool) (m : Nat), v = .fin neg m → xCombine .max t x fr p =
        ({ p with fix := max p.fix v.toInt, nan := min 4095 p.nan, pinf := min 2047 p.pinf, ninf := min 2047 p.ninf }, false)) ∧
      (∀ (neg : Bool) (m : Nat), v = .fin neg m → xCombine .min t x fr p =
        ({ p with fix := min p.fix v.toInt, nan := min 4095 p.nan, pinf := min 2047 p.pinf, ninf := min 2047 p.ninf }, false)) ∧
      (t.isInt = true →
        xCombine .and t x fr p = ({ p with fix := fixBits Nat.land p.fix (signed (8 * t.size) x) }, false) ∧
        xCombine .or t x fr p = ({ p with fix := fixBits Nat.lor p.fix (signed (8 * t.size) x) }, false) ∧
        xCombine .xor t x fr p = ({ p with fix := fixBits Nat.xor p.fix (signed (8 * t.size) x) }, false))) ∧
    (∀ (r : Run) (c : LChunk) (e f : Nat) (p : Partial),
      partGet r (partPut r e p c) f = if f = e then p else partGet r c f) ∧
    (∀ (r : Run) (c : LChunk) (e f v : Nat), accGet r (accPut r e v c) f = if f = e then v else accGet r c f) ∧
    (∀ (r : Run) (c : LChunk) (e : Nat) (p : Partial) (v : Nat),
      (partPut r e p c).id = c.id ∧ (partPut r e p c).bitmap = c.bitmap ∧ (partPut r e p c).stored = c.stored ∧
      (partPut r e p c).acc = c.acc ∧ (partPut r e p c).blocks = c.blocks ∧ (partPut r e p c).fmt = c.fmt ∧
      (accPut r e v c).id = c.id ∧ (accPut r e v c).bitmap = c.bitmap ∧ (accPut r e v c).stored = c.stored ∧
      (accPut r e v c).parts = c.parts ∧ (accPut r e v c).recs = c.recs ∧ (accPut r e v c).fmt = c.fmt)

/-- R211, the third and fourth programs of the rule. Wide stored contributions are merged as partials (log entry 49). -/
def Obligations.LunaSweeps : Prop :=
  ∀ (c : Core) (t : ElemT) (d a : AReg) (b : SReg) (p : PReg) (s : State) (r : Run),
    let on := enabledLanes (pGet r.x p) t.lanes
    let ks := fun l : List Nat => l.map fun i => (sGet r.x b).toNat + i
    (Issues c (.xswpAdd c t d a b p .clean) s r → exec (.xswpAdd c t d a b p .clean) s =
      .next (if t.code ≠ r.c.fmt then progFault c.val excType s
        else if viewsParts (aGet r.x d) = false ∨ aGet r.x a = .unbound then progFault c.val excBounds s
        else match entries (partEntry r (aGet r.x d)) (ks on), entries (storedEntry r (aGet r.x a)) (ks on) with
          | some es, some fs =>
            let y := ((on.zip es).zip fs).foldl (fun acc x => sweepElem r .add false t x.1.2 x.2
              (bits (freeVal s) (318 * x.1.1) 318) acc s) (r.c, 0)
            accSat r y.2 (retireChunk r y.1 r.x s)
          | _, _ => progFault c.val excBounds s)) ∧
    (Issues c (.xswpMax c t d a b p .clean) s r → exec (.xswpMax c t d a b p .clean) s =
      .next (if t.code ≠ r.c.fmt then progFault c.val excType s
        else if viewsParts (aGet r.x d) = false ∨ aGet r.x a = .unbound then progFault c.val excBounds s
        else match entries (partEntry r (aGet r.x d)) (ks on), entries (storedEntry r (aGet r.x a)) (ks on) with
          | some es, some fs =>
            let y := ((on.zip es).zip fs).foldl (fun acc x => sweepElem r .max false t x.1.2 x.2
              (bits (freeVal s) (318 * x.1.1) 318) acc s) (r.c, 0)
            accSat r y.2 (retireChunk r y.1 r.x s)
          | _, _ => progFault c.val excBounds s)) ∧
    (Issues c (.xswpMin c t d a b p .clean) s r → exec (.xswpMin c t d a b p .clean) s =
      .next (if t.code ≠ r.c.fmt then progFault c.val excType s
        else if viewsParts (aGet r.x d) = false ∨ aGet r.x a = .unbound then progFault c.val excBounds s
        else match entries (partEntry r (aGet r.x d)) (ks on), entries (storedEntry r (aGet r.x a)) (ks on) with
          | some es, some fs =>
            let y := ((on.zip es).zip fs).foldl (fun acc x => sweepElem r .min false t x.1.2 x.2
              (bits (freeVal s) (318 * x.1.1) 318) acc s) (r.c, 0)
            accSat r y.2 (retireChunk r y.1 r.x s)
          | _, _ => progFault c.val excBounds s)) ∧
    (Issues c (.xswpAnd c t d a b p .clean) s r → exec (.xswpAnd c t d a b p .clean) s =
      .next (if t.code ≠ r.c.fmt then progFault c.val excType s
        else if viewsParts (aGet r.x d) = false ∨ aGet r.x a = .unbound then progFault c.val excBounds s
        else match entries (partEntry r (aGet r.x d)) (ks on), entries (storedEntry r (aGet r.x a)) (ks on) with
          | some es, some fs =>
            let y := ((on.zip es).zip fs).foldl (fun acc x => sweepElem r .and false t x.1.2 x.2
              (bits (freeVal s) (318 * x.1.1) 318) acc s) (r.c, 0)
            accSat r y.2 (retireChunk r y.1 r.x (if t.isInt then s else draw s))
          | _, _ => progFault c.val excBounds s)) ∧
    (Issues c (.xswpOr c t d a b p .clean) s r → exec (.xswpOr c t d a b p .clean) s =
      .next (if t.code ≠ r.c.fmt then progFault c.val excType s
        else if viewsParts (aGet r.x d) = false ∨ aGet r.x a = .unbound then progFault c.val excBounds s
        else match entries (partEntry r (aGet r.x d)) (ks on), entries (storedEntry r (aGet r.x a)) (ks on) with
          | some es, some fs =>
            let y := ((on.zip es).zip fs).foldl (fun acc x => sweepElem r .or false t x.1.2 x.2
              (bits (freeVal s) (318 * x.1.1) 318) acc s) (r.c, 0)
            accSat r y.2 (retireChunk r y.1 r.x (if t.isInt then s else draw s))
          | _, _ => progFault c.val excBounds s)) ∧
    (Issues c (.xswpXor c t d a b p .clean) s r → exec (.xswpXor c t d a b p .clean) s =
      .next (if t.code ≠ r.c.fmt then progFault c.val excType s
        else if viewsParts (aGet r.x d) = false ∨ aGet r.x a = .unbound then progFault c.val excBounds s
        else match entries (partEntry r (aGet r.x d)) (ks on), entries (storedEntry r (aGet r.x a)) (ks on) with
          | some es, some fs =>
            let y := ((on.zip es).zip fs).foldl (fun acc x => sweepElem r .xor false t x.1.2 x.2
              (bits (freeVal s) (318 * x.1.1) 318) acc s) (r.c, 0)
            accSat r y.2 (retireChunk r y.1 r.x (if t.isInt then s else draw s))
          | _, _ => progFault c.val excBounds s)) ∧
    (Issues c (.xswpCopy c t d a b p .clean) s r → exec (.xswpCopy c t d a b p .clean) s =
      .next (if t.code ≠ r.c.fmt then progFault c.val excType s
        else if viewsParts (aGet r.x d) = false ∨ aGet r.x a = .unbound then progFault c.val excBounds s
        else match entries (partEntry r (aGet r.x d)) (ks on), entries (storedEntry r (aGet r.x a)) (ks on) with
          | some es, some fs =>
            let y := ((on.zip es).zip fs).foldl (fun acc x => sweepElem r .set true t x.1.2 x.2
              (bits (freeVal s) (318 * x.1.1) 318) acc s) (r.c, 0)
            accSat r y.2 (retireChunk r y.1 r.x s)
          | _, _ => progFault c.val excBounds s)) ∧
    (∀ v : VReg, Issues c (.fswp c t v a b p .clean) s r → exec (.fswp c t v a b p .clean) s =
      .next (if t.code ≠ r.c.fmt then progFault c.val excType s
        else if aGet r.x a = .unbound then progFault c.val excBounds s
        else match entries (storedEntry r (aGet r.x a)) (ks (enabledLanes (pGet r.x p) 16)) with
          | none => progFault c.val excBounds s
          | some es =>
            let el := fun i => ((((enabledLanes (pGet r.x p) 16).zip es).find? fun x => x.1 = i).map (·.2)).getD 0
            retire r (vPut r.x v (mergeLanes 4 (vGet r.x v) (fun i => (enabledLanes (pGet r.x p) 16).contains i) fun i =>
              (runSlots r s).foldl (fun acc k => fp32Add acc (toFp32 (decodeLane t.code (storedLane r k (el i))))) 0)) s))

/-- R212, R214. What an integer output takes from a value that is no integer, and the element of a vrnd lane beyond the core order, are the model's free values (log entry 3). -/
def Obligations.LunaRoundAndOutput : Prop :=
  ∀ (c : Core) (t : ElemT) (b : SReg) (p : PReg) (s : State) (r : Run),
    let on := enabledLanes (pGet r.x p) t.lanes
    let on16 := enabledLanes (pGet r.x p) 16
    let ks := fun l : List Nat => l.map fun i => (sGet r.x b).toNat + i
    (∀ (d : VReg) (a : AReg), Issues c (.xrnd c t d a b p .clean) s r → exec (.xrnd c t d a b p .clean) s =
      .next (if t.code ≠ runOut r s then progFault c.val excType s
        else if viewsParts (aGet r.x a) = false then progFault c.val excBounds s
        else match entries (partEntry r (aGet r.x a)) (ks on) with
          | none => progFault c.val excBounds s
          | some es =>
            let el := fun i => (((on.zip es).find? fun x => x.1 = i).map (·.2)).getD 0
            let res := fun i => roundLane r (partVal r (el i) s) (el i) s
            retireChunk r { r.c with outRange := r.c.outRange ||
                (on.any (fun i => (res i).2 && !isIdentity r.c.rop (partGet r r.c (el i)))) }
              (vPut r.x d (mergeLanes t.size (vGet r.x d) (fun i => on.contains i) fun i => (res i).1))
              (if on.any (fun i => roundFree r (partVal r (el i) s) s) then draw s else s))) ∧
    (∀ (d a : VReg) (f : Fin 4), Issues c (.vrnd c t d a b p f) s r → exec (.vrnd c t d a b p f) s =
      .next (if t.code ≠ runOut r s then progFault c.val excType s
        else
          let ls := on16.filter fun i => 16 * f.val + i < t.lanes
          let el := fun i => (elemAt r ((sGet r.x b).toNat + i)).getD (freeVal s % 8192)
          let val := fun i => decodeFp (fpOf 0) (laneGet 4 (vGet r.x a) i)
          let res := fun i => roundLane r (val i) (el i) s
          retireChunk r { r.c with outRange := r.c.outRange || ls.any (fun i => (res i).2) }
            (vPut r.x d (mergeLanes t.size (vGet r.x d) (fun j => ls.any fun i => 16 * f.val + i = j)
              fun j => (res (j - 16 * f.val)).1))
            (if ls.any (fun i => (elemAt r ((sGet r.x b).toNat + i)).isNone || roundFree r (val i) s) then draw s else s))) ∧
    (∀ d : AReg, Issues c (.xbexp c t d b p .clean) s r → exec (.xbexp c t d b p .clean) s =
      .next (if t.code ≠ runOut r s ∨ isMx t.code = false then progFault c.val excType s
        else if viewsParts (aGet r.x d) = false then progFault c.val excBounds s
        else match entries (partEntry r (aGet r.x d)) (ks on) with
          | none => progFault c.val excBounds s
          | some es => retireChunk r (es.foldl (fun ch e => postBlock ch e (partVal r e s)) r.c) r.x s)) ∧
    (∀ a : VReg, Issues c (.vbexp c t a b p) s r → exec (.vbexp c t a b p) s =
      .next (if t.code ≠ runOut r s ∨ isMx t.code = false then progFault c.val excType s
        else match entries (elemAt r) (ks on16) with
          | none => progFault c.val excBounds s
          | some es => retireChunk r ((on16.zip es).foldl (fun ch x =>
              postBlock ch x.2 (decodeFp (fpOf 0) (laneGet 4 (vGet r.x a) x.1))) r.c) r.x s)) ∧
    (∀ a : VReg, Issues c (.ost c t a p) s r → exec (.ost c t a p) s =
      .next (if t.code ≠ runOut r s then progFault c.val excType s
        else if r.t.kind ≠ 5 ∨ r.t.s3 < r.x.lanes.length + on.length then progFault c.val excOutput s
        else retire r { r.x with lanes := r.x.lanes ++ on.map (fun i => laneGet t.size (vGet r.x a) i) } s))

/-- R213, and rdt and done of Table 9-9 (R209). -/
def Obligations.LunaMergeAndTaskEnd : Prop :=
  ∀ (c : Core) (t : ElemT) (d a b : SReg) (s : State) (r : Run),
    let n := (sGet r.x a).toNat
    let k := (sGet r.x b).toNat
    let es := holdEntries r n k
    (Issues c (.xmrg c t d a b .clean) s r → exec (.xmrg c t d a b .clean) s =
      .next (if t.code ≠ r.c.fmt ∨ r.c.rop ≠ 6 then progFault c.val excType s
        else if n % 16 ≠ 0 ∨ ¬(r.t.holdAt ≤ n ∧ n + 16 * k ≤ r.t.holdAt + r.t.holdLen) then progFault c.val excBounds s
        else if taskList r.c r.t then
          let new := (es.filter fun e => !(r.c.recs.map (·.1)).contains e.1).length
          if viewsRecs (aGet r.x 1) = false then progFault c.val excBounds s
          else if 0 < new ∧ gx LUNA_CTX.SPARSE_CAP r.c.id.comm s < r.c.recs.length + new then
            retire r (sPut { r.x with noRoom := true } d (BitVec.allOnes 64)) s
          else
            let y := es.foldl (fun acc e => addRecord t e acc) (r.c, 0)
            accSat r y.2 (retireChunk r y.1 (sPut r.x d (BitVec.ofNat 64 new)) s)
        else match entries (fun j => (r.t.elems.findIdx? fun e => e = j).bind (partEntry r (aGet r.x 0))) (es.map (·.1)) with
          | none => progFault c.val excBounds s
          | some ks =>
            let y := (ks.zip es).foldl (fun acc e => partStep r e.1 (xCombine .add t e.2.2 0) acc) (r.c, 0)
            accSat r y.2 (retireChunk r y.1 (sPut r.x d 0) s))) ∧
    (Issues c (.xdns c .clean) s r → exec (.xdns c .clean) s =
      .next (retireChunk r (if taskList r.c r.t then densify r.t.elems r.c else r.c) r.x s)) ∧
    (∀ (m : Fin 6) (v : Nat), Issues c (.rdt c d a m) s r → taskInfo r m.val (sGet r.x a) s = .ok v →
      exec (.rdt c d a m) s = .next (retire r (sPut r.x d (BitVec.ofNat 64 v)) s)) ∧
    (∀ (m : Fin 6) (e : Nat), Issues c (.rdt c d a m) s r → taskInfo r m.val (sGet r.x a) s = .error e →
      e = excBounds ∧ 4 ≤ m.val ∧ exec (.rdt c d a m) s = .next (progFault c.val excBounds s)) ∧
    (taskInfo r 0 (sGet r.x a) s = .ok r.t.elems.length ∧ taskInfo r 1 (sGet r.x a) s = .ok r.c.e ∧
      taskInfo r 2 (sGet r.x a) s = .ok (gx LUNA_CTX.MAXELEM r.c.id.comm s) ∧
      taskInfo r 3 (sGet r.x a) s = .ok (gx LUNA_CTX.NSRC r.c.id.comm s)) ∧
    (Issues c (.done c) s r → exec (.done c) s =
      .next (if r.t.kind = 5 ∧ r.x.lanes.length < outRequired r then progFault c.val excOutput s
        else
          let s1 := setCore c.val { r.x with run := none, lanes := [], noRoom := false } s
          let s2 := if r.t.kind = 5 then modChunk r.d r.c.id (placeLanes r) s1 else s1
          progress r.d r.c.id (if r.t.kind = 2 ∧ r.x.noRoom = true then commitAgain r s2 else s2)))

/-- R207: a few words of every group, written out by hand. -/
def Obligations.LunaWordsDecode : Prop :=
  ∀ c : Core,
    decodeLunaWord c 0x04611000 = some (.add c 3 1 2) ∧
    decodeLunaWord c 0x0822FFFF = some (.addi c 1 2 0xFFFF) ∧
    decodeLunaWord c 0x1CA00007 = some (.li c 5 7) ∧
    decodeLunaWord c 0x28830008 = some (.ldw c 4 3 8 .clean) ∧
    decodeLunaWord c 0x4022FFFE = some (.beq c 1 2 0xFFFE) ∧
    decodeLunaWord c 0x60000000 = some (.ret c) ∧
    decodeLunaWord c 0x64000000 = some (.done c) ∧
    decodeLunaWord c 0x68221803 = some (.pandn c 1 2 3) ∧
    decodeLunaWord c 0x6CC00005 = some (.rdt c 6 0 5) ∧
    decodeLunaWord c 0x70490000 = some (.bitm c 2 9) ∧
    decodeLunaWord c 0x80E10040 = some (.vld c 7 1 64 .clean) ∧
    decodeLunaWord c 0x8C221C10 = some (.vadd c .bf16 1 2 3 4) ∧
    decodeLunaWord c 0x902218B1 = some (.vcmpLt c .i32 1 2 3 0) ∧
    decodeLunaWord c 0x94850021 = some (.vcvt c .f16 4 5 1) ∧
    decodeLunaWord c 0xA4620D01 = some (.vsta c 3 2 1 5) ∧
    decodeLunaWord c 0xC0042930 = some (.xadd c .e4m3 0 4 5 1 .clean) ∧
    decodeLunaWord c 0xC4221802 = some (.xidMin c 1 2 3) ∧
    decodeLunaWord c 0xCC201000 = some (.aoff c 1 0 2) ∧
    decodeLunaWord c 0xD1231008 = some (.fswp c .f32 9 3 2 0 .clean) ∧
    decodeLunaWord c 0xD0031007 = some (.xswpCopy c .f32 0 3 2 0 .clean) ∧
    decodeLunaWord c 0xD4201750 = some (.xrnd c .mxe4m3 1 0 2 7 .clean) ∧
    decodeLunaWord c 0xD80308A1 = some (.vbexp c .mxi8 3 1 0) ∧
    decodeLunaWord c 0xDC811000 = some (.xmrg c .f32 4 1 2 .clean) ∧
    decodeLunaWord c 0xE0000000 = some (.xdns c .clean) ∧
    decodeLunaWord c 0xE40602C0 = some (.ost c .i64 6 2) ∧
    decodeLunaWord c 0 = none ∧
    decodeLunaWord c 0x04611010 = none ∧
    decodeLunaWord c 0x06011000 = none ∧
    decodeLunaWord c 0x8C221CD0 = none ∧
    decodeLunaWord c 0xC4221806 = none ∧
    decodeLunaWord c 0x6CC00006 = none

/-- Decode of encode (R207, R209). -/
def Obligations.LunaWordDecodesBack : Prop :=
  ∀ (i : Instr) (c : Core) (w : Nat), WellFormed i = true → encodeLunaWord i = some (c, w) →
    w < 2 ^ 32 ∧ decodeLunaWord c w = some (bareRead i)

/-- Encode of decode (R207): the other direction. -/
def Obligations.LunaWordIsExact : Prop :=
  ∀ (c : Core) (w : Nat) (i : Instr), w < 2 ^ 32 → decodeLunaWord c w = some i → encodeLunaWord i = some (c, w)

/-- R181, with the counts included: a saturating count is order-free too. -/
def Obligations.ExactSumIsOrderFree : Prop :=
  (∀ t u : SumTree, t.leaves.Perm u.leaves → t.leaves.length ≤ 2 ^ 24 → (∀ v ∈ t.leaves, v.toInt.natAbs ≤ 57344 * 2 ^ 276) →
      t.sum = u.sum ∧ t.saturates = false ∧ t.sum.fix = (t.leaves.map Val.toInt).sum ∧
      t.sum.nan = min 4095 (t.leaves.count .nan) ∧ t.sum.pinf = min 2047 (t.leaves.count (.inf false)) ∧
      t.sum.ninf = min 2047 (t.leaves.count (.inf true)) ∧
      t.leaves.foldl (fun p v => (p.add (Partial.ofVal v)).1) (partialId 0) = t.sum) ∧
    (∀ (f x : Nat), f ≤ 10 → x < 2 ^ 32 → (decodeLane f x).toInt.natAbs ≤ 57344 * 2 ^ 276)

/-- R180, every sentence of it. -/
def Obligations.ExactSumAddsAndRemoves : Prop :=
  (∀ (p : Partial) (neg : Bool) (m : Nat), p.nan ≤ 4095 → p.pinf ≤ 2047 → p.ninf ≤ 2047 → p.fix.natAbs < 2 ^ 317 - 1 →
      m < 2 ^ 317 - 1 → (p.fix + Val.toInt (.fin neg m)).natAbs ≤ 2 ^ 317 - 1 →
      p.add (Partial.ofVal (.fin neg m)) = ({ p with fix := p.fix + Val.toInt (.fin neg m) }, false)) ∧
    (∀ p : Partial, p.nan ≤ 4095 → p.pinf ≤ 2047 → p.ninf ≤ 2047 →
      p.add (Partial.ofVal .nan) = ({ p with nan := min 4095 (p.nan + 1) }, false) ∧
      p.add (Partial.ofVal (.inf false)) = ({ p with pinf := min 2047 (p.pinf + 1) }, false) ∧
      p.add (Partial.ofVal (.inf true)) = ({ p with ninf := min 2047 (p.ninf + 1) }, false)) ∧
    (∀ p q : Partial, p.fix.natAbs < 2 ^ 317 - 1 → q.fix.natAbs < 2 ^ 317 - 1 →
      ((p.fix + q.fix).natAbs ≤ 2 ^ 317 - 1 → p.add q =
        ({ fix := p.fix + q.fix, nan := min 4095 (p.nan + q.nan), pinf := min 2047 (p.pinf + q.pinf), ninf := min 2047 (p.ninf + q.ninf) }, false)) ∧
      ((p.fix - q.fix).natAbs ≤ 2 ^ 317 - 1 → p.sub q =
        (⟨p.fix - q.fix, if p.nan = 4095 then 4095 else p.nan - q.nan, if p.pinf = 2047 then 2047 else p.pinf - q.pinf,
          if p.ninf = 2047 then 2047 else p.ninf - q.ninf⟩, false)) ∧
      ((p.fix + q.fix).natAbs < 2 ^ 317 - 1 → p.nan + q.nan < 4095 → p.pinf + q.pinf < 2047 → p.ninf + q.ninf < 2047 →
        (p.add q).1.sub q = (p, false))) ∧
    (∀ p q : Partial, (p.nan = 4095 → (p.add q).1.nan = 4095 ∧ (p.sub q).1.nan = 4095) ∧
      (p.pinf = 2047 → (p.add q).1.pinf = 2047 ∧ (p.sub q).1.pinf = 2047) ∧
      (p.ninf = 2047 → (p.add q).1.ninf = 2047 ∧ (p.sub q).1.ninf = 2047))

/-- Table 8-4 (R179): the layout both ways, in staging and in a payload. -/
def Obligations.ExactPartialLayout : Prop :=
  (∀ p : Partial, -(2 ^ 317) ≤ p.fix → p.fix < 2 ^ 317 → p.nan < 2 ^ 12 → p.pinf < 2 ^ 11 → p.ninf < 2 ^ 11 →
      p.toNat < 2 ^ 352 ∧ signed 318 (bits p.toNat 0 318) = p.fix ∧ bits p.toNat 318 12 = p.nan ∧
      bits p.toNat 330 11 = p.pinf ∧ bits p.toNat 341 11 = p.ninf ∧ Partial.ofNat p.toNat = p) ∧
    (∀ n : Nat, n < 2 ^ 352 → (Partial.ofNat n).toNat = n) ∧
    (∀ (ps : List Partial) (e : Nat) (he : e < ps.length), (∀ p ∈ ps, -(2 ^ 317) ≤ p.fix ∧ p.fix < 2 ^ 317 ∧ p.nan < 2 ^ 12 ∧
        p.pinf < 2 ^ 11 ∧ p.ninf < 2 ^ 11) →
      (partialBytes ps[e]).length = 44 ∧ widePartial (ps.flatMap partialBytes) e = ps[e]) ∧
    (∀ (t el x : Nat) (neg : Bool) (m : Nat), 5 ≤ t → t ≤ 9 → decodeFp (fpOf t) el = .fin neg m → m * 2 ^ x % 2 ^ 127 = 0)

/-- R186: exact zeros, values that round to zero, identities, signs of zero inputs. -/
def Obligations.ZeroResultIsPositive : Prop :=
  (∀ (t rnd u : Nat) (v : Val), t ≤ 4 → rnd ≤ 7 →
      (roundFp t rnd u v).1 % 2 ^ ((fpOf t).eb + (fpOf t).mb) = 0 → (roundFp t rnd u v).1 = 0) ∧
    (∀ (t rnd u x : Nat) (v : Val), 5 ≤ t → t ≤ 10 → rnd ≤ 7 → x ≤ 255 →
      (roundMx t rnd u x v).1 % 2 ^ (mxWidth t - 1) = 0 → (roundMx t rnd u x v).1 = 0) ∧
    (Partial.ofVal (.fin true 0) = Partial.ofVal (.fin false 0)) ∧
    (∀ t rnd u : Nat, t ≤ 4 → roundFp t rnd u (Sys2Proof.resolve 0 t t (partialId 0)) = (0, false))

/-- R185, format by format. -/
def Obligations.SpecialResultsAreCanonical : Prop :=
  (∀ rnd u : Nat, roundFp 0 rnd u .nan = (0x7FC00000, false) ∧ roundFp 1 rnd u .nan = (0x7FC0, false) ∧
      roundFp 2 rnd u .nan = (0x7E00, false) ∧ roundFp 3 rnd u .nan = (0x7F, false) ∧ roundFp 4 rnd u .nan = (0x7E, false) ∧
      roundFp 0 rnd u (.inf false) = (0x7F800000, false) ∧ roundFp 0 rnd u (.inf true) = (0xFF800000, false) ∧
      roundFp 1 rnd u (.inf false) = (0x7F80, false) ∧ roundFp 1 rnd u (.inf true) = (0xFF80, false) ∧
      roundFp 2 rnd u (.inf false) = (0x7C00, false) ∧ roundFp 2 rnd u (.inf true) = (0xFC00, false) ∧
      roundFp 4 rnd u (.inf false) = (0x7C, false) ∧ roundFp 4 rnd u (.inf true) = (0xFC, false) ∧
      (rnd ≤ 5 → ∀ neg : Bool, roundFp 3 rnd u (.inf neg) = (0x7F, false)) ∧
      (5 < rnd → roundFp 3 rnd u (.inf false) = (0x7E, false) ∧ roundFp 3 rnd u (.inf true) = (0xFE, false))) ∧
    (∀ t x y rnd u : Nat, t ≤ 4 → decodeLane t x = .nan → decodeLane t y = .nan →
      roundFp t rnd u (decodeLane t x) = roundFp t rnd u (decodeLane t y) ∧ (roundFp t rnd u (decodeLane t x)).1 = canonNan t)

/-- Tables 2-2 and 2-3 with R41. -/
def Obligations.HeaderRoundTrip : Prop :=
  (∀ h : Header, let word := fun w : Nat => ofLE (((headerBytes h).drop (8 * w)).take 8)
      (headerBytes h).length = 32 ∧ headerOfBytes (headerBytes h) = h ∧ word 1 = h.w1.toNat ∧
      bits (word 0) 0 6 = h.opcode.toNat ∧
      bits (word 0) 6 3 = h.vc.toNat ∧
      bits (word 0) 9 4 = h.status.toNat ∧
      bits (word 0) 13 12 = h.part.toNat ∧
      bits (word 0) 25 12 = h.srcEp.toNat ∧
      bits (word 0) 37 12 = h.dstEp.toNat ∧
      bits (word 0) 49 14 = h.tag.toNat ∧
      bits (word 2) 0 13 = h.len.toNat ∧
      bits (word 2) 13 2 = h.scope.toNat ∧
      bits (word 2) 15 12 = h.lcId.toNat ∧
      bits (word 2) 27 13 = h.keySlot.toNat ∧
      bits (word 2) 40 8 = h.subop.toNat ∧
      bits (word 2) 49 15 = h.mcg.toNat ∧
      bits (word 3) 0 16 = h.ageStamp.toNat ∧
      bits (word 3) 16 48 = h.seq.toNat ∧
      bits (word 0) 63 1 = h.enc.toNat ∧ bits (word 2) 48 1 = h.mc.toNat ∧
      (∀ w < 4, ∀ b < 8, ((headerBytes h).map BitVec.toNat)[8 * w + b]? = some (bits (word w) (8 * b) 8))) ∧
    (∀ bs : List Byte, bs.length = 32 → headerBytes (headerOfBytes bs) = bs)

/-- The frame of the Luna instruction set: what its programs cannot reach; and what an SRAM error adds to a read (R31, R33). -/
def Obligations.LunaInstructionsLeaveTheRestAlone : Prop :=
  (∀ (i : Instr) (core : Core) (w : Nat) (s t : State), encodeLunaWord i = some (core, w) → (∀ c : Core, i ≠ .done c) →
      bareRead i = i → exec i s = .next t →
      t = s ∨ (∃ cause : Nat, t = progFault core.val cause s) ∨
        ((∀ k : Nat, k ≠ core.val → lcore k t = lcore k s) ∧
          (∀ d : Nat, d ≠ core.val / 108 → lunaDie d t = lunaDie d s) ∧
          { lunaDie (core.val / 108) t with chunks := (lunaDie (core.val / 108) s).chunks } = lunaDie (core.val / 108) s ∧
          { t with cores := s.cores, luna := s.luna, free := s.free, ox := s.ox } = s ∧
          t.ox.regs = s.ox.regs ∧ t.ox.time = s.ox.time)) ∧
    (∀ (i : Instr) (core : Core) (w : Nat) (s : State) (r : Run), encodeLunaWord i = some (core, w) →
      Issues core (bareRead i) s r →
      exec i s = if rowStalled (52 + r.d) (readOf i) s then .next s
        else if readLost (readOf i) then .next (lostWord core.val r.t (sramRead (52 + r.d) (readOf i) s))
        else exec (bareRead i) (sramRead (52 + r.d) (readOf i) s))

/-- R376 step 1 and R378. -/
def Obligations.FoldedEventJoinsOrIsLoggedAlone : Prop :=
  ∀ (u : UnitId) (e : Event) (rest : List Event) (s : State), (u = .ox9 → halted s = false ∧ calmTrigger e s = none) → foldsNow u s = true →
    nextRaised (s.unit u).events.raised = some e → rest = (s.unit u).events.raised.erase e → gf u FOLD_CTL.EN 0 s = 1 → e.folded = true →
    (∀ (pre post : List FoldEntry) (x : FoldEntry), entriesOf u s = pre ++ x :: post → sameKey x e = true →
      (∀ y ∈ pre, sameKey y e = false) → ∃ (t : State) (z : FoldEntry), exec (.eventFold u) s = .next t ∧
        (t.unit u).events.raised = rest ∧ entriesOf u t = pre ++ z :: post ∧ z.count = x.count + 1 ∧ z.winFt = e.ft ∧
        z.conseq = x.conseq ∧ z.firstSeq = x.firstSeq ∧ logSeq u t = logSeq u s ∧
        (t.unit u).events.log = (s.unit u).events.log ∧ t.out = s.out) ∧
    ((∀ x ∈ entriesOf u s, sameKey x e = false ∧ attributes x e = false) →
      (if u = .ox9 then 1024 else 32) ≤ (entriesOf u s).length → ∃ t, exec (.eventFold u) s = .next t ∧
        (t.unit u).events.raised = rest ∧ entriesOf u t = entriesOf u s ∧
        logSeq u t = (logSeq u s + 1) % 2 ^ LOG_SEQ.SEQ.len ∧
        gf u FOLD_STAT.OVERFLOW 0 t = min (gf u FOLD_STAT.OVERFLOW 0 s + 1) (2 ^ 32 - 1))

/-- R420 and Table 19-4a. -/
def Obligations.RingTailHaltsOnOverrun : Prop :=
  ∀ (d : Dom) (s : State), dark s = false → hostServed s = true →
    (∀ v : BitVec 32, ∃ t, exec (.ringTailWrite d v) s = .next t ∧ gx RING_TAIL.TAIL d.val t = v.toNat ∧
      (∀ (q : Reg) (j k : Nat), regKey q j k ≠ regKey .ringTail d.val 0 → regKey q j k ≠ regKey .ringCtl d.val 0 →
        getW .ox9 q j k t = getW .ox9 q j k s) ∧ { t with ox := s.ox } = s ∧
      (2048 < (v.toNat + 2 ^ 32 - gx RING_HEAD.HEAD d.val s) % 2 ^ 32 → gx RING_CTL.EN d.val t = 0 ∧
        counter .ox9 .glob .ringOverrun t = (counter .ox9 .glob .ringOverrun s + 1) % 2 ^ 64 ∧
        ∃ e : Event, t.ox.events.raised = raisedWith .ox9 e s ∧ e.code = .ringOverrun ∧ e.args = [na d.val]) ∧
      ((v.toNat + 2 ^ 32 - gx RING_HEAD.HEAD d.val s) % 2 ^ 32 ≤ 2048 → oneWord .ox9 .ringTail d.val 0 s t)) ∧
    (∃ t, exec (.ringFlush d) s = .next t ∧ gx RING_HEAD.HEAD d.val t = gx RING_TAIL.TAIL d.val s ∧ t.out = s.out ∧
      oneWord .ox9 .ringHead d.val 0 s t)

/-- R470, the mailbox of one domain, command by command. -/
def Obligations.MailboxExchange : Prop :=
  ∀ (d : Dom) (s : State), dark s = false → hostServed s = true →
    (∀ n : BitVec 13, ∃ t, exec (.mailboxGo d d n) s = .next t ∧ gx MB_CTL.REQ_LEN d.val t = n.toNat ∧ t.out = s.out ∧
      t.mailboxes = s.mailboxes ∧
      (gx MB_STAT.BUSY d.val s = 1 → gx MB_STAT.BUSY d.val t = 1 ∧ gx MB_STAT.ERR d.val t = gx MB_STAT.ERR d.val s ∧
        gx MB_STAT.DONE d.val t = gx MB_STAT.DONE d.val s ∧
        counter .ox9 .glob .mbBusyWrite t = (counter .ox9 .glob .mbBusyWrite s + 1) % 2 ^ 64) ∧
      (gx MB_STAT.BUSY d.val s = 0 → (n.toNat = 0 ∨ 4096 < n.toNat ∨ (mbType d.val s ≠ 5 ∧ mbType d.val s ≠ 6)) →
        gx MB_STAT.BUSY d.val t = 0 ∧ gx MB_STAT.ERR d.val t = 1 ∧
        counter .ox9 .glob .mbReqBad t = (counter .ox9 .glob .mbReqBad s + 1) % 2 ^ 64 ∧ t.ox.events = s.ox.events) ∧
      (gx MB_STAT.BUSY d.val s = 0 → 1 ≤ n.toNat → n.toNat ≤ 4096 → (mbType d.val s = 5 ∨ mbType d.val s = 6) →
        gx MB_STAT.BUSY d.val t = 1 ∧ gx MB_STAT.ERR d.val t = gx MB_STAT.ERR d.val s ∧ t.ox.ctrs = s.ox.ctrs)) ∧
    (∀ bs : List Byte, bs.length ≤ 4096 → ∃ t, exec (.mailboxResponse d bs) s = .next t ∧
      (gx MB_STAT.BUSY d.val s = 0 → t = s) ∧
      (gx MB_STAT.BUSY d.val s = 1 → (mailbox d.val t).rsp = bs ∧ (mailbox d.val t).req = (mailbox d.val s).req ∧
        gx MB_STAT.BUSY d.val t = 0 ∧ gx MB_STAT.DONE d.val t = 1 ∧ gx MB_STAT.RSP_LEN d.val t = bs.length ∧
        t.out = s.out ++ [.msix d.val 1] ∧ (∀ k : Dom, k ≠ d → mailbox k.val t = mailbox k.val s))) ∧
    (∀ (fn : Dom) (n : BitVec 13), fn ≠ d → exec (.mailboxGo d fn n) s = .next (unmapped s))

/-- R373 and Table 16-12, field by field. -/
def Obligations.TrngStartsFailsAndLocks : Prop :=
  ∀ (k : TrngUnit) (s : State), ((trngAt k).1 = .ox9 → halted s = false) →
    let u := (trngAt k).1
    let i := (trngAt k).2
    (gf u TRNG_STAT.READY i s = 0 → gf u TRNG_STAT.FAILED i s = 0 →
      (∃ t, exec (.trngStartupDone k true) s = .next t ∧ gf u TRNG_STAT.READY i t = 1 ∧ gf u TRNG_STAT.TRIES i t = 0 ∧
        gf u TRNG_STAT.FAILED i t = 0 ∧ seedsOf i (keySec u t) = seedsOf i (keySec u s) + 1 ∧
        (∀ j : Nat, j ≠ i → seedsOf j (keySec u t) = seedsOf j (keySec u s))) ∧
      (gf u TRNG_STAT.TRIES i s ≤ 2 → ∃ t, exec (.trngStartupDone k false) s = .next t ∧ gf u TRNG_STAT.READY i t = 0 ∧
        gf u TRNG_STAT.TRIES i t = gf u TRNG_STAT.TRIES i s + 1 ∧
        gf u TRNG_STAT.FAILED i t = (if gf u TRNG_STAT.TRIES i s = 2 then 1 else 0) ∧ keySec u t = keySec u s)) ∧
    (gf u TRNG_STAT.FAILED i s = 1 → ∀ pass : Bool, exec (.trngStartupDone k pass) s = .next s) ∧
    (gf u TRNG_STAT.READY i s = 1 → ∀ apt : Bool, ∃ (t : State) (e : Event), exec (.trngHealthFail k apt) s = .next t ∧
      gf u TRNG_STAT.READY i t = 0 ∧
      gf u TRNG_STAT.RCT_FAILS i t = (if apt then gf u TRNG_STAT.RCT_FAILS i s else min (gf u TRNG_STAT.RCT_FAILS i s + 1) 65535) ∧
      gf u TRNG_STAT.APT_FAILS i t = (if apt then min (gf u TRNG_STAT.APT_FAILS i s + 1) 65535 else gf u TRNG_STAT.APT_FAILS i s) ∧
      (t.unit u).events.raised = raisedWith u e s ∧ e.code = .trngFail ∧
      (∀ p : Place, (u = .ox9 → p = .glob) → (∀ side : Side, u = .oeb side → p = .oeb side.val) →
        counter u p .trngHealthFail t = (counter u p .trngHealthFail s + 1) % 2 ^ 64))

/-- R372, the two transitions of a rotation. -/
def Obligations.KeyRotatesAtItsTime : Prop :=
  ∀ (u : UnitId) (n : BitVec 13) (k : KeySlot) (s : State), (u = .ox9 → halted s = false) →
    keySlot u n.toNat s = some k →
    (∀ nk : BitVec 256, k.next = some nk → gf u KS_INFO.STATE n.toNat s = 2 →
      (gf u KS_INFO.ROT_AT n.toNat s ≤ ftOf u s → ∃ t, exec (.keyRotationTime u n) s = .next t ∧
        keySlot u n.toNat t = some { k with key := nk, next := none, old := some k.key } ∧
        gf u KS_INFO.STATE n.toNat t = 3 ∧ gf u KS_INFO.GEN n.toNat t = (gf u KS_INFO.GEN n.toNat s + 1) % 2 ^ KS_INFO.GEN.len ∧
        (∀ e ∈ (keySec u t).seqs, e.1 / 2 ^ 11 ≠ n.toNat) ∧
        (∀ m : Nat, m ≠ n.toNat → keySlot u m t = keySlot u m s) ∧
        (∀ e ∈ (keySec u s).seqs, e.1 / 2 ^ 11 ≠ n.toNat → e ∈ (keySec u t).seqs)) ∧
      (ftOf u s < gf u KS_INFO.ROT_AT n.toNat s → exec (.keyRotationTime u n) s = .next s)) ∧
    (gf u KS_INFO.STATE n.toNat s = 3 →
      (gf u KS_INFO.ROT_AT n.toNat s + gf u KS_INFO.OVERLAP n.toNat s * 2500 ≤ ftOf u s → ∃ t,
        exec (.keyOverlapEnd u n) s = .next t ∧ keySlot u n.toNat t = some { k with old := none } ∧
        gf u KS_INFO.STATE n.toNat t = 1 ∧ gf u KS_INFO.GEN n.toNat t = gf u KS_INFO.GEN n.toNat s) ∧
      (ftOf u s < gf u KS_INFO.ROT_AT n.toNat s + gf u KS_INFO.OVERLAP n.toNat s * 2500 →
        exec (.keyOverlapEnd u n) s = .next s))

/-- R144 and R145 for an OEB; the form of an echo is that of R143, its reception that of R295. -/
def Obligations.EchoLowersAndQuietRaisesRate : Prop :=
  (∀ (side : Side) (q : OPort) (line : Line) (s : State),
      let u : RateUnit := .oeb side
      let e : LinkEnd := .oeb side q
      let gs := (receive e line s).1
      let s1 := (receive e line s).2
      let lower := fun r lvl : Nat => max 8 (if lvl = 1 then r * 7 / 8 else if lvl = 2 then r * 3 / 4 else r / 2)
      { s1 with links := s.links } = s ∧
      ((getLink (linkKey e) s).st = 6 → voted (linkWidth e s) (slotAt (linkWidth e s) gs 0) = some .echo →
        (∀ (body : List Byte) (dst vc lvl : Nat), rxBody (linkWidth e s) 4 gs = some body →
          crc8 (body.take 3) = nth (body.map (·.toNat)) 3 →
          dst = nth (body.map (·.toNat)) 0 + nth (body.map (·.toNat)) 1 % 16 * 256 → vc = nth (body.map (·.toNat)) 1 / 16 % 8 →
          lvl = nth (body.map (·.toNat)) 2 % 4 → 1 ≤ lvl → ∃ t, exec (.echoRx (.oeb side q line)) s = .next t ∧
            { t with rates := s1.rates } = s1 ∧ (∀ v : RateUnit, v ≠ u → ratesOf v t = ratesOf v s) ∧
            ((∀ x ∈ ratesOf u s, ¬(x.dst = dst ∧ x.vc = vc)) → (ratesOf u s).length < 1024 →
              ratesOf u t = ratesOf u s ++ [⟨dst, vc, lower 256 lvl, locOf (.oeb side) s, lvl⟩]) ∧
            (∀ (pre post : List RateEnt) (x : RateEnt), ratesOf u s = pre ++ x :: post → x.dst = dst → x.vc = vc →
              (∀ y ∈ pre ++ post, ¬(y.dst = dst ∧ y.vc = vc)) →
              (locOf (.oeb side) s < x.lastFt + 5000 ∧ lvl ≤ x.lastLevel → t = s1) ∧
              (¬(locOf (.oeb side) s < x.lastFt + 5000 ∧ lvl ≤ x.lastLevel) →
                ratesOf u t = pre ++ ⟨dst, vc, lower x.r lvl, locOf (.oeb side) s, lvl⟩ :: post))) ∧
        (rxBody (linkWidth e s) 4 gs = none →
          exec (.echoRx (.oeb side q line)) s = .next (countO side .echoRxBad s1)))) ∧
    (∀ (side : Side) (dst : BitVec 12) (vc : Vc) (pre post : List RateEnt) (x : RateEnt) (s : State),
      ratesOf (.oeb side) s = pre ++ x :: post →
      x.dst = dst.toNat → x.vc = vc.val → (∀ y ∈ pre ++ post, ¬(y.dst = dst.toNat ∧ y.vc = vc.val)) →
      ∃ t, exec (.rateRecovery (.oeb side) dst vc) s = .next t ∧ { t with rates := s.rates } = s ∧
        ratesOf (.oeb side) t = if 256 ≤ x.r + 8 then pre ++ post else pre ++ { x with r := x.r + 8 } :: post)

/-- R289, R293, R296: the line code both ways. The tables of 8b/10b are the standard's (log entry 105). -/
def Obligations.CodesSentAreCodesReceived : Prop :=
  (∀ (w : Nat) (rds : List Bool) (cs : List Code), 0 < w → rds.length = w →
      let line := (codeLine w rds 0 cs).1
      let after := (codeLine w rds 0 cs).2
      after.length = w ∧ (∀ g ∈ line, g.length = 5) ∧ line.length = cs.length ∧
      decodeLine w (rds.map some) 0 (polarised 0 w line) = (cs.map (fun c => ⟨some c, false⟩), after.map some) ∧
      decodeLine w (rds.map some) 0 (polarised (2 ^ w - 1) w (line.map (fun g => g.map pamNeg))) =
        (cs.map (fun c => ⟨some c, false⟩), after.map some)) ∧
    (∀ (w : Nat) (bs : List Byte), erasures w ((dataCodes bs).map (fun c => ⟨some c, false⟩)) = [])

/-- R32 and R34. -/
def Obligations.FaultyRowTakesSpareOrIsFenced : Prop :=
  ∀ (die : Die) (bank row : Nat) (s : State), halted s = false → (⟨die.val, bank, row⟩ : RowId) ∈ s.sram.faulty →
    ∃ (t : State) (e : Event), exec (.sramRowRepaired die bank row) s = .next t ∧ t.out = s.out ∧
      t.sram.errs = s.sram.errs.filter (fun x => x.1 ≠ ⟨die.val, bank, row⟩) ∧ t.sram.uncorr = s.sram.uncorr ∧
      (∀ b : Nat, bankKey die.val bank ≠ b →
        SMap.get (fun _ => 0) t.sram.sparesUsed b = SMap.get (fun _ => 0) s.sram.sparesUsed b) ∧
      (rowSparesUsed die.val bank s < 8 →
        rowSparesUsed die.val bank t = rowSparesUsed die.val bank s + 1 ∧
        t.sram.copying = s.sram.copying ++ [⟨die.val, bank, row⟩] ∧ t.sram.fenced = s.sram.fenced ∧
        e.code = .sramRowRepaired ∧ e.args = [na die.val, na bank, na row] ∧
        countedAndRaised (.die die.val) .sramRowRepaired e { s with sram := t.sram } t) ∧
      (8 ≤ rowSparesUsed die.val bank s →
        t.sram.fenced = s.sram.fenced ++ [⟨die.val, bank, row⟩] ∧ t.sram.copying = s.sram.copying ∧
        e.code = .spareExhausted ∧ e.args = [na die.val, na bank, na row] ∧
        countedAndRaised (.die die.val) .sramRowFenced e { s with sram := t.sram } t)

/-- Table 13-7 (R315) and R316. -/
def Obligations.LinkDropsByItsCause : Prop :=
  (∀ (e : LinkEnd) (s : State), (linkUnit e = .ox9 → halted s = false) →
      let l := getLink (linkKey e) s
      exec (.los e) s = .next (if 2 ≤ l.st ∧ l.st ≤ 8 ∧ l.st ≠ 7 then dropLink e 1 s else s) ∧
      exec (.losIdle e) s = .next (if l.st = 7 then dropLink e 2 s else s) ∧
      exec (.fecBurst e) s = .next (if l.st = 6 ∧ 16 ≤ l.fecRun then dropLink e 3 s else s) ∧
      exec (.silentTimeout e) s = .next (if l.st = 6 then dropLink e 5 s else s) ∧
      exec (.gustTimeout e) s = .next (if l.st = 8 then dropLink e 8 s else s) ∧
      exec (.replayMaxExceeded e) s = .next (if replaySpent e s = true ∧ linkUp l = true then dropLink e 4 s else s) ∧
      (∀ line : Line, 2 ≤ l.st → l.st ≤ 8 → 2 ≤ slotsVoted e .down (receive e line s).1 (receive e line s).2 →
        exec (.downRx e line) s = .next (dropLink e 6 (receive e line s).2))) ∧
    (∀ (side : Side) (q : OPort) (cause : Nat) (s : State), let k := linkKey (.oeb side q); let t := dropLink (.oeb side q) cause s
      getLink k t = downLink cause (getLink k s) ∧ (getLink k t).st = 9 ∧ (getLink k t).cause = cause ∧ (getLink k t).held = [] ∧
      (getLink k t).nextFseq = 0 ∧ (∀ c ∈ (getAux k t).credits, c = 0) ∧
      (∀ j : Nat, j ≠ k → getLink j t = getLink j s ∧ getAux j t = getAux j s) ∧
      (∃ (line : Line) (rest : List Output), t.out = s.out ++ .insert k .down [] line :: rest) ∧
      counter (.oeb side) (.oeb side.val) .linkDown t = (counter (.oeb side) (.oeb side.val) .linkDown s + 1) % 2 ^ 64) ∧
    (∀ (cause : Nat) (l : Link), (downLink cause l).st = 9 ∧ (downLink cause l).cause = cause ∧ (downLink cause l).held = [])

/-- R279. The form of a completion is that of R242. -/
def Obligations.DmaRingSetsTailOrWaits : Prop :=
  ∀ (side : Side) (d : Areq) (s : State), go side CTX_CFG.VALID d.ctx.val s = 1 → d.rsv = 0 → d.subop = 0 → d.len = 0 →
    d.w3.toNat < 2 ^ 32 → d.w2.toNat < 2 ^ 24 → bits d.w2.toNat 7 3 = 0 →
    let c := bits d.w2.toNat 0 6
    let tmo := bits d.w2.toNat 10 14
    let mine := go side DMA_CH.CTX c s = d.ctx.val
    let dn := go side DMA_CH.DONE_SEQ c s
    (bits d.w2.toNat 6 1 = 0 → ¬mine → exec (.dmaRingDoorbell side d) s =
      .next (arsp side d.ctx.val d.atag.toNat stPartDeny 0 0 [] (raiseO side .partDeny false 0 0 [] (countO side .dmaRingDeny s)))) ∧
    (bits d.w2.toNat 6 1 = 0 → mine → exec (.dmaRingDoorbell side d) s =
      .next (arsp side d.ctx.val d.atag.toNat 0 0 0 [] (tailWrite side c d.w3.toNat s))) ∧
    (bits d.w2.toNat 6 1 = 1 → 1 ≤ tmo → tmo ≤ 16000 → mine → go side DMA_CH.ERR c s = 0 →
      (∀ w ∈ (oebOf side s).waits, ¬(w.dma = true ∧ w.idx = c ∧ subMod 32 dn w.target < 2 ^ 31)) →
      (subMod 32 dn d.w3.toNat < 2 ^ 31 → ∃ (t : State) (w0 : Nat), exec (.dmaCompletionWait side d) s = .next t ∧
        t.out = s.out ++ [.arsp side.val w0 0 []] ∧ bits w0 0 14 = d.atag.toNat ∧ bits w0 14 4 = 0 ∧
        (oebOf side t).waits = (oebOf side s).waits ∧ t.unit (.oeb side) = s.unit (.oeb side)) ∧
      (2 ^ 31 ≤ subMod 32 dn d.w3.toNat → ∃ t, exec (.dmaCompletionWait side d) s = .next t ∧ t.out = s.out ∧
        (oebOf side t).waits = (oebOf side s).waits ++ 
          [⟨true, d.ctx.val, d.atag.toNat, c, d.w3.toNat, ftOf (.oeb side) s + 2500 * tmo⟩] ∧ t.unit (.oeb side) = s.unit (.oeb side)))

/-- R453. A reading is in sixteenths of a degree, with the offset of the sensor. -/
def Obligations.ThermalWarnsAndTrips : Prop :=
  ∀ (k : Fin 134) (raw : Int) (s : State),
    (halted s = false → k.val < 128 → (gx THERM_CFG.WARN 0 s : Int) ≤ reading k.val raw s → ∃ (t : State) (e : Event),
      exec (.thermalWarn k raw) s = .next t ∧ gx ALERT_STAT.THERMAL 0 t = 1 ∧ t.ox.events.raised = raisedWith .ox9 e s ∧
      e.code = .thermalWarn ∧ e.folded = true ∧ e.die = k.val / 2 ∧ t.ox.ctrs = s.ox.ctrs ∧ t.out = s.out ∧
      (∀ (q : Reg) (j w : Nat), regKey q j w ≠ regKey .alertStat 0 0 → getW .ox9 q j w t = getW .ox9 q j w s)) ∧
    (halted s = false → (128 ≤ k.val ∨ reading k.val raw s < gx THERM_CFG.WARN 0 s) → exec (.thermalWarn k raw) s = .next s) ∧
    (dark s = false → k.val < 128 → 1840 ≤ reading k.val raw s → ∃ (t : State) (e : Event),
      exec (.thermalTrip k raw) s = .next t ∧ dark t = true ∧ (∀ d, 1 ≤ d → d ≤ 166 → gx DOM_STAT.STATE d t = 0) ∧
      t.ox.events.raised = raisedWith .ox9 e s ∧ e.code = .thermalTrip ∧ t.ox.ctrs = s.ox.ctrs ∧
      gx DOM_STAT.STATE 0 t = gx DOM_STAT.STATE 0 s) ∧
    (dark s = false → (128 ≤ k.val ∨ reading k.val raw s < 1840) → exec (.thermalTrip k raw) s = .next s)

/-- R349 and Table 15-8. -/
def Obligations.PpsOutRisesAtItsEdgeAndFalls : Prop :=
  ∀ (k : Fin 2) (s : State), halted s = false → s.ox.time.ppsOut.length = 2 →
    let ph := gx PPS_OUT_CFG.PHASE k.val s
    let per := gx PPS_OUT_CFG.PERIOD k.val s * 2500
    let n := (ft s - ph) / per + 1
    let o := ppsOutOf k.val s
    ((gx PPS_OUT_CFG.EN k.val s = 0 ∨ qualOf .ox9 s = 0 ∨ ft s < ph) → exec (.ppsOutEdge k) s = .next s) ∧
    (gx PPS_OUT_CFG.EN k.val s = 1 → qualOf .ox9 s ≠ 0 → ph ≤ ft s → 0 < per → o.1 < n → ∃ t,
      exec (.ppsOutEdge k) s = .next t ∧ t.out = s.out ++ [.ppsOut k.val true] ∧ ppsOutOf k.val t = (n, ft s, true) ∧
      (∀ j : Fin 2, j ≠ k → ppsOutOf j.val t = ppsOutOf j.val s) ∧ ft t = ft s ∧ t.ox.regs = s.ox.regs ∧
      exec (.ppsOutEdge k) t = .next t) ∧
    (o.2.2 = true → ft s < o.2.1 + (qualOf .ox9 s + 1) * 25000 → exec (.ppsOutFall k) s = .next s) ∧
    (o.2.2 = true → o.2.1 + (qualOf .ox9 s + 1) * 25000 ≤ ft s → ∃ t, exec (.ppsOutFall k) s = .next t ∧
      t.out = s.out ++ [.ppsOut k.val false] ∧ ppsOutOf k.val t = (o.1, o.2.1, false) ∧ t.ox.regs = s.ox.regs)
end

