-- ==== Sys2Proof/Laws/Bits.lean ====
section
/-! SUPPORT. Bit fields of a number, and numbers as little-endian bytes. -/

namespace Sys2Proof

theorem bits_lt (n lo len : Nat) : bits n lo len < 2 ^ len := Nat.mod_lt _ (Nat.two_pow_pos len)

theorem testBit_bits (n lo len i : Nat) : (bits n lo len).testBit i = (decide (i < len) && n.testBit (lo + i)) := by
  simp [bits, Nat.testBit_mod_two_pow, Nat.testBit_shiftRight]

/-- A number split at a field: what is above, the field, what is below. -/
theorem split_field (n lo len : Nat) :
    n = n / 2 ^ (lo + len) * 2 ^ (lo + len) + bits n lo len * 2 ^ lo + n % 2 ^ lo := by
  have h1 : n / 2 ^ lo * 2 ^ lo + n % 2 ^ lo = n := by rw [Nat.mul_comm]; exact Nat.div_add_mod n (2 ^ lo)
  have h2 : n / 2 ^ lo / 2 ^ len * 2 ^ len + n / 2 ^ lo % 2 ^ len = n / 2 ^ lo := by
    rw [Nat.mul_comm]; exact Nat.div_add_mod _ _
  have h3 : n / 2 ^ (lo + len) = n / 2 ^ lo / 2 ^ len := by rw [Nat.pow_add, Nat.div_div_eq_div_mul]
  simp only [bits, Nat.shiftRight_eq_div_pow]
  conv_lhs => rw [← h1, ← h2]
  rw [h3, Nat.pow_add]
  ring

/-- The field is replaced and nothing else: what is above, the new field, what is below. -/
theorem setBits_eq (n lo len v : Nat) :
    setBits n lo len v = n / 2 ^ (lo + len) * 2 ^ (lo + len) + v % 2 ^ len * 2 ^ lo + n % 2 ^ lo := by
  have h := split_field n lo len
  unfold setBits
  omega

theorem testBit_setBits (n lo len v i : Nat) :
    (setBits n lo len v).testBit i =
      if i < lo then n.testBit i else if i < lo + len then v.testBit (i - lo) else n.testBit i := by
  rw [setBits_eq]
  have hb : v % 2 ^ len * 2 ^ lo + n % 2 ^ lo < 2 ^ (lo + len) := by
    have h1 := Nat.mod_lt v (Nat.two_pow_pos len)
    have h2 := Nat.mod_lt n (Nat.two_pow_pos lo)
    calc v % 2 ^ len * 2 ^ lo + n % 2 ^ lo < v % 2 ^ len * 2 ^ lo + 2 ^ lo := by omega
      _ = (v % 2 ^ len + 1) * 2 ^ lo := by ring
      _ ≤ 2 ^ len * 2 ^ lo := Nat.mul_le_mul_right _ h1
      _ = 2 ^ (lo + len) := by rw [Nat.pow_add, Nat.mul_comm]
  have e1 : n / 2 ^ (lo + len) * 2 ^ (lo + len) + v % 2 ^ len * 2 ^ lo + n % 2 ^ lo =
      2 ^ (lo + len) * (n / 2 ^ (lo + len)) + (v % 2 ^ len * 2 ^ lo + n % 2 ^ lo) := by ring
  have e2 : v % 2 ^ len * 2 ^ lo + n % 2 ^ lo = 2 ^ lo * (v % 2 ^ len) + n % 2 ^ lo := by ring
  rw [e1, Nat.testBit_two_pow_mul_add _ hb, e2, Nat.testBit_two_pow_mul_add _ (Nat.mod_lt _ (Nat.two_pow_pos lo))]
  by_cases h1 : i < lo
  · have h3 : i < lo + len := by omega
    simp [h1, h3, Nat.testBit_mod_two_pow]
  · by_cases h2 : i < lo + len
    · have h3 : i - lo < len := by omega
      simp [h1, h2, Nat.testBit_mod_two_pow, h3]
    · simp only [h1, h2, if_false]
      rw [← Nat.shiftRight_eq_div_pow, Nat.testBit_shiftRight]
      congr 1
      omega

/-- A field that is set reads back its low bits. -/
theorem bits_setBits_self (n lo len v : Nat) : bits (setBits n lo len v) lo len = v % 2 ^ len := by
  apply Nat.eq_of_testBit_eq
  intro i
  rw [testBit_bits, testBit_setBits, Nat.testBit_mod_two_pow]
  by_cases h : i < len
  · have h1 : ¬(lo + i < lo) := by omega
    simp [h, h1]
  · simp [h]

/-- A field that is set leaves every field beside it as it was. -/
theorem bits_setBits_disjoint {n lo len v lo' len' : Nat} (h : lo' + len' ≤ lo ∨ lo + len ≤ lo') :
    bits (setBits n lo len v) lo' len' = bits n lo' len' := by
  apply Nat.eq_of_testBit_eq
  intro i
  rw [testBit_bits, testBit_bits, testBit_setBits]
  by_cases hi : i < len'
  · rcases h with h | h
    · have : lo' + i < lo := by omega
      simp [this]
    · have h1 : ¬(lo' + i < lo) := by omega
      have h2 : ¬(lo' + i < lo + len) := by omega
      simp [h1, h2]
  · simp [hi]

theorem setBits_lt {n lo len v w : Nat} (hn : n < 2 ^ w) (h : lo + len ≤ w) : setBits n lo len v < 2 ^ w := by
  apply Nat.lt_pow_two_of_testBit
  intro i hi
  have h1 : ¬(i < lo) := by omega
  have h2 : ¬(i < lo + len) := by omega
  rw [testBit_setBits]
  simp only [h1, h2, if_false]
  exact Nat.testBit_lt_two_pow (lt_of_lt_of_le hn (Nat.pow_le_pow_right (by omega) hi))

@[simp] theorem length_toLE (k n : Nat) : (toLE k n).length = k := by
  induction k generalizing n with
  | zero => rfl
  | succ k ih => simp [toLE, ih]

/-- The number that `k` little-endian bytes of `n` spell. -/
theorem ofLE_toLE (k n : Nat) : ofLE (toLE k n) = n % 256 ^ k := by
  induction k generalizing n with
  | zero => simp [toLE, ofLE, Nat.mod_one]
  | succ k ih =>
    simp only [toLE, ofLE, ih, BitVec.toNat_ofNat]
    rw [show (2 : Nat) ^ 8 = 256 from rfl, pow_succ', Nat.mod_mul]

theorem ofLE_lt (l : List Byte) : ofLE l < 256 ^ l.length := by
  induction l with
  | nil => simp [ofLE]
  | cons b l ih =>
    have hb : b.toNat < 256 := b.isLt
    simp only [ofLE, List.length_cons, pow_succ']
    omega

theorem toLE_ofLE (l : List Byte) : toLE l.length (ofLE l) = l := by
  induction l with
  | nil => rfl
  | cons b l ih =>
    have hb : b.toNat < 256 := b.isLt
    simp only [List.length_cons, toLE, ofLE]
    have h1 : (b.toNat + 256 * ofLE l) / 256 = ofLE l := by omega
    rw [h1, ih]
    congr 1
    apply BitVec.eq_of_toNat_eq
    simp only [BitVec.toNat_ofNat]
    omega

theorem unsigned_lt (w : Nat) (z : Int) : unsigned w z < 2 ^ w := by
  have h1 : (0 : Int) < ((2 ^ w : Nat) : Int) := by exact_mod_cast Nat.two_pow_pos w
  have h2 := Int.emod_lt_of_pos z h1
  have h3 := Int.emod_nonneg z (ne_of_gt h1)
  unfold unsigned
  omega

end Sys2Proof
end

