-- ==== Sys2Proof/Laws/Sparse.lean ====
section
/-! SUPPORT. What reading a sparse table after a write gives, and that a write keeps the canonical form. -/

namespace Sys2Proof.Machine

variable {α : Type}

theorem SMap.get_del_self (d : Nat → α) (m : SMap α) (k : Nat) : SMap.get d (SMap.del m k) k = d k := by
  induction m with
  | nil => rfl
  | cons e m ih => obtain ⟨j, v⟩ := e; by_cases h : k = j <;> simp [SMap.del, SMap.get, h] <;> simpa [h] using ih

theorem SMap.get_del_ne (d : Nat → α) (m : SMap α) {j k : Nat} (h : j ≠ k) :
    SMap.get d (SMap.del m k) j = SMap.get d m j := by
  induction m with
  | nil => rfl
  | cons e m ih =>
    obtain ⟨i, v⟩ := e
    by_cases hk : k = i
    · subst hk; simp [SMap.del, SMap.get, h, ih]
    · by_cases hj : j = i <;> simp [SMap.del, SMap.get, hk, hj, ih]

theorem SMap.get_put_self (d : Nat → α) (m : SMap α) (k : Nat) (v : α) : SMap.get d (SMap.put m k v) k = v := by
  induction m with
  | nil => simp [SMap.put, SMap.get]
  | cons e m ih =>
    obtain ⟨j, u⟩ := e
    unfold SMap.put
    split
    · simp [SMap.get]
    · split
      · simp [SMap.get]
      · next h => simp [SMap.get, h, ih]

theorem SMap.get_put_ne (d : Nat → α) (m : SMap α) {j k : Nat} (v : α) (h : j ≠ k) :
    SMap.get d (SMap.put m k v) j = SMap.get d m j := by
  induction m with
  | nil => simp [SMap.put, SMap.get, h]
  | cons e m ih =>
    obtain ⟨i, u⟩ := e
    unfold SMap.put
    split
    · simp [SMap.get, h]
    · split
      · next hk => subst hk; simp [SMap.get, h]
      · simp only [SMap.get, ih]

/-- A value written reads back. -/
@[simp] theorem SMap.get_set_self [DecidableEq α] (d : Nat → α) (m : SMap α) (k : Nat) (v : α) :
    SMap.get d (SMap.set d m k v) k = v := by
  unfold SMap.set
  split
  · next h => rw [SMap.get_del_self, h]
  · exact SMap.get_put_self d m k v

/-- A write leaves every other key as it was. -/
theorem SMap.get_set_ne [DecidableEq α] (d : Nat → α) (m : SMap α) {j k : Nat} (v : α) (h : j ≠ k) :
    SMap.get d (SMap.set d m k v) j = SMap.get d m j := by
  unfold SMap.set
  split
  · exact SMap.get_del_ne d m h
  · exact SMap.get_put_ne d m v h

/-- The same where the write and the read go by different values for an unlisted key. -/
theorem SMap.get_set_ne_of [DecidableEq α] (d e : Nat → α) (m : SMap α) {j k : Nat} (v : α) (h : j ≠ k) :
    SMap.get d (SMap.set e m k v) j = SMap.get d m j := by
  unfold SMap.set
  split
  · exact SMap.get_del_ne d m h
  · exact SMap.get_put_ne d m v h

/-- The table after a write, key by key. -/
theorem SMap.get_set [DecidableEq α] (d : Nat → α) (m : SMap α) (j k : Nat) (v : α) :
    SMap.get d (SMap.set d m k v) j = if j = k then v else SMap.get d m j := by
  split
  · next h => subst h; simp
  · next h => exact SMap.get_set_ne d m v h

/-- A write whose defaults differ from the reader's elsewhere still reads back at its key. -/
theorem SMap.get_set_of_default [DecidableEq α] (d e : Nat → α) (m : SMap α) (j k : Nat) (v : α) (h : e k = d k) :
    SMap.get d (SMap.set e m k v) j = if j = k then v else SMap.get d m j := by
  have : SMap.set e m k v = SMap.set d m k v := by simp [SMap.set, h]
  rw [this, SMap.get_set]

theorem SMap.get_put (d : Nat → α) (m : SMap α) (j k : Nat) (v : α) :
    SMap.get d (SMap.put m k v) j = if j = k then v else SMap.get d m j := by
  split
  · next h => subst h; exact SMap.get_put_self d m j v
  · next h => exact SMap.get_put_ne d m v h

/-- The keys of a sorted table rise from any bound below its first key. -/
theorem SMap.sorted_iff (m : SMap α) : SMap.sorted m = true ↔ (m.map (·.1)).Pairwise (· < ·) := by
  induction m with
  | nil => simp [SMap.sorted]
  | cons e m ih =>
    obtain ⟨j, v⟩ := e
    cases m with
    | nil => simp [SMap.sorted]
    | cons e2 m =>
      obtain ⟨k, u⟩ := e2
      simp only [SMap.sorted, Bool.and_eq_true, decide_eq_true_eq, ih, List.map_cons, List.pairwise_cons]
      constructor
      · rintro ⟨h1, h2, h3⟩
        refine ⟨?_, h2, h3⟩
        intro a ha
        simp only [List.mem_cons] at ha
        rcases ha with rfl | ha
        · exact h1
        · exact lt_trans h1 (h2 a ha)
      · rintro ⟨h1, h2, h3⟩
        exact ⟨h1 k (by simp), h2, h3⟩

theorem SMap.mem_del {m : SMap α} {k : Nat} {e : Nat × α} (h : e ∈ SMap.del m k) : e ∈ m := by
  induction m with
  | nil => simp [SMap.del] at h
  | cons x m ih =>
    obtain ⟨j, v⟩ := x
    unfold SMap.del at h
    split at h
    · exact List.mem_cons_of_mem _ (ih h)
    · simp only [List.mem_cons] at h ⊢
      rcases h with h | h
      · exact .inl h
      · exact .inr (ih h)

theorem SMap.mem_put {m : SMap α} {k : Nat} {v : α} {e : Nat × α} (h : e ∈ SMap.put m k v) : e = (k, v) ∨ e ∈ m := by
  induction m with
  | nil => simpa [SMap.put] using h
  | cons x m ih =>
    obtain ⟨j, u⟩ := x
    unfold SMap.put at h
    split at h
    · simpa using h
    · split at h <;> simp only [List.mem_cons] at h ⊢
      · rcases h with h | h
        · exact .inl h
        · exact .inr (.inr h)
      · rcases h with h | h
        · exact .inr (.inl h)
        · exact (ih h).imp_right .inr

theorem SMap.sorted_del {m : SMap α} (k : Nat) (h : SMap.sorted m = true) : SMap.sorted (SMap.del m k) = true := by
  induction m with
  | nil => rfl
  | cons x m ih =>
    obtain ⟨j, v⟩ := x
    rw [SMap.sorted_iff] at h ih ⊢
    simp only [List.map_cons, List.pairwise_cons] at h
    unfold SMap.del
    split
    · exact (SMap.sorted_iff _).1 (ih h.2)
    · simp only [List.map_cons, List.pairwise_cons]
      refine ⟨?_, (SMap.sorted_iff _).1 (ih h.2)⟩
      intro a ha
      obtain ⟨e, he, rfl⟩ := List.mem_map.1 ha
      exact h.1 _ (List.mem_map_of_mem (SMap.mem_del he))

theorem SMap.sorted_put {m : SMap α} (k : Nat) (v : α) (h : SMap.sorted m = true) :
    SMap.sorted (SMap.put m k v) = true := by
  induction m with
  | nil => rfl
  | cons x m ih =>
    obtain ⟨j, u⟩ := x
    have h' := (SMap.sorted_iff _).1 h
    simp only [List.map_cons, List.pairwise_cons] at h'
    have hm : SMap.sorted m = true := (SMap.sorted_iff _).2 h'.2
    rw [SMap.sorted_iff]
    unfold SMap.put
    split
    · next hk =>
      simp only [List.map_cons, List.pairwise_cons]
      refine ⟨?_, h'.1, h'.2⟩
      intro a ha
      simp only [List.mem_cons] at ha
      rcases ha with rfl | ha
      · exact hk
      · exact lt_trans hk (h'.1 a ha)
    · split
      · next hk => subst hk; simpa using h'
      · next hk1 hk2 =>
        simp only [List.map_cons, List.pairwise_cons]
        refine ⟨?_, (SMap.sorted_iff _).1 (ih hm)⟩
        intro a ha
        obtain ⟨e, he, rfl⟩ := List.mem_map.1 ha
        rcases SMap.mem_put he with rfl | he
        · show j < k; omega
        · exact h'.1 _ (List.mem_map_of_mem he)

theorem SMap.not_mem_del_self {m : SMap α} {k : Nat} {e : Nat × α} (h : e ∈ SMap.del m k) : e.1 ≠ k := by
  induction m with
  | nil => simp [SMap.del] at h
  | cons x m ih =>
    obtain ⟨j, v⟩ := x
    unfold SMap.del at h
    split at h
    · exact ih h
    · next hk =>
      simp only [List.mem_cons] at h
      rcases h with rfl | h
      · exact fun he => hk he.symm
      · exact ih h

/-- A write keeps the canonical form. -/
theorem SMap.wf_set [DecidableEq α] (d : Nat → α) {m : SMap α} (k : Nat) (v : α) (h : SMap.wf d m = true) :
    SMap.wf d (SMap.set d m k v) = true := by
  simp only [SMap.wf, Bool.and_eq_true, List.all_eq_true, decide_eq_true_eq] at h ⊢
  unfold SMap.set
  split
  · exact ⟨SMap.sorted_del k h.1, fun e he => h.2 e (SMap.mem_del he)⟩
  · next hv =>
    refine ⟨SMap.sorted_put k v h.1, fun e he => ?_⟩
    rcases SMap.mem_put he with rfl | he
    · exact hv
    · exact h.2 e he

end Sys2Proof.Machine
end

