-- ==== Sys2Proof/Laws/Luna.lean ====
section
/-! SUPPORT. The shared operations of the Luna instructions: what an issue does, the lanes of a packed vector, the bits of a
predicate, the bytes of a core's memory. -/

namespace Sys2Proof.Machine

/-- The form every Luna instruction has, where it issues: the state its effect gives, or the end of the task. -/
theorem lunaOp_issues {core : Core} {i : Instr} {s : State} {r : Run} (h : Issues core i s r) (f : Run → State → Exec) :
    lunaOp core i f s = .next (match f r s with | .ok t => t | .error e => progFault core.val e s) := by
  simp only [lunaOp, live, h.awake, issue, h.task, h.word]
  cases f r s <;> simp

/-- The form every Luna instruction that reads an SRAM has, where it issues: it waits, loses its word, or goes on. -/
theorem lunaRead_issues {core : Core} {i : Instr} {s : State} {k : Run} (h : Issues core i s k) (r : SramRead)
    (f : Run → State → Exec) : lunaRead core i r f s = .next (if rowStalled (52 + k.d) r s then s
      else if readLost r then lostWord core.val k.t (sramRead (52 + k.d) r s)
      else issue core i f (sramRead (52 + k.d) r s)) := by
  simp only [lunaRead, live, h.awake, issueRead, h.task, h.word]
  simp

/-- With a read that meets no error, it is the form of every other instruction. -/
theorem lunaRead_clean {core : Core} {i : Instr} {s : State} {r : Run} (h : Issues core i s r) (f : Run → State → Exec) :
    lunaRead core i .clean f s = .next (match f r s with | .ok t => t | .error e => progFault core.val e s) := by
  rw [lunaRead_issues h]
  simp only [rowStalled, readLost, sramRead, issue, h.task, h.word]
  cases f r s <;> simp

/-- The run of a core is of that core, and holds what the core holds. -/
theorem runOf_eq {core : Core} {s : State} {r : Run} (h : runOf core s = some r) :
    r.core = core ∧ r.d = core.val / 108 ∧ r.x = lcore core.val s ∧ r.x.run = some r.t ∧
      chunkOf r.d r.t.id s = some r.c := by
  unfold runOf at h
  cases hx : (lcore core.val s).run with
  | none => simp [hx] at h
  | some t =>
    simp only [hx, Option.map_eq_some_iff] at h
    obtain ⟨c, hc, rfl⟩ := h
    exact ⟨rfl, rfl, rfl, hx, hc⟩

@[simp] theorem lcore_setCore_self (c : Nat) (x : LCore) (s : State) : lcore c (setCore c x s) = x := by
  simp [lcore, setCore]

theorem lcore_setCore_ne {c k : Nat} (x : LCore) (s : State) (h : k ≠ c) : lcore k (setCore c x s) = lcore k s := by
  simp [lcore, setCore, SMap.get_set_ne _ _ _ h]

/-- The sum that packs lanes of `m` bits has a value below its top, and its lanes. -/
theorem packed_bits (m : Nat) (f : Nat → Nat) (n : Nat) :
    let p := (List.range n).foldl (fun a i => a + f i % 2 ^ m * 2 ^ (m * i)) 0
    p < 2 ^ (m * n) ∧ ∀ i < n, bits p (m * i) m = f i % 2 ^ m := by
  induction n with
  | zero => simp
  | succ n ih =>
    simp only [List.range_succ, List.foldl_append, List.foldl_cons, List.foldl_nil]
    obtain ⟨h1, h2⟩ := ih
    generalize hp : (List.range n).foldl (fun a i => a + f i % 2 ^ m * 2 ^ (m * i)) 0 = p at h1 h2 ⊢
    have hm : f n % 2 ^ m < 2 ^ m := Nat.mod_lt _ (Nat.two_pow_pos m)
    refine ⟨?_, ?_⟩
    · calc p + f n % 2 ^ m * 2 ^ (m * n) < 2 ^ (m * n) + f n % 2 ^ m * 2 ^ (m * n) := by omega
        _ = (f n % 2 ^ m + 1) * 2 ^ (m * n) := by ring
        _ ≤ 2 ^ m * 2 ^ (m * n) := Nat.mul_le_mul_right _ hm
        _ = 2 ^ (m * (n + 1)) := by rw [← Nat.pow_add]; congr 1; ring
    · have e : p + f n % 2 ^ m * 2 ^ (m * n) = 2 ^ (m * n) * (f n % 2 ^ m) + p := by ring
      intro i hi
      apply Nat.eq_of_testBit_eq
      intro j
      rw [testBit_bits, e, Nat.testBit_two_pow_mul_add _ h1]
      by_cases hin : i = n
      · subst hin
        by_cases hj : j < m
        · have h4 : ¬(m * i + j < m * i) := by omega
          simp [hj, h4]
        · simp [hj, Nat.testBit_mod_two_pow]
      · have hlt : i < n := by omega
        rw [← h2 i hlt, testBit_bits]
        by_cases hj : j < m
        · have h5 : m * i + m ≤ m * n := by
            calc m * i + m = m * (i + 1) := by ring
              _ ≤ m * n := Nat.mul_le_mul_left _ hlt
          have h4 : m * i + j < m * n := by omega
          simp [hj, h4]
        · simp [hj]

/-- A lane of a packed vector is the function's value, cut to the lane. -/
theorem laneGet_packLanes {w : Nat} (hw : w = 1 ∨ w = 2 ∨ w = 4 ∨ w = 8) (f : Nat → Nat) {i : Nat} (hi : i < 64 / w) :
    laneGet w (packLanes w f) i = f i % 2 ^ (8 * w) := by
  have hp := packed_bits (8 * w) f (64 / w)
  have hle : 8 * w * (64 / w) = 512 := by rcases hw with rfl | rfl | rfl | rfl <;> rfl
  rw [hle] at hp
  unfold laneGet packLanes
  rw [BitVec.toNat_ofNat, Nat.mod_eq_of_lt hp.1]
  exact hp.2 i hi

theorem laneGet_lt (w : Nat) (v : BitVec 512) (i : Nat) : laneGet w v i < 2 ^ (8 * w) := bits_lt _ _ _

theorem ElemT.size_cases (t : ElemT) : t.size = 1 ∨ t.size = 2 ∨ t.size = 4 ∨ t.size = 8 := by
  cases t <;> decide

/-- A merged vector: the function's value in an enabled lane, the old lane elsewhere. -/
theorem laneGet_mergeLanes {w : Nat} (hw : w = 1 ∨ w = 2 ∨ w = 4 ∨ w = 8) (old : BitVec 512) (on : Nat → Bool)
    (f : Nat → Nat) {i : Nat} (hi : i < 64 / w) :
    laneGet w (mergeLanes w old on f) i = if on i then f i % 2 ^ (8 * w) else laneGet w old i := by
  rw [mergeLanes, laneGet_packLanes hw _ hi]
  split
  · rfl
  · exact Nat.mod_eq_of_lt (laneGet_lt w old i)

/-- The bits of a word built from a list. -/
theorem getLsbD_bitsOf (l : List Nat) (i : Nat) : (bitsOf l).getLsbD i = (decide (i < 64) && decide (i ∈ l)) := by
  have h : ∀ (l : List Nat) (w : Word), (l.foldl (fun w i => w ||| BitVec.twoPow 64 i) w).getLsbD i =
      (w.getLsbD i || (decide (i < 64) && decide (i ∈ l))) := by
    intro l
    induction l with
    | nil => simp
    | cons a l ih =>
      intro w
      rw [List.foldl_cons, ih]
      simp only [BitVec.getLsbD_or, BitVec.getLsbD_twoPow, List.mem_cons]
      by_cases h1 : i < 64 <;> by_cases h2 : i = a <;> simp [h1, h2, eq_comm (a := a)]
      all_goals (intro h; omega)
  rw [bitsOf, h]
  simp

theorem mem_enabledLanes {p : Word} {n i : Nat} : i ∈ enabledLanes p n ↔ i < n ∧ p.getLsbD i = true := by
  simp [enabledLanes]

/-- One byte of a core's memory after a write. -/
theorem get_memPut (m : SMap Byte) (a : Nat) (bs : List Byte) (b : Nat) :
    SMap.get (fun _ => 0) (memPut m a bs) b =
      if a ≤ b then (bs[b - a]?).getD (SMap.get (fun _ => 0) m b) else SMap.get (fun _ => 0) m b := by
  induction bs generalizing m a with
  | nil => simp [memPut]
  | cons x bs ih =>
    rw [memPut, ih, SMap.get_set]
    by_cases h1 : a + 1 ≤ b
    · have h2 : a ≤ b := by omega
      have h3 : b ≠ a := by omega
      have h4 : b - a = (b - (a + 1)) + 1 := by omega
      simp [h1, h2, h3, h4]
    · by_cases h2 : b = a
      · subst h2; simp
      · have h3 : ¬(a ≤ b) := by omega
        simp [h1, h2, h3]

theorem wf_memPut {m : SMap Byte} (a : Nat) (bs : List Byte) (h : SMap.wf (fun _ => (0 : Byte)) m = true) :
    SMap.wf (fun _ => (0 : Byte)) (memPut m a bs) = true := by
  induction bs generalizing m a with
  | nil => exact h
  | cons x bs ih => exact ih (a + 1) (SMap.wf_set _ a x h)

/-- The entries found are one for each number asked. -/
theorem length_entries {f : Nat → Option Nat} {ks es : List Nat} (h : entries f ks = some es) : es.length = ks.length := by
  induction ks generalizing es with
  | nil => simp [entries] at h; simp [← h]
  | cons k ks ih =>
    simp only [entries] at h
    split at h
    · next h2 => cases h; simp [ih h2]
    · cases h

end Sys2Proof.Machine
end

