-- ==== Sys2Proof/Laws/State.lean ====
section
/-! SUPPORT. What each named update of the state leaves alone, field by field; what it leaves to read. -/

namespace Sys2Proof.Machine

/-! ### Fields that an update does not touch -/

@[simp] theorem emit_pending (o : Output) (s : State) : (emit o s).pending = s.pending := rfl
@[simp] theorem emit_free (o : Output) (s : State) : (emit o s).free = s.free := rfl
@[simp] theorem emit_fwd (o : Output) (s : State) : (emit o s).fwd = s.fwd := rfl
@[simp] theorem emit_obs (o : Output) (s : State) : (emit o s).obs = s.obs := rfl
@[simp] theorem emit_slices (o : Output) (s : State) : (emit o s).slices = s.slices := rfl
@[simp] theorem emit_links (o : Output) (s : State) : (emit o s).links = s.links := rfl
@[simp] theorem emit_power (o : Output) (s : State) : (emit o s).power = s.power := rfl
@[simp] theorem emit_flash (o : Output) (s : State) : (emit o s).flash = s.flash := rfl
@[simp] theorem emit_sram (o : Output) (s : State) : (emit o s).sram = s.sram := rfl
@[simp] theorem emit_rates (o : Output) (s : State) : (emit o s).rates = s.rates := rfl
@[simp] theorem emit_cw (o : Output) (s : State) : (emit o s).cw = s.cw := rfl
@[simp] theorem emit_cwGone (o : Output) (s : State) : (emit o s).cwGone = s.cwGone := rfl
@[simp] theorem emit_chain (o : Output) (s : State) : (emit o s).chain = s.chain := rfl
@[simp] theorem emit_tele (o : Output) (s : State) : (emit o s).tele = s.tele := rfl
@[simp] theorem emit_keys (o : Output) (s : State) : (emit o s).keys = s.keys := rfl
@[simp] theorem emit_mailboxes (o : Output) (s : State) : (emit o s).mailboxes = s.mailboxes := rfl
@[simp] theorem emit_oebs (o : Output) (s : State) : (emit o s).oebs = s.oebs := rfl
@[simp] theorem emit_skips (o : Output) (s : State) : (emit o s).skips = s.skips := rfl
@[simp] theorem emit_luna (o : Output) (s : State) : (emit o s).luna = s.luna := rfl
@[simp] theorem emit_cores (o : Output) (s : State) : (emit o s).cores = s.cores := rfl
@[simp] theorem emit_monarch (o : Output) (s : State) : (emit o s).monarch = s.monarch := rfl
@[simp] theorem emit_ox (o : Output) (s : State) : (emit o s).ox = s.ox := rfl
@[simp] theorem emit_oebA (o : Output) (s : State) : (emit o s).oebA = s.oebA := rfl
@[simp] theorem emit_oebB (o : Output) (s : State) : (emit o s).oebB = s.oebB := rfl
@[simp] theorem emit_unit (o : Output) (s : State) (v : UnitId) : (emit o s).unit v = s.unit v := by
  unfold State.unit; split <;> simp

@[simp] theorem draw_pending (s : State) : (draw s).pending = s.pending := rfl
@[simp] theorem draw_out (s : State) : (draw s).out = s.out := rfl
@[simp] theorem draw_fwd (s : State) : (draw s).fwd = s.fwd := rfl
@[simp] theorem draw_obs (s : State) : (draw s).obs = s.obs := rfl
@[simp] theorem draw_slices (s : State) : (draw s).slices = s.slices := rfl
@[simp] theorem draw_links (s : State) : (draw s).links = s.links := rfl
@[simp] theorem draw_power (s : State) : (draw s).power = s.power := rfl
@[simp] theorem draw_flash (s : State) : (draw s).flash = s.flash := rfl
@[simp] theorem draw_sram (s : State) : (draw s).sram = s.sram := rfl
@[simp] theorem draw_rates (s : State) : (draw s).rates = s.rates := rfl
@[simp] theorem draw_cw (s : State) : (draw s).cw = s.cw := rfl
@[simp] theorem draw_cwGone (s : State) : (draw s).cwGone = s.cwGone := rfl
@[simp] theorem draw_chain (s : State) : (draw s).chain = s.chain := rfl
@[simp] theorem draw_tele (s : State) : (draw s).tele = s.tele := rfl
@[simp] theorem draw_keys (s : State) : (draw s).keys = s.keys := rfl
@[simp] theorem draw_mailboxes (s : State) : (draw s).mailboxes = s.mailboxes := rfl
@[simp] theorem draw_oebs (s : State) : (draw s).oebs = s.oebs := rfl
@[simp] theorem draw_skips (s : State) : (draw s).skips = s.skips := rfl
@[simp] theorem draw_luna (s : State) : (draw s).luna = s.luna := rfl
@[simp] theorem draw_cores (s : State) : (draw s).cores = s.cores := rfl
@[simp] theorem draw_monarch (s : State) : (draw s).monarch = s.monarch := rfl
@[simp] theorem draw_ox (s : State) : (draw s).ox = s.ox := rfl
@[simp] theorem draw_oebA (s : State) : (draw s).oebA = s.oebA := rfl
@[simp] theorem draw_oebB (s : State) : (draw s).oebB = s.oebB := rfl
@[simp] theorem draw_unit (s : State) (v : UnitId) : (draw s).unit v = s.unit v := by
  unfold State.unit; split <;> simp

@[simp] theorem noteChange_pending (s : State) : (noteChange s).pending = s.pending := rfl
@[simp] theorem noteChange_out (s : State) : (noteChange s).out = s.out := rfl
@[simp] theorem noteChange_free (s : State) : (noteChange s).free = s.free := rfl
@[simp] theorem noteChange_fwd (s : State) : (noteChange s).fwd = s.fwd := rfl
@[simp] theorem noteChange_obs (s : State) : (noteChange s).obs = s.obs := rfl
@[simp] theorem noteChange_slices (s : State) : (noteChange s).slices = s.slices := rfl
@[simp] theorem noteChange_links (s : State) : (noteChange s).links = s.links := rfl
@[simp] theorem noteChange_power (s : State) : (noteChange s).power = s.power := rfl
@[simp] theorem noteChange_flash (s : State) : (noteChange s).flash = s.flash := rfl
@[simp] theorem noteChange_sram (s : State) : (noteChange s).sram = s.sram := rfl
@[simp] theorem noteChange_rates (s : State) : (noteChange s).rates = s.rates := rfl
@[simp] theorem noteChange_cw (s : State) : (noteChange s).cw = s.cw := rfl
@[simp] theorem noteChange_cwGone (s : State) : (noteChange s).cwGone = s.cwGone := rfl
@[simp] theorem noteChange_chain (s : State) : (noteChange s).chain = s.chain := rfl
@[simp] theorem noteChange_tele (s : State) : (noteChange s).tele = s.tele := rfl
@[simp] theorem noteChange_keys (s : State) : (noteChange s).keys = s.keys := rfl
@[simp] theorem noteChange_mailboxes (s : State) : (noteChange s).mailboxes = s.mailboxes := rfl
@[simp] theorem noteChange_oebs (s : State) : (noteChange s).oebs = s.oebs := rfl
@[simp] theorem noteChange_skips (s : State) : (noteChange s).skips = s.skips := rfl
@[simp] theorem noteChange_luna (s : State) : (noteChange s).luna = s.luna := rfl
@[simp] theorem noteChange_cores (s : State) : (noteChange s).cores = s.cores := rfl
@[simp] theorem noteChange_ox (s : State) : (noteChange s).ox = s.ox := rfl
@[simp] theorem noteChange_oebA (s : State) : (noteChange s).oebA = s.oebA := rfl
@[simp] theorem noteChange_oebB (s : State) : (noteChange s).oebB = s.oebB := rfl
@[simp] theorem noteChange_unit (s : State) (v : UnitId) : (noteChange s).unit v = s.unit v := by
  unfold State.unit; split <;> simp

@[simp] theorem setLink_pending (k : Nat) (l : Link) (s : State) : (setLink k l s).pending = s.pending := rfl
@[simp] theorem setLink_out (k : Nat) (l : Link) (s : State) : (setLink k l s).out = s.out := rfl
@[simp] theorem setLink_free (k : Nat) (l : Link) (s : State) : (setLink k l s).free = s.free := rfl
@[simp] theorem setLink_fwd (k : Nat) (l : Link) (s : State) : (setLink k l s).fwd = s.fwd := rfl
@[simp] theorem setLink_obs (k : Nat) (l : Link) (s : State) : (setLink k l s).obs = s.obs := rfl
@[simp] theorem setLink_slices (k : Nat) (l : Link) (s : State) : (setLink k l s).slices = s.slices := rfl
@[simp] theorem setLink_power (k : Nat) (l : Link) (s : State) : (setLink k l s).power = s.power := rfl
@[simp] theorem setLink_flash (k : Nat) (l : Link) (s : State) : (setLink k l s).flash = s.flash := rfl
@[simp] theorem setLink_sram (k : Nat) (l : Link) (s : State) : (setLink k l s).sram = s.sram := rfl
@[simp] theorem setLink_rates (k : Nat) (l : Link) (s : State) : (setLink k l s).rates = s.rates := rfl
@[simp] theorem setLink_cw (k : Nat) (l : Link) (s : State) : (setLink k l s).cw = s.cw := rfl
@[simp] theorem setLink_cwGone (k : Nat) (l : Link) (s : State) : (setLink k l s).cwGone = s.cwGone := rfl
@[simp] theorem setLink_chain (k : Nat) (l : Link) (s : State) : (setLink k l s).chain = s.chain := rfl
@[simp] theorem setLink_tele (k : Nat) (l : Link) (s : State) : (setLink k l s).tele = s.tele := rfl
@[simp] theorem setLink_keys (k : Nat) (l : Link) (s : State) : (setLink k l s).keys = s.keys := rfl
@[simp] theorem setLink_mailboxes (k : Nat) (l : Link) (s : State) : (setLink k l s).mailboxes = s.mailboxes := rfl
@[simp] theorem setLink_oebs (k : Nat) (l : Link) (s : State) : (setLink k l s).oebs = s.oebs := rfl
@[simp] theorem setLink_skips (k : Nat) (l : Link) (s : State) : (setLink k l s).skips = s.skips := rfl
@[simp] theorem setLink_luna (k : Nat) (l : Link) (s : State) : (setLink k l s).luna = s.luna := rfl
@[simp] theorem setLink_cores (k : Nat) (l : Link) (s : State) : (setLink k l s).cores = s.cores := rfl
@[simp] theorem setLink_monarch (k : Nat) (l : Link) (s : State) : (setLink k l s).monarch = s.monarch := rfl
@[simp] theorem setLink_ox (k : Nat) (l : Link) (s : State) : (setLink k l s).ox = s.ox := rfl
@[simp] theorem setLink_oebA (k : Nat) (l : Link) (s : State) : (setLink k l s).oebA = s.oebA := rfl
@[simp] theorem setLink_oebB (k : Nat) (l : Link) (s : State) : (setLink k l s).oebB = s.oebB := rfl
@[simp] theorem setLink_unit (k : Nat) (l : Link) (s : State) (v : UnitId) : (setLink k l s).unit v = s.unit v := by
  unfold State.unit; split <;> simp

@[simp] theorem setAux_pending (k : Nat) (l : LinkAux) (s : State) : (setAux k l s).pending = s.pending := rfl
@[simp] theorem setAux_out (k : Nat) (l : LinkAux) (s : State) : (setAux k l s).out = s.out := rfl
@[simp] theorem setAux_free (k : Nat) (l : LinkAux) (s : State) : (setAux k l s).free = s.free := rfl
@[simp] theorem setAux_fwd (k : Nat) (l : LinkAux) (s : State) : (setAux k l s).fwd = s.fwd := rfl
@[simp] theorem setAux_obs (k : Nat) (l : LinkAux) (s : State) : (setAux k l s).obs = s.obs := rfl
@[simp] theorem setAux_slices (k : Nat) (l : LinkAux) (s : State) : (setAux k l s).slices = s.slices := rfl
@[simp] theorem setAux_power (k : Nat) (l : LinkAux) (s : State) : (setAux k l s).power = s.power := rfl
@[simp] theorem setAux_flash (k : Nat) (l : LinkAux) (s : State) : (setAux k l s).flash = s.flash := rfl
@[simp] theorem setAux_sram (k : Nat) (l : LinkAux) (s : State) : (setAux k l s).sram = s.sram := rfl
@[simp] theorem setAux_rates (k : Nat) (l : LinkAux) (s : State) : (setAux k l s).rates = s.rates := rfl
@[simp] theorem setAux_cw (k : Nat) (l : LinkAux) (s : State) : (setAux k l s).cw = s.cw := rfl
@[simp] theorem setAux_cwGone (k : Nat) (l : LinkAux) (s : State) : (setAux k l s).cwGone = s.cwGone := rfl
@[simp] theorem setAux_chain (k : Nat) (l : LinkAux) (s : State) : (setAux k l s).chain = s.chain := rfl
@[simp] theorem setAux_tele (k : Nat) (l : LinkAux) (s : State) : (setAux k l s).tele = s.tele := rfl
@[simp] theorem setAux_keys (k : Nat) (l : LinkAux) (s : State) : (setAux k l s).keys = s.keys := rfl
@[simp] theorem setAux_mailboxes (k : Nat) (l : LinkAux) (s : State) : (setAux k l s).mailboxes = s.mailboxes := rfl
@[simp] theorem setAux_oebs (k : Nat) (l : LinkAux) (s : State) : (setAux k l s).oebs = s.oebs := rfl
@[simp] theorem setAux_skips (k : Nat) (l : LinkAux) (s : State) : (setAux k l s).skips = s.skips := rfl
@[simp] theorem setAux_luna (k : Nat) (l : LinkAux) (s : State) : (setAux k l s).luna = s.luna := rfl
@[simp] theorem setAux_cores (k : Nat) (l : LinkAux) (s : State) : (setAux k l s).cores = s.cores := rfl
@[simp] theorem setAux_monarch (k : Nat) (l : LinkAux) (s : State) : (setAux k l s).monarch = s.monarch := rfl
@[simp] theorem setAux_ox (k : Nat) (l : LinkAux) (s : State) : (setAux k l s).ox = s.ox := rfl
@[simp] theorem setAux_oebA (k : Nat) (l : LinkAux) (s : State) : (setAux k l s).oebA = s.oebA := rfl
@[simp] theorem setAux_oebB (k : Nat) (l : LinkAux) (s : State) : (setAux k l s).oebB = s.oebB := rfl
@[simp] theorem setAux_unit (k : Nat) (l : LinkAux) (s : State) (v : UnitId) : (setAux k l s).unit v = s.unit v := by
  unfold State.unit; split <;> simp

@[simp] theorem modLink_pending (e : LinkEnd) (f : Link → Link) (s : State) : (modLink e f s).pending = s.pending := by simp [modLink]
@[simp] theorem modLink_out (e : LinkEnd) (f : Link → Link) (s : State) : (modLink e f s).out = s.out := by simp [modLink]
@[simp] theorem modLink_free (e : LinkEnd) (f : Link → Link) (s : State) : (modLink e f s).free = s.free := by simp [modLink]
@[simp] theorem modLink_fwd (e : LinkEnd) (f : Link → Link) (s : State) : (modLink e f s).fwd = s.fwd := by simp [modLink]
@[simp] theorem modLink_obs (e : LinkEnd) (f : Link → Link) (s : State) : (modLink e f s).obs = s.obs := by simp [modLink]
@[simp] theorem modLink_slices (e : LinkEnd) (f : Link → Link) (s : State) : (modLink e f s).slices = s.slices := by simp [modLink]
@[simp] theorem modLink_power (e : LinkEnd) (f : Link → Link) (s : State) : (modLink e f s).power = s.power := by simp [modLink]
@[simp] theorem modLink_flash (e : LinkEnd) (f : Link → Link) (s : State) : (modLink e f s).flash = s.flash := by simp [modLink]
@[simp] theorem modLink_sram (e : LinkEnd) (f : Link → Link) (s : State) : (modLink e f s).sram = s.sram := by simp [modLink]
@[simp] theorem modLink_rates (e : LinkEnd) (f : Link → Link) (s : State) : (modLink e f s).rates = s.rates := by simp [modLink]
@[simp] theorem modLink_cw (e : LinkEnd) (f : Link → Link) (s : State) : (modLink e f s).cw = s.cw := by simp [modLink]
@[simp] theorem modLink_cwGone (e : LinkEnd) (f : Link → Link) (s : State) : (modLink e f s).cwGone = s.cwGone := by simp [modLink]
@[simp] theorem modLink_chain (e : LinkEnd) (f : Link → Link) (s : State) : (modLink e f s).chain = s.chain := by simp [modLink]
@[simp] theorem modLink_tele (e : LinkEnd) (f : Link → Link) (s : State) : (modLink e f s).tele = s.tele := by simp [modLink]
@[simp] theorem modLink_keys (e : LinkEnd) (f : Link → Link) (s : State) : (modLink e f s).keys = s.keys := by simp [modLink]
@[simp] theorem modLink_mailboxes (e : LinkEnd) (f : Link → Link) (s : State) : (modLink e f s).mailboxes = s.mailboxes := by simp [modLink]
@[simp] theorem modLink_oebs (e : LinkEnd) (f : Link → Link) (s : State) : (modLink e f s).oebs = s.oebs := by simp [modLink]
@[simp] theorem modLink_skips (e : LinkEnd) (f : Link → Link) (s : State) : (modLink e f s).skips = s.skips := by simp [modLink]
@[simp] theorem modLink_luna (e : LinkEnd) (f : Link → Link) (s : State) : (modLink e f s).luna = s.luna := by simp [modLink]
@[simp] theorem modLink_cores (e : LinkEnd) (f : Link → Link) (s : State) : (modLink e f s).cores = s.cores := by simp [modLink]
@[simp] theorem modLink_monarch (e : LinkEnd) (f : Link → Link) (s : State) : (modLink e f s).monarch = s.monarch := by simp [modLink]
@[simp] theorem modLink_ox (e : LinkEnd) (f : Link → Link) (s : State) : (modLink e f s).ox = s.ox := by simp [modLink]
@[simp] theorem modLink_oebA (e : LinkEnd) (f : Link → Link) (s : State) : (modLink e f s).oebA = s.oebA := by simp [modLink]
@[simp] theorem modLink_oebB (e : LinkEnd) (f : Link → Link) (s : State) : (modLink e f s).oebB = s.oebB := by simp [modLink]
@[simp] theorem modLink_unit (e : LinkEnd) (f : Link → Link) (s : State) (v : UnitId) : (modLink e f s).unit v = s.unit v := by
  unfold State.unit; split <;> simp

@[simp] theorem modAux_pending (e : LinkEnd) (f : LinkAux → LinkAux) (s : State) : (modAux e f s).pending = s.pending := by simp [modAux]
@[simp] theorem modAux_out (e : LinkEnd) (f : LinkAux → LinkAux) (s : State) : (modAux e f s).out = s.out := by simp [modAux]
@[simp] theorem modAux_free (e : LinkEnd) (f : LinkAux → LinkAux) (s : State) : (modAux e f s).free = s.free := by simp [modAux]
@[simp] theorem modAux_fwd (e : LinkEnd) (f : LinkAux → LinkAux) (s : State) : (modAux e f s).fwd = s.fwd := by simp [modAux]
@[simp] theorem modAux_obs (e : LinkEnd) (f : LinkAux → LinkAux) (s : State) : (modAux e f s).obs = s.obs := by simp [modAux]
@[simp] theorem modAux_slices (e : LinkEnd) (f : LinkAux → LinkAux) (s : State) : (modAux e f s).slices = s.slices := by simp [modAux]
@[simp] theorem modAux_power (e : LinkEnd) (f : LinkAux → LinkAux) (s : State) : (modAux e f s).power = s.power := by simp [modAux]
@[simp] theorem modAux_flash (e : LinkEnd) (f : LinkAux → LinkAux) (s : State) : (modAux e f s).flash = s.flash := by simp [modAux]
@[simp] theorem modAux_sram (e : LinkEnd) (f : LinkAux → LinkAux) (s : State) : (modAux e f s).sram = s.sram := by simp [modAux]
@[simp] theorem modAux_rates (e : LinkEnd) (f : LinkAux → LinkAux) (s : State) : (modAux e f s).rates = s.rates := by simp [modAux]
@[simp] theorem modAux_cw (e : LinkEnd) (f : LinkAux → LinkAux) (s : State) : (modAux e f s).cw = s.cw := by simp [modAux]
@[simp] theorem modAux_cwGone (e : LinkEnd) (f : LinkAux → LinkAux) (s : State) : (modAux e f s).cwGone = s.cwGone := by simp [modAux]
@[simp] theorem modAux_chain (e : LinkEnd) (f : LinkAux → LinkAux) (s : State) : (modAux e f s).chain = s.chain := by simp [modAux]
@[simp] theorem modAux_tele (e : LinkEnd) (f : LinkAux → LinkAux) (s : State) : (modAux e f s).tele = s.tele := by simp [modAux]
@[simp] theorem modAux_keys (e : LinkEnd) (f : LinkAux → LinkAux) (s : State) : (modAux e f s).keys = s.keys := by simp [modAux]
@[simp] theorem modAux_mailboxes (e : LinkEnd) (f : LinkAux → LinkAux) (s : State) : (modAux e f s).mailboxes = s.mailboxes := by simp [modAux]
@[simp] theorem modAux_oebs (e : LinkEnd) (f : LinkAux → LinkAux) (s : State) : (modAux e f s).oebs = s.oebs := by simp [modAux]
@[simp] theorem modAux_skips (e : LinkEnd) (f : LinkAux → LinkAux) (s : State) : (modAux e f s).skips = s.skips := by simp [modAux]
@[simp] theorem modAux_luna (e : LinkEnd) (f : LinkAux → LinkAux) (s : State) : (modAux e f s).luna = s.luna := by simp [modAux]
@[simp] theorem modAux_cores (e : LinkEnd) (f : LinkAux → LinkAux) (s : State) : (modAux e f s).cores = s.cores := by simp [modAux]
@[simp] theorem modAux_monarch (e : LinkEnd) (f : LinkAux → LinkAux) (s : State) : (modAux e f s).monarch = s.monarch := by simp [modAux]
@[simp] theorem modAux_ox (e : LinkEnd) (f : LinkAux → LinkAux) (s : State) : (modAux e f s).ox = s.ox := by simp [modAux]
@[simp] theorem modAux_oebA (e : LinkEnd) (f : LinkAux → LinkAux) (s : State) : (modAux e f s).oebA = s.oebA := by simp [modAux]
@[simp] theorem modAux_oebB (e : LinkEnd) (f : LinkAux → LinkAux) (s : State) : (modAux e f s).oebB = s.oebB := by simp [modAux]
@[simp] theorem modAux_unit (e : LinkEnd) (f : LinkAux → LinkAux) (s : State) (v : UnitId) : (modAux e f s).unit v = s.unit v := by
  unfold State.unit; split <;> simp

@[simp] theorem setUnitLog_pending (x : UnitLog) (s : State) : (setUnitLog x s).pending = s.pending := rfl
@[simp] theorem setUnitLog_out (x : UnitLog) (s : State) : (setUnitLog x s).out = s.out := rfl
@[simp] theorem setUnitLog_free (x : UnitLog) (s : State) : (setUnitLog x s).free = s.free := rfl
@[simp] theorem setUnitLog_fwd (x : UnitLog) (s : State) : (setUnitLog x s).fwd = s.fwd := rfl
@[simp] theorem setUnitLog_obs (x : UnitLog) (s : State) : (setUnitLog x s).obs = s.obs := rfl
@[simp] theorem setUnitLog_slices (x : UnitLog) (s : State) : (setUnitLog x s).slices = s.slices := rfl
@[simp] theorem setUnitLog_links (x : UnitLog) (s : State) : (setUnitLog x s).links = s.links := rfl
@[simp] theorem setUnitLog_power (x : UnitLog) (s : State) : (setUnitLog x s).power = s.power := rfl
@[simp] theorem setUnitLog_sram (x : UnitLog) (s : State) : (setUnitLog x s).sram = s.sram := rfl
@[simp] theorem setUnitLog_rates (x : UnitLog) (s : State) : (setUnitLog x s).rates = s.rates := rfl
@[simp] theorem setUnitLog_cw (x : UnitLog) (s : State) : (setUnitLog x s).cw = s.cw := rfl
@[simp] theorem setUnitLog_cwGone (x : UnitLog) (s : State) : (setUnitLog x s).cwGone = s.cwGone := rfl
@[simp] theorem setUnitLog_chain (x : UnitLog) (s : State) : (setUnitLog x s).chain = s.chain := rfl
@[simp] theorem setUnitLog_tele (x : UnitLog) (s : State) : (setUnitLog x s).tele = s.tele := rfl
@[simp] theorem setUnitLog_keys (x : UnitLog) (s : State) : (setUnitLog x s).keys = s.keys := rfl
@[simp] theorem setUnitLog_mailboxes (x : UnitLog) (s : State) : (setUnitLog x s).mailboxes = s.mailboxes := rfl
@[simp] theorem setUnitLog_oebs (x : UnitLog) (s : State) : (setUnitLog x s).oebs = s.oebs := rfl
@[simp] theorem setUnitLog_skips (x : UnitLog) (s : State) : (setUnitLog x s).skips = s.skips := rfl
@[simp] theorem setUnitLog_luna (x : UnitLog) (s : State) : (setUnitLog x s).luna = s.luna := rfl
@[simp] theorem setUnitLog_cores (x : UnitLog) (s : State) : (setUnitLog x s).cores = s.cores := rfl
@[simp] theorem setUnitLog_monarch (x : UnitLog) (s : State) : (setUnitLog x s).monarch = s.monarch := rfl
@[simp] theorem setUnitLog_ox (x : UnitLog) (s : State) : (setUnitLog x s).ox = s.ox := rfl
@[simp] theorem setUnitLog_oebA (x : UnitLog) (s : State) : (setUnitLog x s).oebA = s.oebA := rfl
@[simp] theorem setUnitLog_oebB (x : UnitLog) (s : State) : (setUnitLog x s).oebB = s.oebB := rfl
@[simp] theorem setUnitLog_unit (x : UnitLog) (s : State) (v : UnitId) : (setUnitLog x s).unit v = s.unit v := by
  unfold State.unit; split <;> simp

@[simp] theorem withdraw_pending (k : UnitKind) (n : Nat) (p : Bool) (s : State) : (withdraw k n p s).pending = s.pending := rfl
@[simp] theorem withdraw_out (k : UnitKind) (n : Nat) (p : Bool) (s : State) : (withdraw k n p s).out = s.out := rfl
@[simp] theorem withdraw_free (k : UnitKind) (n : Nat) (p : Bool) (s : State) : (withdraw k n p s).free = s.free := rfl
@[simp] theorem withdraw_fwd (k : UnitKind) (n : Nat) (p : Bool) (s : State) : (withdraw k n p s).fwd = s.fwd := rfl
@[simp] theorem withdraw_obs (k : UnitKind) (n : Nat) (p : Bool) (s : State) : (withdraw k n p s).obs = s.obs := rfl
@[simp] theorem withdraw_slices (k : UnitKind) (n : Nat) (p : Bool) (s : State) : (withdraw k n p s).slices = s.slices := rfl
@[simp] theorem withdraw_links (k : UnitKind) (n : Nat) (p : Bool) (s : State) : (withdraw k n p s).links = s.links := rfl
@[simp] theorem withdraw_power (k : UnitKind) (n : Nat) (p : Bool) (s : State) : (withdraw k n p s).power = s.power := rfl
@[simp] theorem withdraw_sram (k : UnitKind) (n : Nat) (p : Bool) (s : State) : (withdraw k n p s).sram = s.sram := rfl
@[simp] theorem withdraw_rates (k : UnitKind) (n : Nat) (p : Bool) (s : State) : (withdraw k n p s).rates = s.rates := rfl
@[simp] theorem withdraw_cw (k : UnitKind) (n : Nat) (p : Bool) (s : State) : (withdraw k n p s).cw = s.cw := rfl
@[simp] theorem withdraw_cwGone (k : UnitKind) (n : Nat) (p : Bool) (s : State) : (withdraw k n p s).cwGone = s.cwGone := rfl
@[simp] theorem withdraw_chain (k : UnitKind) (n : Nat) (p : Bool) (s : State) : (withdraw k n p s).chain = s.chain := rfl
@[simp] theorem withdraw_tele (k : UnitKind) (n : Nat) (p : Bool) (s : State) : (withdraw k n p s).tele = s.tele := rfl
@[simp] theorem withdraw_keys (k : UnitKind) (n : Nat) (p : Bool) (s : State) : (withdraw k n p s).keys = s.keys := rfl
@[simp] theorem withdraw_mailboxes (k : UnitKind) (n : Nat) (p : Bool) (s : State) : (withdraw k n p s).mailboxes = s.mailboxes := rfl
@[simp] theorem withdraw_oebs (k : UnitKind) (n : Nat) (p : Bool) (s : State) : (withdraw k n p s).oebs = s.oebs := rfl
@[simp] theorem withdraw_skips (k : UnitKind) (n : Nat) (p : Bool) (s : State) : (withdraw k n p s).skips = s.skips := rfl
@[simp] theorem withdraw_luna (k : UnitKind) (n : Nat) (p : Bool) (s : State) : (withdraw k n p s).luna = s.luna := rfl
@[simp] theorem withdraw_cores (k : UnitKind) (n : Nat) (p : Bool) (s : State) : (withdraw k n p s).cores = s.cores := rfl
@[simp] theorem withdraw_monarch (k : UnitKind) (n : Nat) (p : Bool) (s : State) : (withdraw k n p s).monarch = s.monarch := rfl
@[simp] theorem withdraw_ox (k : UnitKind) (n : Nat) (p : Bool) (s : State) : (withdraw k n p s).ox = s.ox := rfl
@[simp] theorem withdraw_oebA (k : UnitKind) (n : Nat) (p : Bool) (s : State) : (withdraw k n p s).oebA = s.oebA := rfl
@[simp] theorem withdraw_oebB (k : UnitKind) (n : Nat) (p : Bool) (s : State) : (withdraw k n p s).oebB = s.oebB := rfl
@[simp] theorem withdraw_unit (k : UnitKind) (n : Nat) (p : Bool) (s : State) (v : UnitId) : (withdraw k n p s).unit v = s.unit v := by
  unfold State.unit; split <;> simp

@[simp] theorem setUnit_pending (s : State) (u : UnitId) (x : UnitSt) : (s.setUnit u x).pending = s.pending := by
  unfold State.setUnit; split <;> rfl
@[simp] theorem setUnit_out (s : State) (u : UnitId) (x : UnitSt) : (s.setUnit u x).out = s.out := by
  unfold State.setUnit; split <;> rfl
@[simp] theorem setUnit_free (s : State) (u : UnitId) (x : UnitSt) : (s.setUnit u x).free = s.free := by
  unfold State.setUnit; split <;> rfl
@[simp] theorem setUnit_fwd (s : State) (u : UnitId) (x : UnitSt) : (s.setUnit u x).fwd = s.fwd := by
  unfold State.setUnit; split <;> rfl
@[simp] theorem setUnit_obs (s : State) (u : UnitId) (x : UnitSt) : (s.setUnit u x).obs = s.obs := by
  unfold State.setUnit; split <;> rfl
@[simp] theorem setUnit_slices (s : State) (u : UnitId) (x : UnitSt) : (s.setUnit u x).slices = s.slices := by
  unfold State.setUnit; split <;> rfl
@[simp] theorem setUnit_links (s : State) (u : UnitId) (x : UnitSt) : (s.setUnit u x).links = s.links := by
  unfold State.setUnit; split <;> rfl
@[simp] theorem setUnit_power (s : State) (u : UnitId) (x : UnitSt) : (s.setUnit u x).power = s.power := by
  unfold State.setUnit; split <;> rfl
@[simp] theorem setUnit_flash (s : State) (u : UnitId) (x : UnitSt) : (s.setUnit u x).flash = s.flash := by
  unfold State.setUnit; split <;> rfl
@[simp] theorem setUnit_sram (s : State) (u : UnitId) (x : UnitSt) : (s.setUnit u x).sram = s.sram := by
  unfold State.setUnit; split <;> rfl
@[simp] theorem setUnit_rates (s : State) (u : UnitId) (x : UnitSt) : (s.setUnit u x).rates = s.rates := by
  unfold State.setUnit; split <;> rfl
@[simp] theorem setUnit_cw (s : State) (u : UnitId) (x : UnitSt) : (s.setUnit u x).cw = s.cw := by
  unfold State.setUnit; split <;> rfl
@[simp] theorem setUnit_cwGone (s : State) (u : UnitId) (x : UnitSt) : (s.setUnit u x).cwGone = s.cwGone := by
  unfold State.setUnit; split <;> rfl
@[simp] theorem setUnit_chain (s : State) (u : UnitId) (x : UnitSt) : (s.setUnit u x).chain = s.chain := by
  unfold State.setUnit; split <;> rfl
@[simp] theorem setUnit_tele (s : State) (u : UnitId) (x : UnitSt) : (s.setUnit u x).tele = s.tele := by
  unfold State.setUnit; split <;> rfl
@[simp] theorem setUnit_keys (s : State) (u : UnitId) (x : UnitSt) : (s.setUnit u x).keys = s.keys := by
  unfold State.setUnit; split <;> rfl
@[simp] theorem setUnit_mailboxes (s : State) (u : UnitId) (x : UnitSt) : (s.setUnit u x).mailboxes = s.mailboxes := by
  unfold State.setUnit; split <;> rfl
@[simp] theorem setUnit_oebs (s : State) (u : UnitId) (x : UnitSt) : (s.setUnit u x).oebs = s.oebs := by
  unfold State.setUnit; split <;> rfl
@[simp] theorem setUnit_skips (s : State) (u : UnitId) (x : UnitSt) : (s.setUnit u x).skips = s.skips := by
  unfold State.setUnit; split <;> rfl
@[simp] theorem setUnit_luna (s : State) (u : UnitId) (x : UnitSt) : (s.setUnit u x).luna = s.luna := by
  unfold State.setUnit; split <;> rfl
@[simp] theorem setUnit_cores (s : State) (u : UnitId) (x : UnitSt) : (s.setUnit u x).cores = s.cores := by
  unfold State.setUnit; split <;> rfl
@[simp] theorem setUnit_monarch (s : State) (u : UnitId) (x : UnitSt) : (s.setUnit u x).monarch = s.monarch := by
  unfold State.setUnit; split <;> rfl

@[simp] theorem setW_pending (u : UnitId) (r : Reg) (i w : Nat) (v : Word) (s : State) : (setW u r i w v s).pending = s.pending := by simp [setW]
@[simp] theorem setW_out (u : UnitId) (r : Reg) (i w : Nat) (v : Word) (s : State) : (setW u r i w v s).out = s.out := by simp [setW]
@[simp] theorem setW_free (u : UnitId) (r : Reg) (i w : Nat) (v : Word) (s : State) : (setW u r i w v s).free = s.free := by simp [setW]
@[simp] theorem setW_fwd (u : UnitId) (r : Reg) (i w : Nat) (v : Word) (s : State) : (setW u r i w v s).fwd = s.fwd := by simp [setW]
@[simp] theorem setW_obs (u : UnitId) (r : Reg) (i w : Nat) (v : Word) (s : State) : (setW u r i w v s).obs = s.obs := by simp [setW]
@[simp] theorem setW_slices (u : UnitId) (r : Reg) (i w : Nat) (v : Word) (s : State) : (setW u r i w v s).slices = s.slices := by simp [setW]
@[simp] theorem setW_links (u : UnitId) (r : Reg) (i w : Nat) (v : Word) (s : State) : (setW u r i w v s).links = s.links := by simp [setW]
@[simp] theorem setW_power (u : UnitId) (r : Reg) (i w : Nat) (v : Word) (s : State) : (setW u r i w v s).power = s.power := by simp [setW]
@[simp] theorem setW_flash (u : UnitId) (r : Reg) (i w : Nat) (v : Word) (s : State) : (setW u r i w v s).flash = s.flash := by simp [setW]
@[simp] theorem setW_sram (u : UnitId) (r : Reg) (i w : Nat) (v : Word) (s : State) : (setW u r i w v s).sram = s.sram := by simp [setW]
@[simp] theorem setW_rates (u : UnitId) (r : Reg) (i w : Nat) (v : Word) (s : State) : (setW u r i w v s).rates = s.rates := by simp [setW]
@[simp] theorem setW_cw (u : UnitId) (r : Reg) (i w : Nat) (v : Word) (s : State) : (setW u r i w v s).cw = s.cw := by simp [setW]
@[simp] theorem setW_cwGone (u : UnitId) (r : Reg) (i w : Nat) (v : Word) (s : State) : (setW u r i w v s).cwGone = s.cwGone := by simp [setW]
@[simp] theorem setW_chain (u : UnitId) (r : Reg) (i w : Nat) (v : Word) (s : State) : (setW u r i w v s).chain = s.chain := by simp [setW]
@[simp] theorem setW_tele (u : UnitId) (r : Reg) (i w : Nat) (v : Word) (s : State) : (setW u r i w v s).tele = s.tele := by simp [setW]
@[simp] theorem setW_keys (u : UnitId) (r : Reg) (i w : Nat) (v : Word) (s : State) : (setW u r i w v s).keys = s.keys := by simp [setW]
@[simp] theorem setW_mailboxes (u : UnitId) (r : Reg) (i w : Nat) (v : Word) (s : State) : (setW u r i w v s).mailboxes = s.mailboxes := by simp [setW]
@[simp] theorem setW_oebs (u : UnitId) (r : Reg) (i w : Nat) (v : Word) (s : State) : (setW u r i w v s).oebs = s.oebs := by simp [setW]
@[simp] theorem setW_skips (u : UnitId) (r : Reg) (i w : Nat) (v : Word) (s : State) : (setW u r i w v s).skips = s.skips := by simp [setW]
@[simp] theorem setW_luna (u : UnitId) (r : Reg) (i w : Nat) (v : Word) (s : State) : (setW u r i w v s).luna = s.luna := by simp [setW]
@[simp] theorem setW_cores (u : UnitId) (r : Reg) (i w : Nat) (v : Word) (s : State) : (setW u r i w v s).cores = s.cores := by simp [setW]
@[simp] theorem setW_monarch (u : UnitId) (r : Reg) (i w : Nat) (v : Word) (s : State) : (setW u r i w v s).monarch = s.monarch := by simp [setW]

@[simp] theorem sf_pending (u : UnitId) (f : Fld) (i v : Nat) (s : State) : (sf u f i v s).pending = s.pending := by simp [sf]
@[simp] theorem sf_out (u : UnitId) (f : Fld) (i v : Nat) (s : State) : (sf u f i v s).out = s.out := by simp [sf]
@[simp] theorem sf_free (u : UnitId) (f : Fld) (i v : Nat) (s : State) : (sf u f i v s).free = s.free := by simp [sf]
@[simp] theorem sf_fwd (u : UnitId) (f : Fld) (i v : Nat) (s : State) : (sf u f i v s).fwd = s.fwd := by simp [sf]
@[simp] theorem sf_obs (u : UnitId) (f : Fld) (i v : Nat) (s : State) : (sf u f i v s).obs = s.obs := by simp [sf]
@[simp] theorem sf_slices (u : UnitId) (f : Fld) (i v : Nat) (s : State) : (sf u f i v s).slices = s.slices := by simp [sf]
@[simp] theorem sf_links (u : UnitId) (f : Fld) (i v : Nat) (s : State) : (sf u f i v s).links = s.links := by simp [sf]
@[simp] theorem sf_power (u : UnitId) (f : Fld) (i v : Nat) (s : State) : (sf u f i v s).power = s.power := by simp [sf]
@[simp] theorem sf_flash (u : UnitId) (f : Fld) (i v : Nat) (s : State) : (sf u f i v s).flash = s.flash := by simp [sf]
@[simp] theorem sf_sram (u : UnitId) (f : Fld) (i v : Nat) (s : State) : (sf u f i v s).sram = s.sram := by simp [sf]
@[simp] theorem sf_rates (u : UnitId) (f : Fld) (i v : Nat) (s : State) : (sf u f i v s).rates = s.rates := by simp [sf]
@[simp] theorem sf_cw (u : UnitId) (f : Fld) (i v : Nat) (s : State) : (sf u f i v s).cw = s.cw := by simp [sf]
@[simp] theorem sf_cwGone (u : UnitId) (f : Fld) (i v : Nat) (s : State) : (sf u f i v s).cwGone = s.cwGone := by simp [sf]
@[simp] theorem sf_chain (u : UnitId) (f : Fld) (i v : Nat) (s : State) : (sf u f i v s).chain = s.chain := by simp [sf]
@[simp] theorem sf_tele (u : UnitId) (f : Fld) (i v : Nat) (s : State) : (sf u f i v s).tele = s.tele := by simp [sf]
@[simp] theorem sf_keys (u : UnitId) (f : Fld) (i v : Nat) (s : State) : (sf u f i v s).keys = s.keys := by simp [sf]
@[simp] theorem sf_mailboxes (u : UnitId) (f : Fld) (i v : Nat) (s : State) : (sf u f i v s).mailboxes = s.mailboxes := by simp [sf]
@[simp] theorem sf_oebs (u : UnitId) (f : Fld) (i v : Nat) (s : State) : (sf u f i v s).oebs = s.oebs := by simp [sf]
@[simp] theorem sf_skips (u : UnitId) (f : Fld) (i v : Nat) (s : State) : (sf u f i v s).skips = s.skips := by simp [sf]
@[simp] theorem sf_luna (u : UnitId) (f : Fld) (i v : Nat) (s : State) : (sf u f i v s).luna = s.luna := by simp [sf]
@[simp] theorem sf_cores (u : UnitId) (f : Fld) (i v : Nat) (s : State) : (sf u f i v s).cores = s.cores := by simp [sf]
@[simp] theorem sf_monarch (u : UnitId) (f : Fld) (i v : Nat) (s : State) : (sf u f i v s).monarch = s.monarch := by simp [sf]

@[simp] theorem sx_pending (f : Fld) (i v : Nat) (s : State) : (sx f i v s).pending = s.pending := by simp [sx]
@[simp] theorem sx_out (f : Fld) (i v : Nat) (s : State) : (sx f i v s).out = s.out := by simp [sx]
@[simp] theorem sx_free (f : Fld) (i v : Nat) (s : State) : (sx f i v s).free = s.free := by simp [sx]
@[simp] theorem sx_fwd (f : Fld) (i v : Nat) (s : State) : (sx f i v s).fwd = s.fwd := by simp [sx]
@[simp] theorem sx_obs (f : Fld) (i v : Nat) (s : State) : (sx f i v s).obs = s.obs := by simp [sx]
@[simp] theorem sx_slices (f : Fld) (i v : Nat) (s : State) : (sx f i v s).slices = s.slices := by simp [sx]
@[simp] theorem sx_links (f : Fld) (i v : Nat) (s : State) : (sx f i v s).links = s.links := by simp [sx]
@[simp] theorem sx_power (f : Fld) (i v : Nat) (s : State) : (sx f i v s).power = s.power := by simp [sx]
@[simp] theorem sx_flash (f : Fld) (i v : Nat) (s : State) : (sx f i v s).flash = s.flash := by simp [sx]
@[simp] theorem sx_sram (f : Fld) (i v : Nat) (s : State) : (sx f i v s).sram = s.sram := by simp [sx]
@[simp] theorem sx_rates (f : Fld) (i v : Nat) (s : State) : (sx f i v s).rates = s.rates := by simp [sx]
@[simp] theorem sx_cw (f : Fld) (i v : Nat) (s : State) : (sx f i v s).cw = s.cw := by simp [sx]
@[simp] theorem sx_cwGone (f : Fld) (i v : Nat) (s : State) : (sx f i v s).cwGone = s.cwGone := by simp [sx]
@[simp] theorem sx_chain (f : Fld) (i v : Nat) (s : State) : (sx f i v s).chain = s.chain := by simp [sx]
@[simp] theorem sx_tele (f : Fld) (i v : Nat) (s : State) : (sx f i v s).tele = s.tele := by simp [sx]
@[simp] theorem sx_keys (f : Fld) (i v : Nat) (s : State) : (sx f i v s).keys = s.keys := by simp [sx]
@[simp] theorem sx_mailboxes (f : Fld) (i v : Nat) (s : State) : (sx f i v s).mailboxes = s.mailboxes := by simp [sx]
@[simp] theorem sx_oebs (f : Fld) (i v : Nat) (s : State) : (sx f i v s).oebs = s.oebs := by simp [sx]
@[simp] theorem sx_skips (f : Fld) (i v : Nat) (s : State) : (sx f i v s).skips = s.skips := by simp [sx]
@[simp] theorem sx_luna (f : Fld) (i v : Nat) (s : State) : (sx f i v s).luna = s.luna := by simp [sx]
@[simp] theorem sx_cores (f : Fld) (i v : Nat) (s : State) : (sx f i v s).cores = s.cores := by simp [sx]
@[simp] theorem sx_monarch (f : Fld) (i v : Nat) (s : State) : (sx f i v s).monarch = s.monarch := by simp [sx]

@[simp] theorem satAdd_pending (u : UnitId) (f : Fld) (i n : Nat) (s : State) : (satAdd u f i n s).pending = s.pending := by simp [satAdd]
@[simp] theorem satAdd_out (u : UnitId) (f : Fld) (i n : Nat) (s : State) : (satAdd u f i n s).out = s.out := by simp [satAdd]
@[simp] theorem satAdd_free (u : UnitId) (f : Fld) (i n : Nat) (s : State) : (satAdd u f i n s).free = s.free := by simp [satAdd]
@[simp] theorem satAdd_fwd (u : UnitId) (f : Fld) (i n : Nat) (s : State) : (satAdd u f i n s).fwd = s.fwd := by simp [satAdd]
@[simp] theorem satAdd_obs (u : UnitId) (f : Fld) (i n : Nat) (s : State) : (satAdd u f i n s).obs = s.obs := by simp [satAdd]
@[simp] theorem satAdd_slices (u : UnitId) (f : Fld) (i n : Nat) (s : State) : (satAdd u f i n s).slices = s.slices := by simp [satAdd]
@[simp] theorem satAdd_links (u : UnitId) (f : Fld) (i n : Nat) (s : State) : (satAdd u f i n s).links = s.links := by simp [satAdd]
@[simp] theorem satAdd_power (u : UnitId) (f : Fld) (i n : Nat) (s : State) : (satAdd u f i n s).power = s.power := by simp [satAdd]
@[simp] theorem satAdd_flash (u : UnitId) (f : Fld) (i n : Nat) (s : State) : (satAdd u f i n s).flash = s.flash := by simp [satAdd]
@[simp] theorem satAdd_sram (u : UnitId) (f : Fld) (i n : Nat) (s : State) : (satAdd u f i n s).sram = s.sram := by simp [satAdd]
@[simp] theorem satAdd_rates (u : UnitId) (f : Fld) (i n : Nat) (s : State) : (satAdd u f i n s).rates = s.rates := by simp [satAdd]
@[simp] theorem satAdd_cw (u : UnitId) (f : Fld) (i n : Nat) (s : State) : (satAdd u f i n s).cw = s.cw := by simp [satAdd]
@[simp] theorem satAdd_cwGone (u : UnitId) (f : Fld) (i n : Nat) (s : State) : (satAdd u f i n s).cwGone = s.cwGone := by simp [satAdd]
@[simp] theorem satAdd_chain (u : UnitId) (f : Fld) (i n : Nat) (s : State) : (satAdd u f i n s).chain = s.chain := by simp [satAdd]
@[simp] theorem satAdd_tele (u : UnitId) (f : Fld) (i n : Nat) (s : State) : (satAdd u f i n s).tele = s.tele := by simp [satAdd]
@[simp] theorem satAdd_keys (u : UnitId) (f : Fld) (i n : Nat) (s : State) : (satAdd u f i n s).keys = s.keys := by simp [satAdd]
@[simp] theorem satAdd_mailboxes (u : UnitId) (f : Fld) (i n : Nat) (s : State) : (satAdd u f i n s).mailboxes = s.mailboxes := by simp [satAdd]
@[simp] theorem satAdd_oebs (u : UnitId) (f : Fld) (i n : Nat) (s : State) : (satAdd u f i n s).oebs = s.oebs := by simp [satAdd]
@[simp] theorem satAdd_skips (u : UnitId) (f : Fld) (i n : Nat) (s : State) : (satAdd u f i n s).skips = s.skips := by simp [satAdd]
@[simp] theorem satAdd_luna (u : UnitId) (f : Fld) (i n : Nat) (s : State) : (satAdd u f i n s).luna = s.luna := by simp [satAdd]
@[simp] theorem satAdd_cores (u : UnitId) (f : Fld) (i n : Nat) (s : State) : (satAdd u f i n s).cores = s.cores := by simp [satAdd]
@[simp] theorem satAdd_monarch (u : UnitId) (f : Fld) (i n : Nat) (s : State) : (satAdd u f i n s).monarch = s.monarch := by simp [satAdd]

@[simp] theorem countN_pending (u : UnitId) (p : Place) (c : Ctr) (n : Nat) (s : State) : (countN u p c n s).pending = s.pending := by simp [countN]
@[simp] theorem countN_out (u : UnitId) (p : Place) (c : Ctr) (n : Nat) (s : State) : (countN u p c n s).out = s.out := by simp [countN]
@[simp] theorem countN_free (u : UnitId) (p : Place) (c : Ctr) (n : Nat) (s : State) : (countN u p c n s).free = s.free := by simp [countN]
@[simp] theorem countN_fwd (u : UnitId) (p : Place) (c : Ctr) (n : Nat) (s : State) : (countN u p c n s).fwd = s.fwd := by simp [countN]
@[simp] theorem countN_obs (u : UnitId) (p : Place) (c : Ctr) (n : Nat) (s : State) : (countN u p c n s).obs = s.obs := by simp [countN]
@[simp] theorem countN_slices (u : UnitId) (p : Place) (c : Ctr) (n : Nat) (s : State) : (countN u p c n s).slices = s.slices := by simp [countN]
@[simp] theorem countN_links (u : UnitId) (p : Place) (c : Ctr) (n : Nat) (s : State) : (countN u p c n s).links = s.links := by simp [countN]
@[simp] theorem countN_power (u : UnitId) (p : Place) (c : Ctr) (n : Nat) (s : State) : (countN u p c n s).power = s.power := by simp [countN]
@[simp] theorem countN_flash (u : UnitId) (p : Place) (c : Ctr) (n : Nat) (s : State) : (countN u p c n s).flash = s.flash := by simp [countN]
@[simp] theorem countN_sram (u : UnitId) (p : Place) (c : Ctr) (n : Nat) (s : State) : (countN u p c n s).sram = s.sram := by simp [countN]
@[simp] theorem countN_rates (u : UnitId) (p : Place) (c : Ctr) (n : Nat) (s : State) : (countN u p c n s).rates = s.rates := by simp [countN]
@[simp] theorem countN_cw (u : UnitId) (p : Place) (c : Ctr) (n : Nat) (s : State) : (countN u p c n s).cw = s.cw := by simp [countN]
@[simp] theorem countN_cwGone (u : UnitId) (p : Place) (c : Ctr) (n : Nat) (s : State) : (countN u p c n s).cwGone = s.cwGone := by simp [countN]
@[simp] theorem countN_chain (u : UnitId) (p : Place) (c : Ctr) (n : Nat) (s : State) : (countN u p c n s).chain = s.chain := by simp [countN]
@[simp] theorem countN_tele (u : UnitId) (p : Place) (c : Ctr) (n : Nat) (s : State) : (countN u p c n s).tele = s.tele := by simp [countN]
@[simp] theorem countN_keys (u : UnitId) (p : Place) (c : Ctr) (n : Nat) (s : State) : (countN u p c n s).keys = s.keys := by simp [countN]
@[simp] theorem countN_mailboxes (u : UnitId) (p : Place) (c : Ctr) (n : Nat) (s : State) : (countN u p c n s).mailboxes = s.mailboxes := by simp [countN]
@[simp] theorem countN_oebs (u : UnitId) (p : Place) (c : Ctr) (n : Nat) (s : State) : (countN u p c n s).oebs = s.oebs := by simp [countN]
@[simp] theorem countN_skips (u : UnitId) (p : Place) (c : Ctr) (n : Nat) (s : State) : (countN u p c n s).skips = s.skips := by simp [countN]
@[simp] theorem countN_luna (u : UnitId) (p : Place) (c : Ctr) (n : Nat) (s : State) : (countN u p c n s).luna = s.luna := by simp [countN]
@[simp] theorem countN_cores (u : UnitId) (p : Place) (c : Ctr) (n : Nat) (s : State) : (countN u p c n s).cores = s.cores := by simp [countN]
@[simp] theorem countN_monarch (u : UnitId) (p : Place) (c : Ctr) (n : Nat) (s : State) : (countN u p c n s).monarch = s.monarch := by simp [countN]

@[simp] theorem countG_pending (c : Ctr) (s : State) : (countG c s).pending = s.pending := by simp [countG]
@[simp] theorem countG_out (c : Ctr) (s : State) : (countG c s).out = s.out := by simp [countG]
@[simp] theorem countG_free (c : Ctr) (s : State) : (countG c s).free = s.free := by simp [countG]
@[simp] theorem countG_fwd (c : Ctr) (s : State) : (countG c s).fwd = s.fwd := by simp [countG]
@[simp] theorem countG_obs (c : Ctr) (s : State) : (countG c s).obs = s.obs := by simp [countG]
@[simp] theorem countG_slices (c : Ctr) (s : State) : (countG c s).slices = s.slices := by simp [countG]
@[simp] theorem countG_links (c : Ctr) (s : State) : (countG c s).links = s.links := by simp [countG]
@[simp] theorem countG_power (c : Ctr) (s : State) : (countG c s).power = s.power := by simp [countG]
@[simp] theorem countG_flash (c : Ctr) (s : State) : (countG c s).flash = s.flash := by simp [countG]
@[simp] theorem countG_sram (c : Ctr) (s : State) : (countG c s).sram = s.sram := by simp [countG]
@[simp] theorem countG_rates (c : Ctr) (s : State) : (countG c s).rates = s.rates := by simp [countG]
@[simp] theorem countG_cw (c : Ctr) (s : State) : (countG c s).cw = s.cw := by simp [countG]
@[simp] theorem countG_cwGone (c : Ctr) (s : State) : (countG c s).cwGone = s.cwGone := by simp [countG]
@[simp] theorem countG_chain (c : Ctr) (s : State) : (countG c s).chain = s.chain := by simp [countG]
@[simp] theorem countG_tele (c : Ctr) (s : State) : (countG c s).tele = s.tele := by simp [countG]
@[simp] theorem countG_keys (c : Ctr) (s : State) : (countG c s).keys = s.keys := by simp [countG]
@[simp] theorem countG_mailboxes (c : Ctr) (s : State) : (countG c s).mailboxes = s.mailboxes := by simp [countG]
@[simp] theorem countG_oebs (c : Ctr) (s : State) : (countG c s).oebs = s.oebs := by simp [countG]
@[simp] theorem countG_skips (c : Ctr) (s : State) : (countG c s).skips = s.skips := by simp [countG]
@[simp] theorem countG_luna (c : Ctr) (s : State) : (countG c s).luna = s.luna := by simp [countG]
@[simp] theorem countG_cores (c : Ctr) (s : State) : (countG c s).cores = s.cores := by simp [countG]
@[simp] theorem countG_monarch (c : Ctr) (s : State) : (countG c s).monarch = s.monarch := by simp [countG]

@[simp] theorem countD_pending (d : Nat) (c : Ctr) (s : State) : (countD d c s).pending = s.pending := by simp [countD]
@[simp] theorem countD_out (d : Nat) (c : Ctr) (s : State) : (countD d c s).out = s.out := by simp [countD]
@[simp] theorem countD_free (d : Nat) (c : Ctr) (s : State) : (countD d c s).free = s.free := by simp [countD]
@[simp] theorem countD_fwd (d : Nat) (c : Ctr) (s : State) : (countD d c s).fwd = s.fwd := by simp [countD]
@[simp] theorem countD_obs (d : Nat) (c : Ctr) (s : State) : (countD d c s).obs = s.obs := by simp [countD]
@[simp] theorem countD_slices (d : Nat) (c : Ctr) (s : State) : (countD d c s).slices = s.slices := by simp [countD]
@[simp] theorem countD_links (d : Nat) (c : Ctr) (s : State) : (countD d c s).links = s.links := by simp [countD]
@[simp] theorem countD_power (d : Nat) (c : Ctr) (s : State) : (countD d c s).power = s.power := by simp [countD]
@[simp] theorem countD_flash (d : Nat) (c : Ctr) (s : State) : (countD d c s).flash = s.flash := by simp [countD]
@[simp] theorem countD_sram (d : Nat) (c : Ctr) (s : State) : (countD d c s).sram = s.sram := by simp [countD]
@[simp] theorem countD_rates (d : Nat) (c : Ctr) (s : State) : (countD d c s).rates = s.rates := by simp [countD]
@[simp] theorem countD_cw (d : Nat) (c : Ctr) (s : State) : (countD d c s).cw = s.cw := by simp [countD]
@[simp] theorem countD_cwGone (d : Nat) (c : Ctr) (s : State) : (countD d c s).cwGone = s.cwGone := by simp [countD]
@[simp] theorem countD_chain (d : Nat) (c : Ctr) (s : State) : (countD d c s).chain = s.chain := by simp [countD]
@[simp] theorem countD_tele (d : Nat) (c : Ctr) (s : State) : (countD d c s).tele = s.tele := by simp [countD]
@[simp] theorem countD_keys (d : Nat) (c : Ctr) (s : State) : (countD d c s).keys = s.keys := by simp [countD]
@[simp] theorem countD_mailboxes (d : Nat) (c : Ctr) (s : State) : (countD d c s).mailboxes = s.mailboxes := by simp [countD]
@[simp] theorem countD_oebs (d : Nat) (c : Ctr) (s : State) : (countD d c s).oebs = s.oebs := by simp [countD]
@[simp] theorem countD_skips (d : Nat) (c : Ctr) (s : State) : (countD d c s).skips = s.skips := by simp [countD]
@[simp] theorem countD_luna (d : Nat) (c : Ctr) (s : State) : (countD d c s).luna = s.luna := by simp [countD]
@[simp] theorem countD_cores (d : Nat) (c : Ctr) (s : State) : (countD d c s).cores = s.cores := by simp [countD]
@[simp] theorem countD_monarch (d : Nat) (c : Ctr) (s : State) : (countD d c s).monarch = s.monarch := by simp [countD]

@[simp] theorem countP_pending (p : Nat) (c : Ctr) (s : State) : (countP p c s).pending = s.pending := by simp [countP]
@[simp] theorem countP_out (p : Nat) (c : Ctr) (s : State) : (countP p c s).out = s.out := by simp [countP]
@[simp] theorem countP_free (p : Nat) (c : Ctr) (s : State) : (countP p c s).free = s.free := by simp [countP]
@[simp] theorem countP_fwd (p : Nat) (c : Ctr) (s : State) : (countP p c s).fwd = s.fwd := by simp [countP]
@[simp] theorem countP_obs (p : Nat) (c : Ctr) (s : State) : (countP p c s).obs = s.obs := by simp [countP]
@[simp] theorem countP_slices (p : Nat) (c : Ctr) (s : State) : (countP p c s).slices = s.slices := by simp [countP]
@[simp] theorem countP_links (p : Nat) (c : Ctr) (s : State) : (countP p c s).links = s.links := by simp [countP]
@[simp] theorem countP_power (p : Nat) (c : Ctr) (s : State) : (countP p c s).power = s.power := by simp [countP]
@[simp] theorem countP_flash (p : Nat) (c : Ctr) (s : State) : (countP p c s).flash = s.flash := by simp [countP]
@[simp] theorem countP_sram (p : Nat) (c : Ctr) (s : State) : (countP p c s).sram = s.sram := by simp [countP]
@[simp] theorem countP_rates (p : Nat) (c : Ctr) (s : State) : (countP p c s).rates = s.rates := by simp [countP]
@[simp] theorem countP_cw (p : Nat) (c : Ctr) (s : State) : (countP p c s).cw = s.cw := by simp [countP]
@[simp] theorem countP_cwGone (p : Nat) (c : Ctr) (s : State) : (countP p c s).cwGone = s.cwGone := by simp [countP]
@[simp] theorem countP_chain (p : Nat) (c : Ctr) (s : State) : (countP p c s).chain = s.chain := by simp [countP]
@[simp] theorem countP_tele (p : Nat) (c : Ctr) (s : State) : (countP p c s).tele = s.tele := by simp [countP]
@[simp] theorem countP_keys (p : Nat) (c : Ctr) (s : State) : (countP p c s).keys = s.keys := by simp [countP]
@[simp] theorem countP_mailboxes (p : Nat) (c : Ctr) (s : State) : (countP p c s).mailboxes = s.mailboxes := by simp [countP]
@[simp] theorem countP_oebs (p : Nat) (c : Ctr) (s : State) : (countP p c s).oebs = s.oebs := by simp [countP]
@[simp] theorem countP_skips (p : Nat) (c : Ctr) (s : State) : (countP p c s).skips = s.skips := by simp [countP]
@[simp] theorem countP_luna (p : Nat) (c : Ctr) (s : State) : (countP p c s).luna = s.luna := by simp [countP]
@[simp] theorem countP_cores (p : Nat) (c : Ctr) (s : State) : (countP p c s).cores = s.cores := by simp [countP]
@[simp] theorem countP_monarch (p : Nat) (c : Ctr) (s : State) : (countP p c s).monarch = s.monarch := by simp [countP]

@[simp] theorem countO_pending (side : Side) (c : Ctr) (s : State) : (countO side c s).pending = s.pending := by simp [countO]
@[simp] theorem countO_out (side : Side) (c : Ctr) (s : State) : (countO side c s).out = s.out := by simp [countO]
@[simp] theorem countO_free (side : Side) (c : Ctr) (s : State) : (countO side c s).free = s.free := by simp [countO]
@[simp] theorem countO_fwd (side : Side) (c : Ctr) (s : State) : (countO side c s).fwd = s.fwd := by simp [countO]
@[simp] theorem countO_obs (side : Side) (c : Ctr) (s : State) : (countO side c s).obs = s.obs := by simp [countO]
@[simp] theorem countO_slices (side : Side) (c : Ctr) (s : State) : (countO side c s).slices = s.slices := by simp [countO]
@[simp] theorem countO_links (side : Side) (c : Ctr) (s : State) : (countO side c s).links = s.links := by simp [countO]
@[simp] theorem countO_power (side : Side) (c : Ctr) (s : State) : (countO side c s).power = s.power := by simp [countO]
@[simp] theorem countO_flash (side : Side) (c : Ctr) (s : State) : (countO side c s).flash = s.flash := by simp [countO]
@[simp] theorem countO_sram (side : Side) (c : Ctr) (s : State) : (countO side c s).sram = s.sram := by simp [countO]
@[simp] theorem countO_rates (side : Side) (c : Ctr) (s : State) : (countO side c s).rates = s.rates := by simp [countO]
@[simp] theorem countO_cw (side : Side) (c : Ctr) (s : State) : (countO side c s).cw = s.cw := by simp [countO]
@[simp] theorem countO_cwGone (side : Side) (c : Ctr) (s : State) : (countO side c s).cwGone = s.cwGone := by simp [countO]
@[simp] theorem countO_chain (side : Side) (c : Ctr) (s : State) : (countO side c s).chain = s.chain := by simp [countO]
@[simp] theorem countO_tele (side : Side) (c : Ctr) (s : State) : (countO side c s).tele = s.tele := by simp [countO]
@[simp] theorem countO_keys (side : Side) (c : Ctr) (s : State) : (countO side c s).keys = s.keys := by simp [countO]
@[simp] theorem countO_mailboxes (side : Side) (c : Ctr) (s : State) : (countO side c s).mailboxes = s.mailboxes := by simp [countO]
@[simp] theorem countO_oebs (side : Side) (c : Ctr) (s : State) : (countO side c s).oebs = s.oebs := by simp [countO]
@[simp] theorem countO_skips (side : Side) (c : Ctr) (s : State) : (countO side c s).skips = s.skips := by simp [countO]
@[simp] theorem countO_luna (side : Side) (c : Ctr) (s : State) : (countO side c s).luna = s.luna := by simp [countO]
@[simp] theorem countO_cores (side : Side) (c : Ctr) (s : State) : (countO side c s).cores = s.cores := by simp [countO]
@[simp] theorem countO_monarch (side : Side) (c : Ctr) (s : State) : (countO side c s).monarch = s.monarch := by simp [countO]

@[simp] theorem countPort_pending (p : Nat) (c : Ctr) (n : Nat) (s : State) : (countPort p c n s).pending = s.pending := by simp [countPort]
@[simp] theorem countPort_out (p : Nat) (c : Ctr) (n : Nat) (s : State) : (countPort p c n s).out = s.out := by simp [countPort]
@[simp] theorem countPort_free (p : Nat) (c : Ctr) (n : Nat) (s : State) : (countPort p c n s).free = s.free := by simp [countPort]
@[simp] theorem countPort_fwd (p : Nat) (c : Ctr) (n : Nat) (s : State) : (countPort p c n s).fwd = s.fwd := by simp [countPort]
@[simp] theorem countPort_obs (p : Nat) (c : Ctr) (n : Nat) (s : State) : (countPort p c n s).obs = s.obs := by simp [countPort]
@[simp] theorem countPort_slices (p : Nat) (c : Ctr) (n : Nat) (s : State) : (countPort p c n s).slices = s.slices := by simp [countPort]
@[simp] theorem countPort_links (p : Nat) (c : Ctr) (n : Nat) (s : State) : (countPort p c n s).links = s.links := by simp [countPort]
@[simp] theorem countPort_power (p : Nat) (c : Ctr) (n : Nat) (s : State) : (countPort p c n s).power = s.power := by simp [countPort]
@[simp] theorem countPort_flash (p : Nat) (c : Ctr) (n : Nat) (s : State) : (countPort p c n s).flash = s.flash := by simp [countPort]
@[simp] theorem countPort_sram (p : Nat) (c : Ctr) (n : Nat) (s : State) : (countPort p c n s).sram = s.sram := by simp [countPort]
@[simp] theorem countPort_rates (p : Nat) (c : Ctr) (n : Nat) (s : State) : (countPort p c n s).rates = s.rates := by simp [countPort]
@[simp] theorem countPort_cw (p : Nat) (c : Ctr) (n : Nat) (s : State) : (countPort p c n s).cw = s.cw := by simp [countPort]
@[simp] theorem countPort_cwGone (p : Nat) (c : Ctr) (n : Nat) (s : State) : (countPort p c n s).cwGone = s.cwGone := by simp [countPort]
@[simp] theorem countPort_chain (p : Nat) (c : Ctr) (n : Nat) (s : State) : (countPort p c n s).chain = s.chain := by simp [countPort]
@[simp] theorem countPort_tele (p : Nat) (c : Ctr) (n : Nat) (s : State) : (countPort p c n s).tele = s.tele := by simp [countPort]
@[simp] theorem countPort_keys (p : Nat) (c : Ctr) (n : Nat) (s : State) : (countPort p c n s).keys = s.keys := by simp [countPort]
@[simp] theorem countPort_mailboxes (p : Nat) (c : Ctr) (n : Nat) (s : State) : (countPort p c n s).mailboxes = s.mailboxes := by simp [countPort]
@[simp] theorem countPort_oebs (p : Nat) (c : Ctr) (n : Nat) (s : State) : (countPort p c n s).oebs = s.oebs := by simp [countPort]
@[simp] theorem countPort_skips (p : Nat) (c : Ctr) (n : Nat) (s : State) : (countPort p c n s).skips = s.skips := by simp [countPort]
@[simp] theorem countPort_luna (p : Nat) (c : Ctr) (n : Nat) (s : State) : (countPort p c n s).luna = s.luna := by simp [countPort]
@[simp] theorem countPort_cores (p : Nat) (c : Ctr) (n : Nat) (s : State) : (countPort p c n s).cores = s.cores := by simp [countPort]
@[simp] theorem countPort_monarch (p : Nat) (c : Ctr) (n : Nat) (s : State) : (countPort p c n s).monarch = s.monarch := by simp [countPort]

@[simp] theorem raise_pending (u : UnitId) (e : Event) (s : State) : (raise u e s).pending = s.pending := by simp [raise]
@[simp] theorem raise_out (u : UnitId) (e : Event) (s : State) : (raise u e s).out = s.out := by simp [raise]
@[simp] theorem raise_free (u : UnitId) (e : Event) (s : State) : (raise u e s).free = s.free := by simp [raise]
@[simp] theorem raise_fwd (u : UnitId) (e : Event) (s : State) : (raise u e s).fwd = s.fwd := by simp [raise]
@[simp] theorem raise_obs (u : UnitId) (e : Event) (s : State) : (raise u e s).obs = s.obs := by simp [raise]
@[simp] theorem raise_slices (u : UnitId) (e : Event) (s : State) : (raise u e s).slices = s.slices := by simp [raise]
@[simp] theorem raise_links (u : UnitId) (e : Event) (s : State) : (raise u e s).links = s.links := by simp [raise]
@[simp] theorem raise_power (u : UnitId) (e : Event) (s : State) : (raise u e s).power = s.power := by simp [raise]
@[simp] theorem raise_flash (u : UnitId) (e : Event) (s : State) : (raise u e s).flash = s.flash := by simp [raise]
@[simp] theorem raise_sram (u : UnitId) (e : Event) (s : State) : (raise u e s).sram = s.sram := by simp [raise]
@[simp] theorem raise_rates (u : UnitId) (e : Event) (s : State) : (raise u e s).rates = s.rates := by simp [raise]
@[simp] theorem raise_cw (u : UnitId) (e : Event) (s : State) : (raise u e s).cw = s.cw := by simp [raise]
@[simp] theorem raise_cwGone (u : UnitId) (e : Event) (s : State) : (raise u e s).cwGone = s.cwGone := by simp [raise]
@[simp] theorem raise_chain (u : UnitId) (e : Event) (s : State) : (raise u e s).chain = s.chain := by simp [raise]
@[simp] theorem raise_tele (u : UnitId) (e : Event) (s : State) : (raise u e s).tele = s.tele := by simp [raise]
@[simp] theorem raise_keys (u : UnitId) (e : Event) (s : State) : (raise u e s).keys = s.keys := by simp [raise]
@[simp] theorem raise_mailboxes (u : UnitId) (e : Event) (s : State) : (raise u e s).mailboxes = s.mailboxes := by simp [raise]
@[simp] theorem raise_oebs (u : UnitId) (e : Event) (s : State) : (raise u e s).oebs = s.oebs := by simp [raise]
@[simp] theorem raise_skips (u : UnitId) (e : Event) (s : State) : (raise u e s).skips = s.skips := by simp [raise]
@[simp] theorem raise_luna (u : UnitId) (e : Event) (s : State) : (raise u e s).luna = s.luna := by simp [raise]
@[simp] theorem raise_cores (u : UnitId) (e : Event) (s : State) : (raise u e s).cores = s.cores := by simp [raise]
@[simp] theorem raise_monarch (u : UnitId) (e : Event) (s : State) : (raise u e s).monarch = s.monarch := by simp [raise]

@[simp] theorem raisePort_pending (c : EvCode) (f : Bool) (p : Nat) (l : List (Bool × Nat)) (s : State) : (raisePort c f p l s).pending = s.pending := by simp [raisePort]
@[simp] theorem raisePort_out (c : EvCode) (f : Bool) (p : Nat) (l : List (Bool × Nat)) (s : State) : (raisePort c f p l s).out = s.out := by simp [raisePort]
@[simp] theorem raisePort_free (c : EvCode) (f : Bool) (p : Nat) (l : List (Bool × Nat)) (s : State) : (raisePort c f p l s).free = s.free := by simp [raisePort]
@[simp] theorem raisePort_fwd (c : EvCode) (f : Bool) (p : Nat) (l : List (Bool × Nat)) (s : State) : (raisePort c f p l s).fwd = s.fwd := by simp [raisePort]
@[simp] theorem raisePort_obs (c : EvCode) (f : Bool) (p : Nat) (l : List (Bool × Nat)) (s : State) : (raisePort c f p l s).obs = s.obs := by simp [raisePort]
@[simp] theorem raisePort_slices (c : EvCode) (f : Bool) (p : Nat) (l : List (Bool × Nat)) (s : State) : (raisePort c f p l s).slices = s.slices := by simp [raisePort]
@[simp] theorem raisePort_links (c : EvCode) (f : Bool) (p : Nat) (l : List (Bool × Nat)) (s : State) : (raisePort c f p l s).links = s.links := by simp [raisePort]
@[simp] theorem raisePort_power (c : EvCode) (f : Bool) (p : Nat) (l : List (Bool × Nat)) (s : State) : (raisePort c f p l s).power = s.power := by simp [raisePort]
@[simp] theorem raisePort_flash (c : EvCode) (f : Bool) (p : Nat) (l : List (Bool × Nat)) (s : State) : (raisePort c f p l s).flash = s.flash := by simp [raisePort]
@[simp] theorem raisePort_sram (c : EvCode) (f : Bool) (p : Nat) (l : List (Bool × Nat)) (s : State) : (raisePort c f p l s).sram = s.sram := by simp [raisePort]
@[simp] theorem raisePort_rates (c : EvCode) (f : Bool) (p : Nat) (l : List (Bool × Nat)) (s : State) : (raisePort c f p l s).rates = s.rates := by simp [raisePort]
@[simp] theorem raisePort_cw (c : EvCode) (f : Bool) (p : Nat) (l : List (Bool × Nat)) (s : State) : (raisePort c f p l s).cw = s.cw := by simp [raisePort]
@[simp] theorem raisePort_cwGone (c : EvCode) (f : Bool) (p : Nat) (l : List (Bool × Nat)) (s : State) : (raisePort c f p l s).cwGone = s.cwGone := by simp [raisePort]
@[simp] theorem raisePort_chain (c : EvCode) (f : Bool) (p : Nat) (l : List (Bool × Nat)) (s : State) : (raisePort c f p l s).chain = s.chain := by simp [raisePort]
@[simp] theorem raisePort_tele (c : EvCode) (f : Bool) (p : Nat) (l : List (Bool × Nat)) (s : State) : (raisePort c f p l s).tele = s.tele := by simp [raisePort]
@[simp] theorem raisePort_keys (c : EvCode) (f : Bool) (p : Nat) (l : List (Bool × Nat)) (s : State) : (raisePort c f p l s).keys = s.keys := by simp [raisePort]
@[simp] theorem raisePort_mailboxes (c : EvCode) (f : Bool) (p : Nat) (l : List (Bool × Nat)) (s : State) : (raisePort c f p l s).mailboxes = s.mailboxes := by simp [raisePort]
@[simp] theorem raisePort_oebs (c : EvCode) (f : Bool) (p : Nat) (l : List (Bool × Nat)) (s : State) : (raisePort c f p l s).oebs = s.oebs := by simp [raisePort]
@[simp] theorem raisePort_skips (c : EvCode) (f : Bool) (p : Nat) (l : List (Bool × Nat)) (s : State) : (raisePort c f p l s).skips = s.skips := by simp [raisePort]
@[simp] theorem raisePort_luna (c : EvCode) (f : Bool) (p : Nat) (l : List (Bool × Nat)) (s : State) : (raisePort c f p l s).luna = s.luna := by simp [raisePort]
@[simp] theorem raisePort_cores (c : EvCode) (f : Bool) (p : Nat) (l : List (Bool × Nat)) (s : State) : (raisePort c f p l s).cores = s.cores := by simp [raisePort]
@[simp] theorem raisePort_monarch (c : EvCode) (f : Bool) (p : Nat) (l : List (Bool × Nat)) (s : State) : (raisePort c f p l s).monarch = s.monarch := by simp [raisePort]

@[simp] theorem raiseEp_pending (c : EvCode) (f : Bool) (d e : Nat) (l : List (Bool × Nat)) (s : State) : (raiseEp c f d e l s).pending = s.pending := by simp [raiseEp]
@[simp] theorem raiseEp_out (c : EvCode) (f : Bool) (d e : Nat) (l : List (Bool × Nat)) (s : State) : (raiseEp c f d e l s).out = s.out := by simp [raiseEp]
@[simp] theorem raiseEp_free (c : EvCode) (f : Bool) (d e : Nat) (l : List (Bool × Nat)) (s : State) : (raiseEp c f d e l s).free = s.free := by simp [raiseEp]
@[simp] theorem raiseEp_fwd (c : EvCode) (f : Bool) (d e : Nat) (l : List (Bool × Nat)) (s : State) : (raiseEp c f d e l s).fwd = s.fwd := by simp [raiseEp]
@[simp] theorem raiseEp_obs (c : EvCode) (f : Bool) (d e : Nat) (l : List (Bool × Nat)) (s : State) : (raiseEp c f d e l s).obs = s.obs := by simp [raiseEp]
@[simp] theorem raiseEp_slices (c : EvCode) (f : Bool) (d e : Nat) (l : List (Bool × Nat)) (s : State) : (raiseEp c f d e l s).slices = s.slices := by simp [raiseEp]
@[simp] theorem raiseEp_links (c : EvCode) (f : Bool) (d e : Nat) (l : List (Bool × Nat)) (s : State) : (raiseEp c f d e l s).links = s.links := by simp [raiseEp]
@[simp] theorem raiseEp_power (c : EvCode) (f : Bool) (d e : Nat) (l : List (Bool × Nat)) (s : State) : (raiseEp c f d e l s).power = s.power := by simp [raiseEp]
@[simp] theorem raiseEp_flash (c : EvCode) (f : Bool) (d e : Nat) (l : List (Bool × Nat)) (s : State) : (raiseEp c f d e l s).flash = s.flash := by simp [raiseEp]
@[simp] theorem raiseEp_sram (c : EvCode) (f : Bool) (d e : Nat) (l : List (Bool × Nat)) (s : State) : (raiseEp c f d e l s).sram = s.sram := by simp [raiseEp]
@[simp] theorem raiseEp_rates (c : EvCode) (f : Bool) (d e : Nat) (l : List (Bool × Nat)) (s : State) : (raiseEp c f d e l s).rates = s.rates := by simp [raiseEp]
@[simp] theorem raiseEp_cw (c : EvCode) (f : Bool) (d e : Nat) (l : List (Bool × Nat)) (s : State) : (raiseEp c f d e l s).cw = s.cw := by simp [raiseEp]
@[simp] theorem raiseEp_cwGone (c : EvCode) (f : Bool) (d e : Nat) (l : List (Bool × Nat)) (s : State) : (raiseEp c f d e l s).cwGone = s.cwGone := by simp [raiseEp]
@[simp] theorem raiseEp_chain (c : EvCode) (f : Bool) (d e : Nat) (l : List (Bool × Nat)) (s : State) : (raiseEp c f d e l s).chain = s.chain := by simp [raiseEp]
@[simp] theorem raiseEp_tele (c : EvCode) (f : Bool) (d e : Nat) (l : List (Bool × Nat)) (s : State) : (raiseEp c f d e l s).tele = s.tele := by simp [raiseEp]
@[simp] theorem raiseEp_keys (c : EvCode) (f : Bool) (d e : Nat) (l : List (Bool × Nat)) (s : State) : (raiseEp c f d e l s).keys = s.keys := by simp [raiseEp]
@[simp] theorem raiseEp_mailboxes (c : EvCode) (f : Bool) (d e : Nat) (l : List (Bool × Nat)) (s : State) : (raiseEp c f d e l s).mailboxes = s.mailboxes := by simp [raiseEp]
@[simp] theorem raiseEp_oebs (c : EvCode) (f : Bool) (d e : Nat) (l : List (Bool × Nat)) (s : State) : (raiseEp c f d e l s).oebs = s.oebs := by simp [raiseEp]
@[simp] theorem raiseEp_skips (c : EvCode) (f : Bool) (d e : Nat) (l : List (Bool × Nat)) (s : State) : (raiseEp c f d e l s).skips = s.skips := by simp [raiseEp]
@[simp] theorem raiseEp_luna (c : EvCode) (f : Bool) (d e : Nat) (l : List (Bool × Nat)) (s : State) : (raiseEp c f d e l s).luna = s.luna := by simp [raiseEp]
@[simp] theorem raiseEp_cores (c : EvCode) (f : Bool) (d e : Nat) (l : List (Bool × Nat)) (s : State) : (raiseEp c f d e l s).cores = s.cores := by simp [raiseEp]
@[simp] theorem raiseEp_monarch (c : EvCode) (f : Bool) (d e : Nat) (l : List (Bool × Nat)) (s : State) : (raiseEp c f d e l s).monarch = s.monarch := by simp [raiseEp]

@[simp] theorem raiseDie_pending (c : EvCode) (f : Bool) (d : Nat) (l : List (Bool × Nat)) (s : State) : (raiseDie c f d l s).pending = s.pending := by simp [raiseDie]
@[simp] theorem raiseDie_out (c : EvCode) (f : Bool) (d : Nat) (l : List (Bool × Nat)) (s : State) : (raiseDie c f d l s).out = s.out := by simp [raiseDie]
@[simp] theorem raiseDie_free (c : EvCode) (f : Bool) (d : Nat) (l : List (Bool × Nat)) (s : State) : (raiseDie c f d l s).free = s.free := by simp [raiseDie]
@[simp] theorem raiseDie_fwd (c : EvCode) (f : Bool) (d : Nat) (l : List (Bool × Nat)) (s : State) : (raiseDie c f d l s).fwd = s.fwd := by simp [raiseDie]
@[simp] theorem raiseDie_obs (c : EvCode) (f : Bool) (d : Nat) (l : List (Bool × Nat)) (s : State) : (raiseDie c f d l s).obs = s.obs := by simp [raiseDie]
@[simp] theorem raiseDie_slices (c : EvCode) (f : Bool) (d : Nat) (l : List (Bool × Nat)) (s : State) : (raiseDie c f d l s).slices = s.slices := by simp [raiseDie]
@[simp] theorem raiseDie_links (c : EvCode) (f : Bool) (d : Nat) (l : List (Bool × Nat)) (s : State) : (raiseDie c f d l s).links = s.links := by simp [raiseDie]
@[simp] theorem raiseDie_power (c : EvCode) (f : Bool) (d : Nat) (l : List (Bool × Nat)) (s : State) : (raiseDie c f d l s).power = s.power := by simp [raiseDie]
@[simp] theorem raiseDie_flash (c : EvCode) (f : Bool) (d : Nat) (l : List (Bool × Nat)) (s : State) : (raiseDie c f d l s).flash = s.flash := by simp [raiseDie]
@[simp] theorem raiseDie_sram (c : EvCode) (f : Bool) (d : Nat) (l : List (Bool × Nat)) (s : State) : (raiseDie c f d l s).sram = s.sram := by simp [raiseDie]
@[simp] theorem raiseDie_rates (c : EvCode) (f : Bool) (d : Nat) (l : List (Bool × Nat)) (s : State) : (raiseDie c f d l s).rates = s.rates := by simp [raiseDie]
@[simp] theorem raiseDie_cw (c : EvCode) (f : Bool) (d : Nat) (l : List (Bool × Nat)) (s : State) : (raiseDie c f d l s).cw = s.cw := by simp [raiseDie]
@[simp] theorem raiseDie_cwGone (c : EvCode) (f : Bool) (d : Nat) (l : List (Bool × Nat)) (s : State) : (raiseDie c f d l s).cwGone = s.cwGone := by simp [raiseDie]
@[simp] theorem raiseDie_chain (c : EvCode) (f : Bool) (d : Nat) (l : List (Bool × Nat)) (s : State) : (raiseDie c f d l s).chain = s.chain := by simp [raiseDie]
@[simp] theorem raiseDie_tele (c : EvCode) (f : Bool) (d : Nat) (l : List (Bool × Nat)) (s : State) : (raiseDie c f d l s).tele = s.tele := by simp [raiseDie]
@[simp] theorem raiseDie_keys (c : EvCode) (f : Bool) (d : Nat) (l : List (Bool × Nat)) (s : State) : (raiseDie c f d l s).keys = s.keys := by simp [raiseDie]
@[simp] theorem raiseDie_mailboxes (c : EvCode) (f : Bool) (d : Nat) (l : List (Bool × Nat)) (s : State) : (raiseDie c f d l s).mailboxes = s.mailboxes := by simp [raiseDie]
@[simp] theorem raiseDie_oebs (c : EvCode) (f : Bool) (d : Nat) (l : List (Bool × Nat)) (s : State) : (raiseDie c f d l s).oebs = s.oebs := by simp [raiseDie]
@[simp] theorem raiseDie_skips (c : EvCode) (f : Bool) (d : Nat) (l : List (Bool × Nat)) (s : State) : (raiseDie c f d l s).skips = s.skips := by simp [raiseDie]
@[simp] theorem raiseDie_luna (c : EvCode) (f : Bool) (d : Nat) (l : List (Bool × Nat)) (s : State) : (raiseDie c f d l s).luna = s.luna := by simp [raiseDie]
@[simp] theorem raiseDie_cores (c : EvCode) (f : Bool) (d : Nat) (l : List (Bool × Nat)) (s : State) : (raiseDie c f d l s).cores = s.cores := by simp [raiseDie]
@[simp] theorem raiseDie_monarch (c : EvCode) (f : Bool) (d : Nat) (l : List (Bool × Nat)) (s : State) : (raiseDie c f d l s).monarch = s.monarch := by simp [raiseDie]

@[simp] theorem raise0_pending (c : EvCode) (f : Bool) (d : Nat) (l : List (Bool × Nat)) (s : State) : (raise0 c f d l s).pending = s.pending := by simp [raise0]
@[simp] theorem raise0_out (c : EvCode) (f : Bool) (d : Nat) (l : List (Bool × Nat)) (s : State) : (raise0 c f d l s).out = s.out := by simp [raise0]
@[simp] theorem raise0_free (c : EvCode) (f : Bool) (d : Nat) (l : List (Bool × Nat)) (s : State) : (raise0 c f d l s).free = s.free := by simp [raise0]
@[simp] theorem raise0_fwd (c : EvCode) (f : Bool) (d : Nat) (l : List (Bool × Nat)) (s : State) : (raise0 c f d l s).fwd = s.fwd := by simp [raise0]
@[simp] theorem raise0_obs (c : EvCode) (f : Bool) (d : Nat) (l : List (Bool × Nat)) (s : State) : (raise0 c f d l s).obs = s.obs := by simp [raise0]
@[simp] theorem raise0_slices (c : EvCode) (f : Bool) (d : Nat) (l : List (Bool × Nat)) (s : State) : (raise0 c f d l s).slices = s.slices := by simp [raise0]
@[simp] theorem raise0_links (c : EvCode) (f : Bool) (d : Nat) (l : List (Bool × Nat)) (s : State) : (raise0 c f d l s).links = s.links := by simp [raise0]
@[simp] theorem raise0_power (c : EvCode) (f : Bool) (d : Nat) (l : List (Bool × Nat)) (s : State) : (raise0 c f d l s).power = s.power := by simp [raise0]
@[simp] theorem raise0_flash (c : EvCode) (f : Bool) (d : Nat) (l : List (Bool × Nat)) (s : State) : (raise0 c f d l s).flash = s.flash := by simp [raise0]
@[simp] theorem raise0_sram (c : EvCode) (f : Bool) (d : Nat) (l : List (Bool × Nat)) (s : State) : (raise0 c f d l s).sram = s.sram := by simp [raise0]
@[simp] theorem raise0_rates (c : EvCode) (f : Bool) (d : Nat) (l : List (Bool × Nat)) (s : State) : (raise0 c f d l s).rates = s.rates := by simp [raise0]
@[simp] theorem raise0_cw (c : EvCode) (f : Bool) (d : Nat) (l : List (Bool × Nat)) (s : State) : (raise0 c f d l s).cw = s.cw := by simp [raise0]
@[simp] theorem raise0_cwGone (c : EvCode) (f : Bool) (d : Nat) (l : List (Bool × Nat)) (s : State) : (raise0 c f d l s).cwGone = s.cwGone := by simp [raise0]
@[simp] theorem raise0_chain (c : EvCode) (f : Bool) (d : Nat) (l : List (Bool × Nat)) (s : State) : (raise0 c f d l s).chain = s.chain := by simp [raise0]
@[simp] theorem raise0_tele (c : EvCode) (f : Bool) (d : Nat) (l : List (Bool × Nat)) (s : State) : (raise0 c f d l s).tele = s.tele := by simp [raise0]
@[simp] theorem raise0_keys (c : EvCode) (f : Bool) (d : Nat) (l : List (Bool × Nat)) (s : State) : (raise0 c f d l s).keys = s.keys := by simp [raise0]
@[simp] theorem raise0_mailboxes (c : EvCode) (f : Bool) (d : Nat) (l : List (Bool × Nat)) (s : State) : (raise0 c f d l s).mailboxes = s.mailboxes := by simp [raise0]
@[simp] theorem raise0_oebs (c : EvCode) (f : Bool) (d : Nat) (l : List (Bool × Nat)) (s : State) : (raise0 c f d l s).oebs = s.oebs := by simp [raise0]
@[simp] theorem raise0_skips (c : EvCode) (f : Bool) (d : Nat) (l : List (Bool × Nat)) (s : State) : (raise0 c f d l s).skips = s.skips := by simp [raise0]
@[simp] theorem raise0_luna (c : EvCode) (f : Bool) (d : Nat) (l : List (Bool × Nat)) (s : State) : (raise0 c f d l s).luna = s.luna := by simp [raise0]
@[simp] theorem raise0_cores (c : EvCode) (f : Bool) (d : Nat) (l : List (Bool × Nat)) (s : State) : (raise0 c f d l s).cores = s.cores := by simp [raise0]
@[simp] theorem raise0_monarch (c : EvCode) (f : Bool) (d : Nat) (l : List (Bool × Nat)) (s : State) : (raise0 c f d l s).monarch = s.monarch := by simp [raise0]

@[simp] theorem raiseO_pending (side : Side) (c : EvCode) (f : Bool) (k n : Nat) (l : List (Bool × Nat)) (s : State) : (raiseO side c f k n l s).pending = s.pending := by simp [raiseO]
@[simp] theorem raiseO_out (side : Side) (c : EvCode) (f : Bool) (k n : Nat) (l : List (Bool × Nat)) (s : State) : (raiseO side c f k n l s).out = s.out := by simp [raiseO]
@[simp] theorem raiseO_free (side : Side) (c : EvCode) (f : Bool) (k n : Nat) (l : List (Bool × Nat)) (s : State) : (raiseO side c f k n l s).free = s.free := by simp [raiseO]
@[simp] theorem raiseO_fwd (side : Side) (c : EvCode) (f : Bool) (k n : Nat) (l : List (Bool × Nat)) (s : State) : (raiseO side c f k n l s).fwd = s.fwd := by simp [raiseO]
@[simp] theorem raiseO_obs (side : Side) (c : EvCode) (f : Bool) (k n : Nat) (l : List (Bool × Nat)) (s : State) : (raiseO side c f k n l s).obs = s.obs := by simp [raiseO]
@[simp] theorem raiseO_slices (side : Side) (c : EvCode) (f : Bool) (k n : Nat) (l : List (Bool × Nat)) (s : State) : (raiseO side c f k n l s).slices = s.slices := by simp [raiseO]
@[simp] theorem raiseO_links (side : Side) (c : EvCode) (f : Bool) (k n : Nat) (l : List (Bool × Nat)) (s : State) : (raiseO side c f k n l s).links = s.links := by simp [raiseO]
@[simp] theorem raiseO_power (side : Side) (c : EvCode) (f : Bool) (k n : Nat) (l : List (Bool × Nat)) (s : State) : (raiseO side c f k n l s).power = s.power := by simp [raiseO]
@[simp] theorem raiseO_flash (side : Side) (c : EvCode) (f : Bool) (k n : Nat) (l : List (Bool × Nat)) (s : State) : (raiseO side c f k n l s).flash = s.flash := by simp [raiseO]
@[simp] theorem raiseO_sram (side : Side) (c : EvCode) (f : Bool) (k n : Nat) (l : List (Bool × Nat)) (s : State) : (raiseO side c f k n l s).sram = s.sram := by simp [raiseO]
@[simp] theorem raiseO_rates (side : Side) (c : EvCode) (f : Bool) (k n : Nat) (l : List (Bool × Nat)) (s : State) : (raiseO side c f k n l s).rates = s.rates := by simp [raiseO]
@[simp] theorem raiseO_cw (side : Side) (c : EvCode) (f : Bool) (k n : Nat) (l : List (Bool × Nat)) (s : State) : (raiseO side c f k n l s).cw = s.cw := by simp [raiseO]
@[simp] theorem raiseO_cwGone (side : Side) (c : EvCode) (f : Bool) (k n : Nat) (l : List (Bool × Nat)) (s : State) : (raiseO side c f k n l s).cwGone = s.cwGone := by simp [raiseO]
@[simp] theorem raiseO_chain (side : Side) (c : EvCode) (f : Bool) (k n : Nat) (l : List (Bool × Nat)) (s : State) : (raiseO side c f k n l s).chain = s.chain := by simp [raiseO]
@[simp] theorem raiseO_tele (side : Side) (c : EvCode) (f : Bool) (k n : Nat) (l : List (Bool × Nat)) (s : State) : (raiseO side c f k n l s).tele = s.tele := by simp [raiseO]
@[simp] theorem raiseO_keys (side : Side) (c : EvCode) (f : Bool) (k n : Nat) (l : List (Bool × Nat)) (s : State) : (raiseO side c f k n l s).keys = s.keys := by simp [raiseO]
@[simp] theorem raiseO_mailboxes (side : Side) (c : EvCode) (f : Bool) (k n : Nat) (l : List (Bool × Nat)) (s : State) : (raiseO side c f k n l s).mailboxes = s.mailboxes := by simp [raiseO]
@[simp] theorem raiseO_oebs (side : Side) (c : EvCode) (f : Bool) (k n : Nat) (l : List (Bool × Nat)) (s : State) : (raiseO side c f k n l s).oebs = s.oebs := by simp [raiseO]
@[simp] theorem raiseO_skips (side : Side) (c : EvCode) (f : Bool) (k n : Nat) (l : List (Bool × Nat)) (s : State) : (raiseO side c f k n l s).skips = s.skips := by simp [raiseO]
@[simp] theorem raiseO_luna (side : Side) (c : EvCode) (f : Bool) (k n : Nat) (l : List (Bool × Nat)) (s : State) : (raiseO side c f k n l s).luna = s.luna := by simp [raiseO]
@[simp] theorem raiseO_cores (side : Side) (c : EvCode) (f : Bool) (k n : Nat) (l : List (Bool × Nat)) (s : State) : (raiseO side c f k n l s).cores = s.cores := by simp [raiseO]
@[simp] theorem raiseO_monarch (side : Side) (c : EvCode) (f : Bool) (k n : Nat) (l : List (Bool × Nat)) (s : State) : (raiseO side c f k n l s).monarch = s.monarch := by simp [raiseO]

@[simp] theorem unmapped_pending (s : State) : (unmapped s).pending = s.pending := by simp [unmapped]
@[simp] theorem unmapped_out (s : State) : (unmapped s).out = s.out := by simp [unmapped]
@[simp] theorem unmapped_free (s : State) : (unmapped s).free = s.free := by simp [unmapped]
@[simp] theorem unmapped_fwd (s : State) : (unmapped s).fwd = s.fwd := by simp [unmapped]
@[simp] theorem unmapped_obs (s : State) : (unmapped s).obs = s.obs := by simp [unmapped]
@[simp] theorem unmapped_slices (s : State) : (unmapped s).slices = s.slices := by simp [unmapped]
@[simp] theorem unmapped_links (s : State) : (unmapped s).links = s.links := by simp [unmapped]
@[simp] theorem unmapped_power (s : State) : (unmapped s).power = s.power := by simp [unmapped]
@[simp] theorem unmapped_flash (s : State) : (unmapped s).flash = s.flash := by simp [unmapped]
@[simp] theorem unmapped_sram (s : State) : (unmapped s).sram = s.sram := by simp [unmapped]
@[simp] theorem unmapped_rates (s : State) : (unmapped s).rates = s.rates := by simp [unmapped]
@[simp] theorem unmapped_cw (s : State) : (unmapped s).cw = s.cw := by simp [unmapped]
@[simp] theorem unmapped_cwGone (s : State) : (unmapped s).cwGone = s.cwGone := by simp [unmapped]
@[simp] theorem unmapped_chain (s : State) : (unmapped s).chain = s.chain := by simp [unmapped]
@[simp] theorem unmapped_tele (s : State) : (unmapped s).tele = s.tele := by simp [unmapped]
@[simp] theorem unmapped_keys (s : State) : (unmapped s).keys = s.keys := by simp [unmapped]
@[simp] theorem unmapped_mailboxes (s : State) : (unmapped s).mailboxes = s.mailboxes := by simp [unmapped]
@[simp] theorem unmapped_oebs (s : State) : (unmapped s).oebs = s.oebs := by simp [unmapped]
@[simp] theorem unmapped_skips (s : State) : (unmapped s).skips = s.skips := by simp [unmapped]
@[simp] theorem unmapped_luna (s : State) : (unmapped s).luna = s.luna := by simp [unmapped]
@[simp] theorem unmapped_cores (s : State) : (unmapped s).cores = s.cores := by simp [unmapped]
@[simp] theorem unmapped_monarch (s : State) : (unmapped s).monarch = s.monarch := by simp [unmapped]

@[simp] theorem setTime_pending (u : UnitId) (x : TimeUnit) (s : State) : (setTime u x s).pending = s.pending := by simp [setTime]
@[simp] theorem setTime_out (u : UnitId) (x : TimeUnit) (s : State) : (setTime u x s).out = s.out := by simp [setTime]
@[simp] theorem setTime_free (u : UnitId) (x : TimeUnit) (s : State) : (setTime u x s).free = s.free := by simp [setTime]
@[simp] theorem setTime_fwd (u : UnitId) (x : TimeUnit) (s : State) : (setTime u x s).fwd = s.fwd := by simp [setTime]
@[simp] theorem setTime_obs (u : UnitId) (x : TimeUnit) (s : State) : (setTime u x s).obs = s.obs := by simp [setTime]
@[simp] theorem setTime_slices (u : UnitId) (x : TimeUnit) (s : State) : (setTime u x s).slices = s.slices := by simp [setTime]
@[simp] theorem setTime_links (u : UnitId) (x : TimeUnit) (s : State) : (setTime u x s).links = s.links := by simp [setTime]
@[simp] theorem setTime_power (u : UnitId) (x : TimeUnit) (s : State) : (setTime u x s).power = s.power := by simp [setTime]
@[simp] theorem setTime_flash (u : UnitId) (x : TimeUnit) (s : State) : (setTime u x s).flash = s.flash := by simp [setTime]
@[simp] theorem setTime_sram (u : UnitId) (x : TimeUnit) (s : State) : (setTime u x s).sram = s.sram := by simp [setTime]
@[simp] theorem setTime_rates (u : UnitId) (x : TimeUnit) (s : State) : (setTime u x s).rates = s.rates := by simp [setTime]
@[simp] theorem setTime_cw (u : UnitId) (x : TimeUnit) (s : State) : (setTime u x s).cw = s.cw := by simp [setTime]
@[simp] theorem setTime_cwGone (u : UnitId) (x : TimeUnit) (s : State) : (setTime u x s).cwGone = s.cwGone := by simp [setTime]
@[simp] theorem setTime_chain (u : UnitId) (x : TimeUnit) (s : State) : (setTime u x s).chain = s.chain := by simp [setTime]
@[simp] theorem setTime_tele (u : UnitId) (x : TimeUnit) (s : State) : (setTime u x s).tele = s.tele := by simp [setTime]
@[simp] theorem setTime_keys (u : UnitId) (x : TimeUnit) (s : State) : (setTime u x s).keys = s.keys := by simp [setTime]
@[simp] theorem setTime_mailboxes (u : UnitId) (x : TimeUnit) (s : State) : (setTime u x s).mailboxes = s.mailboxes := by simp [setTime]
@[simp] theorem setTime_oebs (u : UnitId) (x : TimeUnit) (s : State) : (setTime u x s).oebs = s.oebs := by simp [setTime]
@[simp] theorem setTime_skips (u : UnitId) (x : TimeUnit) (s : State) : (setTime u x s).skips = s.skips := by simp [setTime]
@[simp] theorem setTime_luna (u : UnitId) (x : TimeUnit) (s : State) : (setTime u x s).luna = s.luna := by simp [setTime]
@[simp] theorem setTime_cores (u : UnitId) (x : TimeUnit) (s : State) : (setTime u x s).cores = s.cores := by simp [setTime]
@[simp] theorem setTime_monarch (u : UnitId) (x : TimeUnit) (s : State) : (setTime u x s).monarch = s.monarch := by simp [setTime]

@[simp] theorem setEntries_pending (u : UnitId) (l : List FoldEntry) (s : State) : (setEntries u l s).pending = s.pending := by simp [setEntries]
@[simp] theorem setEntries_out (u : UnitId) (l : List FoldEntry) (s : State) : (setEntries u l s).out = s.out := by simp [setEntries]
@[simp] theorem setEntries_free (u : UnitId) (l : List FoldEntry) (s : State) : (setEntries u l s).free = s.free := by simp [setEntries]
@[simp] theorem setEntries_fwd (u : UnitId) (l : List FoldEntry) (s : State) : (setEntries u l s).fwd = s.fwd := by simp [setEntries]
@[simp] theorem setEntries_obs (u : UnitId) (l : List FoldEntry) (s : State) : (setEntries u l s).obs = s.obs := by simp [setEntries]
@[simp] theorem setEntries_slices (u : UnitId) (l : List FoldEntry) (s : State) : (setEntries u l s).slices = s.slices := by simp [setEntries]
@[simp] theorem setEntries_links (u : UnitId) (l : List FoldEntry) (s : State) : (setEntries u l s).links = s.links := by simp [setEntries]
@[simp] theorem setEntries_power (u : UnitId) (l : List FoldEntry) (s : State) : (setEntries u l s).power = s.power := by simp [setEntries]
@[simp] theorem setEntries_flash (u : UnitId) (l : List FoldEntry) (s : State) : (setEntries u l s).flash = s.flash := by simp [setEntries]
@[simp] theorem setEntries_sram (u : UnitId) (l : List FoldEntry) (s : State) : (setEntries u l s).sram = s.sram := by simp [setEntries]
@[simp] theorem setEntries_rates (u : UnitId) (l : List FoldEntry) (s : State) : (setEntries u l s).rates = s.rates := by simp [setEntries]
@[simp] theorem setEntries_cw (u : UnitId) (l : List FoldEntry) (s : State) : (setEntries u l s).cw = s.cw := by simp [setEntries]
@[simp] theorem setEntries_cwGone (u : UnitId) (l : List FoldEntry) (s : State) : (setEntries u l s).cwGone = s.cwGone := by simp [setEntries]
@[simp] theorem setEntries_chain (u : UnitId) (l : List FoldEntry) (s : State) : (setEntries u l s).chain = s.chain := by simp [setEntries]
@[simp] theorem setEntries_tele (u : UnitId) (l : List FoldEntry) (s : State) : (setEntries u l s).tele = s.tele := by simp [setEntries]
@[simp] theorem setEntries_keys (u : UnitId) (l : List FoldEntry) (s : State) : (setEntries u l s).keys = s.keys := by simp [setEntries]
@[simp] theorem setEntries_mailboxes (u : UnitId) (l : List FoldEntry) (s : State) : (setEntries u l s).mailboxes = s.mailboxes := by simp [setEntries]
@[simp] theorem setEntries_oebs (u : UnitId) (l : List FoldEntry) (s : State) : (setEntries u l s).oebs = s.oebs := by simp [setEntries]
@[simp] theorem setEntries_skips (u : UnitId) (l : List FoldEntry) (s : State) : (setEntries u l s).skips = s.skips := by simp [setEntries]
@[simp] theorem setEntries_luna (u : UnitId) (l : List FoldEntry) (s : State) : (setEntries u l s).luna = s.luna := by simp [setEntries]
@[simp] theorem setEntries_cores (u : UnitId) (l : List FoldEntry) (s : State) : (setEntries u l s).cores = s.cores := by simp [setEntries]
@[simp] theorem setEntries_monarch (u : UnitId) (l : List FoldEntry) (s : State) : (setEntries u l s).monarch = s.monarch := by simp [setEntries]

@[simp] theorem setCore_pending (c : Nat) (x : LCore) (s : State) : (setCore c x s).pending = s.pending := rfl
@[simp] theorem setCore_out (c : Nat) (x : LCore) (s : State) : (setCore c x s).out = s.out := rfl
@[simp] theorem setCore_free (c : Nat) (x : LCore) (s : State) : (setCore c x s).free = s.free := rfl
@[simp] theorem setCore_fwd (c : Nat) (x : LCore) (s : State) : (setCore c x s).fwd = s.fwd := rfl
@[simp] theorem setCore_obs (c : Nat) (x : LCore) (s : State) : (setCore c x s).obs = s.obs := rfl
@[simp] theorem setCore_slices (c : Nat) (x : LCore) (s : State) : (setCore c x s).slices = s.slices := rfl
@[simp] theorem setCore_links (c : Nat) (x : LCore) (s : State) : (setCore c x s).links = s.links := rfl
@[simp] theorem setCore_power (c : Nat) (x : LCore) (s : State) : (setCore c x s).power = s.power := rfl
@[simp] theorem setCore_flash (c : Nat) (x : LCore) (s : State) : (setCore c x s).flash = s.flash := rfl
@[simp] theorem setCore_sram (c : Nat) (x : LCore) (s : State) : (setCore c x s).sram = s.sram := rfl
@[simp] theorem setCore_rates (c : Nat) (x : LCore) (s : State) : (setCore c x s).rates = s.rates := rfl
@[simp] theorem setCore_cw (c : Nat) (x : LCore) (s : State) : (setCore c x s).cw = s.cw := rfl
@[simp] theorem setCore_cwGone (c : Nat) (x : LCore) (s : State) : (setCore c x s).cwGone = s.cwGone := rfl
@[simp] theorem setCore_chain (c : Nat) (x : LCore) (s : State) : (setCore c x s).chain = s.chain := rfl
@[simp] theorem setCore_tele (c : Nat) (x : LCore) (s : State) : (setCore c x s).tele = s.tele := rfl
@[simp] theorem setCore_keys (c : Nat) (x : LCore) (s : State) : (setCore c x s).keys = s.keys := rfl
@[simp] theorem setCore_mailboxes (c : Nat) (x : LCore) (s : State) : (setCore c x s).mailboxes = s.mailboxes := rfl
@[simp] theorem setCore_oebs (c : Nat) (x : LCore) (s : State) : (setCore c x s).oebs = s.oebs := rfl
@[simp] theorem setCore_skips (c : Nat) (x : LCore) (s : State) : (setCore c x s).skips = s.skips := rfl
@[simp] theorem setCore_luna (c : Nat) (x : LCore) (s : State) : (setCore c x s).luna = s.luna := rfl
@[simp] theorem setCore_monarch (c : Nat) (x : LCore) (s : State) : (setCore c x s).monarch = s.monarch := rfl
@[simp] theorem setCore_ox (c : Nat) (x : LCore) (s : State) : (setCore c x s).ox = s.ox := rfl
@[simp] theorem setCore_oebA (c : Nat) (x : LCore) (s : State) : (setCore c x s).oebA = s.oebA := rfl
@[simp] theorem setCore_oebB (c : Nat) (x : LCore) (s : State) : (setCore c x s).oebB = s.oebB := rfl
@[simp] theorem setCore_unit (c : Nat) (x : LCore) (s : State) (v : UnitId) : (setCore c x s).unit v = s.unit v := by
  unfold State.unit; split <;> simp

@[simp] theorem modCore_pending (c : Nat) (f : LCore → LCore) (s : State) : (modCore c f s).pending = s.pending := rfl
@[simp] theorem modCore_out (c : Nat) (f : LCore → LCore) (s : State) : (modCore c f s).out = s.out := rfl
@[simp] theorem modCore_free (c : Nat) (f : LCore → LCore) (s : State) : (modCore c f s).free = s.free := rfl
@[simp] theorem modCore_fwd (c : Nat) (f : LCore → LCore) (s : State) : (modCore c f s).fwd = s.fwd := rfl
@[simp] theorem modCore_obs (c : Nat) (f : LCore → LCore) (s : State) : (modCore c f s).obs = s.obs := rfl
@[simp] theorem modCore_slices (c : Nat) (f : LCore → LCore) (s : State) : (modCore c f s).slices = s.slices := rfl
@[simp] theorem modCore_links (c : Nat) (f : LCore → LCore) (s : State) : (modCore c f s).links = s.links := rfl
@[simp] theorem modCore_power (c : Nat) (f : LCore → LCore) (s : State) : (modCore c f s).power = s.power := rfl
@[simp] theorem modCore_flash (c : Nat) (f : LCore → LCore) (s : State) : (modCore c f s).flash = s.flash := rfl
@[simp] theorem modCore_sram (c : Nat) (f : LCore → LCore) (s : State) : (modCore c f s).sram = s.sram := rfl
@[simp] theorem modCore_rates (c : Nat) (f : LCore → LCore) (s : State) : (modCore c f s).rates = s.rates := rfl
@[simp] theorem modCore_cw (c : Nat) (f : LCore → LCore) (s : State) : (modCore c f s).cw = s.cw := rfl
@[simp] theorem modCore_cwGone (c : Nat) (f : LCore → LCore) (s : State) : (modCore c f s).cwGone = s.cwGone := rfl
@[simp] theorem modCore_chain (c : Nat) (f : LCore → LCore) (s : State) : (modCore c f s).chain = s.chain := rfl
@[simp] theorem modCore_tele (c : Nat) (f : LCore → LCore) (s : State) : (modCore c f s).tele = s.tele := rfl
@[simp] theorem modCore_keys (c : Nat) (f : LCore → LCore) (s : State) : (modCore c f s).keys = s.keys := rfl
@[simp] theorem modCore_mailboxes (c : Nat) (f : LCore → LCore) (s : State) : (modCore c f s).mailboxes = s.mailboxes := rfl
@[simp] theorem modCore_oebs (c : Nat) (f : LCore → LCore) (s : State) : (modCore c f s).oebs = s.oebs := rfl
@[simp] theorem modCore_skips (c : Nat) (f : LCore → LCore) (s : State) : (modCore c f s).skips = s.skips := rfl
@[simp] theorem modCore_luna (c : Nat) (f : LCore → LCore) (s : State) : (modCore c f s).luna = s.luna := rfl
@[simp] theorem modCore_monarch (c : Nat) (f : LCore → LCore) (s : State) : (modCore c f s).monarch = s.monarch := rfl
@[simp] theorem modCore_ox (c : Nat) (f : LCore → LCore) (s : State) : (modCore c f s).ox = s.ox := rfl
@[simp] theorem modCore_oebA (c : Nat) (f : LCore → LCore) (s : State) : (modCore c f s).oebA = s.oebA := rfl
@[simp] theorem modCore_oebB (c : Nat) (f : LCore → LCore) (s : State) : (modCore c f s).oebB = s.oebB := rfl
@[simp] theorem modCore_unit (c : Nat) (f : LCore → LCore) (s : State) (v : UnitId) : (modCore c f s).unit v = s.unit v := by
  unfold State.unit; split <;> simp

@[simp] theorem modLuna_pending (d : Nat) (f : LDieSt → LDieSt) (s : State) : (modLuna d f s).pending = s.pending := rfl
@[simp] theorem modLuna_out (d : Nat) (f : LDieSt → LDieSt) (s : State) : (modLuna d f s).out = s.out := rfl
@[simp] theorem modLuna_free (d : Nat) (f : LDieSt → LDieSt) (s : State) : (modLuna d f s).free = s.free := rfl
@[simp] theorem modLuna_fwd (d : Nat) (f : LDieSt → LDieSt) (s : State) : (modLuna d f s).fwd = s.fwd := rfl
@[simp] theorem modLuna_obs (d : Nat) (f : LDieSt → LDieSt) (s : State) : (modLuna d f s).obs = s.obs := rfl
@[simp] theorem modLuna_slices (d : Nat) (f : LDieSt → LDieSt) (s : State) : (modLuna d f s).slices = s.slices := rfl
@[simp] theorem modLuna_links (d : Nat) (f : LDieSt → LDieSt) (s : State) : (modLuna d f s).links = s.links := rfl
@[simp] theorem modLuna_power (d : Nat) (f : LDieSt → LDieSt) (s : State) : (modLuna d f s).power = s.power := rfl
@[simp] theorem modLuna_flash (d : Nat) (f : LDieSt → LDieSt) (s : State) : (modLuna d f s).flash = s.flash := rfl
@[simp] theorem modLuna_sram (d : Nat) (f : LDieSt → LDieSt) (s : State) : (modLuna d f s).sram = s.sram := rfl
@[simp] theorem modLuna_rates (d : Nat) (f : LDieSt → LDieSt) (s : State) : (modLuna d f s).rates = s.rates := rfl
@[simp] theorem modLuna_cw (d : Nat) (f : LDieSt → LDieSt) (s : State) : (modLuna d f s).cw = s.cw := rfl
@[simp] theorem modLuna_cwGone (d : Nat) (f : LDieSt → LDieSt) (s : State) : (modLuna d f s).cwGone = s.cwGone := rfl
@[simp] theorem modLuna_chain (d : Nat) (f : LDieSt → LDieSt) (s : State) : (modLuna d f s).chain = s.chain := rfl
@[simp] theorem modLuna_tele (d : Nat) (f : LDieSt → LDieSt) (s : State) : (modLuna d f s).tele = s.tele := rfl
@[simp] theorem modLuna_keys (d : Nat) (f : LDieSt → LDieSt) (s : State) : (modLuna d f s).keys = s.keys := rfl
@[simp] theorem modLuna_mailboxes (d : Nat) (f : LDieSt → LDieSt) (s : State) : (modLuna d f s).mailboxes = s.mailboxes := rfl
@[simp] theorem modLuna_oebs (d : Nat) (f : LDieSt → LDieSt) (s : State) : (modLuna d f s).oebs = s.oebs := rfl
@[simp] theorem modLuna_skips (d : Nat) (f : LDieSt → LDieSt) (s : State) : (modLuna d f s).skips = s.skips := rfl
@[simp] theorem modLuna_cores (d : Nat) (f : LDieSt → LDieSt) (s : State) : (modLuna d f s).cores = s.cores := rfl
@[simp] theorem modLuna_monarch (d : Nat) (f : LDieSt → LDieSt) (s : State) : (modLuna d f s).monarch = s.monarch := rfl
@[simp] theorem modLuna_ox (d : Nat) (f : LDieSt → LDieSt) (s : State) : (modLuna d f s).ox = s.ox := rfl
@[simp] theorem modLuna_oebA (d : Nat) (f : LDieSt → LDieSt) (s : State) : (modLuna d f s).oebA = s.oebA := rfl
@[simp] theorem modLuna_oebB (d : Nat) (f : LDieSt → LDieSt) (s : State) : (modLuna d f s).oebB = s.oebB := rfl
@[simp] theorem modLuna_unit (d : Nat) (f : LDieSt → LDieSt) (s : State) (v : UnitId) : (modLuna d f s).unit v = s.unit v := by
  unfold State.unit; split <;> simp

@[simp] theorem modCtx_pending (d c : Nat) (f : LCtx → LCtx) (s : State) : (modCtx d c f s).pending = s.pending := rfl
@[simp] theorem modCtx_out (d c : Nat) (f : LCtx → LCtx) (s : State) : (modCtx d c f s).out = s.out := rfl
@[simp] theorem modCtx_free (d c : Nat) (f : LCtx → LCtx) (s : State) : (modCtx d c f s).free = s.free := rfl
@[simp] theorem modCtx_fwd (d c : Nat) (f : LCtx → LCtx) (s : State) : (modCtx d c f s).fwd = s.fwd := rfl
@[simp] theorem modCtx_obs (d c : Nat) (f : LCtx → LCtx) (s : State) : (modCtx d c f s).obs = s.obs := rfl
@[simp] theorem modCtx_slices (d c : Nat) (f : LCtx → LCtx) (s : State) : (modCtx d c f s).slices = s.slices := rfl
@[simp] theorem modCtx_links (d c : Nat) (f : LCtx → LCtx) (s : State) : (modCtx d c f s).links = s.links := rfl
@[simp] theorem modCtx_power (d c : Nat) (f : LCtx → LCtx) (s : State) : (modCtx d c f s).power = s.power := rfl
@[simp] theorem modCtx_flash (d c : Nat) (f : LCtx → LCtx) (s : State) : (modCtx d c f s).flash = s.flash := rfl
@[simp] theorem modCtx_sram (d c : Nat) (f : LCtx → LCtx) (s : State) : (modCtx d c f s).sram = s.sram := rfl
@[simp] theorem modCtx_rates (d c : Nat) (f : LCtx → LCtx) (s : State) : (modCtx d c f s).rates = s.rates := rfl
@[simp] theorem modCtx_cw (d c : Nat) (f : LCtx → LCtx) (s : State) : (modCtx d c f s).cw = s.cw := rfl
@[simp] theorem modCtx_cwGone (d c : Nat) (f : LCtx → LCtx) (s : State) : (modCtx d c f s).cwGone = s.cwGone := rfl
@[simp] theorem modCtx_chain (d c : Nat) (f : LCtx → LCtx) (s : State) : (modCtx d c f s).chain = s.chain := rfl
@[simp] theorem modCtx_tele (d c : Nat) (f : LCtx → LCtx) (s : State) : (modCtx d c f s).tele = s.tele := rfl
@[simp] theorem modCtx_keys (d c : Nat) (f : LCtx → LCtx) (s : State) : (modCtx d c f s).keys = s.keys := rfl
@[simp] theorem modCtx_mailboxes (d c : Nat) (f : LCtx → LCtx) (s : State) : (modCtx d c f s).mailboxes = s.mailboxes := rfl
@[simp] theorem modCtx_oebs (d c : Nat) (f : LCtx → LCtx) (s : State) : (modCtx d c f s).oebs = s.oebs := rfl
@[simp] theorem modCtx_skips (d c : Nat) (f : LCtx → LCtx) (s : State) : (modCtx d c f s).skips = s.skips := rfl
@[simp] theorem modCtx_cores (d c : Nat) (f : LCtx → LCtx) (s : State) : (modCtx d c f s).cores = s.cores := rfl
@[simp] theorem modCtx_monarch (d c : Nat) (f : LCtx → LCtx) (s : State) : (modCtx d c f s).monarch = s.monarch := rfl
@[simp] theorem modCtx_ox (d c : Nat) (f : LCtx → LCtx) (s : State) : (modCtx d c f s).ox = s.ox := rfl
@[simp] theorem modCtx_oebA (d c : Nat) (f : LCtx → LCtx) (s : State) : (modCtx d c f s).oebA = s.oebA := rfl
@[simp] theorem modCtx_oebB (d c : Nat) (f : LCtx → LCtx) (s : State) : (modCtx d c f s).oebB = s.oebB := rfl
@[simp] theorem modCtx_unit (d c : Nat) (f : LCtx → LCtx) (s : State) (v : UnitId) : (modCtx d c f s).unit v = s.unit v := by
  unfold State.unit; split <;> simp

@[simp] theorem modChunk_pending (d : Nat) (id : ChunkId) (f : LChunk → LChunk) (s : State) : (modChunk d id f s).pending = s.pending := rfl
@[simp] theorem modChunk_out (d : Nat) (id : ChunkId) (f : LChunk → LChunk) (s : State) : (modChunk d id f s).out = s.out := rfl
@[simp] theorem modChunk_free (d : Nat) (id : ChunkId) (f : LChunk → LChunk) (s : State) : (modChunk d id f s).free = s.free := rfl
@[simp] theorem modChunk_fwd (d : Nat) (id : ChunkId) (f : LChunk → LChunk) (s : State) : (modChunk d id f s).fwd = s.fwd := rfl
@[simp] theorem modChunk_obs (d : Nat) (id : ChunkId) (f : LChunk → LChunk) (s : State) : (modChunk d id f s).obs = s.obs := rfl
@[simp] theorem modChunk_slices (d : Nat) (id : ChunkId) (f : LChunk → LChunk) (s : State) : (modChunk d id f s).slices = s.slices := rfl
@[simp] theorem modChunk_links (d : Nat) (id : ChunkId) (f : LChunk → LChunk) (s : State) : (modChunk d id f s).links = s.links := rfl
@[simp] theorem modChunk_power (d : Nat) (id : ChunkId) (f : LChunk → LChunk) (s : State) : (modChunk d id f s).power = s.power := rfl
@[simp] theorem modChunk_flash (d : Nat) (id : ChunkId) (f : LChunk → LChunk) (s : State) : (modChunk d id f s).flash = s.flash := rfl
@[simp] theorem modChunk_sram (d : Nat) (id : ChunkId) (f : LChunk → LChunk) (s : State) : (modChunk d id f s).sram = s.sram := rfl
@[simp] theorem modChunk_rates (d : Nat) (id : ChunkId) (f : LChunk → LChunk) (s : State) : (modChunk d id f s).rates = s.rates := rfl
@[simp] theorem modChunk_cw (d : Nat) (id : ChunkId) (f : LChunk → LChunk) (s : State) : (modChunk d id f s).cw = s.cw := rfl
@[simp] theorem modChunk_cwGone (d : Nat) (id : ChunkId) (f : LChunk → LChunk) (s : State) : (modChunk d id f s).cwGone = s.cwGone := rfl
@[simp] theorem modChunk_chain (d : Nat) (id : ChunkId) (f : LChunk → LChunk) (s : State) : (modChunk d id f s).chain = s.chain := rfl
@[simp] theorem modChunk_tele (d : Nat) (id : ChunkId) (f : LChunk → LChunk) (s : State) : (modChunk d id f s).tele = s.tele := rfl
@[simp] theorem modChunk_keys (d : Nat) (id : ChunkId) (f : LChunk → LChunk) (s : State) : (modChunk d id f s).keys = s.keys := rfl
@[simp] theorem modChunk_mailboxes (d : Nat) (id : ChunkId) (f : LChunk → LChunk) (s : State) : (modChunk d id f s).mailboxes = s.mailboxes := rfl
@[simp] theorem modChunk_oebs (d : Nat) (id : ChunkId) (f : LChunk → LChunk) (s : State) : (modChunk d id f s).oebs = s.oebs := rfl
@[simp] theorem modChunk_skips (d : Nat) (id : ChunkId) (f : LChunk → LChunk) (s : State) : (modChunk d id f s).skips = s.skips := rfl
@[simp] theorem modChunk_cores (d : Nat) (id : ChunkId) (f : LChunk → LChunk) (s : State) : (modChunk d id f s).cores = s.cores := rfl
@[simp] theorem modChunk_monarch (d : Nat) (id : ChunkId) (f : LChunk → LChunk) (s : State) : (modChunk d id f s).monarch = s.monarch := rfl
@[simp] theorem modChunk_ox (d : Nat) (id : ChunkId) (f : LChunk → LChunk) (s : State) : (modChunk d id f s).ox = s.ox := rfl
@[simp] theorem modChunk_oebA (d : Nat) (id : ChunkId) (f : LChunk → LChunk) (s : State) : (modChunk d id f s).oebA = s.oebA := rfl
@[simp] theorem modChunk_oebB (d : Nat) (id : ChunkId) (f : LChunk → LChunk) (s : State) : (modChunk d id f s).oebB = s.oebB := rfl
@[simp] theorem modChunk_unit (d : Nat) (id : ChunkId) (f : LChunk → LChunk) (s : State) (v : UnitId) : (modChunk d id f s).unit v = s.unit v := by
  unfold State.unit; split <;> simp

@[simp] theorem setOeb_pending (side : Side) (o : Oeb) (s : State) : (setOeb side o s).pending = s.pending := rfl
@[simp] theorem setOeb_out (side : Side) (o : Oeb) (s : State) : (setOeb side o s).out = s.out := rfl
@[simp] theorem setOeb_free (side : Side) (o : Oeb) (s : State) : (setOeb side o s).free = s.free := rfl
@[simp] theorem setOeb_fwd (side : Side) (o : Oeb) (s : State) : (setOeb side o s).fwd = s.fwd := rfl
@[simp] theorem setOeb_obs (side : Side) (o : Oeb) (s : State) : (setOeb side o s).obs = s.obs := rfl
@[simp] theorem setOeb_slices (side : Side) (o : Oeb) (s : State) : (setOeb side o s).slices = s.slices := rfl
@[simp] theorem setOeb_links (side : Side) (o : Oeb) (s : State) : (setOeb side o s).links = s.links := rfl
@[simp] theorem setOeb_power (side : Side) (o : Oeb) (s : State) : (setOeb side o s).power = s.power := rfl
@[simp] theorem setOeb_flash (side : Side) (o : Oeb) (s : State) : (setOeb side o s).flash = s.flash := rfl
@[simp] theorem setOeb_sram (side : Side) (o : Oeb) (s : State) : (setOeb side o s).sram = s.sram := rfl
@[simp] theorem setOeb_rates (side : Side) (o : Oeb) (s : State) : (setOeb side o s).rates = s.rates := rfl
@[simp] theorem setOeb_cw (side : Side) (o : Oeb) (s : State) : (setOeb side o s).cw = s.cw := rfl
@[simp] theorem setOeb_cwGone (side : Side) (o : Oeb) (s : State) : (setOeb side o s).cwGone = s.cwGone := rfl
@[simp] theorem setOeb_chain (side : Side) (o : Oeb) (s : State) : (setOeb side o s).chain = s.chain := rfl
@[simp] theorem setOeb_tele (side : Side) (o : Oeb) (s : State) : (setOeb side o s).tele = s.tele := rfl
@[simp] theorem setOeb_keys (side : Side) (o : Oeb) (s : State) : (setOeb side o s).keys = s.keys := rfl
@[simp] theorem setOeb_mailboxes (side : Side) (o : Oeb) (s : State) : (setOeb side o s).mailboxes = s.mailboxes := rfl
@[simp] theorem setOeb_skips (side : Side) (o : Oeb) (s : State) : (setOeb side o s).skips = s.skips := rfl
@[simp] theorem setOeb_luna (side : Side) (o : Oeb) (s : State) : (setOeb side o s).luna = s.luna := rfl
@[simp] theorem setOeb_cores (side : Side) (o : Oeb) (s : State) : (setOeb side o s).cores = s.cores := rfl
@[simp] theorem setOeb_monarch (side : Side) (o : Oeb) (s : State) : (setOeb side o s).monarch = s.monarch := rfl
@[simp] theorem setOeb_ox (side : Side) (o : Oeb) (s : State) : (setOeb side o s).ox = s.ox := rfl
@[simp] theorem setOeb_oebA (side : Side) (o : Oeb) (s : State) : (setOeb side o s).oebA = s.oebA := rfl
@[simp] theorem setOeb_oebB (side : Side) (o : Oeb) (s : State) : (setOeb side o s).oebB = s.oebB := rfl
@[simp] theorem setOeb_unit (side : Side) (o : Oeb) (s : State) (v : UnitId) : (setOeb side o s).unit v = s.unit v := by
  unfold State.unit; split <;> simp

@[simp] theorem modOeb_pending (side : Side) (f : Oeb → Oeb) (s : State) : (modOeb side f s).pending = s.pending := rfl
@[simp] theorem modOeb_out (side : Side) (f : Oeb → Oeb) (s : State) : (modOeb side f s).out = s.out := rfl
@[simp] theorem modOeb_free (side : Side) (f : Oeb → Oeb) (s : State) : (modOeb side f s).free = s.free := rfl
@[simp] theorem modOeb_fwd (side : Side) (f : Oeb → Oeb) (s : State) : (modOeb side f s).fwd = s.fwd := rfl
@[simp] theorem modOeb_obs (side : Side) (f : Oeb → Oeb) (s : State) : (modOeb side f s).obs = s.obs := rfl
@[simp] theorem modOeb_slices (side : Side) (f : Oeb → Oeb) (s : State) : (modOeb side f s).slices = s.slices := rfl
@[simp] theorem modOeb_links (side : Side) (f : Oeb → Oeb) (s : State) : (modOeb side f s).links = s.links := rfl
@[simp] theorem modOeb_power (side : Side) (f : Oeb → Oeb) (s : State) : (modOeb side f s).power = s.power := rfl
@[simp] theorem modOeb_flash (side : Side) (f : Oeb → Oeb) (s : State) : (modOeb side f s).flash = s.flash := rfl
@[simp] theorem modOeb_sram (side : Side) (f : Oeb → Oeb) (s : State) : (modOeb side f s).sram = s.sram := rfl
@[simp] theorem modOeb_rates (side : Side) (f : Oeb → Oeb) (s : State) : (modOeb side f s).rates = s.rates := rfl
@[simp] theorem modOeb_cw (side : Side) (f : Oeb → Oeb) (s : State) : (modOeb side f s).cw = s.cw := rfl
@[simp] theorem modOeb_cwGone (side : Side) (f : Oeb → Oeb) (s : State) : (modOeb side f s).cwGone = s.cwGone := rfl
@[simp] theorem modOeb_chain (side : Side) (f : Oeb → Oeb) (s : State) : (modOeb side f s).chain = s.chain := rfl
@[simp] theorem modOeb_tele (side : Side) (f : Oeb → Oeb) (s : State) : (modOeb side f s).tele = s.tele := rfl
@[simp] theorem modOeb_keys (side : Side) (f : Oeb → Oeb) (s : State) : (modOeb side f s).keys = s.keys := rfl
@[simp] theorem modOeb_mailboxes (side : Side) (f : Oeb → Oeb) (s : State) : (modOeb side f s).mailboxes = s.mailboxes := rfl
@[simp] theorem modOeb_skips (side : Side) (f : Oeb → Oeb) (s : State) : (modOeb side f s).skips = s.skips := rfl
@[simp] theorem modOeb_luna (side : Side) (f : Oeb → Oeb) (s : State) : (modOeb side f s).luna = s.luna := rfl
@[simp] theorem modOeb_cores (side : Side) (f : Oeb → Oeb) (s : State) : (modOeb side f s).cores = s.cores := rfl
@[simp] theorem modOeb_monarch (side : Side) (f : Oeb → Oeb) (s : State) : (modOeb side f s).monarch = s.monarch := rfl
@[simp] theorem modOeb_ox (side : Side) (f : Oeb → Oeb) (s : State) : (modOeb side f s).ox = s.ox := rfl
@[simp] theorem modOeb_oebA (side : Side) (f : Oeb → Oeb) (s : State) : (modOeb side f s).oebA = s.oebA := rfl
@[simp] theorem modOeb_oebB (side : Side) (f : Oeb → Oeb) (s : State) : (modOeb side f s).oebB = s.oebB := rfl
@[simp] theorem modOeb_unit (side : Side) (f : Oeb → Oeb) (s : State) (v : UnitId) : (modOeb side f s).unit v = s.unit v := by
  unfold State.unit; split <;> simp

@[simp] theorem so_pending (side : Side) (f : Fld) (i v : Nat) (s : State) : (so side f i v s).pending = s.pending := by simp [so]
@[simp] theorem so_out (side : Side) (f : Fld) (i v : Nat) (s : State) : (so side f i v s).out = s.out := by simp [so]
@[simp] theorem so_free (side : Side) (f : Fld) (i v : Nat) (s : State) : (so side f i v s).free = s.free := by simp [so]
@[simp] theorem so_fwd (side : Side) (f : Fld) (i v : Nat) (s : State) : (so side f i v s).fwd = s.fwd := by simp [so]
@[simp] theorem so_obs (side : Side) (f : Fld) (i v : Nat) (s : State) : (so side f i v s).obs = s.obs := by simp [so]
@[simp] theorem so_slices (side : Side) (f : Fld) (i v : Nat) (s : State) : (so side f i v s).slices = s.slices := by simp [so]
@[simp] theorem so_links (side : Side) (f : Fld) (i v : Nat) (s : State) : (so side f i v s).links = s.links := by simp [so]
@[simp] theorem so_power (side : Side) (f : Fld) (i v : Nat) (s : State) : (so side f i v s).power = s.power := by simp [so]
@[simp] theorem so_flash (side : Side) (f : Fld) (i v : Nat) (s : State) : (so side f i v s).flash = s.flash := by simp [so]
@[simp] theorem so_sram (side : Side) (f : Fld) (i v : Nat) (s : State) : (so side f i v s).sram = s.sram := by simp [so]
@[simp] theorem so_rates (side : Side) (f : Fld) (i v : Nat) (s : State) : (so side f i v s).rates = s.rates := by simp [so]
@[simp] theorem so_cw (side : Side) (f : Fld) (i v : Nat) (s : State) : (so side f i v s).cw = s.cw := by simp [so]
@[simp] theorem so_cwGone (side : Side) (f : Fld) (i v : Nat) (s : State) : (so side f i v s).cwGone = s.cwGone := by simp [so]
@[simp] theorem so_chain (side : Side) (f : Fld) (i v : Nat) (s : State) : (so side f i v s).chain = s.chain := by simp [so]
@[simp] theorem so_tele (side : Side) (f : Fld) (i v : Nat) (s : State) : (so side f i v s).tele = s.tele := by simp [so]
@[simp] theorem so_keys (side : Side) (f : Fld) (i v : Nat) (s : State) : (so side f i v s).keys = s.keys := by simp [so]
@[simp] theorem so_mailboxes (side : Side) (f : Fld) (i v : Nat) (s : State) : (so side f i v s).mailboxes = s.mailboxes := by simp [so]
@[simp] theorem so_oebs (side : Side) (f : Fld) (i v : Nat) (s : State) : (so side f i v s).oebs = s.oebs := by simp [so]
@[simp] theorem so_skips (side : Side) (f : Fld) (i v : Nat) (s : State) : (so side f i v s).skips = s.skips := by simp [so]
@[simp] theorem so_luna (side : Side) (f : Fld) (i v : Nat) (s : State) : (so side f i v s).luna = s.luna := by simp [so]
@[simp] theorem so_cores (side : Side) (f : Fld) (i v : Nat) (s : State) : (so side f i v s).cores = s.cores := by simp [so]
@[simp] theorem so_monarch (side : Side) (f : Fld) (i v : Nat) (s : State) : (so side f i v s).monarch = s.monarch := by simp [so]

@[simp] theorem setKeySec_pending (u : UnitId) (x : KeySec) (s : State) : (setKeySec u x s).pending = s.pending := rfl
@[simp] theorem setKeySec_out (u : UnitId) (x : KeySec) (s : State) : (setKeySec u x s).out = s.out := rfl
@[simp] theorem setKeySec_free (u : UnitId) (x : KeySec) (s : State) : (setKeySec u x s).free = s.free := rfl
@[simp] theorem setKeySec_fwd (u : UnitId) (x : KeySec) (s : State) : (setKeySec u x s).fwd = s.fwd := rfl
@[simp] theorem setKeySec_obs (u : UnitId) (x : KeySec) (s : State) : (setKeySec u x s).obs = s.obs := rfl
@[simp] theorem setKeySec_slices (u : UnitId) (x : KeySec) (s : State) : (setKeySec u x s).slices = s.slices := rfl
@[simp] theorem setKeySec_links (u : UnitId) (x : KeySec) (s : State) : (setKeySec u x s).links = s.links := rfl
@[simp] theorem setKeySec_power (u : UnitId) (x : KeySec) (s : State) : (setKeySec u x s).power = s.power := rfl
@[simp] theorem setKeySec_flash (u : UnitId) (x : KeySec) (s : State) : (setKeySec u x s).flash = s.flash := rfl
@[simp] theorem setKeySec_sram (u : UnitId) (x : KeySec) (s : State) : (setKeySec u x s).sram = s.sram := rfl
@[simp] theorem setKeySec_rates (u : UnitId) (x : KeySec) (s : State) : (setKeySec u x s).rates = s.rates := rfl
@[simp] theorem setKeySec_cw (u : UnitId) (x : KeySec) (s : State) : (setKeySec u x s).cw = s.cw := rfl
@[simp] theorem setKeySec_cwGone (u : UnitId) (x : KeySec) (s : State) : (setKeySec u x s).cwGone = s.cwGone := rfl
@[simp] theorem setKeySec_chain (u : UnitId) (x : KeySec) (s : State) : (setKeySec u x s).chain = s.chain := rfl
@[simp] theorem setKeySec_tele (u : UnitId) (x : KeySec) (s : State) : (setKeySec u x s).tele = s.tele := rfl
@[simp] theorem setKeySec_mailboxes (u : UnitId) (x : KeySec) (s : State) : (setKeySec u x s).mailboxes = s.mailboxes := rfl
@[simp] theorem setKeySec_oebs (u : UnitId) (x : KeySec) (s : State) : (setKeySec u x s).oebs = s.oebs := rfl
@[simp] theorem setKeySec_skips (u : UnitId) (x : KeySec) (s : State) : (setKeySec u x s).skips = s.skips := rfl
@[simp] theorem setKeySec_luna (u : UnitId) (x : KeySec) (s : State) : (setKeySec u x s).luna = s.luna := rfl
@[simp] theorem setKeySec_cores (u : UnitId) (x : KeySec) (s : State) : (setKeySec u x s).cores = s.cores := rfl
@[simp] theorem setKeySec_monarch (u : UnitId) (x : KeySec) (s : State) : (setKeySec u x s).monarch = s.monarch := rfl
@[simp] theorem setKeySec_ox (u : UnitId) (x : KeySec) (s : State) : (setKeySec u x s).ox = s.ox := rfl
@[simp] theorem setKeySec_oebA (u : UnitId) (x : KeySec) (s : State) : (setKeySec u x s).oebA = s.oebA := rfl
@[simp] theorem setKeySec_oebB (u : UnitId) (x : KeySec) (s : State) : (setKeySec u x s).oebB = s.oebB := rfl
@[simp] theorem setKeySec_unit (u : UnitId) (x : KeySec) (s : State) (v : UnitId) : (setKeySec u x s).unit v = s.unit v := by
  unfold State.unit; split <;> simp

@[simp] theorem setKeySlot_pending (u : UnitId) (n : Nat) (k : Option KeySlot) (s : State) : (setKeySlot u n k s).pending = s.pending := rfl
@[simp] theorem setKeySlot_out (u : UnitId) (n : Nat) (k : Option KeySlot) (s : State) : (setKeySlot u n k s).out = s.out := rfl
@[simp] theorem setKeySlot_free (u : UnitId) (n : Nat) (k : Option KeySlot) (s : State) : (setKeySlot u n k s).free = s.free := rfl
@[simp] theorem setKeySlot_fwd (u : UnitId) (n : Nat) (k : Option KeySlot) (s : State) : (setKeySlot u n k s).fwd = s.fwd := rfl
@[simp] theorem setKeySlot_obs (u : UnitId) (n : Nat) (k : Option KeySlot) (s : State) : (setKeySlot u n k s).obs = s.obs := rfl
@[simp] theorem setKeySlot_slices (u : UnitId) (n : Nat) (k : Option KeySlot) (s : State) : (setKeySlot u n k s).slices = s.slices := rfl
@[simp] theorem setKeySlot_links (u : UnitId) (n : Nat) (k : Option KeySlot) (s : State) : (setKeySlot u n k s).links = s.links := rfl
@[simp] theorem setKeySlot_power (u : UnitId) (n : Nat) (k : Option KeySlot) (s : State) : (setKeySlot u n k s).power = s.power := rfl
@[simp] theorem setKeySlot_flash (u : UnitId) (n : Nat) (k : Option KeySlot) (s : State) : (setKeySlot u n k s).flash = s.flash := rfl
@[simp] theorem setKeySlot_sram (u : UnitId) (n : Nat) (k : Option KeySlot) (s : State) : (setKeySlot u n k s).sram = s.sram := rfl
@[simp] theorem setKeySlot_rates (u : UnitId) (n : Nat) (k : Option KeySlot) (s : State) : (setKeySlot u n k s).rates = s.rates := rfl
@[simp] theorem setKeySlot_cw (u : UnitId) (n : Nat) (k : Option KeySlot) (s : State) : (setKeySlot u n k s).cw = s.cw := rfl
@[simp] theorem setKeySlot_cwGone (u : UnitId) (n : Nat) (k : Option KeySlot) (s : State) : (setKeySlot u n k s).cwGone = s.cwGone := rfl
@[simp] theorem setKeySlot_chain (u : UnitId) (n : Nat) (k : Option KeySlot) (s : State) : (setKeySlot u n k s).chain = s.chain := rfl
@[simp] theorem setKeySlot_tele (u : UnitId) (n : Nat) (k : Option KeySlot) (s : State) : (setKeySlot u n k s).tele = s.tele := rfl
@[simp] theorem setKeySlot_mailboxes (u : UnitId) (n : Nat) (k : Option KeySlot) (s : State) : (setKeySlot u n k s).mailboxes = s.mailboxes := rfl
@[simp] theorem setKeySlot_oebs (u : UnitId) (n : Nat) (k : Option KeySlot) (s : State) : (setKeySlot u n k s).oebs = s.oebs := rfl
@[simp] theorem setKeySlot_skips (u : UnitId) (n : Nat) (k : Option KeySlot) (s : State) : (setKeySlot u n k s).skips = s.skips := rfl
@[simp] theorem setKeySlot_luna (u : UnitId) (n : Nat) (k : Option KeySlot) (s : State) : (setKeySlot u n k s).luna = s.luna := rfl
@[simp] theorem setKeySlot_cores (u : UnitId) (n : Nat) (k : Option KeySlot) (s : State) : (setKeySlot u n k s).cores = s.cores := rfl
@[simp] theorem setKeySlot_ox (u : UnitId) (n : Nat) (k : Option KeySlot) (s : State) : (setKeySlot u n k s).ox = s.ox := rfl
@[simp] theorem setKeySlot_oebA (u : UnitId) (n : Nat) (k : Option KeySlot) (s : State) : (setKeySlot u n k s).oebA = s.oebA := rfl
@[simp] theorem setKeySlot_oebB (u : UnitId) (n : Nat) (k : Option KeySlot) (s : State) : (setKeySlot u n k s).oebB = s.oebB := rfl
@[simp] theorem setKeySlot_unit (u : UnitId) (n : Nat) (k : Option KeySlot) (s : State) (v : UnitId) : (setKeySlot u n k s).unit v = s.unit v := by
  unfold State.unit; split <;> simp

@[simp] theorem setMailbox_pending (d : Nat) (x : Mailbox) (s : State) : (setMailbox d x s).pending = s.pending := rfl
@[simp] theorem setMailbox_out (d : Nat) (x : Mailbox) (s : State) : (setMailbox d x s).out = s.out := rfl
@[simp] theorem setMailbox_free (d : Nat) (x : Mailbox) (s : State) : (setMailbox d x s).free = s.free := rfl
@[simp] theorem setMailbox_fwd (d : Nat) (x : Mailbox) (s : State) : (setMailbox d x s).fwd = s.fwd := rfl
@[simp] theorem setMailbox_obs (d : Nat) (x : Mailbox) (s : State) : (setMailbox d x s).obs = s.obs := rfl
@[simp] theorem setMailbox_slices (d : Nat) (x : Mailbox) (s : State) : (setMailbox d x s).slices = s.slices := rfl
@[simp] theorem setMailbox_links (d : Nat) (x : Mailbox) (s : State) : (setMailbox d x s).links = s.links := rfl
@[simp] theorem setMailbox_power (d : Nat) (x : Mailbox) (s : State) : (setMailbox d x s).power = s.power := rfl
@[simp] theorem setMailbox_flash (d : Nat) (x : Mailbox) (s : State) : (setMailbox d x s).flash = s.flash := rfl
@[simp] theorem setMailbox_sram (d : Nat) (x : Mailbox) (s : State) : (setMailbox d x s).sram = s.sram := rfl
@[simp] theorem setMailbox_rates (d : Nat) (x : Mailbox) (s : State) : (setMailbox d x s).rates = s.rates := rfl
@[simp] theorem setMailbox_cw (d : Nat) (x : Mailbox) (s : State) : (setMailbox d x s).cw = s.cw := rfl
@[simp] theorem setMailbox_cwGone (d : Nat) (x : Mailbox) (s : State) : (setMailbox d x s).cwGone = s.cwGone := rfl
@[simp] theorem setMailbox_chain (d : Nat) (x : Mailbox) (s : State) : (setMailbox d x s).chain = s.chain := rfl
@[simp] theorem setMailbox_tele (d : Nat) (x : Mailbox) (s : State) : (setMailbox d x s).tele = s.tele := rfl
@[simp] theorem setMailbox_keys (d : Nat) (x : Mailbox) (s : State) : (setMailbox d x s).keys = s.keys := rfl
@[simp] theorem setMailbox_oebs (d : Nat) (x : Mailbox) (s : State) : (setMailbox d x s).oebs = s.oebs := rfl
@[simp] theorem setMailbox_skips (d : Nat) (x : Mailbox) (s : State) : (setMailbox d x s).skips = s.skips := rfl
@[simp] theorem setMailbox_luna (d : Nat) (x : Mailbox) (s : State) : (setMailbox d x s).luna = s.luna := rfl
@[simp] theorem setMailbox_cores (d : Nat) (x : Mailbox) (s : State) : (setMailbox d x s).cores = s.cores := rfl
@[simp] theorem setMailbox_monarch (d : Nat) (x : Mailbox) (s : State) : (setMailbox d x s).monarch = s.monarch := rfl
@[simp] theorem setMailbox_ox (d : Nat) (x : Mailbox) (s : State) : (setMailbox d x s).ox = s.ox := rfl
@[simp] theorem setMailbox_oebA (d : Nat) (x : Mailbox) (s : State) : (setMailbox d x s).oebA = s.oebA := rfl
@[simp] theorem setMailbox_oebB (d : Nat) (x : Mailbox) (s : State) : (setMailbox d x s).oebB = s.oebB := rfl
@[simp] theorem setMailbox_unit (d : Nat) (x : Mailbox) (s : State) (v : UnitId) : (setMailbox d x s).unit v = s.unit v := by
  unfold State.unit; split <;> simp

@[simp] theorem setCwBank_pending (b : Nat) (x : CwBank) (s : State) : (setCwBank b x s).pending = s.pending := rfl
@[simp] theorem setCwBank_out (b : Nat) (x : CwBank) (s : State) : (setCwBank b x s).out = s.out := rfl
@[simp] theorem setCwBank_free (b : Nat) (x : CwBank) (s : State) : (setCwBank b x s).free = s.free := rfl
@[simp] theorem setCwBank_fwd (b : Nat) (x : CwBank) (s : State) : (setCwBank b x s).fwd = s.fwd := rfl
@[simp] theorem setCwBank_obs (b : Nat) (x : CwBank) (s : State) : (setCwBank b x s).obs = s.obs := rfl
@[simp] theorem setCwBank_slices (b : Nat) (x : CwBank) (s : State) : (setCwBank b x s).slices = s.slices := rfl
@[simp] theorem setCwBank_links (b : Nat) (x : CwBank) (s : State) : (setCwBank b x s).links = s.links := rfl
@[simp] theorem setCwBank_power (b : Nat) (x : CwBank) (s : State) : (setCwBank b x s).power = s.power := rfl
@[simp] theorem setCwBank_flash (b : Nat) (x : CwBank) (s : State) : (setCwBank b x s).flash = s.flash := rfl
@[simp] theorem setCwBank_sram (b : Nat) (x : CwBank) (s : State) : (setCwBank b x s).sram = s.sram := rfl
@[simp] theorem setCwBank_rates (b : Nat) (x : CwBank) (s : State) : (setCwBank b x s).rates = s.rates := rfl
@[simp] theorem setCwBank_cwGone (b : Nat) (x : CwBank) (s : State) : (setCwBank b x s).cwGone = s.cwGone := rfl
@[simp] theorem setCwBank_chain (b : Nat) (x : CwBank) (s : State) : (setCwBank b x s).chain = s.chain := rfl
@[simp] theorem setCwBank_tele (b : Nat) (x : CwBank) (s : State) : (setCwBank b x s).tele = s.tele := rfl
@[simp] theorem setCwBank_keys (b : Nat) (x : CwBank) (s : State) : (setCwBank b x s).keys = s.keys := rfl
@[simp] theorem setCwBank_mailboxes (b : Nat) (x : CwBank) (s : State) : (setCwBank b x s).mailboxes = s.mailboxes := rfl
@[simp] theorem setCwBank_oebs (b : Nat) (x : CwBank) (s : State) : (setCwBank b x s).oebs = s.oebs := rfl
@[simp] theorem setCwBank_skips (b : Nat) (x : CwBank) (s : State) : (setCwBank b x s).skips = s.skips := rfl
@[simp] theorem setCwBank_luna (b : Nat) (x : CwBank) (s : State) : (setCwBank b x s).luna = s.luna := rfl
@[simp] theorem setCwBank_cores (b : Nat) (x : CwBank) (s : State) : (setCwBank b x s).cores = s.cores := rfl
@[simp] theorem setCwBank_monarch (b : Nat) (x : CwBank) (s : State) : (setCwBank b x s).monarch = s.monarch := rfl
@[simp] theorem setCwBank_ox (b : Nat) (x : CwBank) (s : State) : (setCwBank b x s).ox = s.ox := rfl
@[simp] theorem setCwBank_oebA (b : Nat) (x : CwBank) (s : State) : (setCwBank b x s).oebA = s.oebA := rfl
@[simp] theorem setCwBank_oebB (b : Nat) (x : CwBank) (s : State) : (setCwBank b x s).oebB = s.oebB := rfl
@[simp] theorem setCwBank_unit (b : Nat) (x : CwBank) (s : State) (v : UnitId) : (setCwBank b x s).unit v = s.unit v := by
  unfold State.unit; split <;> simp

@[simp] theorem setRates_pending (u : RateUnit) (l : List RateEnt) (s : State) : (setRates u l s).pending = s.pending := rfl
@[simp] theorem setRates_out (u : RateUnit) (l : List RateEnt) (s : State) : (setRates u l s).out = s.out := rfl
@[simp] theorem setRates_free (u : RateUnit) (l : List RateEnt) (s : State) : (setRates u l s).free = s.free := rfl
@[simp] theorem setRates_fwd (u : RateUnit) (l : List RateEnt) (s : State) : (setRates u l s).fwd = s.fwd := rfl
@[simp] theorem setRates_obs (u : RateUnit) (l : List RateEnt) (s : State) : (setRates u l s).obs = s.obs := rfl
@[simp] theorem setRates_slices (u : RateUnit) (l : List RateEnt) (s : State) : (setRates u l s).slices = s.slices := rfl
@[simp] theorem setRates_links (u : RateUnit) (l : List RateEnt) (s : State) : (setRates u l s).links = s.links := rfl
@[simp] theorem setRates_power (u : RateUnit) (l : List RateEnt) (s : State) : (setRates u l s).power = s.power := rfl
@[simp] theorem setRates_flash (u : RateUnit) (l : List RateEnt) (s : State) : (setRates u l s).flash = s.flash := rfl
@[simp] theorem setRates_sram (u : RateUnit) (l : List RateEnt) (s : State) : (setRates u l s).sram = s.sram := rfl
@[simp] theorem setRates_cw (u : RateUnit) (l : List RateEnt) (s : State) : (setRates u l s).cw = s.cw := rfl
@[simp] theorem setRates_cwGone (u : RateUnit) (l : List RateEnt) (s : State) : (setRates u l s).cwGone = s.cwGone := rfl
@[simp] theorem setRates_chain (u : RateUnit) (l : List RateEnt) (s : State) : (setRates u l s).chain = s.chain := rfl
@[simp] theorem setRates_tele (u : RateUnit) (l : List RateEnt) (s : State) : (setRates u l s).tele = s.tele := rfl
@[simp] theorem setRates_keys (u : RateUnit) (l : List RateEnt) (s : State) : (setRates u l s).keys = s.keys := rfl
@[simp] theorem setRates_mailboxes (u : RateUnit) (l : List RateEnt) (s : State) : (setRates u l s).mailboxes = s.mailboxes := rfl
@[simp] theorem setRates_oebs (u : RateUnit) (l : List RateEnt) (s : State) : (setRates u l s).oebs = s.oebs := rfl
@[simp] theorem setRates_skips (u : RateUnit) (l : List RateEnt) (s : State) : (setRates u l s).skips = s.skips := rfl
@[simp] theorem setRates_luna (u : RateUnit) (l : List RateEnt) (s : State) : (setRates u l s).luna = s.luna := rfl
@[simp] theorem setRates_cores (u : RateUnit) (l : List RateEnt) (s : State) : (setRates u l s).cores = s.cores := rfl
@[simp] theorem setRates_monarch (u : RateUnit) (l : List RateEnt) (s : State) : (setRates u l s).monarch = s.monarch := rfl
@[simp] theorem setRates_ox (u : RateUnit) (l : List RateEnt) (s : State) : (setRates u l s).ox = s.ox := rfl
@[simp] theorem setRates_oebA (u : RateUnit) (l : List RateEnt) (s : State) : (setRates u l s).oebA = s.oebA := rfl
@[simp] theorem setRates_oebB (u : RateUnit) (l : List RateEnt) (s : State) : (setRates u l s).oebB = s.oebB := rfl
@[simp] theorem setRates_unit (u : RateUnit) (l : List RateEnt) (s : State) (v : UnitId) : (setRates u l s).unit v = s.unit v := by
  unfold State.unit; split <;> simp

@[simp] theorem modSkip_pending (k : Nat) (f : Skipper → Skipper) (s : State) : (modSkip k f s).pending = s.pending := rfl
@[simp] theorem modSkip_out (k : Nat) (f : Skipper → Skipper) (s : State) : (modSkip k f s).out = s.out := rfl
@[simp] theorem modSkip_free (k : Nat) (f : Skipper → Skipper) (s : State) : (modSkip k f s).free = s.free := rfl
@[simp] theorem modSkip_fwd (k : Nat) (f : Skipper → Skipper) (s : State) : (modSkip k f s).fwd = s.fwd := rfl
@[simp] theorem modSkip_obs (k : Nat) (f : Skipper → Skipper) (s : State) : (modSkip k f s).obs = s.obs := rfl
@[simp] theorem modSkip_slices (k : Nat) (f : Skipper → Skipper) (s : State) : (modSkip k f s).slices = s.slices := rfl
@[simp] theorem modSkip_links (k : Nat) (f : Skipper → Skipper) (s : State) : (modSkip k f s).links = s.links := rfl
@[simp] theorem modSkip_power (k : Nat) (f : Skipper → Skipper) (s : State) : (modSkip k f s).power = s.power := rfl
@[simp] theorem modSkip_flash (k : Nat) (f : Skipper → Skipper) (s : State) : (modSkip k f s).flash = s.flash := rfl
@[simp] theorem modSkip_sram (k : Nat) (f : Skipper → Skipper) (s : State) : (modSkip k f s).sram = s.sram := rfl
@[simp] theorem modSkip_rates (k : Nat) (f : Skipper → Skipper) (s : State) : (modSkip k f s).rates = s.rates := rfl
@[simp] theorem modSkip_cw (k : Nat) (f : Skipper → Skipper) (s : State) : (modSkip k f s).cw = s.cw := rfl
@[simp] theorem modSkip_cwGone (k : Nat) (f : Skipper → Skipper) (s : State) : (modSkip k f s).cwGone = s.cwGone := rfl
@[simp] theorem modSkip_chain (k : Nat) (f : Skipper → Skipper) (s : State) : (modSkip k f s).chain = s.chain := rfl
@[simp] theorem modSkip_tele (k : Nat) (f : Skipper → Skipper) (s : State) : (modSkip k f s).tele = s.tele := rfl
@[simp] theorem modSkip_keys (k : Nat) (f : Skipper → Skipper) (s : State) : (modSkip k f s).keys = s.keys := rfl
@[simp] theorem modSkip_mailboxes (k : Nat) (f : Skipper → Skipper) (s : State) : (modSkip k f s).mailboxes = s.mailboxes := rfl
@[simp] theorem modSkip_oebs (k : Nat) (f : Skipper → Skipper) (s : State) : (modSkip k f s).oebs = s.oebs := rfl
@[simp] theorem modSkip_luna (k : Nat) (f : Skipper → Skipper) (s : State) : (modSkip k f s).luna = s.luna := rfl
@[simp] theorem modSkip_cores (k : Nat) (f : Skipper → Skipper) (s : State) : (modSkip k f s).cores = s.cores := rfl
@[simp] theorem modSkip_monarch (k : Nat) (f : Skipper → Skipper) (s : State) : (modSkip k f s).monarch = s.monarch := rfl
@[simp] theorem modSkip_ox (k : Nat) (f : Skipper → Skipper) (s : State) : (modSkip k f s).ox = s.ox := rfl
@[simp] theorem modSkip_oebA (k : Nat) (f : Skipper → Skipper) (s : State) : (modSkip k f s).oebA = s.oebA := rfl
@[simp] theorem modSkip_oebB (k : Nat) (f : Skipper → Skipper) (s : State) : (modSkip k f s).oebB = s.oebB := rfl
@[simp] theorem modSkip_unit (k : Nat) (f : Skipper → Skipper) (s : State) (v : UnitId) : (modSkip k f s).unit v = s.unit v := by
  unfold State.unit; split <;> simp

@[simp] theorem setChainLink_pending (i : Nat) (l : ChainLink) (s : State) : (setChainLink i l s).pending = s.pending := by unfold setChainLink; split <;> rfl
@[simp] theorem setChainLink_out (i : Nat) (l : ChainLink) (s : State) : (setChainLink i l s).out = s.out := by unfold setChainLink; split <;> rfl
@[simp] theorem setChainLink_free (i : Nat) (l : ChainLink) (s : State) : (setChainLink i l s).free = s.free := by unfold setChainLink; split <;> rfl
@[simp] theorem setChainLink_fwd (i : Nat) (l : ChainLink) (s : State) : (setChainLink i l s).fwd = s.fwd := by unfold setChainLink; split <;> rfl
@[simp] theorem setChainLink_obs (i : Nat) (l : ChainLink) (s : State) : (setChainLink i l s).obs = s.obs := by unfold setChainLink; split <;> rfl
@[simp] theorem setChainLink_slices (i : Nat) (l : ChainLink) (s : State) : (setChainLink i l s).slices = s.slices := by unfold setChainLink; split <;> rfl
@[simp] theorem setChainLink_links (i : Nat) (l : ChainLink) (s : State) : (setChainLink i l s).links = s.links := by unfold setChainLink; split <;> rfl
@[simp] theorem setChainLink_power (i : Nat) (l : ChainLink) (s : State) : (setChainLink i l s).power = s.power := by unfold setChainLink; split <;> rfl
@[simp] theorem setChainLink_flash (i : Nat) (l : ChainLink) (s : State) : (setChainLink i l s).flash = s.flash := by unfold setChainLink; split <;> rfl
@[simp] theorem setChainLink_sram (i : Nat) (l : ChainLink) (s : State) : (setChainLink i l s).sram = s.sram := by unfold setChainLink; split <;> rfl
@[simp] theorem setChainLink_rates (i : Nat) (l : ChainLink) (s : State) : (setChainLink i l s).rates = s.rates := by unfold setChainLink; split <;> rfl
@[simp] theorem setChainLink_cw (i : Nat) (l : ChainLink) (s : State) : (setChainLink i l s).cw = s.cw := by unfold setChainLink; split <;> rfl
@[simp] theorem setChainLink_cwGone (i : Nat) (l : ChainLink) (s : State) : (setChainLink i l s).cwGone = s.cwGone := by unfold setChainLink; split <;> rfl
@[simp] theorem setChainLink_tele (i : Nat) (l : ChainLink) (s : State) : (setChainLink i l s).tele = s.tele := by unfold setChainLink; split <;> rfl
@[simp] theorem setChainLink_keys (i : Nat) (l : ChainLink) (s : State) : (setChainLink i l s).keys = s.keys := by unfold setChainLink; split <;> rfl
@[simp] theorem setChainLink_mailboxes (i : Nat) (l : ChainLink) (s : State) : (setChainLink i l s).mailboxes = s.mailboxes := by unfold setChainLink; split <;> rfl
@[simp] theorem setChainLink_oebs (i : Nat) (l : ChainLink) (s : State) : (setChainLink i l s).oebs = s.oebs := by unfold setChainLink; split <;> rfl
@[simp] theorem setChainLink_skips (i : Nat) (l : ChainLink) (s : State) : (setChainLink i l s).skips = s.skips := by unfold setChainLink; split <;> rfl
@[simp] theorem setChainLink_luna (i : Nat) (l : ChainLink) (s : State) : (setChainLink i l s).luna = s.luna := by unfold setChainLink; split <;> rfl
@[simp] theorem setChainLink_cores (i : Nat) (l : ChainLink) (s : State) : (setChainLink i l s).cores = s.cores := by unfold setChainLink; split <;> rfl
@[simp] theorem setChainLink_monarch (i : Nat) (l : ChainLink) (s : State) : (setChainLink i l s).monarch = s.monarch := by unfold setChainLink; split <;> rfl
@[simp] theorem setChainLink_ox (i : Nat) (l : ChainLink) (s : State) : (setChainLink i l s).ox = s.ox := by unfold setChainLink; split <;> rfl
@[simp] theorem setChainLink_oebA (i : Nat) (l : ChainLink) (s : State) : (setChainLink i l s).oebA = s.oebA := by unfold setChainLink; split <;> rfl
@[simp] theorem setChainLink_oebB (i : Nat) (l : ChainLink) (s : State) : (setChainLink i l s).oebB = s.oebB := by unfold setChainLink; split <;> rfl
@[simp] theorem setChainLink_unit (i : Nat) (l : ChainLink) (s : State) (v : UnitId) : (setChainLink i l s).unit v = s.unit v := by
  unfold State.unit; split <;> simp

@[simp] theorem setSnap_pending (u : UnitId) (x : SnapSt) (s : State) : (setSnap u x s).pending = s.pending := by unfold setSnap; split <;> rfl
@[simp] theorem setSnap_out (u : UnitId) (x : SnapSt) (s : State) : (setSnap u x s).out = s.out := by unfold setSnap; split <;> rfl
@[simp] theorem setSnap_free (u : UnitId) (x : SnapSt) (s : State) : (setSnap u x s).free = s.free := by unfold setSnap; split <;> rfl
@[simp] theorem setSnap_fwd (u : UnitId) (x : SnapSt) (s : State) : (setSnap u x s).fwd = s.fwd := by unfold setSnap; split <;> rfl
@[simp] theorem setSnap_obs (u : UnitId) (x : SnapSt) (s : State) : (setSnap u x s).obs = s.obs := by unfold setSnap; split <;> rfl
@[simp] theorem setSnap_slices (u : UnitId) (x : SnapSt) (s : State) : (setSnap u x s).slices = s.slices := by unfold setSnap; split <;> rfl
@[simp] theorem setSnap_links (u : UnitId) (x : SnapSt) (s : State) : (setSnap u x s).links = s.links := by unfold setSnap; split <;> rfl
@[simp] theorem setSnap_power (u : UnitId) (x : SnapSt) (s : State) : (setSnap u x s).power = s.power := by unfold setSnap; split <;> rfl
@[simp] theorem setSnap_flash (u : UnitId) (x : SnapSt) (s : State) : (setSnap u x s).flash = s.flash := by unfold setSnap; split <;> rfl
@[simp] theorem setSnap_sram (u : UnitId) (x : SnapSt) (s : State) : (setSnap u x s).sram = s.sram := by unfold setSnap; split <;> rfl
@[simp] theorem setSnap_rates (u : UnitId) (x : SnapSt) (s : State) : (setSnap u x s).rates = s.rates := by unfold setSnap; split <;> rfl
@[simp] theorem setSnap_cw (u : UnitId) (x : SnapSt) (s : State) : (setSnap u x s).cw = s.cw := by unfold setSnap; split <;> rfl
@[simp] theorem setSnap_cwGone (u : UnitId) (x : SnapSt) (s : State) : (setSnap u x s).cwGone = s.cwGone := by unfold setSnap; split <;> rfl
@[simp] theorem setSnap_chain (u : UnitId) (x : SnapSt) (s : State) : (setSnap u x s).chain = s.chain := by unfold setSnap; split <;> rfl
@[simp] theorem setSnap_keys (u : UnitId) (x : SnapSt) (s : State) : (setSnap u x s).keys = s.keys := by unfold setSnap; split <;> rfl
@[simp] theorem setSnap_mailboxes (u : UnitId) (x : SnapSt) (s : State) : (setSnap u x s).mailboxes = s.mailboxes := by unfold setSnap; split <;> rfl
@[simp] theorem setSnap_oebs (u : UnitId) (x : SnapSt) (s : State) : (setSnap u x s).oebs = s.oebs := by unfold setSnap; split <;> rfl
@[simp] theorem setSnap_skips (u : UnitId) (x : SnapSt) (s : State) : (setSnap u x s).skips = s.skips := by unfold setSnap; split <;> rfl
@[simp] theorem setSnap_luna (u : UnitId) (x : SnapSt) (s : State) : (setSnap u x s).luna = s.luna := by unfold setSnap; split <;> rfl
@[simp] theorem setSnap_cores (u : UnitId) (x : SnapSt) (s : State) : (setSnap u x s).cores = s.cores := by unfold setSnap; split <;> rfl
@[simp] theorem setSnap_monarch (u : UnitId) (x : SnapSt) (s : State) : (setSnap u x s).monarch = s.monarch := by unfold setSnap; split <;> rfl
@[simp] theorem setSnap_ox (u : UnitId) (x : SnapSt) (s : State) : (setSnap u x s).ox = s.ox := by unfold setSnap; split <;> rfl
@[simp] theorem setSnap_oebA (u : UnitId) (x : SnapSt) (s : State) : (setSnap u x s).oebA = s.oebA := by unfold setSnap; split <;> rfl
@[simp] theorem setSnap_oebB (u : UnitId) (x : SnapSt) (s : State) : (setSnap u x s).oebB = s.oebB := by unfold setSnap; split <;> rfl
@[simp] theorem setSnap_unit (u : UnitId) (x : SnapSt) (s : State) (v : UnitId) : (setSnap u x s).unit v = s.unit v := by
  unfold State.unit; split <;> simp

/-! ### Units, registers, counters -/

/-- Two registers with one number are one register. -/
theorem Reg.ctorIdx_inj {r q : Reg} (h : r.ctorIdx = q.ctorIdx) : r = q := by
  have h2 := congrArg Reg.ofNat h
  rwa [Reg.ofNat_ctorIdx, Reg.ofNat_ctorIdx] at h2

@[simp] theorem unit_setUnit_self (s : State) (u : UnitId) (x : UnitSt) : (s.setUnit u x).unit u = x := by
  unfold State.setUnit State.unit; split <;> simp_all

theorem unit_setUnit_ne (s : State) {u v : UnitId} (x : UnitSt) (h : v ≠ u) : (s.setUnit u x).unit v = s.unit v := by
  have side : ∀ a : Side, a = 0 ∨ a = 1 := by decide
  cases u with
  | ox9 =>
    cases v with
    | ox9 => exact absurd rfl h
    | oeb b => rcases side b with rfl | rfl <;> rfl
  | oeb a =>
    cases v with
    | ox9 => rcases side a with rfl | rfl <;> rfl
    | oeb b =>
      rcases side a with rfl | rfl <;> rcases side b with rfl | rfl <;> first | rfl | exact absurd rfl h

theorem unit_setUnit (s : State) (u v : UnitId) (x : UnitSt) :
    (s.setUnit u x).unit v = if v = u then x else s.unit v := by
  split
  · next h => subst h; simp
  · next h => exact unit_setUnit_ne s x h

/-- A register word written reads back, and every other word of every unit reads as before. -/
theorem getW_setW (u v : UnitId) (r q : Reg) (i j w k : Nat) (x : Word) (s : State) (h : regKey q j k ≠ regKey r i w ∨ v ≠ u ∨ (q = r ∧ j = i ∧ k = w)) :
    getW v q j k (setW u r i w x s) = if v = u ∧ regKey q j k = regKey r i w then x else getW v q j k s := by
  unfold getW setW
  rw [unit_setUnit]
  by_cases hv : v = u
  · subst hv
    simp only [if_true, true_and]
    by_cases hk : regKey q j k = regKey r i w
    · have h3 : q = r ∧ j = i ∧ k = w := by
        rcases h with h | h | h
        · exact absurd hk h
        · exact absurd rfl h
        · exact h
      obtain ⟨rfl, rfl, rfl⟩ := h3
      simp
    · rw [SMap.get_set_ne_of _ _ _ _ hk, if_neg hk]
  · simp [hv]

@[simp] theorem getW_setW_self (u : UnitId) (r : Reg) (i w : Nat) (x : Word) (s : State) : getW u r i w (setW u r i w x s) = x := by
  simp [getW, setW]

/-- A field that is set reads back. -/
theorem gf_sf_self (u : UnitId) (f : Fld) (i v : Nat) (s : State) (h : f.lo + f.len ≤ 64) :
    gf u f i (sf u f i v s) = v % 2 ^ f.len := by
  simp only [gf, sf, getW_setW_self, BitVec.toNat_ofNat]
  rw [Nat.mod_eq_of_lt (setBits_lt (getW u f.reg i f.word s).isLt h), bits_setBits_self]

/-- A field beside it in the same word reads as before. -/
theorem gf_sf_beside (u : UnitId) (f g : Fld) (i v : Nat) (s : State) (h : f.lo + f.len ≤ 64) (hr : g.reg = f.reg)
    (hw : g.word = f.word) (hd : g.lo + g.len ≤ f.lo ∨ f.lo + f.len ≤ g.lo) : gf u g i (sf u f i v s) = gf u g i s := by
  simp only [gf, sf, hr, hw, getW_setW_self, BitVec.toNat_ofNat]
  rw [Nat.mod_eq_of_lt (setBits_lt (getW u f.reg i f.word s).isLt h), bits_setBits_disjoint hd]

/-- A field of another word, or of another unit, reads as before. -/
theorem gf_sf_other (u v : UnitId) (f g : Fld) (i j x : Nat) (s : State)
    (h : regKey g.reg j g.word ≠ regKey f.reg i f.word ∨ v ≠ u) : gf v g j (sf u f i x s) = gf v g j s := by
  unfold gf sf
  rw [getW_setW _ _ _ _ _ _ _ _ _ _ (h.imp_right .inl), if_neg fun e => h.elim (fun h => h e.2) (fun h => h e.1)]

/-- A counter raised, counter by counter. -/
theorem counter_countN (u v : UnitId) (p q : Place) (c d : Ctr) (n : Nat) (s : State) :
    counter v q d (countN u p c n s) =
      if v = u ∧ ctrKey q d = ctrKey p c then (counter v q d s + n) % 2 ^ 64 else counter v q d s := by
  unfold counter countN
  rw [unit_setUnit]
  by_cases hv : v = u
  · subst hv
    simp only [if_true, true_and, SMap.get_set]
    split
    · next h => rw [h]
    · rfl
  · simp [hv]

/-! ### The gates -/

theorem live_awake {s : State} (f : State → State) (h : halted s = false) : live f s = .next (f s) := by simp [live, h]
theorem live_still {s : State} (f : State → State) (h : halted s = true) : live f s = .next s := by simp [live, h]
theorem served_awake {s : State} (f : State → State) (h : dark s = false) : served f s = .next (f s) := by simp [served, h]
theorem served_dark {s : State} (f : State → State) (h : dark s = true) : served f s = .next s := by simp [served, h]

/-- A gated effect always answers a next state: the effect, or the state as it was. -/
theorem live_cases (f : State → State) (s : State) : live f s = .next s ∨ live f s = .next (f s) := by
  unfold live; split <;> simp

theorem liveAt_oeb (side : Side) (f : State → State) (s : State) : liveAt (.oeb side) f s = .next (f s) := rfl

theorem halted_of_dark {s : State} (h : dark s = true) : halted s = true := by simp [halted, h]

end Sys2Proof.Machine
end

