-- ==== Sys2Proof/Laws/Units.lean ====
section
/-! SUPPORT. What the updates of a unit (a register word, a counter, an event, a clock) leave of the unit's other parts. -/

namespace Sys2Proof.Machine

theorem unit_setW (u v : UnitId) (r : Reg) (i w : Nat) (x : Word) (s : State) : (setW u r i w x s).unit v =
    if v = u then { s.unit u with regs := SMap.set (fun _ => regReset r i w) (s.unit u).regs (regKey r i w) x } else s.unit v := by
  simp [setW, unit_setUnit]

theorem unit_raise (u v : UnitId) (e : Event) (s : State) : (raise u e s).unit v =
    if v = u then { s.unit u with events := { (s.unit u).events with raised := raisedWith u e s } } else s.unit v := by
  simp [raise, unit_setUnit]

theorem unit_countN (u v : UnitId) (p : Place) (c : Ctr) (n : Nat) (s : State) : (countN u p c n s).unit v =
    if v = u then
      let x := s.unit u
      { x with ctrs := SMap.set (fun _ => 0) x.ctrs (ctrKey p c) ((SMap.get (fun _ => 0) x.ctrs (ctrKey p c) + n) % 2 ^ 64) }
    else s.unit v := by
  simp [countN, unit_setUnit]

/-! ### Registers -/

@[simp] theorem getW_raise (u v : UnitId) (e : Event) (r : Reg) (i w : Nat) (s : State) :
    getW v r i w (raise u e s) = getW v r i w s := by
  unfold getW; rw [unit_raise]; split <;> simp_all
@[simp] theorem getW_countN (u v : UnitId) (p : Place) (c : Ctr) (n : Nat) (r : Reg) (i w : Nat) (s : State) :
    getW v r i w (countN u p c n s) = getW v r i w s := by
  unfold getW; rw [unit_countN]; split <;> simp_all
@[simp] theorem getW_emit (o : Output) (v : UnitId) (r : Reg) (i w : Nat) (s : State) : getW v r i w (emit o s) = getW v r i w s := by
  simp [getW]
@[simp] theorem gf_raise (u v : UnitId) (e : Event) (f : Fld) (i : Nat) (s : State) : gf v f i (raise u e s) = gf v f i s := by
  simp [gf]
@[simp] theorem gf_countN (u v : UnitId) (p : Place) (c : Ctr) (n : Nat) (f : Fld) (i : Nat) (s : State) :
    gf v f i (countN u p c n s) = gf v f i s := by
  simp [gf]
@[simp] theorem gf_countG (v : UnitId) (c : Ctr) (f : Fld) (i : Nat) (s : State) : gf v f i (countG c s) = gf v f i s := by
  simp [countG]
@[simp] theorem gf_emit (o : Output) (v : UnitId) (f : Fld) (i : Nat) (s : State) : gf v f i (emit o s) = gf v f i s := by
  simp [gf]

/-! ### Counters -/

@[simp] theorem counter_raise (u v : UnitId) (e : Event) (p : Place) (c : Ctr) (s : State) :
    counter v p c (raise u e s) = counter v p c s := by
  unfold counter; rw [unit_raise]; split <;> simp_all
@[simp] theorem counter_setW (u v : UnitId) (r : Reg) (i w : Nat) (x : Word) (p : Place) (c : Ctr) (s : State) :
    counter v p c (setW u r i w x s) = counter v p c s := by
  unfold counter; rw [unit_setW]; split <;> simp_all
@[simp] theorem counter_sf (u v : UnitId) (f : Fld) (i x : Nat) (p : Place) (c : Ctr) (s : State) :
    counter v p c (sf u f i x s) = counter v p c s := by
  simp [sf]
@[simp] theorem counter_emit (o : Output) (v : UnitId) (p : Place) (c : Ctr) (s : State) : counter v p c (emit o s) = counter v p c s := by
  simp [counter]
theorem counter_countN_self (u : UnitId) (p : Place) (c : Ctr) (n : Nat) (s : State) :
    counter u p c (countN u p c n s) = (counter u p c s + n) % 2 ^ 64 := by
  unfold counter; rw [unit_countN]; simp

/-! ### Events and clocks -/

theorem raisedWith_of_not_switching (u : UnitId) (e : Event) (s : State) (h : switching s = false) :
    raisedWith u e s = (s.unit u).events.raised ++ [e] := by
  simp [raisedWith, h]

theorem events_raise (u : UnitId) (e : Event) (s : State) :
    ((raise u e s).unit u).events = { (s.unit u).events with raised := raisedWith u e s } := by
  rw [unit_raise]; simp
@[simp] theorem events_setW (u v : UnitId) (r : Reg) (i w : Nat) (x : Word) (s : State) :
    ((setW u r i w x s).unit v).events = (s.unit v).events := by
  rw [unit_setW]; split <;> simp_all
@[simp] theorem events_sf (u v : UnitId) (f : Fld) (i x : Nat) (s : State) : ((sf u f i x s).unit v).events = (s.unit v).events := by
  simp [sf]
@[simp] theorem events_countN (u v : UnitId) (p : Place) (c : Ctr) (n : Nat) (s : State) :
    ((countN u p c n s).unit v).events = (s.unit v).events := by
  rw [unit_countN]; split <;> simp_all
@[simp] theorem time_raise (u v : UnitId) (e : Event) (s : State) : ((raise u e s).unit v).time = (s.unit v).time := by
  rw [unit_raise]; split <;> simp_all
@[simp] theorem time_setW (u v : UnitId) (r : Reg) (i w : Nat) (x : Word) (s : State) :
    ((setW u r i w x s).unit v).time = (s.unit v).time := by
  rw [unit_setW]; split <;> simp_all
@[simp] theorem time_sf (u v : UnitId) (f : Fld) (i x : Nat) (s : State) : ((sf u f i x s).unit v).time = (s.unit v).time := by
  simp [sf]
@[simp] theorem time_countN (u v : UnitId) (p : Place) (c : Ctr) (n : Nat) (s : State) :
    ((countN u p c n s).unit v).time = (s.unit v).time := by
  rw [unit_countN]; split <;> simp_all

/-! ### The OX9, whose unit is a field of its own -/

theorem ox_unit (s : State) : s.ox = s.unit .ox9 := rfl

theorem getW_sf_other (u : UnitId) (f : Fld) (i x : Nat) (v : UnitId) (q : Reg) (j k : Nat) (s : State)
    (h : regKey q j k ≠ regKey f.reg i f.word ∨ v ≠ u) : getW v q j k (sf u f i x s) = getW v q j k s := by
  unfold sf
  rw [getW_setW u v _ q i j _ k _ s (h.elim .inl (fun h => .inr (.inl h))), if_neg]
  rintro ⟨h1, h2⟩
  exact h.elim (fun h => h h2) (fun h => h h1)

end Sys2Proof.Machine
end

