-- ==== Sys2Proof/Laws/OebFrame.lean ====
section
/-! SUPPORT. No operation of an OEB reaches the OX9 or the other OEB: one lemma for each. -/

set_option Elab.async false
set_option linter.all false
set_option linter.unusedSimpArgs false
set_option linter.unreachableTactic false
set_option linter.unusedTactic false

namespace Sys2Proof.Machine

/-- What one OEB cannot reach: the OX9's part of the state with its links, its keys and its Skippers' rate tables, and all of
the other OEB. -/
def farOf (side : Side) (s : State) :=
  ((s.ox, s.fwd, s.obs, s.slices, s.power, s.flash, s.sram, s.cw, s.cwGone, s.chain, s.mailboxes, s.skips, s.luna, s.cores, s.monarch,
      s.pending), keySec .ox9 s, (fun p : Port => (getLink p.val s, getAux p.val s)), (fun k : Skip => ratesOf (.skipper k) s),
    fun o : { o : Side // o ≠ side } => (s.unit (.oeb o.1), oebOf o.1 s, keySec (.oeb o.1) s, ratesOf (.oeb o.1) s))

theorem same_of_farOf {side : Side} {s t : State} (h : farOf side t = farOf side s) :
    sameOx9 s t ∧ ∀ other : Side, other ≠ side → sameOeb other s t := by
  simp only [farOf, Prod.mk.injEq] at h
  obtain ⟨⟨h1, h2, h3, h4, h5, h6, h7, h8, h9, h10, h11, h12, h13, h14, h15, h15'⟩, h16, h17, h18, h19⟩ := h
  refine ⟨⟨h1, h2, h3, h4, h5, h6, h7, h8, h9, h10, h11, h12, h13, h14, h15, h15', h16, fun p => ?_, fun k => congrFun h18 k⟩, fun o ho => ?_⟩
  · have e := congrFun h17 p
    simpa [sameOeb] using e
  · have e := congrFun h19 ⟨o, ho⟩
    simpa [sameOeb] using e

theorem ite_far {side : Side} {c : Prop} [Decidable c] {a b s : State} (ha : farOf side a = farOf side s)
    (hb : farOf side b = farOf side s) : farOf side (if c then a else b) = farOf side s := by
  split
  · exact ha
  · exact hb
theorem ite_far_cases {α : Type} {c : Prop} [Decidable c] {a b x : α} {Q : Prop} (ha : a = x → Q) (hb : b = x → Q)
    (h : (if c then a else b) = x) : Q := by
  split at h
  · exact ha h
  · exact hb h
@[simp] theorem foldl_far {side : Side} {α : Type} (f : State → α → State) (l : List α) (s : State)
    (h : ∀ t a, farOf side (f t a) = farOf side t) : farOf side (l.foldl f s) = farOf side s := by
  induction l generalizing s with
  | nil => rfl
  | cons a l ih => rw [List.foldl_cons, ih, h]
theorem foldl_snd_far {side : Side} {α β : Type} (f : α × State → β → α × State) (l : List β) (x : α × State)
    (h : ∀ x b, farOf side (f x b).2 = farOf side x.2) : farOf side (l.foldl f x).2 = farOf side x.2 := by
  induction l generalizing x with
  | nil => rfl
  | cons b l ih => rw [List.foldl_cons, ih, h]

@[simp] theorem emit_far (side : Side) (o : Output) (s : State) : farOf side (emit o s) = farOf side s := rfl
@[simp] theorem draw_far (side : Side) (s : State) : farOf side (draw s) = farOf side s := rfl
theorem setUnit_far (side : Side) (x : UnitSt) (s : State) : farOf side (s.setUnit (.oeb side) x) = farOf side s := by
  have h : ∀ o : { o : Side // o ≠ side }, (s.setUnit (.oeb side) x).unit (.oeb o.1) = s.unit (.oeb o.1) := fun o =>
    unit_setUnit_ne s x fun e => o.2 (UnitId.oeb.inj e)
  have h0 : (s.setUnit (.oeb side) x).ox = s.ox := unit_setUnit_ne s (u := .oeb side) (v := .ox9) x fun e => by cases e
  simp only [farOf, h, h0]
  simp [keySec, getLink, getAux, ratesOf, oebOf]
@[simp] theorem setUnit_oeb_far (side : Side) (x : UnitSt) (s : State) : farOf side (s.setUnit (.oeb side) x) = farOf side s :=
  setUnit_far side x s
@[simp] theorem setOeb_far (side : Side) (o : Oeb) (s : State) : farOf side (setOeb side o s) = farOf side s := by
  have h : ∀ k : { o : Side // o ≠ side }, oebOf k.1 (setOeb side o s) = oebOf k.1 s := fun k =>
    SMap.get_set_ne _ _ _ fun e => k.2 (Fin.ext e)
  have h1 : ∀ k : { o : Side // o ≠ side }, (setOeb side o s).unit (.oeb k.1) = s.unit (.oeb k.1) := fun k => by simp
  simp only [farOf, h, h1]
  rfl
@[simp] theorem setKeySec_far (side : Side) (x : KeySec) (s : State) : farOf side (setKeySec (.oeb side) x s) = farOf side s := by
  have h : ∀ k : { o : Side // o ≠ side }, keySec (.oeb k.1) (setKeySec (.oeb side) x s) = keySec (.oeb k.1) s := fun k =>
    SMap.get_set_ne _ _ _ fun e => k.2 (Fin.ext (Nat.add_left_cancel e))
  have h0 : keySec .ox9 (setKeySec (.oeb side) x s) = keySec .ox9 s := SMap.get_set_ne _ _ _ fun e => by simp only [unitIdx] at e; omega
  have h1 : ∀ k : { o : Side // o ≠ side }, (setKeySec (.oeb side) x s).unit (.oeb k.1) = s.unit (.oeb k.1) := fun k => by simp
  simp only [farOf, h, h0, h1]
  rfl
@[simp] theorem setRates_far (side : Side) (x : List RateEnt) (s : State) : farOf side (setRates (.oeb side) x s) = farOf side s := by
  have h : ∀ k : { o : Side // o ≠ side }, ratesOf (.oeb k.1) (setRates (.oeb side) x s) = ratesOf (.oeb k.1) s := fun k =>
    SMap.get_set_ne _ _ _ fun e => k.2 (Fin.ext e)
  have h0 : ∀ k : Skip, ratesOf (.skipper k) (setRates (.oeb side) x s) = ratesOf (.skipper k) s := fun k =>
    SMap.get_set_ne _ _ _ fun e => by have := side.isLt; simp only [rateKey] at e; omega
  have h1 : ∀ k : { o : Side // o ≠ side }, (setRates (.oeb side) x s).unit (.oeb k.1) = s.unit (.oeb k.1) := fun k => by simp
  simp only [farOf, h, h0, h1]
  rfl
theorem setLink_far (side : Side) {k : Nat} (l : Link) (s : State) (hk : 288 ≤ k) : farOf side (setLink k l s) = farOf side s := by
  have h : ∀ p : Port, getLink p.val (setLink k l s) = getLink p.val s := fun p =>
    SMap.get_set_ne _ _ _ (by have := p.isLt; omega)
  have h1 : ∀ k' : { o : Side // o ≠ side }, (setLink k l s).unit (.oeb k'.1) = s.unit (.oeb k'.1) := fun k => by simp
  simp only [farOf, h, h1]
  rfl
theorem setAux_far (side : Side) {k : Nat} (l : LinkAux) (s : State) (hk : 288 ≤ k) : farOf side (setAux k l s) = farOf side s := by
  have h : ∀ p : Port, getAux p.val (setAux k l s) = getAux p.val s := fun p =>
    SMap.get_set_ne _ _ _ (by have := p.isLt; omega)
  have h1 : ∀ k' : { o : Side // o ≠ side }, (setAux k l s).unit (.oeb k'.1) = s.unit (.oeb k'.1) := fun k => by simp
  simp only [farOf, h, h1]
  rfl
@[simp] theorem modAux_far (side : Side) (q : OPort) (f : LinkAux → LinkAux) (s : State) :
    farOf side (modAux (.oeb side q) f s) = farOf side s :=
  setAux_far side _ s (by simp only [linkKey]; omega)
@[simp] theorem modLink_far (side : Side) (q : OPort) (f : Link → Link) (s : State) :
    farOf side (modLink (.oeb side q) f s) = farOf side s :=
  setLink_far side _ s (by simp only [linkKey]; omega)

@[simp] theorem countN_far (side : Side) (x2 : Place) (x3 : Ctr) (x4 : Nat) (s : State) : farOf side (countN (.oeb side) x2 x3 x4 s) = farOf side s := by simp [countN]
@[simp] theorem countO_far (side : Side) (x2 : Ctr) (s : State) : farOf side (countO side x2 s) = farOf side s := by simp [countO]
@[simp] theorem areqGate_far (side : Side) (x2 : Bool) (x3 : Areq) (x4 : Nat → State → State) (x5 : State → State) (s : State) (h4 : ∀ a0 t, farOf side (x4 a0 t) = farOf side t) (h5 : ∀ t, farOf side (x5 t) = farOf side t) : farOf side (areqGate side x2 x3 x4 x5 s) = farOf side s := by unfold areqGate; (repeat' split) <;> simp_all
@[simp] theorem modOeb_far (side : Side) (x2 : Oeb → Oeb) (s : State) : farOf side (modOeb side x2 s) = farOf side s := by simp [modOeb]
theorem freshId_far {side : Side} {s : State} {a : Nat} {t : State} (h : freshId side s = (a, t)) : farOf side t = farOf side s := by unfold freshId at h; (repeat' split at h) <;> first | (injection h with h; subst h; (first | rfl | (simp [*]; done)); done) | (simp at h; done) | (simp at h; obtain ⟨rfl, rfl⟩ := h; (first | rfl | (simp [*]; done)); done) | (simp at h; subst h; (first | rfl | (simp [*]; done)); done) | (simp at h; obtain ⟨_, rfl, rfl⟩ := h; (first | rfl | (simp [*]; done)); done)
@[simp] theorem freshId_snd_far (side : Side) (s : State) : farOf side (freshId side s).2 = farOf side s := freshId_far (Eq.refl _)
@[simp] theorem enqueueReq_far (side : Side) (x2 : Req) (s : State) : farOf side (enqueueReq side x2 s) = farOf side s := by simp [enqueueReq]
@[simp] theorem answer_far (side : Side) (x2 : Header) (x3 : Nat) (x4 : Nat) (x5 : Nat) (x6 : Nat) (x7 : Nat) (x8 : List Byte) (s : State) : farOf side (answer side x2 x3 x4 x5 x6 x7 x8 s) = farOf side s := by simp [answer]
@[simp] theorem respondIn_far (side : Side) (x2 : Header) (x3 : Nat) (x4 : Nat) (x5 : List Byte) (s : State) : farOf side (respondIn side x2 x3 x4 x5 s) = farOf side s := by simp [respondIn, apply_ite (farOf side)]
@[simp] theorem setW_far (side : Side) (x2 : Reg) (x3 : Nat) (x4 : Nat) (x5 : Word) (s : State) : farOf side (setW (.oeb side) x2 x3 x4 x5 s) = farOf side s := by simp [setW]
@[simp] theorem sf_far (side : Side) (x2 : Fld) (x3 : Nat) (x4 : Nat) (s : State) : farOf side (sf (.oeb side) x2 x3 x4 s) = farOf side s := by simp [sf]
@[simp] theorem so_far (side : Side) (x2 : Fld) (x3 : Nat) (x4 : Nat) (s : State) : farOf side (so side x2 x3 x4 s) = farOf side s := by simp [so]
@[simp] theorem satAdd_far (side : Side) (x2 : Fld) (x3 : Nat) (x4 : Nat) (s : State) : farOf side (satAdd (.oeb side) x2 x3 x4 s) = farOf side s := by simp [satAdd]
@[simp] theorem ctxError_far (side : Side) (x2 : Nat) (x3 : Nat) (s : State) : farOf side (ctxError side x2 x3 s) = farOf side s := by simp [ctxError, apply_ite (farOf side)]
@[simp] theorem arsp_far (side : Side) (x2 : Nat) (x3 : Nat) (x4 : Nat) (x5 : Nat) (x6 : Nat) (x7 : List Byte) (s : State) : farOf side (arsp side x2 x3 x4 x5 x6 x7 s) = farOf side s := by simp [arsp]
@[simp] theorem fenceNote_far (side : Side) (x2 : Nat) (x3 : Nat) (s : State) : farOf side (fenceNote side x2 x3 s) = farOf side s := by simp [fenceNote]
@[simp] theorem joinEnd_far (side : Side) (x2 : Join) (s : State) : farOf side (joinEnd side x2 s) = farOf side s := by simp [joinEnd]
@[simp] theorem joinPart_far (side : Side) (x2 : Nat) (x3 : Nat) (x4 : Nat) (x5 : Nat) (x6 : Nat) (x7 : List Byte) (s : State) : farOf side (joinPart side x2 x3 x4 x5 x6 x7 s) = farOf side s := by unfold joinPart; dsimp only; (repeat' split) <;> simp [apply_ite (farOf side)]
@[simp] theorem atomReply_far (side : Side) (x2 : Packet) (x3 : Nat) (x4 : Option Nat) (x5 : Nat) (x6 : List Byte) (s : State) : farOf side (atomReply side x2 x3 x4 x5 x6 s) = farOf side s := by unfold atomReply; split <;> simp_all
@[simp] theorem raise_far (side : Side) (x2 : Event) (s : State) : farOf side (raise (.oeb side) x2 s) = farOf side s := by simp [raise]
@[simp] theorem raiseO_far (side : Side) (x2 : EvCode) (x3 : Bool) (x4 : Nat) (x5 : Nat) (x6 : List (Bool × Nat)) (s : State) : farOf side (raiseO side x2 x3 x4 x5 x6 s) = farOf side s := by simp [raiseO]
@[simp] theorem raiseOF_far (side : Side) (x2 : EvCode) (x3 : Bool) (x4 : Nat) (x5 : Nat) (x6 : List (Bool × Nat)) (x7 : Option Nat) (x8 : Option Nat) (x9 : Option Nat) (s : State) : farOf side (raiseOF side x2 x3 x4 x5 x6 x7 x8 x9 s) = farOf side s := by simp [raiseOF]
@[simp] theorem mreqSend_far (side : Side) (x2 : MreqWait) (x3 : Nat) (s : State) : farOf side (mreqSend side x2 x3 s) = farOf side s := by simp [mreqSend]
@[simp] theorem mreq_far (side : Side) (x2 : MPurp) (x3 : Nat) (x4 : Nat) (x5 : Bool) (x6 : Nat) (x7 : List Byte) (s : State) : farOf side (mreq side x2 x3 x4 x5 x6 x7 s) = farOf side s := by unfold mreq; dsimp only; (repeat' split) <;> simp [apply_ite (farOf side)]
@[simp] theorem atomStart_far (side : Side) (x2 : Packet) (x3 : Nat) (x4 : Option Nat) (s : State) : farOf side (atomStart side x2 x3 x4 s) = farOf side s := by
  unfold atomStart
  cases x4 with
  | some j => exact mreq_far _ _ _ _ _ _ _ _
  | none =>
    dsimp only
    generalize jrnlRow side x2.hdr s = r
    cases r with
    | perform => exact mreq_far _ _ _ _ _ _ _ _
    | unknown => exact (atomReply_far _ _ _ _ _ _ _).trans ((raiseOF_far _ _ _ _ _ _ _ _ _ _).trans (countO_far _ _ _))
    | aged => exact (atomReply_far _ _ _ _ _ _ _).trans ((raiseO_far _ _ _ _ _ _ _).trans (countO_far _ _ _))
    | hit a b => exact (atomReply_far _ _ _ _ _ _ _).trans (countO_far _ _ _)
@[simp] theorem atomDrain_far (side : Side) (x2 : Nat) (s : State) : farOf side (atomDrain side x2 s) = farOf side s := by
  induction x2 generalizing s with
  | zero => rfl
  | succ n ih =>
    rw [atomDrain]
    split
    · rfl
    · rw [ih, atomStart_far, setOeb_far]
@[simp] theorem atomArrive_far (side : Side) (x2 : Packet) (x3 : Nat) (x4 : Option Nat) (s : State) : farOf side (atomArrive side x2 x3 x4 s) = farOf side s := by simp [atomArrive]
@[simp] theorem jrnlWrite_far (side : Side) (x2 : Header) (x3 : Nat) (x4 : List Byte) (s : State) : farOf side (jrnlWrite side x2 x3 x4 s) = farOf side s := by unfold jrnlWrite; dsimp only; (repeat' split) <;> simp [apply_ite (farOf side)]
@[simp] theorem atomPerform_far (side : Side) (x2 : Packet) (x3 : Nat) (x4 : Option Nat) (x5 : Nat) (x6 : List Byte) (s : State) : farOf side (atomPerform side x2 x3 x4 x5 x6 s) = farOf side s := by unfold atomPerform; dsimp only; (repeat' split) <;> simp [apply_ite (farOf side)]
@[simp] theorem arspFail_far (side : Side) (x2 : Aop) (x3 : Areq) (x4 : Nat) (s : State) : farOf side (arspFail side x2 x3 x4 s) = farOf side s := by simp [arspFail]
@[simp] theorem partFabric_far (side : Side) (x2 : Join) (x3 : Req) (x4 : Leaf) (x5 : Nat) (s : State) : farOf side (partFabric side x2 x3 x4 x5 s) = farOf side s := by unfold partFabric; dsimp only; (repeat' split) <;> simp [apply_ite (farOf side)]
@[simp] theorem joinPartition_far (side : Side) (x2 : Nat) (x3 : Nat) (s : State) : farOf side (joinPartition side x2 x3 s) = farOf side s := by simp [joinPartition]
@[simp] theorem partXlat_far (side : Side) (x2 : Req) (x3 : XAns) (s : State) : farOf side (partXlat side x2 x3 s) = farOf side s := by unfold partXlat; (repeat' split) <;> simp_all
@[simp] theorem xlatFault_far (side : Side) (x2 : Nat) (x3 : Nat) (x4 : Nat) (x5 : Nat) (s : State) : farOf side (xlatFault side x2 x3 x4 x5 s) = farOf side s := by simp [xlatFault, apply_ite (farOf side)]
@[simp] theorem installL2_far (side : Side) (x2 : Nat) (x3 : Nat) (x4 : TlbEnt) (s : State) : farOf side (installL2 side x2 x3 x4 s) = farOf side s := by simp [installL2]
@[simp] theorem installL1_far (side : Side) (x2 : Nat) (x3 : TlbEnt) (s : State) : farOf side (installL1 side x2 x3 s) = farOf side s := by simp [installL1]
theorem tlbLookup_far {side : Side} {x2 : Nat} {x3 : Nat} {x4 : Nat} {s : State} {a : Option Leaf} {t : State} (h : tlbLookup side x2 x3 x4 s = (a, t)) : farOf side t = farOf side s := by
  unfold tlbLookup at h
  dsimp only at h
  split at h
  · injection h with _ h
    subst h
    exact installL1_far _ _ _ _
  · split at h
    · injection h with _ h
      subst h
      rw [installL1_far, installL2_far]
    · injection h with _ h
      rw [h]
@[simp] theorem tlbLookup_snd_far (side : Side) (x2 : Nat) (x3 : Nat) (x4 : Nat) (s : State) : farOf side (tlbLookup side x2 x3 x4 s).2 = farOf side s := tlbLookup_far (Eq.refl _)
@[simp] theorem dropPage_far (side : Side) (x2 : Nat) (x3 : Nat) (s : State) : farOf side (dropPage side x2 x3 s) = farOf side s := by simp [dropPage]
@[simp] theorem missIn_far (side : Side) (x2 : Nat) (x3 : XMiss) (s : State) : farOf side (missIn side x2 x3 s) = farOf side s := by simp [missIn, apply_ite (farOf side)]
theorem lookUp_far {side : Side} {x2 : XMiss} {s : State} {a : XAns} {t : State} (h : lookUp side x2 s = (a, t)) : farOf side t = farOf side s := by
  unfold lookUp at h
  dsimp only at h
  refine ite_far_cases (fun h => ?_) (ite_far_cases (fun h => ?_) fun h => ?_) h
  · rw [← (Prod.mk.inj h).2]
    exact xlatFault_far _ _ _ _ _ _
  · rw [← (Prod.mk.inj h).2]
    exact xlatFault_far _ _ _ _ _ _
  · split at h
    · next q =>
      have e1 := tlbLookup_far q
      refine ite_far_cases (fun h => ?_) (fun h => ?_) h
      · rw [← (Prod.mk.inj h).2]
        exact e1
      · rw [← (Prod.mk.inj h).2]
        exact (xlatFault_far _ _ _ _ _ _).trans ((dropPage_far _ _ _ _).trans e1)
    · next q =>
      rw [← (Prod.mk.inj h).2]
      exact (missIn_far _ _ _ _).trans (tlbLookup_far q)
@[simp] theorem lookUp_snd_far (side : Side) (x2 : XMiss) (s : State) : farOf side (lookUp side x2 s).2 = farOf side s := lookUp_far (Eq.refl _)
theorem translate_far {side : Side} {x2 : XMiss} {s : State} {a : XAns} {t : State} (h : translate side x2 s = (a, t)) : farOf side t = farOf side s := by
  unfold translate at h
  refine ite_far_cases (fun h => ?_) (fun h => lookUp_far h) h
  rw [← (Prod.mk.inj h).2]
  exact modOeb_far _ _ _
@[simp] theorem translate_snd_far (side : Side) (x2 : XMiss) (s : State) : farOf side (translate side x2 s).2 = farOf side s := translate_far (Eq.refl _)
@[simp] theorem partMake_far (side : Side) (x2 : Join) (x3 : Nat) (x4 : Nat) (s : State) : farOf side (partMake side x2 x3 x4 s) = farOf side s := by simp [partMake]
@[simp] theorem attach_far (side : Side) (x2 : Aop) (x3 : Areq) (s : State) : farOf side (attach side x2 x3 s) = farOf side s := by
  unfold attach
  refine areqGate_far _ _ _ _ _ _ (fun st t => arspFail_far _ _ _ _ _) fun t => ?_
  dsimp only
  split
  · split
    · rw [joinEnd_far, modOeb_far]
      exact freshId_far (Prod.eta _).symm
    · split
      · rw [joinEnd_far, countO_far, modOeb_far]
        exact freshId_far (Prod.eta _).symm
      · split
        · rw [joinEnd_far, countO_far, modOeb_far]
          exact freshId_far (Prod.eta _).symm
        · refine (foldl_far _ _ _ fun t a => partMake_far _ _ _ _ _).trans ?_
          rw [modOeb_far]
          exact freshId_far (Prod.eta _).symm
  · refine (foldl_far _ _ _ fun t a => partMake_far _ _ _ _ _).trans ?_
    rw [modOeb_far]
    exact freshId_far (Prod.eta _).symm
@[simp] theorem contribSend_far (side : Side) (x2 : Join) (s : State) : farOf side (contribSend side x2 s) = farOf side s := by unfold contribSend; dsimp only; (repeat' split) <;> simp [apply_ite (farOf side)]
@[simp] theorem contribRead_far (side : Side) (x2 : Nat) (x3 : Nat) (x4 : Nat) (x5 : List Byte) (s : State) : farOf side (contribRead side x2 x3 x4 x5 s) = farOf side s := by unfold contribRead; dsimp only; (repeat' split) <;> simp [apply_ite (farOf side)]
@[simp] theorem fenceSys_far (side : Side) (x2 : Areq) (s : State) : farOf side (fenceSys side x2 s) = farOf side s := by simp [fenceSys]
@[simp] theorem lcAccess_far (side : Side) (x2 : Areq) (x3 : Nat → State → State) (s : State) (h3 : ∀ a0 t, farOf side (x3 a0 t) = farOf side t) : farOf side (lcAccess side x2 x3 s) = farOf side s := by simp only [lcAccess]; (repeat' split) <;> simp_all
@[simp] theorem lcRd_far (side : Side) (x2 : Areq) (s : State) : farOf side (lcRd side x2 s) = farOf side s := by simp [lcRd]
@[simp] theorem lcTest_far (side : Side) (x2 : Nat) (s : State) : farOf side (lcTest side x2 s) = farOf side s := by simp [lcTest]
@[simp] theorem lcWait_far (side : Side) (x2 : Areq) (s : State) : farOf side (lcWait side x2 s) = farOf side s := by simp [lcWait]
@[simp] theorem lcWr_far (side : Side) (x2 : Areq) (s : State) : farOf side (lcWr side x2 s) = farOf side s := by simp [lcWr, apply_ite (farOf side)]
@[simp] theorem waitTimeout_far (side : Side) (x2 : Bool) (x3 : Nat) (x4 : Nat) (s : State) : farOf side (waitTimeout side x2 x3 x4 s) = farOf side s := by unfold waitTimeout; dsimp only; (repeat' split) <;> simp [apply_ite (farOf side)]
@[simp] theorem windowSet_far (side : Side) (x2 : Nat) (x3 : Nat) (s : State) : farOf side (windowSet side x2 x3 s) = farOf side s := by simp [windowSet]
theorem takeSeq_far {side : Side} {x2 : Nat} {x3 : Nat} {s : State} {a : Nat} {t : State} (h : takeSeq (.oeb side) x2 x3 s = some (a, t)) : farOf side t = farOf side s := by unfold takeSeq at h; (repeat' split at h) <;> first | (injection h with h; subst h; (first | rfl | (simp [*]; done)); done) | (simp at h; done) | (simp at h; obtain ⟨rfl, rfl⟩ := h; (first | rfl | (simp [*]; done)); done) | (simp at h; subst h; (first | rfl | (simp [*]; done)); done) | (simp at h; obtain ⟨_, rfl, rfl⟩ := h; (first | rfl | (simp [*]; done)); done)
theorem sealPacket_far {side : Side} {x2 : Nat} {x3 : Nat} {x4 : Nat} {x5 : Header} {x6 : List Byte} {s : State} {a : Packet} {t : State} (h : sealPacket (.oeb side) x2 x3 x4 x5 x6 s = some (a, t)) : farOf side t = farOf side s := by
  unfold sealPacket at h
  dsimp only at h
  split at h
  · cases h
  · split at h
    · next e =>
      injection h with h
      injection h with _ h
      subst h
      exact takeSeq_far e
    · cases h
@[simp] theorem countU_far (side : Side) (x2 : Ctr) (s : State) : farOf side (countU (.oeb side) x2 s) = farOf side s := by simp [countU]
@[simp] theorem quarantineEnd_far (side : Side) (x2 : Nat) (s : State) : farOf side (quarantineEnd side x2 s) = farOf side s := by simp [quarantineEnd]
@[simp] theorem setChan_far (side : Side) (x2 : Nat) (x3 : DmaCh) (s : State) : farOf side (setChan side x2 x3 s) = farOf side s := by simp [setChan]
@[simp] theorem modChan_far (side : Side) (x2 : Nat) (x3 : DmaCh → DmaCh) (s : State) : farOf side (modChan side x2 x3 s) = farOf side s := by simp [modChan]
@[simp] theorem modDesc_far (side : Side) (x2 : Nat) (x3 : Nat) (x4 : Desc → Desc) (s : State) : farOf side (modDesc side x2 x3 x4 s) = farOf side s := by simp [modDesc]
@[simp] theorem burstDrop_far (side : Side) (x2 : Nat) (x3 : Nat) (x4 : Nat) (s : State) : farOf side (burstDrop side x2 x3 x4 s) = farOf side s := by simp [burstDrop]
@[simp] theorem descFail_far (side : Side) (x2 : Nat) (x3 : Nat) (x4 : Nat) (s : State) : farOf side (descFail side x2 x3 x4 s) = farOf side s := by simp [descFail]
@[simp] theorem lcAdvance_far (side : Side) (x2 : Nat) (x3 : Nat) (x4 : Bool) (s : State) : farOf side (lcAdvance side x2 x3 x4 s) = farOf side s := by simp [lcAdvance, apply_ite (farOf side)]
@[simp] theorem burstWritten_far (side : Side) (x2 : Nat) (x3 : Nat) (x4 : Nat) (x5 : Nat) (s : State) : farOf side (burstWritten side x2 x3 x4 x5 s) = farOf side s := by unfold burstWritten; dsimp only; (repeat' split) <;> simp [apply_ite (farOf side)]
@[simp] theorem weightDeny_far (side : Side) (x2 : Nat) (x3 : Nat) (x4 : Nat) (x5 : Nat) (s : State) : farOf side (weightDeny side x2 x3 x4 x5 s) = farOf side s := by simp [weightDeny]
@[simp] theorem blobHeader_far (side : Side) (x2 : Nat) (x3 : Desc) (x4 : List Byte) (s : State) : farOf side (blobHeader side x2 x3 x4 s) = farOf side s := by
  exact ite_far (modDesc_far _ _ _ _ _) (weightDeny_far _ _ _ _ _ _)
@[simp] theorem blobSegment_far (side : Side) (x2 : Nat) (x3 : Desc) (s : State) : farOf side (blobSegment side x2 x3 s) = farOf side s := by unfold blobSegment; dsimp only; (repeat' split) <;> simp [apply_ite (farOf side)]
@[simp] theorem blobSegments_far (side : Side) (x2 : Nat) (x3 : Nat) (x4 : Nat) (s : State) : farOf side (blobSegments side x2 x3 x4 s) = farOf side s := by
  induction x4 generalizing s with
  | zero => rfl
  | succ k ih =>
    rw [blobSegments]
    split
    · rfl
    · dsimp only
      split
      · split
        · exact (ih _).trans (blobSegment_far _ _ _ _)
        · exact blobSegment_far _ _ _ _
      · exact blobSegment_far _ _ _ _
@[simp] theorem readyTest_far (side : Side) (x2 : Nat) (s : State) : farOf side (readyTest side x2 s) = farOf side s := by unfold readyTest; dsimp only; (repeat' split) <;> simp [apply_ite (farOf side)]
@[simp] theorem prepare_far (side : Side) (x2 : Nat) (s : State) : farOf side (prepare side x2 s) = farOf side s := by
  unfold prepare
  dsimp only
  split
  · rfl
  · next d _ =>
    rw [readyTest_far]
    generalize h1 : (if (d.needS && decide ((chan side x2 s).sx = .none)) = true then _ else s : State) = s1
    have e1 : farOf side s1 = farOf side s := by
      rw [← h1]
      split
      · split
        · next e => exact (descFail_far _ _ _ _ _).trans (translate_far e)
        · next e => exact (modChan_far _ _ _ _).trans (translate_far e)
      · rfl
    clear h1
    split
    · split
      · next e => exact (descFail_far _ _ _ _ _).trans ((translate_far e).trans e1)
      · next e => exact (modChan_far _ _ _ _).trans ((translate_far e).trans e1)
    · exact e1
@[simp] theorem reprepare_far (side : Side) (x2 : Nat) (s : State) : farOf side (reprepare side x2 s) = farOf side s := by simp [reprepare]
@[simp] theorem blobRead_far (side : Side) (x2 : Nat) (x3 : Nat) (x4 : Nat) (x5 : List Byte) (s : State) : farOf side (blobRead side x2 x3 x4 x5 s) = farOf side s := by unfold blobRead; dsimp only; (repeat' split) <;> simp [apply_ite (farOf side)]
@[simp] theorem lcDeny_far (side : Side) (x2 : Nat) (x3 : Nat) (x4 : Nat) (s : State) : farOf side (lcDeny side x2 x3 x4 s) = farOf side s := by simp [lcDeny]
@[simp] theorem dmaReq_far (side : Side) (x2 : Nat) (x3 : Nat) (x4 : Nat) (x5 : Nat) (x6 : Nat) (x7 : Leaf) (x8 : Nat) (x9 : Nat) (x10 : Nat) (x11 : Bool) (x12 : Nat) (x13 : List Byte) (s : State) : farOf side (dmaReq side x2 x3 x4 x5 x6 x7 x8 x9 x10 x11 x12 x13 s) = farOf side s := by simp [dmaReq]
@[simp] theorem lcOff_far (side : Side) (s : State) : farOf side (lcOff side s) = farOf side s := by simp [lcOff]
@[simp] theorem burstWrite_far (side : Side) (x2 : Nat) (x3 : Desc) (x4 : Burst) (x5 : Bool) (x6 : List Byte) (s : State) : farOf side (burstWrite side x2 x3 x4 x5 x6 s) = farOf side s := by unfold burstWrite; dsimp only; (repeat' split) <;> simp [apply_ite (farOf side)]
@[simp] theorem burstRead_far (side : Side) (x2 : Nat) (x3 : Nat) (x4 : Nat) (x5 : Nat) (x6 : Nat) (x7 : List Byte) (s : State) : farOf side (burstRead side x2 x3 x4 x5 x6 x7 s) = farOf side s := by
  unfold burstRead
  split
  · rfl
  · split
    · rfl
    · next d _ b _ =>
      dsimp only
      generalize hm : modDesc side x2 x3 _ s = s1
      have e1 : farOf side s1 = farOf side s := by rw [← hm]; exact modDesc_far _ _ _ _ _
      generalize h2 : (if x6 ≠ 0 then descFail side x2 x3 x6 s1 else s1) = s2
      have e2 : farOf side s2 = farOf side s := by
        rw [← h2]
        exact ite_far ((descFail_far _ _ _ _ _).trans e1) e1
      clear hm h2
      have e3 : farOf side (burstDrop side x2 x3 x4 s2) = farOf side s := (burstDrop_far _ _ _ _ _).trans e2
      refine ite_far e2 ?_
      split
      · exact e2
      · refine ite_far ((burstWrite_far _ _ _ _ _ _ _).trans e2) (ite_far e3 (ite_far
          ((burstWrite_far _ _ _ _ _ _ _).trans e2) (ite_far ((blobRead_far _ _ _ _ _ _).trans e2) (ite_far e3 ?_))))
        split
        · exact (modDesc_far _ _ _ _ _).trans e3
        · exact (modDesc_far _ _ _ _ _).trans ((modDesc_far _ _ _ _ _).trans e3)
@[simp] theorem finishReq_far (side : Side) (x2 : Req) (x3 : Nat) (x4 : Nat) (x5 : Nat) (x6 : List Byte) (s : State) : farOf side (finishReq side x2 x3 x4 x5 x6 s) = farOf side s := by unfold finishReq; dsimp only; (repeat' split) <;> simp [apply_ite (farOf side)]
@[simp] theorem timeoutTraces_far (side : Side) (x2 : Req) (s : State) : farOf side (timeoutTraces side x2 s) = farOf side s := by simp [timeoutTraces]
@[simp] theorem waitingTimeout_far (side : Side) (x2 : Req) (s : State) : farOf side (waitingTimeout side x2 s) = farOf side s := by simp [waitingTimeout, apply_ite (farOf side)]
@[simp] theorem descStart_far (side : Side) (x2 : Nat) (x3 : Desc) (s : State) : farOf side (descStart side x2 x3 s) = farOf side s := by simp [descStart, apply_ite (farOf side)]
@[simp] theorem startDesc_far (side : Side) (x2 : Nat) (x3 : Nat) (s : State) : farOf side (startDesc side x2 x3 s) = farOf side s := by unfold startDesc; (repeat' split) <;> simp_all
@[simp] theorem timerTrigger_far (side : Side) (x2 : Nat) (s : State) : farOf side (timerTrigger side x2 s) = farOf side s := by unfold timerTrigger; (repeat' split) <;> simp_all
@[simp] theorem retryNote_far (side : Side) (x2 : Req) (s : State) : farOf side (retryNote side x2 s) = farOf side s := by simp [retryNote, apply_ite (farOf side)]
@[simp] theorem tagEnd_far (side : Side) (x2 : Nat) (x3 : Nat) (x4 : Bool) (s : State) : farOf side (tagEnd side x2 x3 x4 s) = farOf side s := by simp [tagEnd]
@[simp] theorem recallIn_far (side : Side) (x2 : Packet) (x3 : Nat) (s : State) : farOf side (recallIn side x2 x3 s) = farOf side s := by simp [recallIn, apply_ite (farOf side)]
@[simp] theorem recallsOut_far (side : Side) (x2 : Header) (s : State) : farOf side (recallsOut side x2 s) = farOf side s := by simp [recallsOut, apply_ite (farOf side)]
@[simp] theorem resolve1_far (side : Side) (x2 : Req) (x3 : Nat) (x4 : Nat) (x5 : Nat) (x6 : List Byte) (x7 : Bool) (s : State) : farOf side (resolve1 side x2 x3 x4 x5 x6 x7 s) = farOf side s := by simp [resolve1, apply_ite (farOf side)]
@[simp] theorem loadTimeout_far (side : Side) (x2 : Nat) (s : State) : farOf side (loadTimeout side x2 s) = farOf side s := by unfold loadTimeout; dsimp only; (repeat' split) <;> simp [apply_ite (farOf side)]
theorem sendCodes_far {side : Side} {q : OPort} {x2 : List Code} {s : State} {a : Line} {t : State} (h : sendCodes (.oeb side q) x2 s = (a, t)) : farOf side t = farOf side s := by
  unfold sendCodes at h
  rw [← (Prod.mk.inj h).2]
  exact setAux_far _ _ _ (by simp only [linkKey]; omega)
@[simp] theorem sendCodes_snd_far (side : Side) (q : OPort) (x2 : List Code) (s : State) : farOf side (sendCodes (.oeb side q) x2 s).2 = farOf side s := sendCodes_far (Eq.refl _)
@[simp] theorem sendInsert_far (side : Side) (q : OPort) (x2 : InsertKind) (x3 : List Byte) (s : State) : farOf side (sendInsert (.oeb side q) x2 x3 s) = farOf side s := by simp [sendInsert]
@[simp] theorem countLink_far (side : Side) (q : OPort) (x2 : Ctr) (s : State) : farOf side (countLink (.oeb side q) x2 s) = farOf side s := by simp [countLink]
theorem receiveAs_far {side : Side} {q : OPort} {x2 : Nat} {x3 : Bool} {x4 : Line} {s : State} {a : List RxGroup} {t : State} (h : receiveAs (.oeb side q) x2 x3 x4 s = (a, t)) : farOf side t = farOf side s := by
  refine (congrArg (fun x : List RxGroup × State => farOf side x.2) h).symm.trans ?_
  unfold receiveAs
  exact setAux_far _ _ _ (by simp only [linkKey]; omega)
@[simp] theorem receiveAs_snd_far (side : Side) (q : OPort) (x2 : Nat) (x3 : Bool) (x4 : Line) (s : State) : farOf side (receiveAs (.oeb side q) x2 x3 x4 s).2 = farOf side s := receiveAs_far (x3 := x3) (a := (receiveAs (.oeb side q) x2 x3 x4 s).1) (Eq.refl _)
theorem receive_far {side : Side} {q : OPort} {x2 : Line} {s : State} {a : List RxGroup} {t : State} (h : receive (.oeb side q) x2 s = (a, t)) : farOf side t = farOf side s := by
  unfold receive at h
  dsimp only at h
  split at h <;> exact receiveAs_far h
@[simp] theorem receive_snd_far (side : Side) (q : OPort) (x2 : Line) (s : State) : farOf side (receive (.oeb side q) x2 s).2 = farOf side s := receive_far (Eq.refl _)
@[simp] theorem atBoundary_far (side : Side) (q : OPort) (x2 : Line) (x3 : Special → List RxGroup → State → State) (x4 : List RxGroup → State → State) (s : State) (h3 : ∀ a0 a1 t, farOf side (x3 a0 a1 t) = farOf side t) (h4 : ∀ a0 t, farOf side (x4 a0 t) = farOf side t) : farOf side (atBoundary (.oeb side q) x2 x3 x4 s) = farOf side s := by simp only [atBoundary]; (repeat' split) <;> simp_all
@[simp] theorem insertIn_far (side : Side) (q : OPort) (x2 : Special) (x3 : Line) (x4 : List RxGroup → State → State) (s : State) (h4 : ∀ a0 t, farOf side (x4 a0 t) = farOf side t) : farOf side (insertIn (.oeb side q) x2 x3 x4 s) = farOf side s := by
  unfold insertIn
  refine atBoundary_far _ _ _ _ _ _ (fun a b t => ?_) fun a t => rfl
  split
  · exact h4 _ _
  · rfl
@[simp] theorem tailMarked_far (side : Side) (x2 : Header) (s : State) : farOf side (tailMarked side x2 s) = farOf side s := by simp [tailMarked]
@[simp] theorem oebMalformed_far (side : Side) (x2 : Nat) (x3 : Header) (s : State) : farOf side (oebMalformed side x2 x3 s) = farOf side s := by simp [oebMalformed]
@[simp] theorem snoopRx_far (side : Side) (x2 : Packet) (x3 : Bool) (x4 : Nat → State → State) (s : State) (h4 : ∀ a0 t, farOf side (x4 a0 t) = farOf side t) : farOf side (snoopRx side x2 x3 x4 s) = farOf side s := by unfold snoopRx; (repeat' split) <;> simp_all
@[simp] theorem invFull_far (side : Side) (s : State) : farOf side (invFull side s) = farOf side s := by simp [invFull]
@[simp] theorem invDone_far (side : Side) (s : State) : farOf side (invDone side s) = farOf side s := by simp [invDone]
@[simp] theorem invPurge_far (side : Side) (s : State) : farOf side (invPurge side s) = farOf side s := by unfold invPurge; dsimp only; (repeat' split) <;> simp [apply_ite (farOf side)]
@[simp] theorem dmaWaitTest_far (side : Side) (x2 : Nat) (s : State) : farOf side (dmaWaitTest side x2 s) = farOf side s := by simp [dmaWaitTest]
@[simp] theorem chHalt_far (side : Side) (x2 : Nat) (x3 : Nat) (s : State) : farOf side (chHalt side x2 x3 s) = farOf side s := by simp [chHalt]
@[simp] theorem dmaErrTraces_far (side : Side) (x2 : Nat) (x3 : Nat) (x4 : Nat) (s : State) : farOf side (dmaErrTraces side x2 x3 x4 s) = farOf side s := by simp [dmaErrTraces]
@[simp] theorem chFail_far (side : Side) (x2 : Nat) (x3 : Nat) (x4 : Nat) (s : State) : farOf side (chFail side x2 x3 x4 s) = farOf side s := by simp [chFail]
@[simp] theorem tailWrite_far (side : Side) (x2 : Nat) (x3 : Nat) (s : State) : farOf side (tailWrite side x2 x3 s) = farOf side s := by simp [tailWrite, apply_ite (farOf side)]
theorem openFrom_far {side : Side} {x2 : Option KeySlot} {x3 : List Nat} {x4 : Packet} {s : State} {a : Option (List Byte)} {t : State} (h : openFrom (.oeb side) x2 x3 x4 s = (a, t)) : farOf side t = farOf side s := by unfold openFrom at h; (repeat' split at h) <;> first | (injection h with h; subst h; (first | rfl | (simp [*]; done)); done) | (simp at h; done) | (simp at h; obtain ⟨rfl, rfl⟩ := h; (first | rfl | (simp [*]; done)); done) | (simp at h; subst h; (first | rfl | (simp [*]; done)); done) | (simp at h; obtain ⟨_, rfl, rfl⟩ := h; (first | rfl | (simp [*]; done)); done)
@[simp] theorem openFrom_snd_far (side : Side) (x2 : Option KeySlot) (x3 : List Nat) (x4 : Packet) (s : State) : farOf side (openFrom (.oeb side) x2 x3 x4 s).2 = farOf side s := openFrom_far (Eq.refl _)
theorem openUnder_far {side : Side} {x2 : Nat} {x3 : List Nat} {x4 : Packet} {s : State} {a : Option (List Byte)} {t : State} (h : openUnder (.oeb side) x2 x3 x4 s = (a, t)) : farOf side t = farOf side s := by
  unfold openUnder at h
  exact openFrom_far h
@[simp] theorem openUnder_snd_far (side : Side) (x2 : Nat) (x3 : List Nat) (x4 : Packet) (s : State) : farOf side (openUnder (.oeb side) x2 x3 x4 s).2 = farOf side s := openUnder_far (Eq.refl _)
theorem openPacket_far {side : Side} {x2 : Nat} {x3 : Packet} {s : State} {a : Option (List Byte)} {t : State} (h : openPacket (.oeb side) x2 x3 s = (a, t)) : farOf side t = farOf side s := by
  exact openUnder_far h
@[simp] theorem openPacket_snd_far (side : Side) (x2 : Nat) (x3 : Packet) (s : State) : farOf side (openPacket (.oeb side) x2 x3 s).2 = farOf side s := openPacket_far (Eq.refl _)
@[simp] theorem gcmFail_far (side : Side) (x2 : Header) (x3 : Bool) (s : State) : farOf side (gcmFail side x2 x3 s) = farOf side s := by simp [gcmFail, apply_ite (farOf side)]
theorem openReport_far {side : Side} {x2 : Packet} {s : State} {a : Option (List Byte)} {t : State} (h : openReport (.oeb side) x2 s = (a, t)) : farOf side t = farOf side s := by unfold openReport at h; (repeat' split at h) <;> first | exact openUnder_far h | (exact (openUnder_far h).trans (by simp [*]))
@[simp] theorem openReport_snd_far (side : Side) (x2 : Packet) (s : State) : farOf side (openReport (.oeb side) x2 s).2 = farOf side s := openReport_far (Eq.refl _)
@[simp] theorem inboundCheck_far (side : Side) (x2 : Packet) (x3 : Bool) (x4 : Nat → State → State) (x5 : List Byte → State → State) (s : State) (h4 : ∀ a0 t, farOf side (x4 a0 t) = farOf side t) (h5 : ∀ a0 t, farOf side (x5 a0 t) = farOf side t) : farOf side (inboundCheck side x2 x3 x4 x5 s) = farOf side s := by
  unfold inboundCheck
  dsimp only
  refine ite_far ((h4 _ _).trans ((raiseOF_far _ _ _ _ _ _ _ _ _ _).trans (countO_far _ _ _))) (ite_far
    ((h4 _ _).trans ((raiseOF_far _ _ _ _ _ _ _ _ _ _).trans (countO_far _ _ _))) (ite_far ?_ (ite_far
      ((h4 _ _).trans ((raiseOF_far _ _ _ _ _ _ _ _ _ _).trans (countO_far _ _ _))) (h5 _ _))))
  have e : farOf side (if (decide (x2.hdr.opcode.toNat = opMSG) && decide (slotKind (.oeb side) x2.hdr.keySlot.toNat s = 2)) = true then openReport (.oeb side) x2 s
      else openPacket (.oeb side) 1 x2 s).2 = farOf side s := by
    split
    · exact openReport_snd_far _ _ _
    · exact openPacket_snd_far _ _ _ _
  split
  · next q =>
    rw [q] at e
    exact (h5 _ _).trans e
  · next q =>
    rw [q] at e
    exact ite_far (h5 _ _) ((h4 _ _).trans ((gcmFail_far _ _ _ _).trans e))
@[simp] theorem cohAtHome_far (side : Side) (x2 : Packet) (x3 : Bool) (s : State) : farOf side (cohAtHome side x2 x3 s) = farOf side s := by simp [cohAtHome, apply_ite (farOf side)]
@[simp] theorem postedDone_far (side : Side) (s : State) : farOf side (postedDone side s) = farOf side s := by simp [postedDone]
@[simp] theorem keyAbsent_far (side : Side) (x2 : Header) (s : State) : farOf side (keyAbsent side x2 s) = farOf side s := by simp [keyAbsent, apply_ite (farOf side)]
theorem formPacket_far {side : Side} {x2 : Header} {x3 : List Byte} {s : State} {a : Packet} {t : State} (h : formPacket side x2 x3 s = some (a, t)) : farOf side t = farOf side s := by
  unfold formPacket at h
  split at h
  · exact sealPacket_far h
  · split at h <;> (injection h with h; injection h with _ h; rw [h])
@[simp] theorem holdReq_far (side : Side) (x2 : Req) (s : State) : farOf side (holdReq side x2 s) = farOf side s := by simp [holdReq, apply_ite (farOf side)]
@[simp] theorem oebQueue_far (side : Side) (x2 : Nat) (x3 : Nat) (x4 : Packet) (s : State) : farOf side (oebQueue side x2 x3 x4 s) = farOf side s := by
  exact (emit_far _ _ _).trans (setAux_far _ _ _ (by omega))
@[simp] theorem rateNote_far (side : Side) (x2 : Nat) (x3 : Nat) (x4 : Nat) (s : State) : farOf side (rateNote side x2 x3 x4 s) = farOf side s := by simp [rateNote]
@[simp] theorem sendReq_far (side : Side) (x2 : Req) (x3 : Nat) (s : State) : farOf side (sendReq side x2 x3 s) = farOf side s := by
  unfold sendReq
  dsimp only
  generalize hs : (setOeb side { oebOf side s with queue := _, rotPort := _ } s : State) = s0
  have e0 : farOf side s0 = farOf side s := by rw [← hs]; exact setOeb_far _ _ _
  clear hs
  have send : ∀ (p : Packet) (a b n : Nat) (t : State), farOf side t = farOf side s →
      farOf side (oebQueue side x3 x2.rid p (rateNote side a b n t)) = farOf side s := fun p a b n t e =>
    (oebQueue_far _ _ _ _ _).trans ((rateNote_far _ _ _ _ _).trans e)
  split
  · next e => exact (holdReq_far _ _ _).trans (send _ _ _ _ _ ((formPacket_far e).trans e0))
  · split
    · exact send _ _ _ _ _ e0
    · exact (finishReq_far _ _ _ _ _ _ _).trans ((keyAbsent_far _ _ _).trans (ite_far ((tagEnd_far _ _ _ _ _).trans ((retryNote_far _ _ _).trans e0)) e0))
@[simp] theorem issueNext_far (side : Side) (s : State) : farOf side (issueNext side s) = farOf side s := by unfold issueNext; (repeat' split) <;> simp_all
@[simp] theorem txMove_far (side : Side) (x2 : Nat) (x3 : TxPkt) (s : State) : farOf side (txMove side x2 x3 s) = farOf side s := by
  unfold txMove
  dsimp only
  have away : ∀ (l : LinkAux) (t : State), farOf side t = farOf side s → farOf side (setAux (288 + 16 * side.val + x2) l t) = farOf side s :=
    fun l t e => (setAux_far _ _ _ (by omega)).trans e
  split
  · exact away _ _ (setOeb_far _ _ _)
  · split
    · rfl
    · exact (oebQueue_far _ _ _ _ _).trans (away _ _ rfl)
@[simp] theorem txReclaim_far (side : Side) (s : State) : farOf side (txReclaim side s) = farOf side s := by unfold txReclaim; repeat' (first | (first | rfl | (simp [*]; done)) | split | (refine (foldl_far _ _ _ (fun _ _ => ?_)).trans ?_) | (simp only [apply_ite (farOf side), *]))
@[simp] theorem requestIssue_far (side : Side) (s : State) : farOf side (requestIssue side s) = farOf side s := by simp [requestIssue]
@[simp] theorem ctxCfgRead_far (side : Side) (x2 : Nat) (s : State) : farOf side (ctxCfgRead side x2 s) = farOf side s := by simp [ctxCfgRead]
@[simp] theorem walkRead_far (side : Side) (x2 : Walk) (s : State) : farOf side (walkRead side x2 s) = farOf side s := by simp [walkRead]
@[simp] theorem walkFrom_far (side : Side) (x2 : Walk) (s : State) : farOf side (walkFrom side x2 s) = farOf side s := by simp [walkFrom]
@[simp] theorem walkRoot_far (side : Side) (x2 : Walk) (s : State) : farOf side (walkRoot side x2 s) = farOf side s := by simp [walkRoot]
@[simp] theorem walkBegin_far (side : Side) (x2 : Walk) (s : State) : farOf side (walkBegin side x2 s) = farOf side s := by unfold walkBegin; dsimp only; (repeat' split) <;> simp [apply_ite (farOf side)]
@[simp] theorem walkStart_far (side : Side) (s : State) : farOf side (walkStart side s) = farOf side s := by unfold walkStart; dsimp only; (repeat' split) <;> simp [apply_ite (farOf side)]
@[simp] theorem ringRead_far (side : Side) (x2 : Nat) (x3 : Nat) (x4 : Nat) (x5 : List Byte) (s : State) : farOf side (ringRead side x2 x3 x4 x5 s) = farOf side s := by simp [ringRead, apply_ite (farOf side)]
@[simp] theorem descDone_far (side : Side) (x2 : Nat) (x3 : Desc) (s : State) : farOf side (descDone side x2 x3 s) = farOf side s := by simp [descDone, apply_ite (farOf side)]
@[simp] theorem crecDone_far (side : Side) (x2 : Nat) (x3 : Nat) (s : State) : farOf side (crecDone side x2 x3 s) = farOf side s := by unfold crecDone; (repeat' split) <;> simp_all
@[simp] theorem crecWrite_far (side : Side) (x2 : Nat) (x3 : Nat) (s : State) : farOf side (crecWrite side x2 x3 s) = farOf side s := by unfold crecWrite; (repeat' split) <;> simp_all
@[simp] theorem dmaXlat_far (side : Side) (x2 : XMiss) (x3 : XAns) (s : State) : farOf side (dmaXlat side x2 x3 s) = farOf side s := by unfold dmaXlat; (repeat' split) <;> simp_all
@[simp] theorem xlatAnswers_far (side : Side) (x2 : List (XMiss × XAns)) (s : State) : farOf side (xlatAnswers side x2 s) = farOf side s := by unfold xlatAnswers; repeat' (first | (first | rfl | (simp [*]; done)) | split | (refine (foldl_far _ _ _ (fun _ _ => ?_)).trans ?_) | (simp only [apply_ite (farOf side), *]))
theorem xlatRelease_far (side : Side) (k : Nat) (x : List (XMiss × XAns) × State) :
    farOf side (xlatRelease side k x).2 = farOf side x.2 := by
  induction k generalizing x with
  | zero => rfl
  | succ k ih =>
    obtain ⟨l, s⟩ := x
    rw [xlatRelease]
    split
    · rfl
    · split
      · rfl
      · split <;> rw [ih]
        · next q => exact (lookUp_far q).trans (modOeb_far _ _ _)
        · next q => exact (lookUp_far q).trans (modOeb_far _ _ _)
@[simp] theorem walkNext_far (side : Side) (s : State) : farOf side (walkNext side s) = farOf side s := by
  unfold walkNext
  dsimp only
  rw [xlatAnswers_far, xlatRelease_far]
  exact walkStart_far _ _
@[simp] theorem nportsSet_far (side : Side) (s : State) : farOf side (nportsSet side s) = farOf side s := by simp [nportsSet]
@[simp] theorem oebPortEnable_far (side : Side) (x2 : OPort) (s : State) : farOf side (oebPortEnable side x2 s) = farOf side s := by simp [oebPortEnable, apply_ite (farOf side)]
@[simp] theorem xlatFaultRead_far (side : Side) (x2 : Nat) (s : State) : farOf side (xlatFaultRead side x2 s) = farOf side s := by simp [xlatFaultRead]
@[simp] theorem descComplete_far (side : Side) (x2 : Nat) (s : State) : farOf side (descComplete side x2 s) = farOf side s := by unfold descComplete; repeat' (first | (first | rfl | (simp [*]; done) | (have e := translate_far ‹_›; simp [*]; done)) | split | (refine (foldl_far _ _ _ (fun _ _ => ?_)).trans ?_) | (simp only [apply_ite (farOf side), *]))
@[simp] theorem descFetch_far (side : Side) (x2 : Nat) (s : State) : farOf side (descFetch side x2 s) = farOf side s := by unfold descFetch; repeat' (first | (first | rfl | (simp [*]; done) | (have e := translate_far ‹_›; simp [*]; done)) | split | (refine (foldl_far _ _ _ (fun _ _ => ?_)).trans ?_) | (simp only [apply_ite (farOf side), *]))
@[simp] theorem dmaRing_far (side : Side) (x2 : Areq) (s : State) : farOf side (dmaRing side x2 s) = farOf side s := by simp [dmaRing, apply_ite (farOf side)]
@[simp] theorem dmaStop_far (side : Side) (x2 : Nat) (s : State) : farOf side (dmaStop side x2 s) = farOf side s := by unfold dmaStop; (repeat' split) <;> simp_all
@[simp] theorem invDrain_far (side : Side) (s : State) : farOf side (invDrain side s) = farOf side s := by unfold invDrain; (repeat' split) <;> simp_all
@[simp] theorem burstFetch_far (side : Side) (x2 : Nat) (x3 : Nat) (x4 : Nat) (x5 : Nat) (x6 : Nat) (x7 : Leaf) (x8 : Nat) (s : State) : farOf side (burstFetch side x2 x3 x4 x5 x6 x7 x8 s) = farOf side s := by simp [burstFetch, apply_ite (farOf side)]
@[simp] theorem burstIssue_far (side : Side) (x2 : Nat) (s : State) : farOf side (burstIssue side x2 s) = farOf side s := by unfold burstIssue; dsimp only; (repeat' split) <;> simp [apply_ite (farOf side)]
@[simp] theorem dmaBurst_far (side : Side) (s : State) : farOf side (dmaBurst side s) = farOf side s := by unfold dmaBurst; split <;> simp_all
@[simp] theorem xlatInv_far (side : Side) (x2 : Nat) (x3 : Bool) (x4 : Nat) (x5 : Nat) (x6 : Nat) (s : State) : farOf side (xlatInv side x2 x3 x4 x5 x6 s) = farOf side s := by simp [xlatInv, apply_ite (farOf side)]
@[simp] theorem dmaDisable_far (side : Side) (x2 : Nat) (s : State) : farOf side (dmaDisable side x2 s) = farOf side s := by simp [dmaDisable, apply_ite (farOf side)]
@[simp] theorem applyEcho_far (side : Side) (x2 : Nat) (x3 : Nat) (x4 : Nat) (s : State) : farOf side (applyEcho (.oeb side) x2 x3 x4 s) = farOf side s := by unfold applyEcho; dsimp only; (repeat' split) <;> simp [apply_ite (farOf side)]
@[simp] theorem echoBody_far (side : Side) (x2 : List Byte) (s : State) : farOf side (echoBody (.oeb side) x2 s) = farOf side s := by simp [echoBody]
@[simp] theorem echoRx_far (side : Side) (q : OPort) (line : Line) (s : State) : farOf side (echoRx (.oeb side q line) s) = farOf side s := by
  unfold echoRx
  dsimp only
  refine insertIn_far _ _ _ _ _ _ fun a t => ?_
  split
  · exact echoBody_far _ _ _
  · exact countO_far _ _ _
@[simp] theorem landed_far (side : Side) (x2 : Header) (x3 : Bool) (s : State) : farOf side (landed side x2 x3 s) = farOf side s := by simp [landed, apply_ite (farOf side)]
@[simp] theorem walkFault_far (side : Side) (x2 : Walk) (x3 : XMiss) (x4 : Nat) (s : State) : farOf side (walkFault side x2 x3 x4 s) = farOf side s := by simp [walkFault]
@[simp] theorem walkInstall_far (side : Side) (x2 : Walk) (x3 : Leaf) (x4 : XMiss) (s : State) : farOf side (walkInstall side x2 x3 x4 s) = farOf side s := by simp [walkInstall]
theorem walkEnd_far {side : Side} {x2 : Walk} {x3 : Except Nat Leaf} {s : State} {a : List (XMiss × XAns)} {t : State} (h : walkEnd side x2 x3 s = (a, t)) : farOf side t = farOf side s := by
  refine (congrArg (fun x : List (XMiss × XAns) × State => farOf side x.2) h).symm.trans ?_
  unfold walkEnd
  refine (foldl_snd_far _ _ _ fun acc m => ?_).trans (modOeb_far _ _ _)
  split
  · exact walkFault_far _ _ _ _ _
  · dsimp only
    split
    · exact ite_far (walkInstall_far _ _ _ _ _) rfl
    · exact walkFault_far _ _ _ _ _
@[simp] theorem walkEnd_snd_far (side : Side) (x2 : Walk) (x3 : Except Nat Leaf) (s : State) : farOf side (walkEnd side x2 x3 s).2 = farOf side s := walkEnd_far (Eq.refl _)
theorem walkMrsp_far {side : Side} {x2 : Nat} {x3 : Nat} {x4 : List Byte} {s : State} {a : List (XMiss × XAns)} {t : State} (h : walkMrsp side x2 x3 x4 s = (a, t)) : farOf side t = farOf side s := by
  unfold walkMrsp at h
  split at h
  · exact (Prod.mk.inj h).2 ▸ rfl
  · refine ite_far_cases (fun h => ?_) (ite_far_cases (fun h => walkEnd_far h) fun h => ?_) h
    · rw [← (Prod.mk.inj h).2]
      exact walkRoot_far _ _ _
    · dsimp only at h
      split at h
      · exact walkEnd_far h
      · exact walkEnd_far h
      · rw [← (Prod.mk.inj h).2, walkRead_far, modOeb_far]
@[simp] theorem walkMrsp_snd_far (side : Side) (x2 : Nat) (x3 : Nat) (x4 : List Byte) (s : State) : farOf side (walkMrsp side x2 x3 x4 s).2 = farOf side s := walkMrsp_far (Eq.refl _)
@[simp] theorem recallDone_far (side : Side) (x2 : Packet) (x3 : Nat) (x4 : Nat) (x5 : List Byte) (s : State) : farOf side (recallDone side x2 x3 x4 x5 s) = farOf side s := by simp [recallDone, apply_ite (farOf side)]
@[simp] theorem mrspFor_far (side : Side) (x2 : MPurp) (x3 : Nat) (x4 : List Byte) (s : State) : farOf side (mrspFor side x2 x3 x4 s) = farOf side s := by
  unfold mrspFor
  have land : ∀ (h : Header) (b : Bool), farOf side (if x3 = 0 then landed side h b s else s) = farOf side s := fun h b =>
    ite_far (landed_far _ _ _ _) rfl
  cases x2 with
  | inRead p q => exact respondIn_far _ _ _ _ _ _
  | inWrite p q => exact (respondIn_far _ _ _ _ _ _).trans (land _ _)
  | msg p => exact ite_far ((raiseOF_far _ _ _ _ _ _ _ _ _ _).trans (countO_far _ _ _)) rfl
  | atom p q j => exact atomPerform_far _ _ _ _ _ _ _
  | unlock => rfl
  | walk id => exact (xlatAnswers_far _ _ _).trans (walkMrsp_snd_far _ _ _ _ _)
  | contrib j o => exact contribRead_far _ _ _ _ _ _
  | result p a =>
    cases a with
    | some a => exact mreq_far _ _ _ _ _ _ _ _
    | none => exact land _ _
  | dmaRd c n o r => exact burstRead_far _ _ _ _ _ _ _ _
  | dmaWr c n o => exact burstWritten_far _ _ _ _ _ _
  | crec c => exact crecDone_far _ _ _ _
  | ring c g => exact ringRead_far _ _ _ _ _ _
  | snpInv p q => exact answer_far _ _ _ _ _ _ _ _ _
  | snpRecall p q => exact recallDone_far _ _ _ _ _ _
  | homeRead p q => exact answer_far _ _ _ _ _ _ _ _ _
  | homeWrite p q => exact answer_far _ _ _ _ _ _ _ _ _
@[simp] theorem mrspTimeout_far (side : Side) (x2 : Nat) (s : State) : farOf side (mrspTimeout side x2 s) = farOf side s := by unfold mrspTimeout; dsimp only; (repeat' split) <;> simp [apply_ite (farOf side)]
@[simp] theorem oebReset_far (side : Side) (x2 : Bool) (s : State) : farOf side (oebReset side x2 s) = farOf side s := by
  unfold oebReset
  dsimp only
  have e : ∀ (t : State) x, farOf side ({ t with tele := x } : State) = farOf side t := fun t x => rfl
  refine (foldl_far _ _ _ fun t a => sendInsert_far _ _ _ _ _).trans ((so_far _ _ _ _ _).trans ((e _ _).trans
    ((foldl_far _ _ _ fun t a => ?_).trans ?_)))
  · rw [setAux_far _ _ _ (by omega), setLink_far _ _ _ (by omega)]
  · rw [setOeb_far, setKeySec_far, setRates_far, setUnit_far]
@[simp] theorem mreqNext_far (side : Side) (s : State) : farOf side (mreqNext side s) = farOf side s := by unfold mreqNext; split <;> simp_all
@[simp] theorem mrspRx_far (side : Side) (x2 : Nat) (x3 : Nat) (x4 : List Byte) (s : State) : farOf side (mrspRx side x2 x3 x4 s) = farOf side s := by unfold mrspRx; dsimp only; (repeat' split) <;> simp [apply_ite (farOf side)]
@[simp] theorem cohInvRx_far (side : Side) (x2 : Packet) (x3 : Nat) (s : State) : farOf side (cohInvRx side x2 x3 s) = farOf side s := by simp [cohInvRx]
@[simp] theorem lcGate_far (side : Side) (x2 : Packet) (x3 : Bool) (x4 : State → State) (x5 : Packet → State → State) (s : State) (h4 : ∀ t, farOf side (x4 t) = farOf side t) (h5 : ∀ a0 t, farOf side (x5 a0 t) = farOf side t) : farOf side (lcGate side x2 x3 x4 x5 s) = farOf side s := by simp only [lcGate]; (repeat' split) <;> simp_all
theorem resultFrees_far {side : Side} {x2 : Nat} {x3 : Nat} {x4 : Header} {s : State} {a : Bool} {t : State} (h : resultFrees side x2 x3 x4 s = (a, t)) : farOf side t = farOf side s := by
  unfold resultFrees at h
  split at h
  · injection h with _ h
    rw [h]
  · dsimp only at h
    have one : ∀ (o : Option Nat) (k : Nat) (s u : State), (o.map fun q => windowSet side k q s) = some u → farOf side u = farOf side s := by
      intro o k s u e
      obtain ⟨q, _, rfl⟩ := Option.map_eq_some_iff.mp e
      exact windowSet_far _ _ _ _
    split at h
    · split at h
      · next s0 s1 e0 e1 =>
        injection h with _ h
        subst h
        refine Eq.trans ?_ (one _ _ _ _ e0)
        generalize hx : (Option.map _ _) = o
        cases o with
        | none => rfl
        | some u => exact one _ _ _ _ hx
      · next e0 _ => injection h with _ h; rw [← h]; exact one _ _ _ _ e0
      · next e0 => injection h with _ h; rw [← h]; exact one _ _ _ _ e0
      · injection h with _ h; rw [h]
    · split at h
      · next e0 => injection h with _ h; rw [← h]; exact one _ _ _ _ e0
      · injection h with _ h; rw [h]
@[simp] theorem resultFrees_snd_far (side : Side) (x2 : Nat) (x3 : Nat) (x4 : Header) (s : State) : farOf side (resultFrees side x2 x3 x4 s).2 = farOf side s := resultFrees_far (Eq.refl _)
@[simp] theorem resultWrite_far (side : Side) (x2 : Nat) (x3 : Nat) (x4 : Header) (x5 : List Byte) (s : State) : farOf side (resultWrite side x2 x3 x4 x5 s) = farOf side s := by simp [resultWrite, apply_ite (farOf side)]
@[simp] theorem rresultRx_far (side : Side) (x2 : Nat) (x3 : Packet) (x4 : Bool) (s : State) : farOf side (rresultRx side x2 x3 x4 s) = farOf side s := by
  unfold rresultRx
  dsimp only
  split
  · exact oebMalformed_far _ _ _ _
  · split
    · rw [raiseOF_far, countO_far]
    · split
      · rw [raiseO_far, countO_far]
      · generalize ho : (if x3.hdr.enc = true then _ else _ : Option (List Byte) × State) = o
        have e : farOf side o.2 = farOf side s := by
          rw [← ho]
          split
          · exact openPacket_far (Prod.eta _).symm
          · split <;> rfl
        clear ho
        obtain ⟨o1, s1⟩ := o
        cases o1 with
        | none => exact (gcmFail_far _ _ _ _).trans e
        | some data =>
          dsimp only
          split
          · next e2 => exact (countO_far _ _ _).trans ((resultFrees_far e2).trans e)
          · next e2 =>
            split
            · exact (resultFrees_far e2).trans e
            · refine (lcGate_far _ _ _ _ _ _ (fun _ => rfl) fun p t => resultWrite_far _ _ _ _ _ _).trans ((resultFrees_far e2).trans e)
@[simp] theorem lineIn_far (side : Side) (x2 : Header) (s : State) : farOf side (lineIn side x2 s) = farOf side s := by simp [lineIn]
@[simp] theorem responseRx_far (side : Side) (x2 : Nat) (x3 : Packet) (x4 : Bool) (s : State) : farOf side (responseRx side x2 x3 x4 s) = farOf side s := by
  have fin : ∀ (st : Nat) (d : List Byte) (r : Req) (c : Prop) [Decidable c] (x3 : Packet) (z1 z2 : Nat) (z3 : List Byte) (t : State), farOf side t = farOf side s →
      farOf side (resolve1 side r st z1 z2 z3 false (if c then lineIn side x3.hdr t else t)) = farOf side s := fun st d r c _ x3 z1 z2 z3 t e =>
    (resolve1_far _ _ _ _ _ _ _ _).trans (ite_far ((lineIn_far _ _ _).trans e) e)
  unfold responseRx
  dsimp only
  refine ite_far (countO_far _ _ _) (ite_far (oebMalformed_far _ _ _ _) ?_)
  split
  · exact (raiseO_far _ _ _ _ _ _ _).trans (countO_far _ _ _)
  · refine ite_far (fin _ [] _ _ _ _ _ _ _ ((raiseO_far _ _ _ _ _ _ _).trans (countO_far _ _ _))) (ite_far ?_ (ite_far (fin _ [] _ _ _ _ _ _ _ (gcmFail_far _ _ _ _)) (fin _ [] _ _ _ _ _ _ _ rfl)))
    split
    · next e => exact fin _ [] _ _ _ _ _ _ _ (openPacket_far e)
    · next e => exact fin _ [] _ _ _ _ _ _ _ ((gcmFail_far _ _ _ _).trans (openPacket_far e))
@[simp] theorem dmaErrClear_far (side : Side) (x2 : Nat) (s : State) : farOf side (dmaErrClear side x2 s) = farOf side s := by simp [dmaErrClear, apply_ite (farOf side)]
@[simp] theorem rateRecover_far (side : Side) (x2 : Nat) (x3 : Nat) (s : State) : farOf side (rateRecover (.oeb side) x2 x3 s) = farOf side s := by unfold rateRecover; dsimp only; (repeat' split) <;> simp [apply_ite (farOf side)]
@[simp] theorem spdmMsg_far (side : Side) (x2 : Header) (x3 : Nat) (x4 : List Byte) (s : State) : farOf side (spdmMsg side x2 x3 x4 s) = farOf side s := by simp [spdmMsg, apply_ite (farOf side)]
@[simp] theorem inboundRequest_far (side : Side) (x2 : Nat) (x3 : Packet) (x4 : Bool) (s : State) : farOf side (inboundRequest side x2 x3 x4 s) = farOf side s := by
  unfold inboundRequest
  refine ite_far (countO_far _ _ _) (ite_far (oebMalformed_far _ _ _ _) (ite_far rfl (ite_far
    ((respondIn_far _ _ _ _ _ _).trans ((raiseOF_far _ _ _ _ _ _ _ _ _ _).trans (countO_far _ _ _)))
    (inboundCheck_far _ _ _ _ _ _ (fun k t => respondIn_far _ _ _ _ _ _) fun data t => ?_))))
  refine ite_far (ite_far (spdmMsg_far _ _ _ _ _) (mreq_far _ _ _ _ _ _ _ _)) (ite_far (mreq_far _ _ _ _ _ _ _ _) (ite_far
    (atomArrive_far _ _ _ _ _) (lcGate_far _ _ _ _ _ _ (fun t => respondIn_far _ _ _ _ _ _)
      fun pk t => mreq_far _ _ _ _ _ _ _ _)))

end Sys2Proof.Machine
end

