-- ==== Sys2Proof/Laws/Queue.lean ====
section
/-! SUPPORT. No operation of the block touches the commands that wait: one lemma for each. -/

set_option Elab.async false
set_option linter.all false
set_option linter.unusedSimpArgs false
set_option linter.unreachableTactic false
set_option linter.unusedTactic false

namespace Sys2Proof.Machine

@[simp] theorem foldl_pending {α : Type} (f : State → α → State) (l : List α) (s : State)
    (h : ∀ t a, (f t a).pending = t.pending) : (l.foldl f s).pending = s.pending := by
  induction l generalizing s with
  | nil => rfl
  | cons a l ih => rw [List.foldl_cons, ih, h]
theorem withCw_pending (t : State) (c : SMap CwBank) : ({ t with cw := c } : State).pending = t.pending := rfl
theorem ite_pending {c : Prop} [Decidable c] {a b s : State} (ha : a.pending = s.pending) (hb : b.pending = s.pending) :
    (if c then a else b).pending = s.pending := by
  split
  · exact ha
  · exact hb
theorem foldl_snd_pending {α β : Type} (f : α × State → β → α × State) (l : List β) (x : α × State)
    (h : ∀ x b, (f x b).2.pending = x.2.pending) : (l.foldl f x).2.pending = x.2.pending := by
  induction l generalizing x with
  | nil => rfl
  | cons b l ih => rw [List.foldl_cons, ih, h]
theorem ite_cases {α : Type} {c : Prop} [Decidable c] {a b x : α} {Q : Prop} (ha : a = x → Q) (hb : b = x → Q)
    (h : (if c then a else b) = x) : Q := by
  split at h
  · exact ha h
  · exact hb h
theorem ite_fst_pending {α : Type} {c : Prop} [Decidable c] {a b : State × α} {s : State} (ha : a.1.pending = s.pending)
    (hb : b.1.pending = s.pending) : (if c then a else b).1.pending = s.pending := by
  split
  · exact ha
  · exact hb
theorem next_pending {f : State → State} {s t : State} (k : (f s).pending = s.pending)
    (h : (.next (f s) : Host.Outcome State Fault Refusal) = .next t) : t.pending = s.pending :=
  (congrArg State.pending (Host.Outcome.next.inj h)).symm.trans k
/-- The state a packet's lookup leaves. -/
def Fate.state : Fate → State
  | .done s => s
  | .fail _ s => s
  | .held _ s => s
theorem fate_done {f : Fate} {a s : State} (q : f = .done a) (e : f.state.pending = s.pending) : a.pending = s.pending := by
  rw [q] at e
  exact e
theorem fate_fail {f : Fate} {n : Nat} {a s : State} (q : f = .fail n a) (e : f.state.pending = s.pending) :
    a.pending = s.pending := by
  rw [q] at e
  exact e
theorem fate_held {f : Fate} {x : Held} {a s : State} (q : f = .held x a) (e : f.state.pending = s.pending) :
    a.pending = s.pending := by
  rw [q] at e
  exact e

@[simp] theorem areqGate_pending (x1 : Side) (x2 : Bool) (x3 : Areq) (x4 : Nat → State → State) (x5 : State → State) (s : State) (h4 : ∀ a0 t, (x4 a0 t).pending = t.pending) (h5 : ∀ t, (x5 t).pending = t.pending) : (areqGate x1 x2 x3 x4 x5 s).pending = s.pending := by unfold areqGate; (repeat' split) <;> simp_all
theorem freshId_pending {x1 : Side} {s : State} {a : Nat} {t : State} (h : freshId x1 s = (a, t)) : t.pending = s.pending := by unfold freshId at h; (repeat' split at h) <;> first | (injection h with h; subst h; (first | rfl | (simp [*]; done)); done) | (simp at h; done) | (simp at h; obtain ⟨rfl, rfl⟩ := h; (first | rfl | (simp [*]; done)); done) | (simp at h; subst h; (first | rfl | (simp [*]; done)); done) | (simp at h; obtain ⟨_, rfl, rfl⟩ := h; (first | rfl | (simp [*]; done)); done)
@[simp] theorem freshId_snd_pending (x1 : Side) (s : State) : (freshId x1 s).2.pending = s.pending := freshId_pending (Eq.refl _)
@[simp] theorem enqueueReq_pending (x1 : Side) (x2 : Req) (s : State) : (enqueueReq x1 x2 s).pending = s.pending := by simp [enqueueReq]
@[simp] theorem answer_pending (x1 : Side) (x2 : Header) (x3 : Nat) (x4 : Nat) (x5 : Nat) (x6 : Nat) (x7 : Nat) (x8 : List Byte) (s : State) : (answer x1 x2 x3 x4 x5 x6 x7 x8 s).pending = s.pending := by simp [answer]
@[simp] theorem respondIn_pending (x1 : Side) (x2 : Header) (x3 : Nat) (x4 : Nat) (x5 : List Byte) (s : State) : (respondIn x1 x2 x3 x4 x5 s).pending = s.pending := by simp [respondIn, apply_ite State.pending]
@[simp] theorem ctxError_pending (x1 : Side) (x2 : Nat) (x3 : Nat) (s : State) : (ctxError x1 x2 x3 s).pending = s.pending := by simp [ctxError, apply_ite State.pending]
@[simp] theorem arsp_pending (x1 : Side) (x2 : Nat) (x3 : Nat) (x4 : Nat) (x5 : Nat) (x6 : Nat) (x7 : List Byte) (s : State) : (arsp x1 x2 x3 x4 x5 x6 x7 s).pending = s.pending := by simp [arsp]
@[simp] theorem fenceNote_pending (x1 : Side) (x2 : Nat) (x3 : Nat) (s : State) : (fenceNote x1 x2 x3 s).pending = s.pending := by simp [fenceNote]
@[simp] theorem joinEnd_pending (x1 : Side) (x2 : Join) (s : State) : (joinEnd x1 x2 s).pending = s.pending := by simp [joinEnd]
@[simp] theorem joinPart_pending (x1 : Side) (x2 : Nat) (x3 : Nat) (x4 : Nat) (x5 : Nat) (x6 : Nat) (x7 : List Byte) (s : State) : (joinPart x1 x2 x3 x4 x5 x6 x7 s).pending = s.pending := by unfold joinPart; dsimp only; (repeat' split) <;> simp [apply_ite State.pending]
@[simp] theorem atomReply_pending (x1 : Side) (x2 : Packet) (x3 : Nat) (x4 : Option Nat) (x5 : Nat) (x6 : List Byte) (s : State) : (atomReply x1 x2 x3 x4 x5 x6 s).pending = s.pending := by unfold atomReply; split <;> simp_all
@[simp] theorem raiseOF_pending (x1 : Side) (x2 : EvCode) (x3 : Bool) (x4 : Nat) (x5 : Nat) (x6 : List (Bool × Nat)) (x7 : Option Nat) (x8 : Option Nat) (x9 : Option Nat) (s : State) : (raiseOF x1 x2 x3 x4 x5 x6 x7 x8 x9 s).pending = s.pending := by simp [raiseOF]
@[simp] theorem mreqSend_pending (x1 : Side) (x2 : MreqWait) (x3 : Nat) (s : State) : (mreqSend x1 x2 x3 s).pending = s.pending := by simp [mreqSend]
@[simp] theorem mreq_pending (x1 : Side) (x2 : MPurp) (x3 : Nat) (x4 : Nat) (x5 : Bool) (x6 : Nat) (x7 : List Byte) (s : State) : (mreq x1 x2 x3 x4 x5 x6 x7 s).pending = s.pending := by unfold mreq; dsimp only; (repeat' split) <;> simp [apply_ite State.pending]
@[simp] theorem atomStart_pending (x1 : Side) (x2 : Packet) (x3 : Nat) (x4 : Option Nat) (s : State) : (atomStart x1 x2 x3 x4 s).pending = s.pending := by
  unfold atomStart
  cases x4 with
  | some j => exact mreq_pending _ _ _ _ _ _ _ _
  | none =>
    dsimp only
    generalize jrnlRow x1 x2.hdr s = r
    cases r with
    | perform => exact mreq_pending _ _ _ _ _ _ _ _
    | unknown => exact (atomReply_pending _ _ _ _ _ _ _).trans ((raiseOF_pending _ _ _ _ _ _ _ _ _ _).trans (countO_pending _ _ _))
    | aged => exact (atomReply_pending _ _ _ _ _ _ _).trans ((raiseO_pending _ _ _ _ _ _ _).trans (countO_pending _ _ _))
    | hit a b => exact (atomReply_pending _ _ _ _ _ _ _).trans (countO_pending _ _ _)
@[simp] theorem atomDrain_pending (x1 : Side) (x2 : Nat) (s : State) : (atomDrain x1 x2 s).pending = s.pending := by
  induction x2 generalizing s with
  | zero => rfl
  | succ n ih =>
    rw [atomDrain]
    split
    · rfl
    · rw [ih, atomStart_pending, setOeb_pending]
@[simp] theorem atomArrive_pending (x1 : Side) (x2 : Packet) (x3 : Nat) (x4 : Option Nat) (s : State) : (atomArrive x1 x2 x3 x4 s).pending = s.pending := by simp [atomArrive]
@[simp] theorem jrnlWrite_pending (x1 : Side) (x2 : Header) (x3 : Nat) (x4 : List Byte) (s : State) : (jrnlWrite x1 x2 x3 x4 s).pending = s.pending := by unfold jrnlWrite; dsimp only; (repeat' split) <;> simp [apply_ite State.pending]
@[simp] theorem atomPerform_pending (x1 : Side) (x2 : Packet) (x3 : Nat) (x4 : Option Nat) (x5 : Nat) (x6 : List Byte) (s : State) : (atomPerform x1 x2 x3 x4 x5 x6 s).pending = s.pending := by unfold atomPerform; dsimp only; (repeat' split) <;> simp [apply_ite State.pending]
@[simp] theorem arspFail_pending (x1 : Side) (x2 : Aop) (x3 : Areq) (x4 : Nat) (s : State) : (arspFail x1 x2 x3 x4 s).pending = s.pending := by simp [arspFail]
@[simp] theorem partFabric_pending (x1 : Side) (x2 : Join) (x3 : Req) (x4 : Leaf) (x5 : Nat) (s : State) : (partFabric x1 x2 x3 x4 x5 s).pending = s.pending := by unfold partFabric; dsimp only; (repeat' split) <;> simp [apply_ite State.pending]
@[simp] theorem joinPartition_pending (x1 : Side) (x2 : Nat) (x3 : Nat) (s : State) : (joinPartition x1 x2 x3 s).pending = s.pending := by simp [joinPartition]
@[simp] theorem partXlat_pending (x1 : Side) (x2 : Req) (x3 : XAns) (s : State) : (partXlat x1 x2 x3 s).pending = s.pending := by unfold partXlat; (repeat' split) <;> simp_all
@[simp] theorem xlatFault_pending (x1 : Side) (x2 : Nat) (x3 : Nat) (x4 : Nat) (x5 : Nat) (s : State) : (xlatFault x1 x2 x3 x4 x5 s).pending = s.pending := by simp [xlatFault, apply_ite State.pending]
@[simp] theorem installL2_pending (x1 : Side) (x2 : Nat) (x3 : Nat) (x4 : TlbEnt) (s : State) : (installL2 x1 x2 x3 x4 s).pending = s.pending := by simp [installL2]
@[simp] theorem installL1_pending (x1 : Side) (x2 : Nat) (x3 : TlbEnt) (s : State) : (installL1 x1 x2 x3 s).pending = s.pending := by simp [installL1]
theorem tlbLookup_pending {x1 : Side} {x2 : Nat} {x3 : Nat} {x4 : Nat} {s : State} {a : Option Leaf} {t : State} (h : tlbLookup x1 x2 x3 x4 s = (a, t)) : t.pending = s.pending := by
  unfold tlbLookup at h
  dsimp only at h
  split at h
  · injection h with _ h
    subst h
    exact installL1_pending _ _ _ _
  · split at h
    · injection h with _ h
      subst h
      rw [installL1_pending, installL2_pending]
    · injection h with _ h
      rw [h]
@[simp] theorem tlbLookup_snd_pending (x1 : Side) (x2 : Nat) (x3 : Nat) (x4 : Nat) (s : State) : (tlbLookup x1 x2 x3 x4 s).2.pending = s.pending := tlbLookup_pending (Eq.refl _)
@[simp] theorem dropPage_pending (x1 : Side) (x2 : Nat) (x3 : Nat) (s : State) : (dropPage x1 x2 x3 s).pending = s.pending := by simp [dropPage]
@[simp] theorem missIn_pending (x1 : Side) (x2 : Nat) (x3 : XMiss) (s : State) : (missIn x1 x2 x3 s).pending = s.pending := by simp [missIn, apply_ite State.pending]
theorem lookUp_pending {x1 : Side} {x2 : XMiss} {s : State} {a : XAns} {t : State} (h : lookUp x1 x2 s = (a, t)) : t.pending = s.pending := by
  unfold lookUp at h
  dsimp only at h
  refine ite_cases (fun h => ?_) (ite_cases (fun h => ?_) fun h => ?_) h
  · rw [← (Prod.mk.inj h).2]
    exact xlatFault_pending _ _ _ _ _ _
  · rw [← (Prod.mk.inj h).2]
    exact xlatFault_pending _ _ _ _ _ _
  · split at h
    · next q =>
      have e1 := tlbLookup_pending q
      refine ite_cases (fun h => ?_) (fun h => ?_) h
      · rw [← (Prod.mk.inj h).2]
        exact e1
      · rw [← (Prod.mk.inj h).2]
        exact (xlatFault_pending _ _ _ _ _ _).trans ((dropPage_pending _ _ _ _).trans e1)
    · next q =>
      rw [← (Prod.mk.inj h).2]
      exact (missIn_pending _ _ _ _).trans (tlbLookup_pending q)
@[simp] theorem lookUp_snd_pending (x1 : Side) (x2 : XMiss) (s : State) : (lookUp x1 x2 s).2.pending = s.pending := lookUp_pending (Eq.refl _)
theorem translate_pending {x1 : Side} {x2 : XMiss} {s : State} {a : XAns} {t : State} (h : translate x1 x2 s = (a, t)) : t.pending = s.pending := by
  unfold translate at h
  refine ite_cases (fun h => ?_) (fun h => lookUp_pending h) h
  rw [← (Prod.mk.inj h).2]
  exact modOeb_pending _ _ _
@[simp] theorem translate_snd_pending (x1 : Side) (x2 : XMiss) (s : State) : (translate x1 x2 s).2.pending = s.pending := translate_pending (Eq.refl _)
@[simp] theorem partMake_pending (x1 : Side) (x2 : Join) (x3 : Nat) (x4 : Nat) (s : State) : (partMake x1 x2 x3 x4 s).pending = s.pending := by simp [partMake]
@[simp] theorem attach_pending (x1 : Side) (x2 : Aop) (x3 : Areq) (s : State) : (attach x1 x2 x3 s).pending = s.pending := by
  unfold attach
  refine areqGate_pending _ _ _ _ _ _ (fun st t => arspFail_pending _ _ _ _ _) fun t => ?_
  dsimp only
  split
  · split
    · rw [joinEnd_pending, modOeb_pending]
      exact freshId_pending (Prod.eta _).symm
    · split
      · rw [joinEnd_pending, countO_pending, modOeb_pending]
        exact freshId_pending (Prod.eta _).symm
      · split
        · rw [joinEnd_pending, countO_pending, modOeb_pending]
          exact freshId_pending (Prod.eta _).symm
        · refine (foldl_pending _ _ _ fun t a => partMake_pending _ _ _ _ _).trans ?_
          rw [modOeb_pending]
          exact freshId_pending (Prod.eta _).symm
  · refine (foldl_pending _ _ _ fun t a => partMake_pending _ _ _ _ _).trans ?_
    rw [modOeb_pending]
    exact freshId_pending (Prod.eta _).symm
@[simp] theorem contribSend_pending (x1 : Side) (x2 : Join) (s : State) : (contribSend x1 x2 s).pending = s.pending := by unfold contribSend; dsimp only; (repeat' split) <;> simp [apply_ite State.pending]
@[simp] theorem contribRead_pending (x1 : Side) (x2 : Nat) (x3 : Nat) (x4 : Nat) (x5 : List Byte) (s : State) : (contribRead x1 x2 x3 x4 x5 s).pending = s.pending := by unfold contribRead; dsimp only; (repeat' split) <;> simp [apply_ite State.pending]
@[simp] theorem fenceEnd_pending (x1 : Side) (x2 : Fence) (x3 : Nat) (s : State) : (fenceEnd x1 x2 x3 s).pending = s.pending := by simp [fenceEnd, apply_ite State.pending]
@[simp] theorem fenceComplete_pending (x1 : Nat) (x2 : Nat) (s : State) : (fenceComplete x1 x2 s).pending = s.pending := by unfold fenceComplete; dsimp only; (repeat' split) <;> simp [apply_ite State.pending]
@[simp] theorem fenceSys_pending (x1 : Side) (x2 : Areq) (s : State) : (fenceSys x1 x2 s).pending = s.pending := by simp [fenceSys]
@[simp] theorem lcAccess_pending (x1 : Side) (x2 : Areq) (x3 : Nat → State → State) (s : State) (h3 : ∀ a0 t, (x3 a0 t).pending = t.pending) : (lcAccess x1 x2 x3 s).pending = s.pending := by simp only [lcAccess]; (repeat' split) <;> simp_all
@[simp] theorem lcRd_pending (x1 : Side) (x2 : Areq) (s : State) : (lcRd x1 x2 s).pending = s.pending := by simp [lcRd]
@[simp] theorem lcTest_pending (x1 : Side) (x2 : Nat) (s : State) : (lcTest x1 x2 s).pending = s.pending := by simp [lcTest]
@[simp] theorem lcWait_pending (x1 : Side) (x2 : Areq) (s : State) : (lcWait x1 x2 s).pending = s.pending := by simp [lcWait]
@[simp] theorem lcWr_pending (x1 : Side) (x2 : Areq) (s : State) : (lcWr x1 x2 s).pending = s.pending := by simp [lcWr, apply_ite State.pending]
@[simp] theorem waitTimeout_pending (x1 : Side) (x2 : Bool) (x3 : Nat) (x4 : Nat) (s : State) : (waitTimeout x1 x2 x3 x4 s).pending = s.pending := by unfold waitTimeout; dsimp only; (repeat' split) <;> simp [apply_ite State.pending]
@[simp] theorem windowSet_pending (x1 : Side) (x2 : Nat) (x3 : Nat) (s : State) : (windowSet x1 x2 x3 s).pending = s.pending := by simp [windowSet]
@[simp] theorem sendFrame_pending (x1 : Nat) (x2 : Nat) (x3 : Nat) (x4 : List Byte) (s : State) : (sendFrame x1 x2 x3 x4 s).pending = s.pending := by simp [sendFrame, apply_ite State.pending]
@[simp] theorem sendCpl_pending (x1 : List Byte) (s : State) : (sendCpl x1 s).pending = s.pending := by simp [sendCpl, apply_ite State.pending]
@[simp] theorem passFrame_pending (x1 : Nat) (x2 : List Byte) (s : State) : (passFrame x1 x2 s).pending = s.pending := by simp [passFrame, apply_ite State.pending]
theorem frameArrives_pending {x1 : Nat} {x2 : List Byte} {s : State} {a : FrameFate} {t : State} (h : frameArrives x1 x2 s = (a, t)) : t.pending = s.pending := by
  unfold frameArrives at h
  split at h
  · injection h with _ h
    rw [h]
  · dsimp only at h
    split at h
    · injection h with _ h
      subst h
      exact setChainLink_pending _ _ _
    · split at h
      · injection h with _ h
        subst h
        exact setChainLink_pending _ _ _
      · split at h <;> (injection h with _ h; subst h; exact setChainLink_pending _ _ _)
@[simp] theorem frameArrives_snd_pending (x1 : Nat) (x2 : List Byte) (s : State) : (frameArrives x1 x2 s).2.pending = s.pending := frameArrives_pending (Eq.refl _)
@[simp] theorem onFrame_pending (x1 : Nat) (x2 : List Byte) (x3 : State → State) (s : State) (h3 : ∀ t, (x3 t).pending = t.pending) : (onFrame x1 x2 x3 s).pending = s.pending := by unfold onFrame; repeat' (first | (first | rfl | (simp [*]; done) | (have e := frameArrives_pending ‹_›; simp [*]; done)) | split | (refine (foldl_pending _ _ _ (fun _ _ => ?_)).trans ?_) | (simp only [apply_ite State.pending, *]))
@[simp] theorem recordStart_pending (x1 : Nat) (x2 : Nat) (x3 : Nat) (x4 : Nat) (x5 : Nat) (s : State) : (recordStart x1 x2 x3 x4 x5 s).pending = s.pending := by simp [recordStart]
@[simp] theorem putStop_pending (x1 : Nat) (x2 : Bool) (s : State) : (putStop x1 x2 s).pending = s.pending := by simp [putStop]
@[simp] theorem setStop_pending (x1 : Nat) (x2 : Nat) (x3 : Nat) (x4 : Nat) (x5 : Nat) (x6 : Nat) (x7 : Bool) (s : State) : (setStop x1 x2 x3 x4 x5 x6 x7 s).pending = s.pending := by unfold setStop; dsimp only; (repeat' split) <;> simp [apply_ite State.pending]
@[simp] theorem calmFrameRx_pending (x1 : Nat) (x2 : List Byte) (s : State) : (calmFrameRx x1 x2 s).pending = s.pending := by simp [calmFrameRx, apply_ite State.pending]
@[simp] theorem chainResend_pending (x1 : Nat) (s : State) : (chainResend x1 s).pending = s.pending := by unfold chainResend; repeat' (first | (first | rfl | (simp [*]; done)) | split | (refine (foldl_pending _ _ _ (fun _ _ => ?_)).trans ?_) | (simp only [apply_ite State.pending, *]))
@[simp] theorem sendDelay_pending (x1 : Nat) (x2 : Nat) (x3 : Nat) (x4 : Nat) (s : State) : (sendDelay x1 x2 x3 x4 s).pending = s.pending := by simp [sendDelay]
@[simp] theorem delayRx_pending (x1 : Nat) (x2 : List Byte) (x3 : Nat) (s : State) : (delayRx x1 x2 x3 s).pending = s.pending := by
  unfold delayRx
  split
  · next e => exact frameArrives_pending e
  · next e =>
    have e1 := frameArrives_pending e
    refine ite_pending e1 ?_
    have e2 : ∀ l, (setChainLink x1 l _).pending = s.pending := fun l => (setChainLink_pending _ _ _).trans e1
    exact ite_pending ((sx_pending _ _ _ _).trans (ite_pending ((sendDelay_pending _ _ _ _ _).trans (e2 _)) (e2 _)))
      (ite_pending ((sendDelay_pending _ _ _ _ _).trans (e2 _)) (e2 _))
@[simp] theorem takePos_pending (x1 : Nat) (x2 : Bool) (s : State) : (takePos x1 x2 s).pending = s.pending := by simp [takePos, apply_ite State.pending]
@[simp] theorem enumRx_pending (x1 : List Byte) (s : State) : (enumRx x1 s).pending = s.pending := by unfold enumRx; repeat' (first | (first | rfl | (simp [*]; done) | (have e := frameArrives_pending ‹_›; simp [*]; done)) | split | (refine (foldl_pending _ _ _ (fun _ _ => ?_)).trans ?_) | (simp only [apply_ite State.pending, *]))
@[simp] theorem eventFrameRx_pending (x1 : Nat) (x2 : List Byte) (s : State) : (eventFrameRx x1 x2 s).pending = s.pending := by simp [eventFrameRx, apply_ite State.pending]
@[simp] theorem headTimeout_pending (s : State) : (headTimeout s).pending = s.pending := by simp [headTimeout, apply_ite State.pending]
@[simp] theorem linkLost_pending (x1 : Nat) (s : State) : (linkLost x1 s).pending = s.pending := by simp [linkLost]
@[simp] theorem sendBoth_pending (x1 : Nat) (x2 : Nat) (x3 : List Byte) (s : State) : (sendBoth x1 x2 x3 s).pending = s.pending := by simp [sendBoth]
@[simp] theorem sendTo_pending (x1 : Nat) (x2 : Nat) (x3 : List Byte) (s : State) : (sendTo x1 x2 x3 s).pending = s.pending := by simp [sendTo]
@[simp] theorem startCalm_pending (x1 : Nat) (x2 : Nat) (x3 : Nat) (x4 : Nat) (x5 : Nat) (x6 : Bool) (s : State) : (startCalm x1 x2 x3 x4 x5 x6 s).pending = s.pending := by simp [startCalm, apply_ite State.pending]
@[simp] theorem setSigner_pending (x1 : Nat) (x2 : Signer) (s : State) : (setSigner x1 x2 s).pending = s.pending := by simp [setSigner]
@[simp] theorem revokeSigner_pending (x1 : Nat) (s : State) : (revokeSigner x1 s).pending = s.pending := by unfold revokeSigner; split <;> simp_all
@[simp] theorem dropImage_pending (x1 : Nat) (x2 : Nat) (s : State) : (dropImage x1 x2 s).pending = s.pending := by unfold dropImage; repeat' (first | (first | rfl | (simp [*]; done)) | split | (refine (foldl_pending _ _ _ (fun _ _ => ?_)).trans ?_) | (simp only [apply_ite State.pending, *]))
@[simp] theorem projectReady_pending (x1 : Bool) (s : State) : (projectReady x1 s).pending = s.pending := by simp [projectReady]
@[simp] theorem expelLists_pending (x1 : Nat) (x2 : List Byte) (s : State) : (expelLists x1 x2 s).pending = s.pending := by simp [expelLists]
@[simp] theorem storeProfile_pending (x1 : Nat) (x2 : List Byte) (s : State) : (storeProfile x1 x2 s).pending = s.pending := by simp [storeProfile]
@[simp] theorem storeImage_pending (x1 : Nat) (x2 : List Byte) (s : State) : (storeImage x1 x2 s).pending = s.pending := by unfold storeImage; repeat' (first | (first | rfl | (simp [*]; done)) | split | (refine (foldl_pending _ _ _ (fun _ _ => ?_)).trans ?_) | (simp only [apply_ite State.pending, *]))
@[simp] theorem projectCmd_pending (x1 : PCmd) (s : State) : (projectCmd x1 s).pending = s.pending := by unfold projectCmd; split <;> simp_all
@[simp] theorem regWrite_pending (x1 : UnitId) (x2 : Reg) (x3 : Nat) (x4 : Nat) (x5 : Nat) (s : State) : (regWrite x1 x2 x3 x4 x5 s).pending = s.pending := by simp [regWrite]
@[simp] theorem rawWrites_pending (x1 : List RegWr) (s : State) : (rawWrites x1 s).pending = s.pending := by simp [rawWrites]
@[simp] theorem withWaiting_pending (s : State) : (withWaiting s).pending = s.pending := by simp [withWaiting]
@[simp] theorem withLayout_pending (x1 : List Byte) (s : State) : (withLayout x1 s).pending = s.pending := by simp [withLayout]
@[simp] theorem refreshPart_pending (x1 : Nat) (s : State) : (refreshPart x1 s).pending = s.pending := by simp [refreshPart]
@[simp] theorem resetSeqs_pending (x1 : UnitId) (x2 : Nat) (s : State) : (resetSeqs x1 x2 s).pending = s.pending := by simp [resetSeqs]
@[simp] theorem eraseSlot_pending (x1 : UnitId) (x2 : Nat) (s : State) : (eraseSlot x1 x2 s).pending = s.pending := by unfold eraseSlot; dsimp only; (repeat' split) <;> simp [apply_ite State.pending]
@[simp] theorem eraseSlots_pending (x1 : UnitId) (x2 : Nat → Bool) (s : State) : (eraseSlots x1 x2 s).pending = s.pending := by simp [eraseSlots]
@[simp] theorem partAfter_pending (x1 : List RegWr) (x2 : State) (x3 : State) (s : State) : (partAfter x1 x2 x3 s).pending = s.pending := by simp [partAfter]
@[simp] theorem projectWrites_pending (x1 : List RegWr) (s : State) : (projectWrites x1 s).pending = s.pending := by simp [projectWrites]
@[simp] theorem projectProg_pending (x1 : Prog) (s : State) : (projectProg x1 s).pending = s.pending := by unfold projectProg; repeat' (first | (first | rfl | (simp [*]; done)) | split | (refine (foldl_pending _ _ _ (fun _ _ => ?_)).trans ?_) | (simp only [apply_ite State.pending, *]))
@[simp] theorem projectPending_pending (x1 : List Prog) (s : State) : (projectPending x1 s).pending = s.pending := by simp [projectPending]
@[simp] theorem stateAtWord_pending (x1 : Prog) (x2 : List Prog) (s : State) (x4 : Nat) : (stateAtWord x1 x2 s x4).pending = s.pending := by simp [stateAtWord]
@[simp] theorem deadlineAfter_pending (x1 : List RegWr) (s : State) : (deadlineAfter x1 s).pending = s.pending := by simp [deadlineAfter, apply_ite State.pending]
@[simp] theorem setDone_pending (x1 : Nat) (x2 : ChunkId) (s : State) : (setDone x1 x2 s).pending = s.pending := by simp [setDone, apply_ite State.pending]
theorem takeSeq_pending {x1 : UnitId} {x2 : Nat} {x3 : Nat} {s : State} {a : Nat} {t : State} (h : takeSeq x1 x2 x3 s = some (a, t)) : t.pending = s.pending := by unfold takeSeq at h; (repeat' split at h) <;> first | (injection h with h; subst h; (first | rfl | (simp [*]; done)); done) | (simp at h; done) | (simp at h; obtain ⟨rfl, rfl⟩ := h; (first | rfl | (simp [*]; done)); done) | (simp at h; subst h; (first | rfl | (simp [*]; done)); done) | (simp at h; obtain ⟨_, rfl, rfl⟩ := h; (first | rfl | (simp [*]; done)); done)
theorem sealPacket_pending {x1 : UnitId} {x2 : Nat} {x3 : Nat} {x4 : Nat} {x5 : Header} {x6 : List Byte} {s : State} {a : Packet} {t : State} (h : sealPacket x1 x2 x3 x4 x5 x6 s = some (a, t)) : t.pending = s.pending := by
  unfold sealPacket at h
  dsimp only at h
  split at h
  · cases h
  · split at h
    · next e =>
      injection h with h
      injection h with _ h
      subst h
      exact takeSeq_pending e
    · cases h
theorem lunaSeal_pending {x1 : Nat} {x2 : Nat} {x3 : Header} {x4 : List Byte} {s : State} {a : Packet} {t : State} (h : lunaSeal x1 x2 x3 x4 s = some (a, t)) : t.pending = s.pending := by
  unfold lunaSeal at h
  split at h
  · exact sealPacket_pending h
  · cases h
theorem formRed_pending {x1 : Nat} {x2 : Header} {x3 : List Byte} {s : State} {a : Packet} {t : State} (h : formRed x1 x2 x3 s = some (a, t)) : t.pending = s.pending := by
  unfold formRed at h
  split at h
  · exact lunaSeal_pending h
  · injection h with h
    injection h with _ h
    rw [h]
@[simp] theorem movePtr_pending (x1 : Nat) (x2 : Nat) (x3 : Nat) (s : State) : (movePtr x1 x2 x3 s).pending = s.pending := by simp [movePtr]
theorem choose_pending {x1 : Held} {s : State} {a : Target} {t : State} (h : choose x1 s = (a, t)) : t.pending = s.pending := by unfold choose at h; (repeat' split at h) <;> first | (injection h with h; subst h; (first | rfl | (simp [*]; done)); done) | (simp at h; done) | (simp at h; obtain ⟨rfl, rfl⟩ := h; (first | rfl | (simp [*]; done)); done) | (simp at h; subst h; (first | rfl | (simp [*]; done)); done) | (simp at h; obtain ⟨_, rfl, rfl⟩ := h; (first | rfl | (simp [*]; done)); done)
@[simp] theorem choose_snd_pending (x1 : Held) (s : State) : (choose x1 s).2.pending = s.pending := choose_pending (Eq.refl _)
@[simp] theorem noRouteTraces_pending (x1 : Nat) (x2 : Header) (s : State) : (noRouteTraces x1 x2 s).pending = s.pending := by simp [noRouteTraces]
theorem bankSpace_pending {x1 : Target} {x2 : Header} {s : State} {t : State} {a : Charge} (h : bankSpace x1 x2 s = some (t, a)) : t.pending = s.pending := by unfold bankSpace at h; (repeat' split at h) <;> first | (injection h with h; subst h; (first | rfl | (simp [*]; done)); done) | (simp at h; done) | (simp at h; obtain ⟨rfl, rfl⟩ := h; (first | rfl | (simp [*]; done)); done) | (simp at h; subst h; (first | rfl | (simp [*]; done)); done) | (simp at h; obtain ⟨_, rfl, rfl⟩ := h; (first | rfl | (simp [*]; done)); done)
@[simp] theorem setGrant_pending (x1 : Nat) (x2 : Nat) (x3 : Nat) (s : State) : (setGrant x1 x2 x3 s).pending = s.pending := by simp [setGrant]
@[simp] theorem setReserve_pending (x1 : Nat) (x2 : Nat) (s : State) : (setReserve x1 x2 s).pending = s.pending := by simp [setReserve, apply_ite State.pending]
theorem chargeVc_pending {x1 : Nat} {x2 : Nat} {s : State} {t : State} {a : Charge} (h : chargeVc x1 x2 s = some (t, a)) : t.pending = s.pending := by unfold chargeVc at h; (repeat' split at h) <;> first | (injection h with h; subst h; (first | rfl | (simp [*]; done)); done) | (simp at h; done) | (simp at h; obtain ⟨rfl, rfl⟩ := h; (first | rfl | (simp [*]; done)); done) | (simp at h; subst h; (first | rfl | (simp [*]; done)); done) | (simp at h; obtain ⟨_, rfl, rfl⟩ := h; (first | rfl | (simp [*]; done)); done)
theorem chargeCells_pending {x1 : Nat} {x2 : Header} {x3 : Nat} {x4 : Option Charge} {s : State} {t : State} {a : Charge} (h : chargeCells x1 x2 x3 x4 s = some (t, a)) : t.pending = s.pending := by
  unfold chargeCells at h
  dsimp only at h
  split at h
  · simp at h
    obtain ⟨rfl, _⟩ := h
    rfl
  · split at h
    · split at h
      · simp at h
        obtain ⟨rfl, _⟩ := h
        simp
      · cases h
    · split at h
      · split at h
        · simp at h
          obtain ⟨rfl, _⟩ := h
          rfl
        · exact chargeVc_pending h
      · exact chargeVc_pending h
@[simp] theorem setComing_pending (x1 : Nat) (x2 : Nat) (s : State) : (setComing x1 x2 s).pending = s.pending := by simp [setComing]
@[simp] theorem noteComing_pending (x1 : Target) (x2 : Header) (s : State) : (noteComing x1 x2 s).pending = s.pending := by unfold noteComing; dsimp only; (repeat' split) <;> simp [apply_ite State.pending]
@[simp] theorem setQueue_pending (x1 : Nat) (x2 : Nat) (x3 : List Copy) (s : State) : (setQueue x1 x2 x3 s).pending = s.pending := by simp [setQueue]
@[simp] theorem cmapMax_pending (x1 : Fld) (x2 : Nat) (x3 : Nat) (s : State) : (cmapMax x1 x2 x3 s).pending = s.pending := by simp [cmapMax, apply_ite State.pending]
@[simp] theorem cmapPeak_pending (x1 : Nat) (x2 : Nat) (s : State) : (cmapPeak x1 x2 s).pending = s.pending := by simp [cmapPeak, apply_ite State.pending]
@[simp] theorem enqueue_pending (x1 : Nat) (x2 : Nat) (x3 : Copy) (s : State) : (enqueue x1 x2 x3 s).pending = s.pending := by simp [enqueue]
@[simp] theorem mcCopy_pending (x1 : Entry) (x2 : Nat) (x3 : Nat) (x4 : Nat) (s : State) : (mcCopy x1 x2 x3 x4 s).pending = s.pending := by simp [mcCopy]
@[simp] theorem countAdmit_pending (x1 : Header) (x2 : Nat) (s : State) : (countAdmit x1 x2 s).pending = s.pending := by simp [countAdmit, apply_ite State.pending]
@[simp] theorem mcgDenyTraces_pending (x1 : Nat) (x2 : Header) (x3 : Nat) (s : State) : (mcgDenyTraces x1 x2 x3 s).pending = s.pending := by simp [mcgDenyTraces]
theorem mcMembers_pending {x1 : Entry} {x2 : Header} {x3 : Nat} {x4 : List (Nat × Bool)} {s : State} {a : List Nat} {t : State} (h : mcMembers x1 x2 x3 x4 s = (a, t)) : t.pending = s.pending := by
  refine (congrArg (fun x : List Nat × State => x.2.pending) h).symm.trans ?_
  unfold mcMembers
  refine foldl_snd_pending _ _ _ fun acc m => ?_
  split
  · exact countN_pending _ _ _ _ _
  · split
    · exact mcgDenyTraces_pending _ _ _ _
    · rfl
@[simp] theorem mcMembers_snd_pending (x1 : Entry) (x2 : Header) (x3 : Nat) (x4 : List (Nat × Bool)) (s : State) : (mcMembers x1 x2 x3 x4 s).2.pending = s.pending := mcMembers_pending (Eq.refl _)
@[simp] theorem setBuf_pending (x1 : BufPkt) (s : State) : (setBuf x1 s).pending = s.pending := by simp [setBuf]
@[simp] theorem sramUncorrectable_pending (x1 : Nat) (x2 : Nat) (x3 : Nat) (s : State) : (sramUncorrectable x1 x2 x3 s).pending = s.pending := by simp [sramUncorrectable]
@[simp] theorem sramCorrected_pending (x1 : Nat) (x2 : Nat) (x3 : Nat) (s : State) : (sramCorrected x1 x2 x3 s).pending = s.pending := by simp [sramCorrected]
theorem readCell_pending {x1 : BufPkt} {x2 : Nat} {x3 : SramRead} {s : State} {a : BufPkt} {t : State} (h : readCell x1 x2 x3 s = (a, t)) : t.pending = s.pending := by
  unfold readCell at h
  dsimp only at h
  split at h <;> rw [← (Prod.mk.inj h).2]
  · exact sramCorrected_pending _ _ _ _
  · exact (countP_pending _ _ _).trans ((countD_pending _ _ _).trans ((sramUncorrectable_pending _ _ _ _).trans (setBuf_pending _ _)))
@[simp] theorem readCell_snd_pending (x1 : BufPkt) (x2 : Nat) (x3 : SramRead) (s : State) : (readCell x1 x2 x3 s).2.pending = s.pending := readCell_pending (Eq.refl _)
@[simp] theorem setUsed_pending (x1 : Nat) (x2 : Nat) (s : State) : (setUsed x1 x2 s).pending = s.pending := by simp [setUsed]
@[simp] theorem serveGrant_pending (x1 : Nat × Nat) (s : State) : (serveGrant x1 s).pending = s.pending := by simp [serveGrant, apply_ite State.pending]
@[simp] theorem serveAccountant_pending (x1 : Nat) (s : State) : (serveAccountant x1 s).pending = s.pending := by simp [serveAccountant]
@[simp] theorem serveGrants_pending (x1 : Nat) (s : State) : (serveGrants x1 s).pending = s.pending := by simp [serveGrants]
@[simp] theorem returnPart_pending (x1 : Nat) (x2 : Nat) (s : State) : (returnPart x1 x2 s).pending = s.pending := by simp [returnPart]
@[simp] theorem uncharge_pending (x1 : Charge) (x2 : Nat) (s : State) : (uncharge x1 x2 s).pending = s.pending := by unfold uncharge; dsimp only; (repeat' split) <;> simp [apply_ite State.pending]
@[simp] theorem freeTrackBut_pending (x1 : Nat × Nat) (x2 : Track) (s : State) : (freeTrackBut x1 x2 s).pending = s.pending := by simp [freeTrackBut]
@[simp] theorem freeTrack_pending (x1 : Track) (s : State) : (freeTrack x1 s).pending = s.pending := by simp [freeTrack]
@[simp] theorem ctlArrives_pending (x1 : Packet) (x2 : Bool) (s : State) : (ctlArrives x1 x2 s).pending = s.pending := by simp [ctlArrives]
@[simp] theorem delivered_pending (x1 : Dest) (x2 : Packet) (x3 : Bool) (s : State) : (delivered x1 x2 x3 s).pending = s.pending := by
  unfold delivered
  dsimp only
  have e0 : (if (decide (x1 = .monarch) && decide (x2.hdr.opcode.toNat = opCTL)) = true then ctlArrives x2 x3 s else s).pending = s.pending :=
    ite_pending (ctlArrives_pending _ _ _) rfl
  generalize (if (decide (x1 = .monarch) && decide (x2.hdr.opcode.toNat = opCTL)) = true then ctlArrives x2 x3 s else s : State) = s1 at e0 ⊢
  repeat' (first | exact e0 | (refine ite_pending ?_ e0) | exact (freeTrack_pending _ _).trans e0 | split)
@[simp] theorem copyDone_pending (x1 : Nat) (s : State) : (copyDone x1 s).pending = s.pending := by unfold copyDone; dsimp only; (repeat' split) <;> simp [apply_ite State.pending]
@[simp] theorem handOver_pending (x1 : Nat) (x2 : List (Nat × SramRead)) (s : State) : (handOver x1 x2 s).pending = s.pending := by
  unfold handOver
  split
  · rfl
  · next b _ =>
    split
    · rfl
    · split
      · rfl
      · have e : ∀ (l : List (Nat × SramRead)) (a : BufPkt × State),
            (l.foldl (fun (a : BufPkt × State) r => readCell a.1 r.1 r.2 a.2) a).2.pending = a.2.pending := fun l a =>
          foldl_snd_pending _ _ _ fun x c => readCell_snd_pending _ _ _ _
        exact (delivered_pending _ _ _ _).trans ((copyDone_pending _ _).trans ((emit_pending _ _).trans (e x2 (b, s))))
@[simp] theorem sendToDie_pending (x1 : Dest) (x2 : Packet) (x3 : Tail) (x4 : Nat) (s : State) : (sendToDie x1 x2 x3 x4 s).pending = s.pending := by unfold sendToDie; (repeat' split) <;> simp_all
@[simp] theorem tailMark_pending (x1 : Entry) (x2 : Nat) (x3 : Nat) (s : State) : (tailMark x1 x2 x3 s).pending = s.pending := by unfold tailMark; dsimp only; (repeat' split) <;> simp [apply_ite State.pending]
theorem mend_pending {x1 : Entry} {x2 : Packet} {x3 : Tail} {s : State} {a : Packet} {c : Tail} {t : State} (h : mend x1 x2 x3 s = (a, c, t)) : t.pending = s.pending := by
  unfold mend at h
  refine ite_cases (fun h => ?_) (fun h => ?_) h
  · rw [← (Prod.mk.inj (Prod.mk.inj h).2).2]
  · rw [← (Prod.mk.inj (Prod.mk.inj h).2).2]
    exact tailMark_pending _ _ _ _
@[simp] theorem mend_snd_pending (x1 : Entry) (x2 : Packet) (x3 : Tail) (s : State) : (mend x1 x2 x3 s).2.2.pending = s.pending := mend_pending (Eq.refl _)
@[simp] theorem store_pending (x1 : Entry) (x2 : Packet) (x3 : Tail) (x4 : List Nat) (x5 : Charge) (x6 : Nat) (x7 : List Nat) (x8 : Option Dest) (s : State) : (store x1 x2 x3 x4 x5 x6 x7 x8 s).pending = s.pending := by simp [store]
@[simp] theorem echoForm_pending (x1 : Nat) (x2 : Nat) (x3 : Nat) (x4 : Nat) (s : State) : (echoForm x1 x2 x3 x4 s).pending = s.pending := by simp [echoForm, apply_ite State.pending]
@[simp] theorem cmapAdd_pending (x1 : Fld) (x2 : Nat) (s : State) : (cmapAdd x1 x2 s).pending = s.pending := by simp [cmapAdd, apply_ite State.pending]
@[simp] theorem mark_pending (x1 : Entry) (x2 : Nat) (x3 : Header) (s : State) : (mark x1 x2 x3 s).pending = s.pending := by unfold mark; dsimp only; (repeat' split) <;> simp [apply_ite State.pending]
@[simp] theorem noteRsp_pending (x1 : Header) (s : State) : (noteRsp x1 s).pending = s.pending := by unfold noteRsp; dsimp only; (repeat' split) <;> simp [apply_ite State.pending]
@[simp] theorem moveStripe_pending (x1 : Nat) (x2 : Nat) (s : State) : (moveStripe x1 x2 s).pending = s.pending := by simp [moveStripe]
theorem makeTrack_pending {x1 : Entry} {x2 : Header} {x3 : Option Nat} {s : State} {t : State} (h : makeTrack x1 x2 x3 s = .ok t) : t.pending = s.pending := by unfold makeTrack at h; (repeat' split at h) <;> first | (injection h with h; subst h; (first | rfl | (simp [*]; done) | (have e := chargeVc_pending ‹_›; simp [*]; done)); done) | (simp at h; done) | (simp at h; obtain ⟨rfl, rfl⟩ := h; (first | rfl | (simp [*]; done) | (have e := chargeVc_pending ‹_›; simp [*]; done)); done) | (simp at h; subst h; (first | rfl | (simp [*]; done) | (have e := chargeVc_pending ‹_›; simp [*]; done)); done) | (simp at h; obtain ⟨_, rfl, rfl⟩ := h; (first | rfl | (simp [*]; done) | (have e := chargeVc_pending ‹_›; simp [*]; done)); done)
theorem place_pending {x1 : Held} {x2 : Target} {x3 : Charge} {s : State} {t : State} (h : place x1 x2 x3 s = .ok t) : t.pending = s.pending := by
  unfold place at h
  dsimp only at h
  split at h
  · cases h
  · next s1 e1 =>
    have e2 : (noteComing x2 x1.pkt.hdr (countAdmit x1.pkt.hdr (packetCells x1.pkt.hdr) (noteRsp x1.pkt.hdr
        (moveStripe (entryDie x1.src s) (packetCells x1.pkt.hdr) s1)))).pending = s.pending := by
      rw [noteComing_pending, countAdmit_pending, noteRsp_pending, moveStripe_pending, makeTrack_pending e1]
    generalize (noteComing x2 x1.pkt.hdr (countAdmit x1.pkt.hdr (packetCells x1.pkt.hdr) (noteRsp x1.pkt.hdr
        (moveStripe (entryDie x1.src s) (packetCells x1.pkt.hdr) s1))) : State) = s2 at e2 h
    split at h
    · rw [← Except.ok.inj h]
      have e3 := (mend_snd_pending x1.src x1.pkt x1.tail s2).trans e2
      split
      · exact (enqueue_pending _ _ _ _).trans ((store_pending _ _ _ _ _ _ _ _ _).trans ((mark_pending _ _ _ _).trans e3))
      · exact (sendToDie_pending _ _ _ _ _).trans ((store_pending _ _ _ _ _ _ _ _ _).trans e3)
    · refine ite_cases (fun h => ?_) (ite_cases (fun h => ?_) fun h => ?_) h <;> rw [← Except.ok.inj h]
      · exact (uncharge_pending _ _ _).trans ((mcMembers_snd_pending _ _ _ _ _).trans e2)
      · exact (store_pending _ _ _ _ _ _ _ _ _).trans ((mcMembers_snd_pending _ _ _ _ _).trans e2)
      · exact (foldl_pending _ _ _ fun t a => mcCopy_pending _ _ _ _ _).trans ((store_pending _ _ _ _ _ _ _ _ _).trans
          ((mend_snd_pending _ _ _ _).trans ((mcMembers_snd_pending _ _ _ _ _).trans e2)))
    · rw [← Except.ok.inj h, e2]
@[simp] theorem countHold_pending (x1 : Nat) (x2 : Held) (x3 : HoldWhy) (s : State) : (countHold x1 x2 x3 s).pending = s.pending := by unfold countHold; dsimp only; (repeat' split) <;> simp [apply_ite State.pending]
theorem holdFor_pending (x : Held) (w : HoldWhy) (s : State) : (holdFor x w s).state.pending = s.pending := by
  unfold holdFor
  split
  · rfl
  · exact countHold_pending _ _ _ _

@[simp] theorem setTokens_pending (x1 : Nat) (x2 : Nat) (x3 : Int) (s : State) : (setTokens x1 x2 x3 s).pending = s.pending := by simp [setTokens]
@[simp] theorem governed_pending (x1 : Header) (s : State) : (governed x1 s).pending = s.pending := by simp [governed, apply_ite State.pending]
theorem admitTo_pending (x : Held) (g : Target) (s : State) : (admitTo x g s).state.pending = s.pending := by
  unfold admitTo
  dsimp only
  have e1 : (if (x.shape && !x.paid) = true then setTokens (entryDie x.src s) x.pkt.hdr.part.toNat
      (tokensOf (entryDie x.src s) x.pkt.hdr.part.toNat s - packetCells x.pkt.hdr) s else s).pending = s.pending :=
    ite_pending (setTokens_pending _ _ _ _) rfl
  generalize (if (x.shape && !x.paid) = true then setTokens (entryDie x.src s) x.pkt.hdr.part.toNat
      (tokensOf (entryDie x.src s) x.pkt.hdr.part.toNat s - packetCells x.pkt.hdr) s else s) = s1 at e1 ⊢
  split
  · exact holdFor_pending _ _ _
  · have e2 : (governed x.pkt.hdr s1).pending = s.pending := (governed_pending _ _).trans e1
    split
    · exact (holdFor_pending _ _ _).trans e2
    · split
      · exact (holdFor_pending _ _ _).trans e2
      · split
        · split
          · exact (countD_pending _ _ _).trans e2
          · exact (holdFor_pending _ _ _).trans e2
        · next e =>
          have e3 : ∀ a t, chargeCells (entryDie x.src s) x.pkt.hdr (packetCells x.pkt.hdr) x.pre (governed x.pkt.hdr s1) = some (t, a) →
            t.pending = s.pending := fun a t q => (chargeCells_pending q).trans e2
          split
          · exact (holdFor_pending _ _ _).trans e2
          · next p =>
            refine (place_pending p).trans ?_
            rw [Option.or_eq_some_iff] at e
            rcases e with e | ⟨-, e⟩
            · exact e3 _ _ e
            · exact (bankSpace_pending e).trans e2

@[simp] theorem countAhead_pending (x1 : Nat) (x2 : Header) (s : State) : (countAhead x1 x2 s).pending = s.pending := by simp [countAhead, apply_ite State.pending]
@[simp] theorem agedTraces_pending (x1 : Nat) (x2 : Header) (s : State) : (agedTraces x1 x2 s).pending = s.pending := by simp [agedTraces]
theorem stage4_pending (x : Held) (g : Target) (s : State) : (stage4 x g s).state.pending = s.pending := by
  unfold stage4
  dsimp only
  split
  · exact agedTraces_pending _ _ _
  · exact (admitTo_pending _ _ _).trans (ite_pending (countAhead_pending _ _ _) rfl)

@[simp] theorem raiseNoRoute_pending (x1 : Nat) (x2 : Header) (s : State) : (raiseNoRoute x1 x2 s).pending = s.pending := by simp [raiseNoRoute]
theorem stages_pending (x : Held) (s : State) : (stages x s).state.pending = s.pending := by
  unfold stages
  dsimp only
  have e0 : (choose x s).2.pending = s.pending := choose_pending rfl
  split
  · exact (noRouteTraces_pending _ _ _).trans e0
  · exact (raiseNoRoute_pending _ _ _).trans ((countG_pending _ _).trans e0)
  · exact (raiseNoRoute_pending _ _ _).trans ((countD_pending _ _ _).trans e0)
  · split
    · exact (mcgDenyTraces_pending _ _ _ _).trans e0
    · split
      · exact (countD_pending _ _ _).trans e0
      · exact (stage4_pending _ _ _).trans e0
  · exact (stage4_pending _ _ _).trans e0

@[simp] theorem settleCredits_pending (x1 : Entry) (x2 : Nat) (s : State) : (settleCredits x1 x2 s).pending = s.pending := by unfold settleCredits; dsimp only; (repeat' split) <;> simp [apply_ite State.pending]
@[simp] theorem hold_pending (x1 : Held) (s : State) : (hold x1 s).pending = s.pending := by simp [hold]
@[simp] theorem dropRsp_pending (x1 : Held) (s : State) : (dropRsp x1 s).pending = s.pending := by unfold dropRsp; dsimp only; (repeat' split) <;> simp [apply_ite State.pending]
@[simp] theorem inject_pending (x1 : Entry) (x2 : Packet) (x3 : Option Charge) (s : State) : (inject x1 x2 x3 s).pending = s.pending := by
  unfold inject
  dsimp only
  refine ite_pending (hold_pending _ _) ?_
  have e := stages_pending { arrival x1 x2 (Tail.whole x2 false) with pre := x3 } s
  split <;> next q => (rw [q] at e; first | exact e | exact (failed_pending _ _ _).trans e | exact (dropRsp_pending _ _).trans e | exact (hold_pending _ _).trans e)
theorem takeReserved_pending {x1 : Header} {s : State} {a : Option Charge} {t : State} (h : takeReserved x1 s = (a, t)) : t.pending = s.pending := by unfold takeReserved at h; (repeat' split at h) <;> first | (injection h with h; subst h; (first | rfl | (simp [*]; done)); done) | (simp at h; done) | (simp at h; obtain ⟨rfl, rfl⟩ := h; (first | rfl | (simp [*]; done)); done) | (simp at h; subst h; (first | rfl | (simp [*]; done)); done) | (simp at h; obtain ⟨_, rfl, rfl⟩ := h; (first | rfl | (simp [*]; done)); done)
@[simp] theorem takeReserved_snd_pending (x1 : Header) (s : State) : (takeReserved x1 s).2.pending = s.pending := takeReserved_pending (Eq.refl _)
theorem answerTo_pending {x1 : Header} {x2 : Nat} {s : State} {a : Option (Packet × Option Charge)} {t : State} (h : answerTo x1 x2 s = (a, t)) : t.pending = s.pending := by unfold answerTo at h; (repeat' split at h) <;> first | (injection h with h; subst h; (first | rfl | (simp [*]; done) | (have e := takeReserved_pending ‹_›; simp [*]; done)); done) | (simp at h; done) | (simp at h; obtain ⟨rfl, rfl⟩ := h; (first | rfl | (simp [*]; done) | (have e := takeReserved_pending ‹_›; simp [*]; done)); done) | (simp at h; subst h; (first | rfl | (simp [*]; done) | (have e := takeReserved_pending ‹_›; simp [*]; done)); done) | (simp at h; obtain ⟨_, rfl, rfl⟩ := h; (first | rfl | (simp [*]; done) | (have e := takeReserved_pending ‹_›; simp [*]; done)); done)
@[simp] theorem answerTo_snd_pending (x1 : Header) (x2 : Nat) (s : State) : (answerTo x1 x2 s).2.pending = s.pending := answerTo_pending (Eq.refl _)
@[simp] theorem respond_pending (x1 : Nat) (x2 : Header) (x3 : Nat) (s : State) : (respond x1 x2 x3 s).pending = s.pending := by unfold respond; repeat' (first | (first | rfl | (simp [*]; done) | (have e := answerTo_pending ‹_›; simp [*]; done)) | split | (refine (foldl_pending _ _ _ (fun _ _ => ?_)).trans ?_) | (simp only [apply_ite State.pending, *]))
@[simp] theorem failed_pending (x1 : Held) (x2 : Nat) (s : State) : (failed x1 x2 s).pending = s.pending := by simp [failed, apply_ite State.pending]
@[simp] theorem arrive_pending (x1 : Held) (s : State) : (arrive x1 s).pending = s.pending := by
  unfold arrive
  refine ite_pending (hold_pending _ _) ?_
  have e := stages_pending x1 s
  split <;> next q => (rw [q] at e; first | exact e | exact (failed_pending _ _ _).trans e | exact (dropRsp_pending _ _).trans e | exact (hold_pending _ _).trans e)
@[simp] theorem enter_pending (x1 : Entry) (x2 : Packet) (x3 : Bool) (s : State) : (enter x1 x2 x3 s).pending = s.pending := by simp [enter]
@[simp] theorem lunaSend_pending (x1 : Nat) (x2 : Packet) (s : State) : (lunaSend x1 x2 s).pending = s.pending := by simp [lunaSend]
@[simp] theorem countU_pending (x1 : UnitId) (x2 : Ctr) (s : State) : (countU x1 x2 s).pending = s.pending := by unfold countU; split <;> simp_all
@[simp] theorem seqExhausted_pending (x1 : UnitId) (x2 : Nat) (x3 : Nat) (s : State) : (seqExhausted x1 x2 x3 s).pending = s.pending := by simp [seqExhausted, apply_ite State.pending]
@[simp] theorem lunaSealFail_pending (x1 : Nat) (x2 : Nat) (s : State) : (lunaSealFail x1 x2 s).pending = s.pending := by simp [lunaSealFail, apply_ite State.pending]
@[simp] theorem sendFailure_pending (x1 : Nat) (x2 : Nat) (x3 : ChunkId) (x4 : Nat) (x5 : Bool) (x6 : Nat) (x7 : Nat) (s : State) : (sendFailure x1 x2 x3 x4 x5 x6 x7 s).pending = s.pending := by unfold sendFailure; repeat' (first | (first | rfl | (simp [*]; done) | (have e := formRed_pending ‹_›; simp [*]; done)) | split | (refine (foldl_pending _ _ _ (fun _ _ => ?_)).trans ?_) | (simp only [apply_ite State.pending, *]))
@[simp] theorem modStep_pending (x1 : Nat) (x2 : Nat) (x3 : Nat) (x4 : LStep → LStep) (s : State) : (modStep x1 x2 x3 x4 s).pending = s.pending := by simp [modStep]
@[simp] theorem dropTasks_pending (x1 : Nat) (x2 : ChunkId) (s : State) : (dropTasks x1 x2 s).pending = s.pending := by simp [dropTasks, apply_ite State.pending]
@[simp] theorem removeChunk_pending (x1 : Nat) (x2 : ChunkId) (s : State) : (removeChunk x1 x2 s).pending = s.pending := by simp [removeChunk]
@[simp] theorem sendRecord_pending (x1 : ChunkId) (x2 : Bool) (x3 : List Nat) (x4 : List (BitVec 64)) (x5 : List Nat) (s : State) : (sendRecord x1 x2 x3 x4 x5 s).pending = s.pending := by unfold sendRecord; split <;> simp_all
@[simp] theorem failChunk_pending (x1 : Nat) (x2 : ChunkId) (x3 : Nat) (x4 : Nat) (x5 : Bool) (x6 : Nat) (x7 : Nat) (s : State) : (failChunk x1 x2 x3 x4 x5 x6 x7 s).pending = s.pending := by simp [failChunk, apply_ite State.pending]
@[simp] theorem failOpen_pending (x1 : Nat) (x2 : ChunkId) (x3 : Nat) (s : State) : (failOpen x1 x2 x3 s).pending = s.pending := by unfold failOpen; split <;> simp_all
@[simp] theorem freeCtx_pending (x1 : Nat) (x2 : Nat) (s : State) : (freeCtx x1 x2 s).pending = s.pending := by simp [freeCtx]
@[simp] theorem invalidateContext_pending (x1 : Nat) (s : State) : (invalidateContext x1 s).pending = s.pending := by simp [invalidateContext]
@[simp] theorem govAfter_pending (x1 : List RegWr) (s : State) : (govAfter x1 s).pending = s.pending := by simp [govAfter, apply_ite State.pending]
@[simp] theorem ppsArm_pending (x1 : Nat) (s : State) : (ppsArm x1 s).pending = s.pending := by simp [ppsArm]
@[simp] theorem ppsArmAll_pending (s : State) : (ppsArmAll s).pending = s.pending := by simp [ppsArmAll]
@[simp] theorem refreshReady_pending (s : State) : (refreshReady s).pending = s.pending := by
  unfold refreshReady
  have e : ∀ (c : Prop) [Decidable c] (v w : Nat), (sx START_STAT.FABRIC_READY 0 v (if c then sx START_STAT.PHASE 0 w s else s)).pending = s.pending :=
    fun c _ v w => (sx_pending _ _ _ _).trans (ite_pending (sx_pending _ _ _ _) rfl)
  have p : ∀ (t : State) (x : Power) (f : Fld) (v : Nat), (sx f 0 v ({ t with power := x } : State)).pending = t.pending :=
    fun t x f v => sx_pending _ _ _ _
  exact ite_pending ((p _ _ _ _).trans (e _ _ _)) (e _ _ _)
@[simp] theorem raiseU_pending (x1 : UnitId) (x2 : EvCode) (x3 : Bool) (x4 : List (Bool × Nat)) (s : State) : (raiseU x1 x2 x3 x4 s).pending = s.pending := by simp [raiseU]
@[simp] theorem setQual_pending (x1 : UnitId) (x2 : Nat) (s : State) : (setQual x1 x2 s).pending = s.pending := by simp [setQual, apply_ite State.pending]
@[simp] theorem setRootRate_pending (s : State) : (setRootRate s).pending = s.pending := by simp [setRootRate]
@[simp] theorem becomeRoot_pending (s : State) : (becomeRoot s).pending = s.pending := by simp [becomeRoot]
@[simp] theorem becomeFollower_pending (s : State) : (becomeFollower s).pending = s.pending := by simp [becomeFollower]
@[simp] theorem timeAfter_pending (x1 : List RegWr) (x2 : State) (x3 : State) (s : State) : (timeAfter x1 x2 x3 s).pending = s.pending := by simp [timeAfter, apply_ite State.pending]
@[simp] theorem carveAfter_pending (x1 : List RegWr) (s : State) : (carveAfter x1 s).pending = s.pending := by simp [carveAfter, apply_ite State.pending]
@[simp] theorem unhold_pending (x1 : Held) (s : State) : (unhold x1 s).pending = s.pending := by simp [unhold]
@[simp] theorem retryHeld_pending (x1 : Held) (s : State) : (retryHeld x1 s).pending = s.pending := by
  unfold retryHeld
  dsimp only
  have e := stages_pending x1 s
  split <;> next q =>
    rw [q] at e
    first
    | exact (settleCredits_pending _ _ _).trans ((unhold_pending _ _).trans e)
    | exact (settleCredits_pending _ _ _).trans ((failed_pending _ _ _).trans ((unhold_pending _ _).trans e))
    | exact (settleCredits_pending _ _ _).trans e
@[simp] theorem setLevel_pending (x1 : Nat) (x2 : Int) (s : State) : (setLevel x1 x2 s).pending = s.pending := by simp [setLevel]
@[simp] theorem dropTokens_pending (x1 : Nat) (s : State) : (dropTokens x1 s).pending = s.pending := by simp [dropTokens]
@[simp] theorem shapeOne_pending (x1 : Nat) (x2 : State) (x3 : State) (s : State) : (shapeOne x1 x2 x3 s).pending = s.pending := by simp [shapeOne, apply_ite State.pending]
@[simp] theorem shapeAfter_pending (x1 : List RegWr) (x2 : State) (x3 : State) (s : State) : (shapeAfter x1 x2 x3 s).pending = s.pending := by simp [shapeAfter]
@[simp] theorem setReqMv_pending (x1 : Nat) (s : State) : (setReqMv x1 s).pending = s.pending := by simp [setReqMv, apply_ite State.pending]
@[simp] theorem dvfsTarget_pending (s : State) : (dvfsTarget s).pending = s.pending := by simp [dvfsTarget, apply_ite State.pending]
@[simp] theorem dvfsAfter_pending (x1 : List RegWr) (x2 : State) (x3 : State) (s : State) : (dvfsAfter x1 x2 x3 s).pending = s.pending := by simp [dvfsAfter, apply_ite State.pending]
@[simp] theorem ppsAfter_pending (x1 : List RegWr) (s : State) : (ppsAfter x1 s).pending = s.pending := by
  exact foldl_pending _ _ _ fun t a => ppsArm_pending _ _
@[simp] theorem settleDomain_pending (x1 : Nat) (s : State) : (settleDomain x1 s).pending = s.pending := by simp [settleDomain, apply_ite State.pending]
@[simp] theorem wakeCluster_pending (x1 : Nat) (x2 : Nat) (s : State) : (wakeCluster x1 x2 s).pending = s.pending := by simp [wakeCluster, apply_ite State.pending]
@[simp] theorem settleCocoon_pending (s : State) : (settleCocoon s).pending = s.pending := by simp [settleCocoon, apply_ite State.pending]
@[simp] theorem cocoonAfter_pending (x1 : List RegWr) (s : State) : (cocoonAfter x1 s).pending = s.pending := by simp [cocoonAfter, apply_ite State.pending]
@[simp] theorem cwSend_pending (x1 : Nat) (x2 : Packet) (s : State) : (cwSend x1 x2 s).pending = s.pending := by simp [cwSend]
@[simp] theorem cwSnoop_pending (x1 : Nat) (x2 : Nat) (x3 : Nat) (x4 : Nat) (x5 : Nat) (s : State) : (cwSnoop x1 x2 x3 x4 x5 s).pending = s.pending := by simp [cwSnoop]
@[simp] theorem cwInvAll_pending (x1 : Nat) (x2 : Nat) (x3 : Nat) (x4 : List Nat) (s : State) : (cwInvAll x1 x2 x3 x4 s).pending = s.pending := by simp [cwInvAll]
@[simp] theorem delLine_pending (x1 : Nat) (x2 : Nat) (s : State) : (delLine x1 x2 s).pending = s.pending := by simp [delLine]
@[simp] theorem cwEvictLine_pending (x1 : Nat) (x2 : CwLine) (s : State) : (cwEvictLine x1 x2 s).pending = s.pending := by simp [cwEvictLine, apply_ite State.pending]
@[simp] theorem cwFlushBank_pending (x1 : Nat) (s : State) : (cwFlushBank x1 s).pending = s.pending := by simp [cwFlushBank, apply_ite State.pending]
@[simp] theorem setLine_pending (x1 : Nat) (x2 : CwLine) (s : State) : (setLine x1 x2 s).pending = s.pending := by simp [setLine]
@[simp] theorem cwForwardWb_pending (x1 : Nat) (x2 : CwLine) (x3 : Packet) (s : State) : (cwForwardWb x1 x2 x3 s).pending = s.pending := by simp [cwForwardWb]
@[simp] theorem cwTakeWb_pending (x1 : Nat) (x2 : Packet) (s : State) : (cwTakeWb x1 x2 s).pending = s.pending := by unfold cwTakeWb; dsimp only; (repeat' split) <;> simp [apply_ite State.pending]
@[simp] theorem cwForget_pending (s : State) : (cwForget s).pending = s.pending := by simp [cwForget]
@[simp] theorem cwDone_pending (x1 : Nat) (x2 : Header) (s : State) : (cwDone x1 x2 s).pending = s.pending := by unfold cwDone; dsimp only; (repeat' split) <;> simp [apply_ite State.pending]
@[simp] theorem cwServeI_pending (x1 : Nat) (x2 : Packet) (s : State) : (cwServeI x1 x2 s).pending = s.pending := by simp [cwServeI, apply_ite State.pending]
@[simp] theorem cwAck_pending (x1 : Nat) (x2 : Nat) (x3 : Header) (s : State) : (cwAck x1 x2 x3 s).pending = s.pending := by simp [cwAck]
@[simp] theorem cwServeS_pending (x1 : Nat) (x2 : Packet) (x3 : CwLine) (s : State) : (cwServeS x1 x2 x3 s).pending = s.pending := by simp [cwServeS, apply_ite State.pending]
@[simp] theorem cwAnswer_pending (x1 : Nat) (x2 : Header) (x3 : Nat) (s : State) : (cwAnswer x1 x2 x3 s).pending = s.pending := by simp [cwAnswer, apply_ite State.pending]
@[simp] theorem cwLostAnswer_pending (x1 : Nat) (x2 : Header) (s : State) : (cwLostAnswer x1 x2 s).pending = s.pending := by simp [cwLostAnswer]
@[simp] theorem cwServeM_pending (x1 : Nat) (x2 : Packet) (x3 : CwLine) (s : State) : (cwServeM x1 x2 x3 s).pending = s.pending := by simp [cwServeM, apply_ite State.pending]
@[simp] theorem cwDenyTraces_pending (x1 : Nat) (x2 : Header) (s : State) : (cwDenyTraces x1 x2 s).pending = s.pending := by simp [cwDenyTraces]
theorem cwTry_pending {x1 : Nat} {x2 : Packet} {s : State} {t : State} (h : cwTry x1 x2 s = some t) : t.pending = s.pending := by
  unfold cwTry at h
  dsimp only at h
  repeat' split at h
  all_goals first | (cases h; done) | (injection h with h; subst h; simp)
@[simp] theorem cwEvict_pending (x1 : Nat) (x2 : Nat) (s : State) : (cwEvict x1 x2 s).pending = s.pending := by unfold cwEvict; split <;> simp_all
@[simp] theorem cwQueue_pending (x1 : Nat) (x2 : Packet) (s : State) : (cwQueue x1 x2 s).pending = s.pending := by simp [cwQueue]
@[simp] theorem cwRetry_pending (x1 : Nat) (x2 : Packet) (s : State) : (cwRetry x1 x2 s).pending = s.pending := by unfold cwRetry; repeat' (first | (first | rfl | (simp [*]; done) | (have e := cwTry_pending ‹_›; simp [*]; done)) | split | (refine (foldl_pending _ _ _ (fun _ _ => ?_)).trans ?_) | (simp only [apply_ite State.pending, *]))
@[simp] theorem cwDrain_pending (x1 : Nat) (s : State) : (cwDrain x1 s).pending = s.pending := by simp [cwDrain]
@[simp] theorem cwDrainAll_pending (s : State) : (cwDrainAll s).pending = s.pending := by simp [cwDrainAll]
@[simp] theorem cwAfter_pending (x1 : List RegWr) (x2 : State) (x3 : State) (s : State) : (cwAfter x1 x2 x3 s).pending = s.pending := by simp [cwAfter, apply_ite State.pending]
@[simp] theorem sampleAfter_pending (x1 : List RegWr) (x2 : State) (x3 : State) (s : State) : (sampleAfter x1 x2 x3 s).pending = s.pending := by simp [sampleAfter]
@[simp] theorem cwFlushAll_pending (s : State) : (cwFlushAll s).pending = s.pending := by simp [cwFlushAll]
@[simp] theorem cwBefore_pending (x1 : List RegWr) (x2 : State) (s : State) : (cwBefore x1 x2 s).pending = x2.pending := by simp [cwBefore, apply_ite State.pending]
@[simp] theorem applyWrites_pending (x1 : List RegWr) (s : State) : (applyWrites x1 s).pending = s.pending := by simp [applyWrites, apply_ite State.pending]
@[simp] theorem deferWrites_pending (x1 : List RegWr) (s : State) : (deferWrites x1 s).pending = s.pending := by simp [deferWrites, apply_ite State.pending]
@[simp] theorem commitWrites_pending (x1 : List RegWr) (s : State) : (commitWrites x1 s).pending = s.pending := by simp [commitWrites]
@[simp] theorem clearRc_pending (x1 : CtlAt) (s : State) : (clearRc x1 s).pending = s.pending := by unfold clearRc; repeat' (first | (first | rfl | (simp [*]; done)) | split | (refine (foldl_pending _ _ _ (fun _ _ => ?_)).trans ?_) | (simp only [apply_ite State.pending, *]))
theorem ctlRead_pending {x1 : Nat} {x2 : Nat} {s : State} {a : Nat} {t : State} (h : ctlRead x1 x2 s = some (a, t)) : t.pending = s.pending := by
  unfold ctlRead at h
  split at h
  · cases h
  · injection h with h
    injection h with _ h
    rw [h]
  · dsimp only at h
    split at h
    · injection h with h
      injection h with _ h
      subst h
      exact countG_pending _ _
    · split at h
      · injection h with h
        injection h with _ h
        rw [h]
      · injection h with h
        injection h with _ h
        subst h
        exact clearRc_pending _ _
@[simp] theorem cwWbDone_pending (x1 : Nat) (x2 : CwLine) (s : State) : (cwWbDone x1 x2 s).pending = s.pending := by unfold cwWbDone; (repeat' split) <;> simp_all
@[simp] theorem cwGrant_pending (x1 : Nat) (x2 : CwLine) (x3 : Packet) (x4 : Packet) (s : State) : (cwGrant x1 x2 x3 x4 s).pending = s.pending := by simp [cwGrant, apply_ite State.pending]
@[simp] theorem cwAcked_pending (x1 : Nat) (x2 : CwLine) (s : State) : (cwAcked x1 x2 s).pending = s.pending := by unfold cwAcked; dsimp only; (repeat' split) <;> simp [apply_ite State.pending]
@[simp] theorem cwInvAck_pending (x1 : Nat) (x2 : CwLine) (x3 : Nat) (s : State) : (cwInvAck x1 x2 x3 s).pending = s.pending := by simp [cwInvAck, apply_ite State.pending]
@[simp] theorem cohAckAtBank_pending (x1 : Packet) (s : State) : (cohAckAtBank x1 s).pending = s.pending := by unfold cohAckAtBank; dsimp only; (repeat' split) <;> simp [apply_ite State.pending]
@[simp] theorem cohDataAtBank_pending (x1 : Packet) (s : State) : (cohDataAtBank x1 s).pending = s.pending := by unfold cohDataAtBank; dsimp only; (repeat' split) <;> simp [apply_ite State.pending]
@[simp] theorem cohWbAtBank_pending (x1 : Packet) (s : State) : (cohWbAtBank x1 s).pending = s.pending := by simp [cohWbAtBank, apply_ite State.pending]
@[simp] theorem cwSuspend_pending (x1 : Nat) (s : State) : (cwSuspend x1 s).pending = s.pending := by simp [cwSuspend, apply_ite State.pending]
@[simp] theorem cwMissing_pending (x1 : Nat) (x2 : Nat) (x3 : Nat) (s : State) : (cwMissing x1 x2 x3 s).pending = s.pending := by
  unfold cwMissing
  split
  · rfl
  · dsimp only
    split
    · split
      · rw [cwInvAck_pending, raise_pending, countD_pending, cwSuspend_pending]
      · rw [raise_pending, countD_pending, cwSuspend_pending]
    · split
      · rw [cwSend_pending, setLine_pending, raise_pending, countD_pending, cwSuspend_pending]
      · rfl
@[simp] theorem cwAckTimeout_pending (x1 : Nat) (x2 : Nat) (x3 : Nat) (s : State) : (cwAckTimeout x1 x2 x3 s).pending = s.pending := by unfold cwAckTimeout; (repeat' split) <;> simp_all
@[simp] theorem hasCome_pending (x1 : Nat) (s : State) : (hasCome x1 s).pending = s.pending := by simp [hasCome]
@[simp] theorem cwArrive_pending (x1 : List Packet) (s : State) : (cwArrive x1 s).pending = s.pending := by simp [cwArrive, apply_ite State.pending]
@[simp] theorem cwRequestAt_pending (x1 : Nat) (x2 : Packet) (s : State) : (cwRequestAt x1 x2 s).pending = s.pending := by
  unfold cwRequestAt
  dsimp only
  split
  · exact cwQueue_pending _ _ _
  · split
    · next q => exact (cwDrain_pending _ _).trans (cwTry_pending q)
    · exact (cwDrain_pending _ _).trans ((cwQueue_pending _ _ _).trans (ite_pending (cwEvict_pending _ _ _) rfl))
@[simp] theorem cwBankCycle_pending (x1 : List Packet) (s : State) : (cwBankCycle x1 s).pending = s.pending := by
  unfold cwBankCycle
  dsimp only
  have an : ∀ (l : List Packet) (t : State), (l.foldl (fun s pk => if pk.hdr.opcode.toNat = opWB then cohWbAtBank pk s
      else if pk.hdr.opcode.toNat = opACK then cohAckAtBank pk s else cohDataAtBank pk s) t).pending = t.pending := fun l t =>
    foldl_pending _ _ _ fun t a => ite_pending (cohWbAtBank_pending _ _) (ite_pending (cohAckAtBank_pending _ _) (cohDataAtBank_pending _ _))
  exact (foldl_pending _ _ _ fun t b => foldl_pending _ _ _ fun t a => cwRequestAt_pending _ _ _).trans ((an _ _).trans ((an _ _).trans (cwArrive_pending _ _)))
@[simp] theorem cwPortLost_pending (x1 : Nat) (s : State) : (cwPortLost x1 s).pending = s.pending := by unfold cwPortLost; split <;> simp_all
@[simp] theorem quarantineEnd_pending (x1 : Side) (x2 : Nat) (s : State) : (quarantineEnd x1 x2 s).pending = s.pending := by simp [quarantineEnd]
@[simp] theorem setChan_pending (x1 : Side) (x2 : Nat) (x3 : DmaCh) (s : State) : (setChan x1 x2 x3 s).pending = s.pending := by simp [setChan]
@[simp] theorem modChan_pending (x1 : Side) (x2 : Nat) (x3 : DmaCh → DmaCh) (s : State) : (modChan x1 x2 x3 s).pending = s.pending := by simp [modChan]
@[simp] theorem modDesc_pending (x1 : Side) (x2 : Nat) (x3 : Nat) (x4 : Desc → Desc) (s : State) : (modDesc x1 x2 x3 x4 s).pending = s.pending := by simp [modDesc]
@[simp] theorem burstDrop_pending (x1 : Side) (x2 : Nat) (x3 : Nat) (x4 : Nat) (s : State) : (burstDrop x1 x2 x3 x4 s).pending = s.pending := by simp [burstDrop]
@[simp] theorem descFail_pending (x1 : Side) (x2 : Nat) (x3 : Nat) (x4 : Nat) (s : State) : (descFail x1 x2 x3 x4 s).pending = s.pending := by simp [descFail]
@[simp] theorem lcAdvance_pending (x1 : Side) (x2 : Nat) (x3 : Nat) (x4 : Bool) (s : State) : (lcAdvance x1 x2 x3 x4 s).pending = s.pending := by simp [lcAdvance, apply_ite State.pending]
@[simp] theorem burstWritten_pending (x1 : Side) (x2 : Nat) (x3 : Nat) (x4 : Nat) (x5 : Nat) (s : State) : (burstWritten x1 x2 x3 x4 x5 s).pending = s.pending := by unfold burstWritten; dsimp only; (repeat' split) <;> simp [apply_ite State.pending]
@[simp] theorem weightDeny_pending (x1 : Side) (x2 : Nat) (x3 : Nat) (x4 : Nat) (x5 : Nat) (s : State) : (weightDeny x1 x2 x3 x4 x5 s).pending = s.pending := by simp [weightDeny]
@[simp] theorem blobHeader_pending (x1 : Side) (x2 : Nat) (x3 : Desc) (x4 : List Byte) (s : State) : (blobHeader x1 x2 x3 x4 s).pending = s.pending := by
  exact ite_pending (modDesc_pending _ _ _ _ _) (weightDeny_pending _ _ _ _ _ _)
@[simp] theorem blobSegment_pending (x1 : Side) (x2 : Nat) (x3 : Desc) (s : State) : (blobSegment x1 x2 x3 s).pending = s.pending := by unfold blobSegment; dsimp only; (repeat' split) <;> simp [apply_ite State.pending]
@[simp] theorem blobSegments_pending (x1 : Side) (x2 : Nat) (x3 : Nat) (x4 : Nat) (s : State) : (blobSegments x1 x2 x3 x4 s).pending = s.pending := by
  induction x4 generalizing s with
  | zero => rfl
  | succ k ih =>
    rw [blobSegments]
    split
    · rfl
    · dsimp only
      split
      · split
        · exact (ih _).trans (blobSegment_pending _ _ _ _)
        · exact blobSegment_pending _ _ _ _
      · exact blobSegment_pending _ _ _ _
@[simp] theorem readyTest_pending (x1 : Side) (x2 : Nat) (s : State) : (readyTest x1 x2 s).pending = s.pending := by unfold readyTest; dsimp only; (repeat' split) <;> simp [apply_ite State.pending]
@[simp] theorem prepare_pending (x1 : Side) (x2 : Nat) (s : State) : (prepare x1 x2 s).pending = s.pending := by
  unfold prepare
  dsimp only
  split
  · rfl
  · next d _ =>
    rw [readyTest_pending]
    generalize h1 : (if (d.needS && decide ((chan x1 x2 s).sx = .none)) = true then _ else s : State) = s1
    have e1 : s1.pending = s.pending := by
      rw [← h1]
      split
      · split
        · next e => exact (descFail_pending _ _ _ _ _).trans (translate_pending e)
        · next e => exact (modChan_pending _ _ _ _).trans (translate_pending e)
      · rfl
    clear h1
    split
    · split
      · next e => exact (descFail_pending _ _ _ _ _).trans ((translate_pending e).trans e1)
      · next e => exact (modChan_pending _ _ _ _).trans ((translate_pending e).trans e1)
    · exact e1
@[simp] theorem reprepare_pending (x1 : Side) (x2 : Nat) (s : State) : (reprepare x1 x2 s).pending = s.pending := by simp [reprepare]
@[simp] theorem blobRead_pending (x1 : Side) (x2 : Nat) (x3 : Nat) (x4 : Nat) (x5 : List Byte) (s : State) : (blobRead x1 x2 x3 x4 x5 s).pending = s.pending := by unfold blobRead; dsimp only; (repeat' split) <;> simp [apply_ite State.pending]
@[simp] theorem lcDeny_pending (x1 : Side) (x2 : Nat) (x3 : Nat) (x4 : Nat) (s : State) : (lcDeny x1 x2 x3 x4 s).pending = s.pending := by simp [lcDeny]
@[simp] theorem dmaReq_pending (x1 : Side) (x2 : Nat) (x3 : Nat) (x4 : Nat) (x5 : Nat) (x6 : Nat) (x7 : Leaf) (x8 : Nat) (x9 : Nat) (x10 : Nat) (x11 : Bool) (x12 : Nat) (x13 : List Byte) (s : State) : (dmaReq x1 x2 x3 x4 x5 x6 x7 x8 x9 x10 x11 x12 x13 s).pending = s.pending := by simp [dmaReq]
@[simp] theorem lcOff_pending (x1 : Side) (s : State) : (lcOff x1 s).pending = s.pending := by simp [lcOff]
@[simp] theorem burstWrite_pending (x1 : Side) (x2 : Nat) (x3 : Desc) (x4 : Burst) (x5 : Bool) (x6 : List Byte) (s : State) : (burstWrite x1 x2 x3 x4 x5 x6 s).pending = s.pending := by unfold burstWrite; dsimp only; (repeat' split) <;> simp [apply_ite State.pending]
@[simp] theorem burstRead_pending (x1 : Side) (x2 : Nat) (x3 : Nat) (x4 : Nat) (x5 : Nat) (x6 : Nat) (x7 : List Byte) (s : State) : (burstRead x1 x2 x3 x4 x5 x6 x7 s).pending = s.pending := by
  unfold burstRead
  split
  · rfl
  · split
    · rfl
    · next d _ b _ =>
      dsimp only
      generalize hm : modDesc x1 x2 x3 _ s = s1
      have e1 : s1.pending = s.pending := by rw [← hm]; exact modDesc_pending _ _ _ _ _
      generalize h2 : (if x6 ≠ 0 then descFail x1 x2 x3 x6 s1 else s1) = s2
      have e2 : s2.pending = s.pending := by
        rw [← h2]
        exact ite_pending ((descFail_pending _ _ _ _ _).trans e1) e1
      clear hm h2
      have e3 : (burstDrop x1 x2 x3 x4 s2).pending = s.pending := (burstDrop_pending _ _ _ _ _).trans e2
      refine ite_pending e2 ?_
      split
      · exact e2
      · refine ite_pending ((burstWrite_pending _ _ _ _ _ _ _).trans e2) (ite_pending e3 (ite_pending
          ((burstWrite_pending _ _ _ _ _ _ _).trans e2) (ite_pending ((blobRead_pending _ _ _ _ _ _).trans e2) (ite_pending e3 ?_))))
        split
        · exact (modDesc_pending _ _ _ _ _).trans e3
        · exact (modDesc_pending _ _ _ _ _).trans ((modDesc_pending _ _ _ _ _).trans e3)
@[simp] theorem finishReq_pending (x1 : Side) (x2 : Req) (x3 : Nat) (x4 : Nat) (x5 : Nat) (x6 : List Byte) (s : State) : (finishReq x1 x2 x3 x4 x5 x6 s).pending = s.pending := by unfold finishReq; dsimp only; (repeat' split) <;> simp [apply_ite State.pending]
@[simp] theorem timeoutTraces_pending (x1 : Side) (x2 : Req) (s : State) : (timeoutTraces x1 x2 s).pending = s.pending := by simp [timeoutTraces]
@[simp] theorem waitingTimeout_pending (x1 : Side) (x2 : Req) (s : State) : (waitingTimeout x1 x2 s).pending = s.pending := by simp [waitingTimeout, apply_ite State.pending]
@[simp] theorem descStart_pending (x1 : Side) (x2 : Nat) (x3 : Desc) (s : State) : (descStart x1 x2 x3 s).pending = s.pending := by simp [descStart, apply_ite State.pending]
@[simp] theorem startDesc_pending (x1 : Side) (x2 : Nat) (x3 : Nat) (s : State) : (startDesc x1 x2 x3 s).pending = s.pending := by unfold startDesc; (repeat' split) <;> simp_all
@[simp] theorem timerTrigger_pending (x1 : Side) (x2 : Nat) (s : State) : (timerTrigger x1 x2 s).pending = s.pending := by unfold timerTrigger; (repeat' split) <;> simp_all
@[simp] theorem retryNote_pending (x1 : Side) (x2 : Req) (s : State) : (retryNote x1 x2 s).pending = s.pending := by simp [retryNote, apply_ite State.pending]
@[simp] theorem tagEnd_pending (x1 : Side) (x2 : Nat) (x3 : Nat) (x4 : Bool) (s : State) : (tagEnd x1 x2 x3 x4 s).pending = s.pending := by simp [tagEnd]
@[simp] theorem recallIn_pending (x1 : Side) (x2 : Packet) (x3 : Nat) (s : State) : (recallIn x1 x2 x3 s).pending = s.pending := by simp [recallIn, apply_ite State.pending]
@[simp] theorem recallsOut_pending (x1 : Side) (x2 : Header) (s : State) : (recallsOut x1 x2 s).pending = s.pending := by simp [recallsOut, apply_ite State.pending]
@[simp] theorem resolve1_pending (x1 : Side) (x2 : Req) (x3 : Nat) (x4 : Nat) (x5 : Nat) (x6 : List Byte) (x7 : Bool) (s : State) : (resolve1 x1 x2 x3 x4 x5 x6 x7 s).pending = s.pending := by simp [resolve1, apply_ite State.pending]
@[simp] theorem loadTimeout_pending (x1 : Side) (x2 : Nat) (s : State) : (loadTimeout x1 x2 s).pending = s.pending := by unfold loadTimeout; dsimp only; (repeat' split) <;> simp [apply_ite State.pending]
theorem unopenedComb_pending {x1 : Nat} {x2 : Nat} {x3 : Nat} {s : State} {a : (Nat × Bool × Nat)} {t : State} (h : unopenedComb x1 x2 x3 s = (a, t)) : t.pending = s.pending := by unfold unopenedComb at h; (repeat' split at h) <;> first | (injection h with h; subst h; (first | rfl | (simp [*]; done)); done) | (simp at h; done) | (simp at h; obtain ⟨rfl, rfl⟩ := h; (first | rfl | (simp [*]; done)); done) | (simp at h; subst h; (first | rfl | (simp [*]; done)); done) | (simp at h; obtain ⟨_, rfl, rfl⟩ := h; (first | rfl | (simp [*]; done)); done)
@[simp] theorem unopenedComb_snd_pending (x1 : Nat) (x2 : Nat) (x3 : Nat) (s : State) : (unopenedComb x1 x2 x3 s).2.pending = s.pending := unopenedComb_pending (Eq.refl _)
@[simp] theorem noMajority_pending (x1 : Nat) (x2 : LChunk) (s : State) : (noMajority x1 x2 s).pending = s.pending := by simp [noMajority]
@[simp] theorem moveArbiter_pending (x1 : Nat) (x2 : Nat) (x3 : Nat) (s : State) : (moveArbiter x1 x2 x3 s).pending = s.pending := by simp [moveArbiter]
@[simp] theorem moveQueue_pending (x1 : Nat) (x2 : Nat) (s : State) : (moveQueue x1 x2 s).pending = s.pending := by simp [moveQueue]
@[simp] theorem dropSpare_pending (x1 : Nat) (s : State) : (dropSpare x1 s).pending = s.pending := by unfold dropSpare; dsimp only; (repeat' split) <;> simp [apply_ite State.pending]
@[simp] theorem retireSpare_pending (x1 : Nat) (x2 : Bool) (s : State) : (retireSpare x1 x2 s).pending = s.pending := by simp [retireSpare, apply_ite State.pending]
@[simp] theorem setServe_pending (x1 : Nat) (x2 : Nat) (x3 : List Nat) (s : State) : (setServe x1 x2 x3 s).pending = s.pending := by simp [setServe]
@[simp] theorem moveStreams_pending (x1 : Nat) (x2 : Nat) (x3 : Nat) (s : State) : (moveStreams x1 x2 x3 s).pending = s.pending := by simp [moveStreams]
@[simp] theorem setRecWord_pending (x1 : Nat) (x2 : Nat) (x3 : Nat) (x4 : Nat) (s : State) : (setRecWord x1 x2 x3 x4 s).pending = s.pending := by simp [setRecWord]
@[simp] theorem putRecord_pending (x1 : Nat) (x2 : ProgRec) (s : State) : (putRecord x1 x2 s).pending = s.pending := by
  unfold putRecord
  rw [emit_pending, setRecWord_pending, setRecWord_pending, setRecWord_pending, setRecWord_pending]
@[simp] theorem record_pending (x1 : Prog) (x2 : Nat) (x3 : Nat) (x4 : Nat) (x5 : Bool) (x6 : Nat) (s : State) : (record x1 x2 x3 x4 x5 x6 s).pending = s.pending := by
  unfold record
  dsimp only
  split
  · exact sendCpl_pending _ _
  · exact putRecord_pending _ _ _
@[simp] theorem finishAction_pending (x1 : Option Prog) (x2 : Nat) (s : State) : (finishAction x1 x2 s).pending = s.pending := by unfold finishAction; dsimp only; (repeat' split) <;> simp [apply_ite State.pending]
@[simp] theorem dropTest_pending (x1 : UnitKind) (x2 : Nat) (s : State) : (dropTest x1 x2 s).pending = s.pending := by simp [dropTest]
@[simp] theorem takeCandidate_pending (x1 : UnitKind) (x2 : Nat) (s : State) : (takeCandidate x1 x2 s).pending = s.pending := by unfold takeCandidate; dsimp only; (repeat' split) <;> simp [apply_ite State.pending]
@[simp] theorem retireCore_pending (x1 : Nat) (x2 : Bool) (x3 : Option Nat) (s : State) : (retireCore x1 x2 x3 s).pending = s.pending := by unfold retireCore; dsimp only; (repeat' split) <;> simp [apply_ite State.pending]
@[simp] theorem pushTask_pending (x1 : Nat) (x2 : LTask) (s : State) : (pushTask x1 x2 s).pending = s.pending := by simp [pushTask]
@[simp] theorem dispatchAll_pending (x1 : Nat) (x2 : LChunk) (x3 : Nat) (s : State) : (dispatchAll x1 x2 x3 s).pending = s.pending := by simp [dispatchAll, apply_ite State.pending]
@[simp] theorem startOutput_pending (x1 : Nat) (x2 : LChunk) (s : State) : (startOutput x1 x2 s).pending = s.pending := by simp [startOutput, apply_ite State.pending]
@[simp] theorem recordDone_pending (x1 : Nat) (x2 : LChunk) (s : State) : (recordDone x1 x2 s).pending = s.pending := by simp [recordDone]
@[simp] theorem sramRead_pending (x1 : Nat) (x2 : SramRead) (s : State) : (sramRead x1 x2 s).pending = s.pending := by unfold sramRead; split <;> simp_all
theorem silentRead_pending {x1 : Nat} {s : State} {a : Bool} {t : State} (h : silentRead x1 s = (a, t)) : t.pending = s.pending := by unfold silentRead at h; (repeat' split at h) <;> first | (injection h with h; subst h; (first | rfl | (simp [*]; done)); done) | (simp at h; done) | (simp at h; obtain ⟨rfl, rfl⟩ := h; (first | rfl | (simp [*]; done)); done) | (simp at h; subst h; (first | rfl | (simp [*]; done)); done) | (simp at h; obtain ⟨_, rfl, rfl⟩ := h; (first | rfl | (simp [*]; done)); done)
@[simp] theorem silentRead_snd_pending (x1 : Nat) (s : State) : (silentRead x1 s).2.pending = s.pending := silentRead_pending (Eq.refl _)
theorem silentReads_pending {x1 : Nat} {x2 : Nat} {s : State} {a : Bool} {t : State} (h : silentReads x1 x2 s = (a, t)) : t.pending = s.pending := by
  refine (congrArg (fun x : Bool × State => x.2.pending) h).symm.trans ?_
  clear h
  induction x2 generalizing s with
  | zero => rfl
  | succ n ih => exact ih.trans (silentRead_snd_pending _ _)
@[simp] theorem silentReads_snd_pending (x1 : Nat) (x2 : Nat) (s : State) : (silentReads x1 x2 s).2.pending = s.pending := silentReads_pending (Eq.refl _)
@[simp] theorem readStaged_pending (x1 : Nat) (x2 : LChunk) (x3 : Nat) (x4 : State → State) (s : State) (h4 : ∀ t, (x4 t).pending = t.pending) : (readStaged x1 x2 x3 x4 s).pending = s.pending := by unfold readStaged; split <;> simp_all
@[simp] theorem checkingDone_pending (x1 : Nat) (x2 : LChunk) (s : State) : (checkingDone x1 x2 s).pending = s.pending := by simp [checkingDone]
@[simp] theorem chunkEmitted_pending (x1 : Nat) (x2 : LChunk) (x3 : List Byte) (s : State) : (chunkEmitted x1 x2 x3 s).pending = s.pending := by simp [chunkEmitted, apply_ite State.pending]
@[simp] theorem emitWide_pending (x1 : Nat) (x2 : LChunk) (s : State) : (emitWide x1 x2 s).pending = s.pending := by unfold emitWide; repeat' (first | (first | rfl | (simp [*]; done) | (have e := formRed_pending ‹_›; simp [*]; done)) | split | (refine (foldl_pending _ _ _ (fun _ _ => ?_)).trans ?_) | (simp only [apply_ite State.pending, *]))
@[simp] theorem sendWide_pending (x1 : Nat) (x2 : LChunk) (s : State) : (sendWide x1 x2 s).pending = s.pending := by simp [sendWide]
@[simp] theorem sendResult_pending (x1 : Nat) (x2 : LChunk) (s : State) : (sendResult x1 x2 s).pending = s.pending := by unfold sendResult; repeat' (first | (first | rfl | (simp [*]; done) | (have e := formRed_pending ‹_›; simp [*]; done)) | split | (refine (foldl_pending _ _ _ (fun _ _ => ?_)).trans ?_) | (simp only [apply_ite State.pending, *]))
@[simp] theorem sendOut_pending (x1 : Nat) (x2 : LChunk) (s : State) : (sendOut x1 x2 s).pending = s.pending := by simp [sendOut, apply_ite State.pending]
@[simp] theorem holdOrSend_pending (x1 : Nat) (x2 : LChunk) (s : State) : (holdOrSend x1 x2 s).pending = s.pending := by simp [holdOrSend, apply_ite State.pending]
@[simp] theorem formOutput_pending (x1 : Nat) (x2 : LChunk) (s : State) : (formOutput x1 x2 s).pending = s.pending := by simp [formOutput, apply_ite State.pending]
@[simp] theorem majority_pending (x1 : Nat) (x2 : LChunk) (x3 : CheckRecord) (s : State) : (majority x1 x2 x3 s).pending = s.pending := by simp [majority, apply_ite State.pending]
@[simp] theorem startDensify_pending (x1 : Nat) (x2 : LChunk) (s : State) : (startDensify x1 x2 s).pending = s.pending := by simp [startDensify]
@[simp] theorem afterFill_pending (x1 : Nat) (x2 : LChunk) (s : State) : (afterFill x1 x2 s).pending = s.pending := by simp [afterFill, apply_ite State.pending]
@[simp] theorem verifyEvent_pending (x1 : Nat) (x2 : ChunkId) (s : State) : (verifyEvent x1 x2 s).pending = s.pending := by simp [verifyEvent]
@[simp] theorem diverge_pending (x1 : Nat) (x2 : LChunk) (x3 : List Nat) (s : State) : (diverge x1 x2 x3 s).pending = s.pending := by unfold diverge; dsimp only; (repeat' split) <;> simp [apply_ite State.pending]
@[simp] theorem compareDigests_pending (x1 : Nat) (x2 : LChunk) (x3 : CheckRecord) (s : State) : (compareDigests x1 x2 x3 s).pending = s.pending := by simp [compareDigests, apply_ite State.pending]
@[simp] theorem compareRecord_pending (x1 : Nat) (x2 : LChunk) (x3 : CheckRecord) (s : State) : (compareRecord x1 x2 x3 s).pending = s.pending := by simp [compareRecord, apply_ite State.pending]
theorem stepPhase_pending {x1 : Nat} {x2 : LChunk} {s : State} {t : State} (h : stepPhase x1 x2 s = some t) : t.pending = s.pending := by
  unfold stepPhase at h
  refine ite_cases (fun h => by cases h) (fun h => ?_) h
  split at h
  · refine ite_cases (fun h => ?_) (fun h => by cases h) h
    rw [← Option.some.inj h]
    exact afterFill_pending _ _ _
  · rw [← Option.some.inj h]
    exact formOutput_pending _ _ _
  · rw [← Option.some.inj h, dispatchAll_pending, modChunk_pending]
  · rw [← Option.some.inj h]
    exact holdOrSend_pending _ _ _
  · rw [Option.map_eq_some_iff] at h
    obtain ⟨r, -, h⟩ := h
    rw [← h]
    exact compareRecord_pending _ _ _ _
  · rw [Option.map_eq_some_iff] at h
    obtain ⟨r, -, h⟩ := h
    rw [← h]
    exact majority_pending _ _ _ _
@[simp] theorem advance_pending (x1 : Nat) (x2 : Nat) (x3 : ChunkId) (s : State) : (advance x1 x2 x3 s).pending = s.pending := by
  induction x1 generalizing s with
  | zero => rfl
  | succ n ih =>
    rw [advance]
    split
    · rfl
    · split
      · next h => exact (ih _).trans (stepPhase_pending h)
      · rfl
@[simp] theorem endPartial_pending (x1 : Nat) (x2 : ChunkId) (s : State) : (endPartial x1 x2 s).pending = s.pending := by simp [endPartial]
@[simp] theorem zeroScratch_pending (x1 : Nat) (x2 : Nat) (x3 : Nat) (s : State) : (zeroScratch x1 x2 x3 s).pending = s.pending := by unfold zeroScratch; repeat' (first | (first | rfl | (simp [*]; done)) | split | (refine (foldl_pending _ _ _ (fun _ _ => ?_)).trans ?_) | (simp only [apply_ite State.pending, *]))
@[simp] theorem wakeHomes_pending (x1 : Nat) (x2 : Nat) (s : State) : (wakeHomes x1 x2 s).pending = s.pending := by simp [wakeHomes]
@[simp] theorem openChunk_pending (x1 : Nat) (x2 : ChunkId) (x3 : Nat) (x4 : Bool) (x5 : Nat) (x6 : Nat) (s : State) : (openChunk x1 x2 x3 x4 x5 x6 s).pending = s.pending := by unfold openChunk; dsimp only; (repeat' split) <;> simp [apply_ite State.pending]
@[simp] theorem fillOne_pending (x1 : Nat) (x2 : Nat × Bool × Nat) (x3 : ChunkId) (s : State) : (fillOne x1 x2 x3 s).pending = s.pending := by simp [fillOne, apply_ite State.pending]
@[simp] theorem fillMissing_pending (x1 : Nat) (x2 : Nat) (s : State) : (fillMissing x1 x2 s).pending = s.pending := by simp [fillMissing, apply_ite State.pending]
@[simp] theorem finishLaunches_pending (x1 : Nat) (s : State) : (finishLaunches x1 s).pending = s.pending := by simp [finishLaunches, apply_ite State.pending]
@[simp] theorem reportSealFail_pending (x1 : Nat) (x2 : Nat) (x3 : Nat) (s : State) : (reportSealFail x1 x2 x3 s).pending = s.pending := by simp [reportSealFail, apply_ite State.pending]
@[simp] theorem sendReport_pending (x1 : Nat) (x2 : Nat) (x3 : LStep) (s : State) : (sendReport x1 x2 x3 s).pending = s.pending := by unfold sendReport; repeat' (first | (first | rfl | (simp [*]; done) | (have e := lunaSeal_pending ‹_›; simp [*]; done)) | split | (refine (foldl_pending _ _ _ (fun _ _ => ?_)).trans ?_) | (simp only [apply_ite State.pending, *]))
@[simp] theorem closeOne_pending (x1 : Nat) (x2 : Nat) (s : State) : (closeOne x1 x2 s).pending = s.pending := by simp [closeOne, apply_ite State.pending]
@[simp] theorem closeStep_pending (x1 : Nat) (x2 : Nat) (s : State) : (closeStep x1 x2 s).pending = s.pending := by simp [closeStep, apply_ite State.pending]
@[simp] theorem settle_pending (x1 : Nat) (x2 : Nat) (s : State) : (settle x1 x2 s).pending = s.pending := by simp [settle]
@[simp] theorem excludeStream_pending (x1 : Nat) (x2 : LChunk) (x3 : LStream) (s : State) : (excludeStream x1 x2 x3 s).pending = s.pending := by simp [excludeStream, apply_ite State.pending]
@[simp] theorem deadlineChunk_pending (x1 : Nat) (x2 : LChunk) (s : State) : (deadlineChunk x1 x2 s).pending = s.pending := by simp [deadlineChunk, apply_ite State.pending]
@[simp] theorem lunaDeadline_pending (x1 : Nat) (x2 : Nat) (s : State) : (lunaDeadline x1 x2 s).pending = s.pending := by simp [lunaDeadline, apply_ite State.pending]
@[simp] theorem ctStall_pending (x1 : Nat) (x2 : Nat) (s : State) : (ctStall x1 x2 s).pending = s.pending := by unfold ctStall; (repeat' split) <;> simp_all
@[simp] theorem skipAnswer_pending (x1 : Skip) (x2 : Header) (x3 : Nat) (x4 : List Byte) (s : State) : (skipAnswer x1 x2 x3 x4 s).pending = s.pending := by simp [skipAnswer, apply_ite State.pending]
@[simp] theorem remoteTimeout_pending (x1 : Skip) (x2 : Nat) (x3 : Nat) (s : State) : (remoteTimeout x1 x2 x3 s).pending = s.pending := by unfold remoteTimeout; dsimp only; (repeat' split) <;> simp [apply_ite State.pending]
@[simp] theorem breezeChain_pending (x1 : Nat) (s : State) : (breezeChain x1 s).pending = s.pending := by simp [breezeChain, apply_ite State.pending]
theorem sendCodes_pending {x1 : LinkEnd} {x2 : List Code} {s : State} {a : Line} {t : State} (h : sendCodes x1 x2 s = (a, t)) : t.pending = s.pending := by unfold sendCodes at h; (repeat' split at h) <;> first | (injection h with h; subst h; (first | rfl | (simp [*]; done)); done) | (simp at h; done) | (simp at h; obtain ⟨rfl, rfl⟩ := h; (first | rfl | (simp [*]; done)); done) | (simp at h; subst h; (first | rfl | (simp [*]; done)); done) | (simp at h; obtain ⟨_, rfl, rfl⟩ := h; (first | rfl | (simp [*]; done)); done)
@[simp] theorem sendCodes_snd_pending (x1 : LinkEnd) (x2 : List Code) (s : State) : (sendCodes x1 x2 s).2.pending = s.pending := sendCodes_pending (Eq.refl _)
@[simp] theorem sendInsert_pending (x1 : LinkEnd) (x2 : InsertKind) (x3 : List Byte) (s : State) : (sendInsert x1 x2 x3 s).pending = s.pending := by simp [sendInsert]
@[simp] theorem breezeSend_pending (x1 : LinkEnd) (s : State) : (breezeSend x1 s).pending = s.pending := by simp [breezeSend, apply_ite State.pending]
@[simp] theorem refusedTraces_pending (x1 : Nat) (x2 : Nat) (x3 : Nat) (x4 : Nat) (s : State) : (refusedTraces x1 x2 x3 x4 s).pending = s.pending := by simp [refusedTraces]
@[simp] theorem loadFailTraces_pending (x1 : Nat) (x2 : Nat) (x3 : Nat) (s : State) : (loadFailTraces x1 x2 x3 s).pending = s.pending := by simp [loadFailTraces]
@[simp] theorem expelRefusedTraces_pending (x1 : List Byte) (x2 : Nat) (s : State) : (expelRefusedTraces x1 x2 s).pending = s.pending := by simp [expelRefusedTraces]
@[simp] theorem cmdTraces_pending (x1 : Prog) (x2 : PCmd) (x3 : State) (x4 : Nat) (x5 : Nat) (s : State) : (cmdTraces x1 x2 x3 x4 x5 s).pending = s.pending := by unfold cmdTraces; (repeat' split) <;> simp_all
@[simp] theorem profileFailed_pending (x1 : Nat) (x2 : Nat) (s : State) : (profileFailed x1 x2 s).pending = s.pending := by simp [profileFailed]
@[simp] theorem failTraces_pending (x1 : Prog) (x2 : List Prog) (x3 : Nat) (x4 : Nat) (s : State) : (failTraces x1 x2 x3 x4 s).pending = s.pending := by
  unfold failTraces
  split
  · refine ite_pending (profileFailed_pending _ _ _) ?_
    split
    · exact cmdTraces_pending _ _ _ _ _ _
    · exact refusedTraces_pending _ _ _ _ _
  · exact cmdTraces_pending _ _ _ _ _ _
  · exact refusedTraces_pending _ _ _ _ _
@[simp] theorem refuseProg_pending (x1 : Prog) (x2 : List Prog) (x3 : Nat) (x4 : Nat) (s : State) : (refuseProg x1 x2 x3 x4 s).pending = s.pending := by simp [refuseProg]
@[simp] theorem recheckAll_pending (x1 : List Prog) (x2 : List Prog) (s : State) : (recheckAll x1 x2 s).pending = s.pending := by
  induction x2 generalizing x1 s with
  | nil => rfl
  | cons p l ih =>
    rw [recheckAll]
    split
    · exact ih _ _
    · dsimp only
      rw [ih]
      exact refuseProg_pending _ _ _ _ _
theorem recheckDue_pending {s : State} {a : Bool} {t : State} (h : recheckDue s = (a, t)) : t.pending = s.pending := by unfold recheckDue at h; (repeat' split at h) <;> first | (injection h with h; subst h; (first | rfl | (simp [*]; done)); done) | (simp at h; done) | (simp at h; obtain ⟨rfl, rfl⟩ := h; (first | rfl | (simp [*]; done)); done) | (simp at h; subst h; (first | rfl | (simp [*]; done)); done) | (simp at h; obtain ⟨_, rfl, rfl⟩ := h; (first | rfl | (simp [*]; done)); done)
@[simp] theorem recheckDue_snd_pending (s : State) : (recheckDue s).2.pending = s.pending := recheckDue_pending (Eq.refl _)
@[simp] theorem result_pending (x1 : Prog) (x2 : Nat) (x3 : Nat) (s : State) : (result x1 x2 x3 s).pending = s.pending := by simp [result, apply_ite State.pending]
@[simp] theorem readResults_pending (x1 : Prog) (s : State) : (readResults x1 s).pending = s.pending := by unfold readResults; repeat' (first | (first | rfl | (simp [*]; done) | (have e := ctlRead_pending ‹_›; simp [*]; done)) | split | (refine (foldl_pending _ _ _ (fun _ _ => ?_)).trans ?_) | (simp only [apply_ite State.pending, *]))
@[simp] theorem noteProfile_pending (x1 : Nat) (x2 : List Byte) (s : State) : (noteProfile x1 x2 s).pending = s.pending := by simp [noteProfile]
@[simp] theorem dropSwapReqs_pending (x1 : Nat) (s : State) : (dropSwapReqs x1 s).pending = s.pending := by simp [dropSwapReqs]
@[simp] theorem settleHalves_pending (x1 : Nat) (s : State) : (settleHalves x1 s).pending = s.pending := by simp [settleHalves]
@[simp] theorem dropSwap_pending (x1 : Nat) (s : State) : (dropSwap x1 s).pending = s.pending := by simp [dropSwap]
@[simp] theorem spareBack_pending (x1 : Nat) (s : State) : (spareBack x1 s).pending = s.pending := by
  exact (noteChange_pending _).trans (sx_pending _ _ _ _)
@[simp] theorem logOut_pending (x1 : UnitKind) (x2 : Nat) (s : State) : (logOut x1 x2 s).pending = s.pending := by simp [logOut]
@[simp] theorem siteLeaves_pending (x1 : Nat) (s : State) : (siteLeaves x1 s).pending = s.pending := by simp [siteLeaves]
@[simp] theorem spareReturns_pending (x1 : Nat) (x2 : Bool) (s : State) : (spareReturns x1 x2 s).pending = s.pending := by simp [spareReturns, apply_ite State.pending]
@[simp] theorem abandonSwap_pending (x1 : Nat) (s : State) : (abandonSwap x1 s).pending = s.pending := by unfold abandonSwap; dsimp only; (repeat' split) <;> simp [apply_ite State.pending]
@[simp] theorem linkDownFolded_pending (x1 : Nat) (x2 : Nat) (x3 : Nat) (x4 : Header) (s : State) : (linkDownFolded x1 x2 x3 x4 s).pending = s.pending := by simp [linkDownFolded]
@[simp] theorem loseCopy_pending (x1 : Nat) (x2 : Nat) (x3 : Copy) (x4 : Header) (s : State) : (loseCopy x1 x2 x3 x4 s).pending = s.pending := by unfold loseCopy; dsimp only; (repeat' split) <;> simp [apply_ite State.pending]
@[simp] theorem retrack_pending (x1 : Header) (x2 : Nat) (s : State) : (retrack x1 x2 s).pending = s.pending := by unfold retrack; dsimp only; (repeat' split) <;> simp [apply_ite State.pending]
@[simp] theorem requeueCopy_pending (x1 : Nat) (x2 : Nat) (x3 : Nat) (x4 : Copy) (s : State) : (requeueCopy x1 x2 x3 x4 s).pending = s.pending := by unfold requeueCopy; dsimp only; (repeat' split) <;> simp [apply_ite State.pending]
@[simp] theorem requeueAll_pending (x1 : Nat) (x2 : Nat) (s : State) : (requeueAll x1 x2 s).pending = s.pending := by simp [requeueAll]
@[simp] theorem subFailed_pending (x1 : Nat × Nat × Bool) (s : State) : (subFailed x1 s).pending = s.pending := by simp [subFailed]
@[simp] theorem subsRestored_pending (x1 : LinkEnd) (s : State) : (subsRestored x1 s).pending = s.pending := by unfold subsRestored; split <;> simp_all
@[simp] theorem setUpstream_pending (x1 : UnitId) (x2 : Option Nat) (s : State) : (setUpstream x1 x2 s).pending = s.pending := by simp [setUpstream, apply_ite State.pending]
@[simp] theorem enterDoldrums_pending (x1 : UnitId) (s : State) : (enterDoldrums x1 s).pending = s.pending := by simp [enterDoldrums, apply_ite State.pending]
@[simp] theorem reselect_pending (x1 : UnitId) (s : State) : (reselect x1 s).pending = s.pending := by unfold reselect; dsimp only; (repeat' split) <;> simp [apply_ite State.pending]
@[simp] theorem trackScan_pending (x1 : Nat) (x2 : Nat) (s : State) : (trackScan x1 x2 s).pending = s.pending := by simp [trackScan, apply_ite State.pending]
@[simp] theorem mcDiscard_pending (x1 : BufPkt) (x2 : Nat) (s : State) : (mcDiscard x1 x2 s).pending = s.pending := by unfold mcDiscard; dsimp only; (repeat' split) <;> simp [apply_ite State.pending]
@[simp] theorem cutPartial_pending (x1 : BufPkt) (s : State) : (cutPartial x1 s).pending = s.pending := by simp [cutPartial, apply_ite State.pending]
@[simp] theorem cutHeld_pending (x1 : Held) (s : State) : (cutHeld x1 s).pending = s.pending := by simp [cutHeld, apply_ite State.pending]
@[simp] theorem dropOx_pending (x1 : Nat) (x2 : Nat) (s : State) : (dropOx x1 x2 s).pending = s.pending := by simp [dropOx]
@[simp] theorem setLayout_pending (x1 : List Nat) (s : State) : (setLayout x1 s).pending = s.pending := by simp [setLayout, apply_ite State.pending]
@[simp] theorem startTest_pending (x1 : UnitKind) (x2 : Nat) (x3 : Bool) (x4 : Option Prog) (s : State) : (startTest x1 x2 x3 x4 s).pending = s.pending := by simp [startTest, apply_ite State.pending]
@[simp] theorem txWake_pending (x1 : LinkEnd) (s : State) : (txWake x1 s).pending = s.pending := by simp [txWake]
@[simp] theorem readmitPort_pending (x1 : Nat) (s : State) : (readmitPort x1 s).pending = s.pending := by simp [readmitPort, apply_ite State.pending]
@[simp] theorem applyReadmit_pending (x1 : List Byte) (s : State) : (applyReadmit x1 s).pending = s.pending := by simp [applyReadmit, apply_ite State.pending]
@[simp] theorem spareTaken_pending (x1 : Nat) (s : State) : (spareTaken x1 s).pending = s.pending := by simp [spareTaken, apply_ite State.pending]
@[simp] theorem startMigration_pending (x1 : Nat) (s : State) : (startMigration x1 s).pending = s.pending := by simp [startMigration, apply_ite State.pending]
@[simp] theorem gustBurst_pending (x1 : LinkEnd) (s : State) : (gustBurst x1 s).pending = s.pending := by simp [gustBurst]
@[simp] theorem gustWake_pending (x1 : LinkEnd) (s : State) : (gustWake x1 s).pending = s.pending := by simp [gustWake]
@[simp] theorem startSwap_pending (x1 : Nat) (x2 : Nat) (s : State) : (startSwap x1 x2 s).pending = s.pending := by unfold startSwap; dsimp only; (repeat' split) <;> simp [apply_ite State.pending]
@[simp] theorem requestSwap_pending (x1 : Nat) (s : State) : (requestSwap x1 s).pending = s.pending := by unfold requestSwap; dsimp only; (repeat' split) <;> simp [apply_ite State.pending]
@[simp] theorem loseBank_pending (x1 : Nat) (s : State) : (loseBank x1 s).pending = s.pending := by simp [loseBank]
@[simp] theorem loseBanks_pending (x1 : Nat) (s : State) : (loseBanks x1 s).pending = s.pending := by simp [loseBanks]
@[simp] theorem degradeTraces_pending (x1 : Nat) (s : State) : (degradeTraces x1 s).pending = s.pending := by simp [degradeTraces]
@[simp] theorem placeBank_pending (x1 : Nat) (x2 : Nat) (s : State) : (placeBank x1 x2 s).pending = s.pending := by simp [placeBank]
@[simp] theorem moveBanks_pending (x1 : Nat) (x2 : Option Nat) (s : State) : (moveBanks x1 x2 s).pending = s.pending := by
  unfold moveBanks
  refine foldl_pending _ _ _ fun t a => ?_
  split
  · exact placeBank_pending _ _ _
  · exact (placeBank_pending _ _ _).trans (loseBank_pending _ _)
@[simp] theorem leaveBanks_pending (x1 : Nat) (x2 : Option Nat) (s : State) : (leaveBanks x1 x2 s).pending = s.pending := by simp [leaveBanks, apply_ite State.pending]
@[simp] theorem sliceRetired_pending (x1 : Nat) (s : State) : (sliceRetired x1 s).pending = s.pending := by simp [sliceRetired]
@[simp] theorem spareLeaves_pending (x1 : Nat) (x2 : Bool) (s : State) : (spareLeaves x1 x2 s).pending = s.pending := by simp [spareLeaves, apply_ite State.pending]
@[simp] theorem retireUnit_pending (x1 : UnitKind) (x2 : Nat) (s : State) : (retireUnit x1 x2 s).pending = s.pending := by unfold retireUnit; dsimp only; (repeat' split) <;> simp [apply_ite State.pending]
@[simp] theorem useImage_pending (x1 : Nat) (x2 : Nat) (s : State) : (useImage x1 x2 s).pending = s.pending := by simp [useImage]
@[simp] theorem armDie_pending (x1 : Nat) (x2 : Nat) (s : State) : (armDie x1 x2 s).pending = s.pending := by simp [armDie, apply_ite State.pending]
@[simp] theorem armContext_pending (x1 : Nat) (s : State) : (armContext x1 s).pending = s.pending := by simp [armContext, apply_ite State.pending]
@[simp] theorem addShot_pending (x1 : Nat) (s : State) : (addShot x1 s).pending = s.pending := by simp [addShot]
@[simp] theorem snapRewind_pending (x1 : UnitId) (s : State) : (snapRewind x1 s).pending = s.pending := by simp [snapRewind]
@[simp] theorem stepFt_pending (x1 : UnitId) (x2 : Int) (s : State) : (stepFt x1 x2 s).pending = s.pending := by simp [stepFt, apply_ite State.pending]
@[simp] theorem setFt_pending (x1 : Nat) (s : State) : (setFt x1 s).pending = s.pending := by simp [setFt]
@[simp] theorem expelMembers_pending (x1 : Nat × Nat) (s : State) : (expelMembers x1 s).pending = s.pending := by
  unfold expelMembers
  split
  · rfl
  · exact foldl_pending _ _ _ fun t a => (noteChange_pending _).trans (sx_pending _ _ _ _)
@[simp] theorem disablePort_pending (x1 : Nat) (s : State) : (disablePort x1 s).pending = s.pending := by simp [disablePort, apply_ite State.pending]
@[simp] theorem expelPorts_pending (x1 : Nat × Nat) (s : State) : (expelPorts x1 s).pending = s.pending := by
  unfold expelPorts
  simp
@[simp] theorem applyExpel_pending (x1 : List Byte) (s : State) : (applyExpel x1 s).pending = s.pending := by
  unfold applyExpel
  dsimp only
  rw [raise_pending, countG_pending, expelMembers_pending, expelPorts_pending, expelLists_pending]
@[simp] theorem disableFabric_pending (s : State) : (disableFabric s).pending = s.pending := by simp [disableFabric]
@[simp] theorem disarmContext_pending (x1 : Nat) (s : State) : (disarmContext x1 s).pending = s.pending := by simp [disarmContext, apply_ite State.pending]
@[simp] theorem stageFirmware_pending (x1 : List Byte) (s : State) : (stageFirmware x1 s).pending = s.pending := by simp [stageFirmware]
@[simp] theorem gwTxResume_pending (x1 : Skip) (s : State) : (gwTxResume x1 s).pending = s.pending := by simp [gwTxResume]
@[simp] theorem commandCalm_pending (x1 : Option Nat) (s : State) : (commandCalm x1 s).pending = s.pending := by simp [commandCalm]
@[simp] theorem eraseCollective_pending (s : State) : (eraseCollective s).pending = s.pending := by simp [eraseCollective]
@[simp] theorem setReads_pending (x1 : List HostMrd) (s : State) : (setReads x1 s).pending = s.pending := by simp [setReads]
@[simp] theorem issueMrd_pending (x1 : HostMrd) (s : State) : (issueMrd x1 s).pending = s.pending := by simp [issueMrd]
@[simp] theorem issueMrds_pending (s : State) : (issueMrds s).pending = s.pending := by simp [issueMrds, apply_ite State.pending]
@[simp] theorem startFetch_pending (x1 : Nat) (x2 : Nat) (x3 : Nat) (x4 : Nat) (s : State) : (startFetch x1 x2 x3 x4 s).pending = s.pending := by simp [startFetch]
@[simp] theorem askPayloads_pending (x1 : Prog) (s : State) : (askPayloads x1 s).pending = s.pending := by simp [askPayloads, apply_ite State.pending]
@[simp] theorem recheckFirst_pending (s : State) : (recheckFirst s).pending = s.pending := by unfold recheckFirst; split <;> simp_all
@[simp] theorem beginSwitch_pending (s : State) : (beginSwitch s).pending = s.pending := by simp [beginSwitch]
@[simp] theorem failover_pending (x1 : Bool) (x2 : Nat) (s : State) : (failover x1 x2 s).pending = s.pending := by simp [failover, apply_ite State.pending]
@[simp] theorem switchMonarch_pending (x1 : Option Prog) (s : State) : (switchMonarch x1 s).pending = s.pending := by unfold switchMonarch; split <;> simp_all
@[simp] theorem applyCmd_pending (x1 : Option Prog) (x2 : PCmd) (s : State) : (applyCmd x1 x2 s).pending = s.pending := by unfold applyCmd; dsimp only; (repeat' split) <;> simp [apply_ite State.pending]
@[simp] theorem enablePort_pending (x1 : Nat) (s : State) : (enablePort x1 s).pending = s.pending := by simp [enablePort, apply_ite State.pending]
@[simp] theorem applyProfile_pending (x1 : Nat) (x2 : Nat) (x3 : Nat) (x4 : Nat) (x5 : Bool) (s : State) : (applyProfile x1 x2 x3 x4 x5 s).pending = s.pending := by simp [applyProfile]
theorem monarchRead_pending {x1 : List Byte} {s : State} {a : List Byte} {t : State} (h : monarchRead x1 s = (a, t)) : t.pending = s.pending := by
  refine (congrArg (fun x : List Byte × State => x.2.pending) h).symm.trans ?_
  unfold monarchRead
  dsimp only
  split
  · exact (draw_pending _).trans (silentReads_snd_pending _ _ _)
  · exact silentReads_snd_pending _ _ _
@[simp] theorem monarchRead_snd_pending (x1 : List Byte) (s : State) : (monarchRead x1 s).2.pending = s.pending := monarchRead_pending (Eq.refl _)
theorem readPayload_pending {x1 : PCmd} {s : State} {a : PCmd} {t : State} (h : readPayload x1 s = (a, t)) : t.pending = s.pending := by unfold readPayload at h; (repeat' split at h) <;> first | (injection h with h; subst h; (first | rfl | (simp [*]; done) | (have e := monarchRead_pending ‹_›; simp [*]; done)); done) | (simp at h; done) | (simp at h; obtain ⟨rfl, rfl⟩ := h; (first | rfl | (simp [*]; done) | (have e := monarchRead_pending ‹_›; simp [*]; done)); done) | (simp at h; subst h; (first | rfl | (simp [*]; done) | (have e := monarchRead_pending ‹_›; simp [*]; done)); done) | (simp at h; obtain ⟨_, rfl, rfl⟩ := h; (first | rfl | (simp [*]; done) | (have e := monarchRead_pending ‹_›; simp [*]; done)); done)
@[simp] theorem readPayload_snd_pending (x1 : PCmd) (s : State) : (readPayload x1 s).2.pending = s.pending := readPayload_pending (Eq.refl _)
theorem readPayloads_pending {x1 : List PCmd} {s : State} {a : List PCmd} {t : State} (h : readPayloads x1 s = (a, t)) : t.pending = s.pending := by
  refine (congrArg (fun x : List PCmd × State => x.2.pending) h).symm.trans ?_
  clear h
  induction x1 generalizing s with
  | nil => rfl
  | cons x xs ih => exact ih.trans (readPayload_snd_pending _ _)
@[simp] theorem readPayloads_snd_pending (x1 : List PCmd) (s : State) : (readPayloads x1 s).2.pending = s.pending := readPayloads_pending (Eq.refl _)
@[simp] theorem progEffects_pending (x1 : Option Prog) (x2 : Prog) (s : State) : (progEffects x1 x2 s).pending = s.pending := by unfold progEffects; dsimp only; (repeat' split) <;> simp [apply_ite State.pending]
@[simp] theorem commitProg_pending (x1 : Bool) (x2 : Prog) (s : State) : (commitProg x1 x2 s).pending = s.pending := by unfold commitProg; (repeat' split) <;> simp_all
theorem commitOne_pending {x1 : Nat} {s : State} {t : State} (h : commitOne x1 s = some t) : t.pending = s.pending := by unfold commitOne at h; (repeat' split at h) <;> first | (injection h with h; subst h; (first | rfl | (simp [*]; done) | (have e := recheckDue_pending ‹_›; simp [*]; done)); done) | (simp at h; done) | (simp at h; obtain ⟨rfl, rfl⟩ := h; (first | rfl | (simp [*]; done) | (have e := recheckDue_pending ‹_›; simp [*]; done)); done) | (simp at h; subst h; (first | rfl | (simp [*]; done) | (have e := recheckDue_pending ‹_›; simp [*]; done)); done) | (simp at h; obtain ⟨_, rfl, rfl⟩ := h; (first | rfl | (simp [*]; done) | (have e := recheckDue_pending ‹_›; simp [*]; done)); done)
@[simp] theorem commitDue_pending (x1 : Nat) (x2 : Nat) (s : State) : (commitDue x1 x2 s).pending = s.pending := by
  induction x2 generalizing s with
  | zero => rfl
  | succ k ih =>
    rw [commitDue]
    split
    · rfl
    · next e =>
      split
      · exact (ih _).trans (commitOne_pending e)
      · exact commitOne_pending e
@[simp] theorem ppsRise_pending (x1 : Nat) (s : State) : (ppsRise x1 s).pending = s.pending := by simp [ppsRise, apply_ite State.pending]
@[simp] theorem cmapStart_pending (s : State) : (cmapStart s).pending = s.pending := by simp [cmapStart]
@[simp] theorem cmapClear_pending (x1 : Nat) (s : State) : (cmapClear x1 s).pending = s.pending := by simp [cmapClear]
@[simp] theorem cmapBoundary_pending (s : State) : (cmapBoundary s).pending = s.pending := by simp [cmapBoundary, apply_ite State.pending]
@[simp] theorem ppsLost_pending (s : State) : (ppsLost s).pending = s.pending := by unfold ppsLost; dsimp only; (repeat' split) <;> simp [apply_ite State.pending]
@[simp] theorem overlapEnd_pending (x1 : UnitId) (x2 : Nat) (s : State) : (overlapEnd x1 x2 s).pending = s.pending := by unfold overlapEnd; (repeat' split) <;> simp_all
@[simp] theorem rotationTime_pending (x1 : UnitId) (x2 : Nat) (s : State) : (rotationTime x1 x2 s).pending = s.pending := by unfold rotationTime; (repeat' split) <;> simp_all
@[simp] theorem logRecord_pending (x1 : UnitId) (x2 : EvCode) (x3 : List Nat) (s : State) : (logRecord x1 x2 x3 s).pending = s.pending := by unfold logRecord; dsimp only; (repeat' split) <;> simp [apply_ite State.pending]
@[simp] theorem closeRecord_pending (x1 : UnitId) (x2 : FoldEntry) (s : State) : (closeRecord x1 x2 s).pending = s.pending := by simp [closeRecord]
@[simp] theorem closeEntry_pending (x1 : UnitId) (x2 : Nat) (x3 : FoldEntry → Bool) (s : State) : (closeEntry x1 x2 x3 s).pending = s.pending := by unfold closeEntry; dsimp only; (repeat' split) <;> simp [apply_ite State.pending]
@[simp] theorem skipSnaps_pending (x1 : UnitId) (x2 : Nat) (s : State) : (skipSnaps x1 x2 s).pending = s.pending := by unfold skipSnaps; split <;> simp_all
@[simp] theorem restartPeaks_pending (s : State) : (restartPeaks s).pending = s.pending := by simp [restartPeaks]
@[simp] theorem peaksRestart_pending (x1 : UnitId) (s : State) : (peaksRestart x1 s).pending = s.pending := by unfold peaksRestart; split <;> simp_all
@[simp] theorem latch_pending (x1 : UnitId) (x2 : Nat) (x3 : Bool) (x4 : Bool) (s : State) : (latch x1 x2 x3 x4 s).pending = s.pending := by unfold latch; dsimp only; (repeat' split) <;> simp [apply_ite State.pending]
@[simp] theorem periodic_pending (x1 : UnitId) (x2 : Nat) (s : State) : (periodic x1 x2 s).pending = s.pending := by simp [periodic, apply_ite State.pending]
@[simp] theorem furtherInstants_pending (x1 : UnitId) (x2 : Nat) (s : State) : (furtherInstants x1 x2 s).pending = s.pending := by simp [furtherInstants, apply_ite State.pending]
@[simp] theorem shotsBefore_pending (x1 : UnitId) (x2 : Nat) (x3 : Nat) (s : State) : (shotsBefore x1 x2 x3 s).pending = s.pending := by
  induction x3 generalizing s with
  | zero => rfl
  | succ n ih =>
    rw [shotsBefore]
    split
    · rfl
    · split
      · rfl
      · exact (ih _).trans ((latch_pending _ _ _ _ _).trans (setSnap_pending _ _ _))
@[simp] theorem shots_pending (x1 : UnitId) (x2 : Nat) (s : State) : (shots x1 x2 s).pending = s.pending := by simp [shots]
@[simp] theorem snapSetting_pending (x1 : UnitId) (s : State) : (snapSetting x1 s).pending = s.pending := by simp [snapSetting]
@[simp] theorem snapUnit_pending (x1 : UnitId) (s : State) : (snapUnit x1 s).pending = s.pending := by simp [snapUnit, apply_ite State.pending]
@[simp] theorem heldAgeOut_pending (x1 : Entry) (x2 : Nat) (s : State) : (heldAgeOut x1 x2 s).pending = s.pending := by unfold heldAgeOut; dsimp only; (repeat' split) <;> simp [apply_ite State.pending]

/-- What a list of deadlines does at each of them leaves the queue alone. -/
abbrev DueQuiet (l : List Due) : Prop := ∀ d ∈ l, ∀ t : State, (d.2 t).pending = t.pending
theorem dueQuiet_append {l m : List Due} (h : DueQuiet l) (k : DueQuiet m) : DueQuiet (l ++ m) := fun d e =>
  (List.mem_append.mp e).elim (h d) (k d)
theorem dueQuiet_cons {x : Due} {m : List Due} (h : ∀ t : State, (x.2 t).pending = t.pending) (k : DueQuiet m) : DueQuiet (x :: m) :=
  fun d e => (List.mem_cons.mp e).elim (fun e => e ▸ h) (k d)
theorem dueQuiet_nil : DueQuiet [] := fun _ e => absurd e List.not_mem_nil
theorem dueQuiet_map {α : Type} {l : List α} {f : α → Due} (h : ∀ a (t : State), ((f a).2 t).pending = t.pending) : DueQuiet (l.map f) := by
  intro d e
  obtain ⟨a, _, rfl⟩ := List.mem_map.mp e
  exact h a
theorem dueQuiet_flatMap {α : Type} {l : List α} {f : α → List Due} (h : ∀ a, DueQuiet (f a)) : DueQuiet (l.flatMap f) := by
  intro d e
  obtain ⟨a, _, e⟩ := List.mem_flatMap.mp e
  exact h a d e
theorem dueQuiet_dueOf (u : UnitId) (f0 : Nat) (s : State) : DueQuiet (dueOf u f0 s) := by
  have keys : ∀ u, DueQuiet (dueKeys u s) := fun u => by
    refine dueQuiet_flatMap fun n => ?_
    dsimp only
    split
    · exact dueQuiet_cons (fun t => rotationTime_pending _ _ _) (dueQuiet_cons (fun t => overlapEnd_pending _ _ _) dueQuiet_nil)
    · split
      · exact dueQuiet_cons (fun t => overlapEnd_pending _ _ _) dueQuiet_nil
      · exact dueQuiet_nil
  have folds : ∀ u, DueQuiet (dueFolds u s) := fun u => dueQuiet_flatMap fun x =>
    dueQuiet_cons (fun t => closeEntry_pending _ _ _ _) (dueQuiet_cons (fun t => closeEntry_pending _ _ _ _) dueQuiet_nil)
  have snaps : ∀ u, DueQuiet (dueSnaps u f0 s) := fun u =>
    dueQuiet_cons (fun t => snapUnit_pending _ _) (dueQuiet_map fun a t => snapUnit_pending _ _)
  have marks : ∀ u, DueQuiet (dueMarkers u f0 s) := fun u => by
    unfold dueMarkers
    dsimp only
    split
    · exact dueQuiet_append (dueQuiet_map fun a t => breezeSend_pending _ _)
        (dueQuiet_cons (fun t => breezeChain_pending _ _) (dueQuiet_cons (fun t => breezeChain_pending _ _) dueQuiet_nil))
    · exact dueQuiet_map fun a t => breezeSend_pending _ _
  cases u with
  | oeb side =>
    refine dueQuiet_append (dueQuiet_append (dueQuiet_append (dueQuiet_append ?_ (keys _)) (folds _)) (marks _)) (snaps _)
    unfold dueOeb
    dsimp only
    refine dueQuiet_append (dueQuiet_append (dueQuiet_append (dueQuiet_append ?_ ?_) ?_) ?_) ?_
    · refine dueQuiet_flatMap fun e => ?_
      split
      · exact dueQuiet_nil
      · exact dueQuiet_cons (fun t => loadTimeout_pending _ _ _) dueQuiet_nil
    · exact dueQuiet_map fun a t => waitingTimeout_pending _ _ _
    · exact dueQuiet_map fun a t => waitTimeout_pending _ _ _ _ _
    · exact dueQuiet_map fun a t => quarantineEnd_pending _ _ _
    · refine dueQuiet_flatMap fun e => ?_
      split
      · exact dueQuiet_nil
      · split
        · exact dueQuiet_cons (fun t => timerTrigger_pending _ _ _) dueQuiet_nil
        · exact dueQuiet_nil
  | ox9 =>
    refine dueQuiet_append (dueQuiet_append (dueQuiet_append (dueQuiet_append (dueQuiet_append (dueQuiet_append (dueQuiet_append
      (dueQuiet_append (dueQuiet_append (dueQuiet_append ?_ ?_) ?_) ?_) ?_) ?_) (keys _)) (folds _)) (marks _)) (snaps _)) ?_
    · exact dueQuiet_map fun a t => commitDue_pending _ _ _
    · exact dueQuiet_map fun a t => heldAgeOut_pending _ _ _
    · refine dueQuiet_flatMap fun p => dueQuiet_flatMap fun v => ?_
      split
      · exact dueQuiet_nil
      · split
        · exact dueQuiet_cons (fun t => ctStall_pending _ _ _) dueQuiet_nil
        · exact dueQuiet_nil
    · refine dueQuiet_flatMap fun m => dueQuiet_flatMap fun x => ?_
      split
      · exact dueQuiet_nil
      · exact dueQuiet_cons (fun t => cwAckTimeout_pending _ _ _ _) dueQuiet_nil
    · exact dueQuiet_flatMap fun k => dueQuiet_map fun r t => remoteTimeout_pending _ _ _ _
    · refine dueQuiet_flatMap fun d => dueQuiet_flatMap fun c => ?_
      split
      · exact dueQuiet_nil
      · exact dueQuiet_cons (fun t => lunaDeadline_pending _ _ _) dueQuiet_nil
    · unfold duePeriodic
      dsimp only
      refine dueQuiet_append (dueQuiet_cons (fun t => cmapBoundary_pending _) (dueQuiet_cons (fun t => ppsRise_pending _ _)
        (dueQuiet_cons (fun t => ppsRise_pending _ _) dueQuiet_nil))) ?_
      split
      · exact dueQuiet_nil
      · exact dueQuiet_cons (fun t => ppsLost_pending _) dueQuiet_nil
theorem mem_insertDue {d x : Due} {l : List Due} (h : x ∈ insertDue d l) : x = d ∨ x ∈ l := by
  induction l with
  | nil => exact .inl (List.mem_singleton.mp h)
  | cons y l ih =>
    rw [insertDue] at h
    split at h
    · exact List.mem_cons.mp h
    · rcases List.mem_cons.mp h with h | h
      · exact .inr (h ▸ List.mem_cons_self)
      · exact (ih h).imp id (List.mem_cons_of_mem _)
theorem mem_sortDue {x : Due} {l : List Due} (h : x ∈ sortDue l) : x ∈ l := by
  have key : ∀ (l acc : List Due), x ∈ l.foldl (fun a d => insertDue d a) acc → x ∈ l ∨ x ∈ acc := by
    intro l
    induction l with
    | nil => intro acc h; exact .inr h
    | cons d l ih =>
      intro acc h
      rcases ih _ h with h | h
      · exact .inl (List.mem_cons_of_mem _ h)
      · rcases mem_insertDue h with h | h
        · exact .inl (h ▸ List.mem_cons_self)
        · exact .inr h
  exact (key l [] h).elim id fun h => absurd h List.not_mem_nil
theorem runDue_pending (l : List Due) (s : State) (h : DueQuiet l) : (l.foldl (fun s d => d.2 s) s).pending = s.pending := by
  induction l generalizing s with
  | nil => rfl
  | cons d l ih =>
    rw [List.foldl_cons, ih _ fun x e => h x (List.mem_cons_of_mem _ e)]
    exact h d List.mem_cons_self _
@[simp] theorem fireDeadlines_pending (x1 : Nat) (x2 : UnitId) (x3 : Nat) (x4 : Nat) (s : State) : (fireDeadlines x1 x2 x3 x4 s).pending = s.pending := by
  induction x1 generalizing x3 x4 s with
  | zero => rfl
  | succ k ih =>
    have e : ∀ l : List Due, (∀ d ∈ l, d ∈ dueOf x2 x3 s) → (l.foldl (fun s d => d.2 s) s).pending = s.pending := fun l h =>
      runDue_pending _ _ fun d hd => dueQuiet_dueOf _ _ _ d (h d hd)
    have e1 := e (sortDue ((dueOf x2 x3 s).filter fun d => decide (x3 < d.1) && decide (d.1 ≤ x4))) fun d hd =>
      (List.mem_filter.mp (mem_sortDue hd)).1
    rw [fireDeadlines]
    split
    · exact (ih _ _ _).trans e1
    · exact e1
@[simp] theorem afterStep_pending (u : UnitId) (x : State × Option (Nat × Nat)) : (afterStep u x).pending = x.1.pending := by
  unfold afterStep
  split
  · rfl
  · split
    · exact fireDeadlines_pending _ _ _ _ _
    · rfl
theorem followMarker_pending {x1 : UnitId} {x2 : Nat} {x3 : Marker} {x4 : Int} {s : State} {t : State} {a : Option (Nat × Nat)} (h : followMarker x1 x2 x3 x4 s = (t, a)) : t.pending = s.pending := by
  unfold followMarker at h
  dsimp only at h
  split at h
  · injection h with h _
    rw [← h]
    simp
  · split at h
    · injection h with h _
      rw [← h]
      simp
    · injection h with h _
      rw [← h]
      simp
@[simp] theorem followMarker_fst_pending (x1 : UnitId) (x2 : Nat) (x3 : Marker) (x4 : Int) (s : State) : (followMarker x1 x2 x3 x4 s).1.pending = s.pending := followMarker_pending (Eq.refl _)
theorem markerRx_pending {x1 : UnitId} {x2 : Nat} {x3 : Nat} {x4 : Marker} {s : State} {t : State} {a : Option (Nat × Nat)} (h : markerRx x1 x2 x3 x4 s = (t, a)) : t.pending = s.pending := by
  unfold markerRx at h
  dsimp only at h
  split at h
  · split at h
    · injection h with h _
      rw [← h]
      simp
    · injection h with h _
      rw [← h]
      simp
  · split at h
    · injection h with h _
      rw [← h]
      simp
    · split at h
      · split at h
        · refine (followMarker_pending h).trans ?_
          simp
        · injection h with h _
          rw [← h]
          simp
      · refine (followMarker_pending h).trans ?_
        simp
@[simp] theorem markerRx_fst_pending (x1 : UnitId) (x2 : Nat) (x3 : Nat) (x4 : Marker) (s : State) : (markerRx x1 x2 x3 x4 s).1.pending = s.pending := markerRx_pending (Eq.refl _)
@[simp] theorem breezeFrameRx_pending (x1 : Nat) (x2 : List Byte) (s : State) : (breezeFrameRx x1 x2 s).pending = s.pending := by
  unfold breezeFrameRx
  split
  · next h => exact frameArrives_pending h
  · next h =>
    split
    · exact frameArrives_pending h
    · dsimp only
      rw [afterStep_pending]
      exact (markerRx_pending (Prod.eta _).symm).trans (frameArrives_pending h)
@[simp] theorem countLink_pending (x1 : LinkEnd) (x2 : Ctr) (s : State) : (countLink x1 x2 s).pending = s.pending := by unfold countLink; split <;> simp_all
@[simp] theorem startTimeouts_pending (x1 : Side) (s : State) : (startTimeouts x1 s).pending = s.pending := by simp [startTimeouts]
@[simp] theorem firstLock_pending (x1 : UnitId) (x2 : Nat) (s : State) : (firstLock x1 x2 s).pending = s.pending := by unfold firstLock; (repeat' split) <;> simp_all
theorem receiveAs_pending {x1 : LinkEnd} {x2 : Nat} {x3 : Bool} {x4 : Line} {s : State} {a : List RxGroup} {t : State} (h : receiveAs x1 x2 x3 x4 s = (a, t)) : t.pending = s.pending := by
  refine (congrArg (fun x : List RxGroup × State => x.2.pending) h).symm.trans ?_
  unfold receiveAs
  exact setAux_pending _ _ _
@[simp] theorem receiveAs_snd_pending (x1 : LinkEnd) (x2 : Nat) (x3 : Bool) (x4 : Line) (s : State) : (receiveAs x1 x2 x3 x4 s).2.pending = s.pending := receiveAs_pending (x3 := x3) (a := (receiveAs x1 x2 x3 x4 s).1) (Eq.refl _)
theorem receive_pending {x1 : LinkEnd} {x2 : Line} {s : State} {a : List RxGroup} {t : State} (h : receive x1 x2 s = (a, t)) : t.pending = s.pending := by
  unfold receive at h
  dsimp only at h
  split at h <;> exact receiveAs_pending h
@[simp] theorem receive_snd_pending (x1 : LinkEnd) (x2 : Line) (s : State) : (receive x1 x2 s).2.pending = s.pending := receive_pending (Eq.refl _)
@[simp] theorem atBoundary_pending (x1 : LinkEnd) (x2 : Line) (x3 : Special → List RxGroup → State → State) (x4 : List RxGroup → State → State) (s : State) (h3 : ∀ a0 a1 t, (x3 a0 a1 t).pending = t.pending) (h4 : ∀ a0 t, (x4 a0 t).pending = t.pending) : (atBoundary x1 x2 x3 x4 s).pending = s.pending := by simp only [atBoundary]; (repeat' split) <;> simp_all
@[simp] theorem insertIn_pending (x1 : LinkEnd) (x2 : Special) (x3 : Line) (x4 : List RxGroup → State → State) (s : State) (h4 : ∀ a0 t, (x4 a0 t).pending = t.pending) : (insertIn x1 x2 x3 x4 s).pending = s.pending := by
  unfold insertIn
  refine atBoundary_pending _ _ _ _ _ (fun a b t => ?_) fun a t => rfl
  split
  · exact h4 _ _
  · rfl
@[simp] theorem breezeRx_pending (x1 : LinkEnd) (x2 : Line) (s : State) : (breezeRx x1 x2 s).pending = s.pending := by
  unfold breezeRx
  refine insertIn_pending _ _ _ _ _ fun a t => ?_
  split
  · exact countLink_pending _ _ _
  · exact (firstLock_pending _ _ _).trans ((afterStep_pending _ _).trans (markerRx_pending (Prod.eta _).symm))
@[simp] theorem commitLoop_pending (x1 : Nat) (s : State) : (commitLoop x1 s).pending = s.pending := by
  induction x1 generalizing s with
  | zero => rfl
  | succ k ih =>
    rw [commitLoop]
    split
    · exact commitDue_pending _ _ _
    · rw [ih, afterStep_pending]
      exact commitDue_pending _ _ _
@[simp] theorem withStep_pending (x1 : State → State) (s : State) (h1 : ∀ t, (x1 t).pending = t.pending) : (withStep x1 s).pending = s.pending := by
  unfold withStep
  exact (afterStep_pending _ _).trans (h1 _)
theorem run_pending {x1 : State → State} {s : State} (h1 : ∀ t, (x1 t).pending = t.pending) {t : State} (h : run x1 s = .next t) : t.pending = s.pending := by unfold run at h; (repeat' split at h) <;> first | (injection h with h; subst h; (first | rfl | (simp [*]; done)); done) | (simp at h; done) | (simp at h; obtain ⟨rfl, rfl⟩ := h; (first | rfl | (simp [*]; done)); done) | (simp at h; subst h; (first | rfl | (simp [*]; done)); done) | (simp at h; obtain ⟨_, rfl, rfl⟩ := h; (first | rfl | (simp [*]; done)); done)
@[simp] theorem tailMarked_pending (x1 : Side) (x2 : Header) (s : State) : (tailMarked x1 x2 s).pending = s.pending := by simp [tailMarked]
@[simp] theorem oebMalformed_pending (x1 : Side) (x2 : Nat) (x3 : Header) (s : State) : (oebMalformed x1 x2 x3 s).pending = s.pending := by simp [oebMalformed]
@[simp] theorem snoopRx_pending (x1 : Side) (x2 : Packet) (x3 : Bool) (x4 : Nat → State → State) (s : State) (h4 : ∀ a0 t, (x4 a0 t).pending = t.pending) : (snoopRx x1 x2 x3 x4 s).pending = s.pending := by unfold snoopRx; (repeat' split) <;> simp_all
@[simp] theorem spdmFail_pending (x1 : UnitId) (x2 : Nat) (s : State) : (spdmFail x1 x2 s).pending = s.pending := by simp [spdmFail]
@[simp] theorem devsetEffect_pending (x1 : UnitId) (x2 : BitVec 384) (x3 : KeyCmd) (s : State) : (devsetEffect x1 x2 x3 s).pending = s.pending := by simp [devsetEffect]
@[simp] theorem keyRotateEffect_pending (x1 : UnitId) (x2 : KeyCmd) (s : State) : (keyRotateEffect x1 x2 s).pending = s.pending := by unfold keyRotateEffect; dsimp only; (repeat' split) <;> simp [apply_ite State.pending]
@[simp] theorem keySetEffect_pending (x1 : UnitId) (x2 : BitVec 384) (x3 : KeyCmd) (s : State) : (keySetEffect x1 x2 x3 s).pending = s.pending := by
  unfold keySetEffect
  dsimp only
  split
  · rw [refreshPart_pending]
    generalize hs : (sf UnitId.ox9 KS_INFO.ROT_AT _ _ _ : State) = s2
    have e : s2.pending = s.pending := by
      rw [← hs]
      simp
    split
    · rw [setKeySec_pending, e]
    · exact e
  · generalize hs : (sf _ KS_INFO.ROT_AT _ _ _ : State) = s2
    have e : s2.pending = s.pending := by
      rw [← hs]
      simp
    split
    · rw [setKeySec_pending, e]
    · exact e
@[simp] theorem keyEffect_pending (x1 : UnitId) (x2 : KeyOp) (x3 : Session) (x4 : KeyCmd) (s : State) : (keyEffect x1 x2 x3 x4 s).pending = s.pending := by
  unfold keyEffect
  split
  · exact keySetEffect_pending _ _ _ _
  · exact keyRotateEffect_pending _ _ _
  · exact eraseSlot_pending _ _ _
  · exact devsetEffect_pending _ _ _ _
  · rfl
@[simp] theorem keyCommand_pending (x1 : UnitId) (x2 : KeyOp) (x3 : Nat) (x4 : KeyCmd) (s : State) : (keyCommand x1 x2 x3 x4 s).pending = s.pending := by unfold keyCommand; dsimp only; (repeat' split) <;> simp [apply_ite State.pending]
theorem spdmAt_pending {x1 : UnitId} {x2 : State → State} {s : State} (h2 : ∀ t, (x2 t).pending = t.pending) {t : State} (h : spdmAt x1 x2 s = .next t) : t.pending = s.pending := by unfold spdmAt at h; (repeat' split at h) <;> first | (injection h with h; subst h; (first | rfl | (simp [*]; done)); done) | (simp at h; done) | (simp at h; obtain ⟨rfl, rfl⟩ := h; (first | rfl | (simp [*]; done)); done) | (simp at h; subst h; (first | rfl | (simp [*]; done)); done) | (simp at h; obtain ⟨_, rfl, rfl⟩ := h; (first | rfl | (simp [*]; done)); done)
theorem live_pending {x1 : State → State} {s : State} (h1 : ∀ t, (x1 t).pending = t.pending) {t : State} (h : live x1 s = .next t) : t.pending = s.pending := by unfold live at h; (repeat' split at h) <;> first | (injection h with h; subst h; (first | rfl | (simp [*]; done)); done) | (simp at h; done) | (simp at h; obtain ⟨rfl, rfl⟩ := h; (first | rfl | (simp [*]; done)); done) | (simp at h; subst h; (first | rfl | (simp [*]; done)); done) | (simp at h; obtain ⟨_, rfl, rfl⟩ := h; (first | rfl | (simp [*]; done)); done)
@[simp] theorem progress_pending (x1 : Nat) (x2 : ChunkId) (s : State) : (progress x1 x2 s).pending = s.pending := by simp [progress]
@[simp] theorem recordRx_pending (x1 : Nat) (x2 : CheckRecord) (s : State) : (recordRx x1 x2 s).pending = s.pending := by unfold recordRx; dsimp only; (repeat' split) <;> simp [apply_ite State.pending]
@[simp] theorem refclkRestored_pending (s : State) : (refclkRestored s).pending = s.pending := by simp [refclkRestored, apply_ite State.pending]
@[simp] theorem progFault_pending (x1 : Nat) (x2 : Nat) (s : State) : (progFault x1 x2 s).pending = s.pending := by unfold progFault; dsimp only; (repeat' split) <;> simp [apply_ite State.pending]
@[simp] theorem issue_pending (x1 : Core) (x2 : Instr) (x3 : Run → State → Exec) (s : State) (h3 : ∀ a0 t u, x3 a0 t = .ok u → u.pending = t.pending) : (issue x1 x2 x3 s).pending = s.pending := by
  unfold issue
  split
  · rfl
  · split
    · split
      · next e => exact h3 _ _ _ e
      · exact progFault_pending _ _ _
    · rfl
theorem lunaOp_pending {x1 : Core} {x2 : Instr} {x3 : Run → State → Exec} {s : State} (h3 : ∀ a0 t u, x3 a0 t = .ok u → u.pending = t.pending) {t : State} (h : lunaOp x1 x2 x3 s = .next t) : t.pending = s.pending := by
  unfold lunaOp live at h
  split at h <;> (injection h with h; subst h)
  · rfl
  · exact issue_pending _ _ _ _ h3
@[simp] theorem retire_pending (x1 : Run) (x2 : LCore) (s : State) : (retire x1 x2 s).pending = s.pending := by simp [retire]
theorem scalarTo_pending {x1 : Run} {x2 : SReg} {x3 : Word} {s : State} {t : State} (h : scalarTo x1 x2 x3 s = .ok t) : t.pending = s.pending := by unfold scalarTo at h; (repeat' split at h) <;> first | (injection h with h; subst h; (first | rfl | (simp [*]; done)); done) | (simp at h; done) | (simp at h; obtain ⟨rfl, rfl⟩ := h; (first | rfl | (simp [*]; done)); done) | (simp at h; subst h; (first | rfl | (simp [*]; done)); done) | (simp at h; obtain ⟨_, rfl, rfl⟩ := h; (first | rfl | (simp [*]; done)); done)
theorem aluImm_pending {x1 : Core} {x2 : Instr} {x3 : SReg} {x4 : SReg} {x5 : Word → Word} {s : State} {t : State} (h : aluImm x1 x2 x3 x4 x5 s = .next t) : t.pending = s.pending := by
  unfold aluImm at h
  refine lunaOp_pending (fun r t u e => ?_) h
  simp [scalarTo] at e
  subst e
  first | simp | (split <;> simp)
theorem liveAt_pending {x1 : UnitId} {x2 : State → State} {s : State} (h2 : ∀ t, (x2 t).pending = t.pending) {t : State} (h : liveAt x1 x2 s = .next t) : t.pending = s.pending := by
  unfold liveAt at h
  split at h
  · unfold live at h
    split at h <;> (injection h with h; subst h)
    · rfl
    · exact h2 _
  · injection h with h
    subst h
    exact h2 _
@[simp] theorem returnUnit_pending (x1 : UnitKind) (x2 : Nat) (s : State) : (returnUnit x1 x2 s).pending = s.pending := by
  have e0 : (noteChange (setUnitLog { unitLog x1 x2 s with out := false, counted := false } s)).pending = s.pending := by
    rw [noteChange_pending, setUnitLog_pending]
  unfold returnUnit
  generalize noteChange (setUnitLog { unitLog x1 x2 s with out := false, counted := false } s) = t at e0 ⊢
  dsimp only
  split
  · split
    · exact e0
    · rw [spareBack_pending, sx_pending, sx_pending, sx_pending]
      exact e0
  · split
    · exact e0
    · rw [sx_pending, modLuna_pending]
      exact e0
  · split
    · exact e0
    · rw [sx_pending, sx_pending, sx_pending, sx_pending, sx_pending]
      exact e0
  · rw [sx_pending, sx_pending, sx_pending, sx_pending]
    exact e0
  · exact e0
@[simp] theorem restored_pending (x1 : UnitTest) (s : State) : (restored x1 s).pending = s.pending := by simp [restored]
@[simp] theorem bootUnit_pending (x1 : UnitKind) (x2 : Nat) (s : State) : (bootUnit x1 x2 s).pending = s.pending := by simp [bootUnit, apply_ite State.pending]
@[simp] theorem testFailed_pending (x1 : UnitTest) (x2 : Nat) (s : State) : (testFailed x1 x2 s).pending = s.pending := by simp [testFailed]
@[simp] theorem testDone_pending (x1 : UnitKind) (x2 : Nat) (x3 : Bool) (s : State) : (testDone x1 x2 x3 s).pending = s.pending := by unfold testDone; dsimp only; (repeat' split) <;> simp [apply_ite State.pending]
theorem inPhase_pending {x1 : Nat} {x2 : State → State} {s : State} (h2 : ∀ t, (x2 t).pending = t.pending) {t : State} (h : inPhase x1 x2 s = .next t) : t.pending = s.pending := by unfold inPhase at h; (repeat' split at h) <;> first | (injection h with h; subst h; (first | rfl | (simp [*]; done)); done) | (simp at h; done) | (simp at h; obtain ⟨rfl, rfl⟩ := h; (first | rfl | (simp [*]; done)); done) | (simp at h; subst h; (first | rfl | (simp [*]; done)); done) | (simp at h; obtain ⟨_, rfl, rfl⟩ := h; (first | rfl | (simp [*]; done)); done)
@[simp] theorem stageState_pending (x1 : Nat) (x2 : List Nat) (s : State) : (stageState x1 x2 s).pending = s.pending := by simp [stageState]
@[simp] theorem powerDone_pending (s : State) : (powerDone s).pending = s.pending := by simp [powerDone]
@[simp] theorem noteGov_pending (x1 : Held) (x2 : Nat) (s : State) : (noteGov x1 x2 s).pending = s.pending := by simp [noteGov, apply_ite State.pending]
@[simp] theorem retryReads_pending (x1 : Held) (x2 : List (Nat × SramRead)) (s : State) : (retryReads x1 x2 s).pending = s.pending := by simp [retryReads]
@[simp] theorem heldAdmit_pending (x1 : Entry) (x2 : Nat) (x3 : List (Nat × SramRead)) (s : State) : (heldAdmit x1 x2 x3 s).pending = s.pending := by unfold heldAdmit; (repeat' split) <;> simp_all
theorem alu_pending {x1 : Core} {x2 : Instr} {x3 : SReg} {x4 : SReg} {x5 : SReg} {x6 : Word → Word → Word} {s : State} {t : State} (h : alu x1 x2 x3 x4 x5 x6 s = .next t) : t.pending = s.pending := by
  unfold alu at h
  refine lunaOp_pending (fun r t u e => ?_) h
  simp [scalarTo] at e
  subst e
  first | simp | (split <;> simp)
@[simp] theorem invFull_pending (x1 : Side) (s : State) : (invFull x1 s).pending = s.pending := by simp [invFull]
@[simp] theorem invDone_pending (x1 : Side) (s : State) : (invDone x1 s).pending = s.pending := by simp [invDone]
@[simp] theorem invPurge_pending (x1 : Side) (s : State) : (invPurge x1 s).pending = s.pending := by unfold invPurge; dsimp only; (repeat' split) <;> simp [apply_ite State.pending]
@[simp] theorem accSat_pending (x1 : Run) (x2 : Nat) (s : State) : (accSat x1 x2 s).pending = s.pending := by
  induction x2 generalizing s with
  | zero => rfl
  | succ n ih => rw [accSat, ih, raise_pending, countD_pending]
@[simp] theorem retireChunk_pending (x1 : Run) (x2 : LChunk) (x3 : LCore) (s : State) : (retireChunk x1 x2 x3 s).pending = s.pending := by simp [retireChunk]
@[simp] theorem lostWord_pending (x1 : Nat) (x2 : LTask) (s : State) : (lostWord x1 x2 s).pending = s.pending := by simp [lostWord]
@[simp] theorem issueRead_pending (x1 : Core) (x2 : Instr) (x3 : SramRead) (x4 : Run → State → Exec) (s : State) (h4 : ∀ a0 t u, x4 a0 t = .ok u → u.pending = t.pending) : (issueRead x1 x2 x3 x4 s).pending = s.pending := by
  unfold issueRead
  split
  · rfl
  · refine ite_pending rfl (ite_pending ?_ ?_)
    · exact (lostWord_pending _ _ _).trans (sramRead_pending _ _ _)
    · exact (issue_pending _ _ _ _ h4).trans (sramRead_pending _ _ _)
theorem lunaRead_pending {x1 : Core} {x2 : Instr} {x3 : SramRead} {x4 : Run → State → Exec} {s : State} (h4 : ∀ a0 t u, x4 a0 t = .ok u → u.pending = t.pending) {t : State} (h : lunaRead x1 x2 x3 x4 s = .next t) : t.pending = s.pending := by
  unfold lunaRead live at h
  split at h <;> (injection h with h; subst h)
  · rfl
  · exact issueRead_pending _ _ _ _ _ h4
theorem xop_pending {x1 : Core} {x2 : Instr} {x3 : XOp} {x4 : ElemT} {x5 : AReg} {x6 : VReg} {x7 : SReg} {x8 : PReg} {x9 : SramRead} {s : State} {t : State} (h : xop x1 x2 x3 x4 x5 x6 x7 x8 x9 s = .next t) : t.pending = s.pending := by
  unfold xop at h
  refine lunaRead_pending (fun r t u e => ?_) h
  dsimp only at e
  repeat' split at e
  all_goals first | (cases e; done) | (injection e with e; subst e; simp; done) | (injection e with e; subst e; simp; split <;> simp)
@[simp] theorem spdmReply_pending (x1 : UnitId) (x2 : Nat) (x3 : List Byte) (x4 : Nat) (s : State) : (spdmReply x1 x2 x3 x4 s).pending = s.pending := by simp [spdmReply]
@[simp] theorem serveToken_pending (x1 : Nat × Nat) (s : State) : (serveToken x1 s).pending = s.pending := by simp [serveToken, apply_ite State.pending]
@[simp] theorem serveTokens_pending (x1 : Nat) (s : State) : (serveTokens x1 s).pending = s.pending := by simp [serveTokens]
@[simp] theorem tokenRequest_pending (x1 : Nat) (x2 : Nat) (s : State) : (tokenRequest x1 x2 s).pending = s.pending := by simp [tokenRequest, apply_ite State.pending]
theorem loadTo_pending {x1 : Core} {x2 : Instr} {x3 : SReg} {x4 : SReg} {x5 : Imm} {x6 : Nat} {x7 : SramRead} {s : State} {t : State} (h : loadTo x1 x2 x3 x4 x5 x6 x7 s = .next t) : t.pending = s.pending := by
  unfold loadTo at h
  refine lunaRead_pending (fun r t u e => ?_) h
  split at e
  · exact scalarTo_pending e
  · cases e
@[simp] theorem dmaWaitTest_pending (x1 : Side) (x2 : Nat) (s : State) : (dmaWaitTest x1 x2 s).pending = s.pending := by simp [dmaWaitTest]
@[simp] theorem chHalt_pending (x1 : Side) (x2 : Nat) (x3 : Nat) (s : State) : (chHalt x1 x2 x3 s).pending = s.pending := by simp [chHalt]
@[simp] theorem dmaErrTraces_pending (x1 : Side) (x2 : Nat) (x3 : Nat) (x4 : Nat) (s : State) : (dmaErrTraces x1 x2 x3 x4 s).pending = s.pending := by simp [dmaErrTraces]
@[simp] theorem chFail_pending (x1 : Side) (x2 : Nat) (x3 : Nat) (x4 : Nat) (s : State) : (chFail x1 x2 x3 x4 s).pending = s.pending := by simp [chFail]
@[simp] theorem tailWrite_pending (x1 : Side) (x2 : Nat) (x3 : Nat) (s : State) : (tailWrite x1 x2 x3 s).pending = s.pending := by simp [tailWrite, apply_ite State.pending]
theorem openFrom_pending {x1 : UnitId} {x2 : Option KeySlot} {x3 : List Nat} {x4 : Packet} {s : State} {a : Option (List Byte)} {t : State} (h : openFrom x1 x2 x3 x4 s = (a, t)) : t.pending = s.pending := by unfold openFrom at h; (repeat' split at h) <;> first | (injection h with h; subst h; (first | rfl | (simp [*]; done)); done) | (simp at h; done) | (simp at h; obtain ⟨rfl, rfl⟩ := h; (first | rfl | (simp [*]; done)); done) | (simp at h; subst h; (first | rfl | (simp [*]; done)); done) | (simp at h; obtain ⟨_, rfl, rfl⟩ := h; (first | rfl | (simp [*]; done)); done)
@[simp] theorem openFrom_snd_pending (x1 : UnitId) (x2 : Option KeySlot) (x3 : List Nat) (x4 : Packet) (s : State) : (openFrom x1 x2 x3 x4 s).2.pending = s.pending := openFrom_pending (Eq.refl _)
theorem openUnder_pending {x1 : UnitId} {x2 : Nat} {x3 : List Nat} {x4 : Packet} {s : State} {a : Option (List Byte)} {t : State} (h : openUnder x1 x2 x3 x4 s = (a, t)) : t.pending = s.pending := by
  unfold openUnder at h
  exact openFrom_pending h
@[simp] theorem openUnder_snd_pending (x1 : UnitId) (x2 : Nat) (x3 : List Nat) (x4 : Packet) (s : State) : (openUnder x1 x2 x3 x4 s).2.pending = s.pending := openUnder_pending (Eq.refl _)
theorem openPacket_pending {x1 : UnitId} {x2 : Nat} {x3 : Packet} {s : State} {a : Option (List Byte)} {t : State} (h : openPacket x1 x2 x3 s = (a, t)) : t.pending = s.pending := by
  exact openUnder_pending h
@[simp] theorem openPacket_snd_pending (x1 : UnitId) (x2 : Nat) (x3 : Packet) (s : State) : (openPacket x1 x2 x3 s).2.pending = s.pending := openPacket_pending (Eq.refl _)
@[simp] theorem gcmFail_pending (x1 : Side) (x2 : Header) (x3 : Bool) (s : State) : (gcmFail x1 x2 x3 s).pending = s.pending := by simp [gcmFail, apply_ite State.pending]
theorem openReport_pending {x1 : UnitId} {x2 : Packet} {s : State} {a : Option (List Byte)} {t : State} (h : openReport x1 x2 s = (a, t)) : t.pending = s.pending := by
  exact openUnder_pending h
@[simp] theorem openReport_snd_pending (x1 : UnitId) (x2 : Packet) (s : State) : (openReport x1 x2 s).2.pending = s.pending := openReport_pending (Eq.refl _)
@[simp] theorem inboundCheck_pending (x1 : Side) (x2 : Packet) (x3 : Bool) (x4 : Nat → State → State) (x5 : List Byte → State → State) (s : State) (h4 : ∀ a0 t, (x4 a0 t).pending = t.pending) (h5 : ∀ a0 t, (x5 a0 t).pending = t.pending) : (inboundCheck x1 x2 x3 x4 x5 s).pending = s.pending := by
  unfold inboundCheck
  dsimp only
  refine ite_pending ((h4 _ _).trans ((raiseOF_pending _ _ _ _ _ _ _ _ _ _).trans (countO_pending _ _ _))) (ite_pending
    ((h4 _ _).trans ((raiseOF_pending _ _ _ _ _ _ _ _ _ _).trans (countO_pending _ _ _))) (ite_pending ?_ (ite_pending
      ((h4 _ _).trans ((raiseOF_pending _ _ _ _ _ _ _ _ _ _).trans (countO_pending _ _ _))) (h5 _ _))))
  have e : (if (decide (x2.hdr.opcode.toNat = opMSG) && decide (slotKind (.oeb x1) x2.hdr.keySlot.toNat s = 2)) = true then openReport (.oeb x1) x2 s
      else openPacket (.oeb x1) 1 x2 s).2.pending = s.pending := by
    split
    · exact openReport_snd_pending _ _ _
    · exact openPacket_snd_pending _ _ _ _
  split
  · next q =>
    rw [q] at e
    exact (h5 _ _).trans e
  · next q =>
    rw [q] at e
    exact ite_pending (h5 _ _) ((h4 _ _).trans ((gcmFail_pending _ _ _ _).trans e))
@[simp] theorem cohAtHome_pending (x1 : Side) (x2 : Packet) (x3 : Bool) (s : State) : (cohAtHome x1 x2 x3 s).pending = s.pending := by simp [cohAtHome, apply_ite State.pending]
@[simp] theorem gotCpl_pending (x1 : List Byte) (s : State) : (gotCpl x1 s).pending = s.pending := by simp [gotCpl, apply_ite State.pending]
theorem manned_pending {x1 : State → State} {s : State} (h1 : ∀ t, (x1 t).pending = t.pending) {t : State} (h : manned x1 s = .next t) : t.pending = s.pending := by unfold manned at h; (repeat' split at h) <;> first | (injection h with h; subst h; (first | rfl | (simp [*]; done)); done) | (simp at h; done) | (simp at h; obtain ⟨rfl, rfl⟩ := h; (first | rfl | (simp [*]; done)); done) | (simp at h; subst h; (first | rfl | (simp [*]; done)); done) | (simp at h; obtain ⟨_, rfl, rfl⟩ := h; (first | rfl | (simp [*]; done)); done)
theorem xswp_pending {x1 : Core} {x2 : Instr} {x3 : XOp} {x4 : Bool} {x5 : ElemT} {x6 : AReg} {x7 : AReg} {x8 : SReg} {x9 : PReg} {x10 : SramRead} {s : State} {t : State} (h : xswp x1 x2 x3 x4 x5 x6 x7 x8 x9 x10 s = .next t) : t.pending = s.pending := by
  unfold xswp at h
  refine lunaRead_pending (fun r t u e => ?_) h
  dsimp only at e
  repeat' split at e
  all_goals first | (cases e; done) | (injection e with e; subst e; simp; done) | (injection e with e; subst e; simp; split <;> simp)
@[simp] theorem postedDone_pending (x1 : Side) (s : State) : (postedDone x1 s).pending = s.pending := by simp [postedDone]
@[simp] theorem keyAbsent_pending (x1 : Side) (x2 : Header) (s : State) : (keyAbsent x1 x2 s).pending = s.pending := by simp [keyAbsent, apply_ite State.pending]
theorem formPacket_pending {x1 : Side} {x2 : Header} {x3 : List Byte} {s : State} {a : Packet} {t : State} (h : formPacket x1 x2 x3 s = some (a, t)) : t.pending = s.pending := by
  unfold formPacket at h
  split at h
  · exact sealPacket_pending h
  · split at h <;> (injection h with h; injection h with _ h; rw [h])
@[simp] theorem holdReq_pending (x1 : Side) (x2 : Req) (s : State) : (holdReq x1 x2 s).pending = s.pending := by simp [holdReq, apply_ite State.pending]
@[simp] theorem oebQueue_pending (x1 : Side) (x2 : Nat) (x3 : Nat) (x4 : Packet) (s : State) : (oebQueue x1 x2 x3 x4 s).pending = s.pending := by simp [oebQueue]
@[simp] theorem rateNote_pending (x1 : Side) (x2 : Nat) (x3 : Nat) (x4 : Nat) (s : State) : (rateNote x1 x2 x3 x4 s).pending = s.pending := by simp [rateNote]
@[simp] theorem sendReq_pending (x1 : Side) (x2 : Req) (x3 : Nat) (s : State) : (sendReq x1 x2 x3 s).pending = s.pending := by unfold sendReq; repeat' (first | (first | rfl | (simp [*]; done) | (have e := formPacket_pending ‹_›; simp [*]; done)) | split | (refine (foldl_pending _ _ _ (fun _ _ => ?_)).trans ?_) | (simp only [apply_ite State.pending, *]))
@[simp] theorem issueNext_pending (x1 : Side) (s : State) : (issueNext x1 s).pending = s.pending := by unfold issueNext; (repeat' split) <;> simp_all
@[simp] theorem txMove_pending (x1 : Side) (x2 : Nat) (x3 : TxPkt) (s : State) : (txMove x1 x2 x3 s).pending = s.pending := by unfold txMove; dsimp only; (repeat' split) <;> simp [apply_ite State.pending]
@[simp] theorem txReclaim_pending (x1 : Side) (s : State) : (txReclaim x1 s).pending = s.pending := by unfold txReclaim; repeat' (first | (first | rfl | (simp [*]; done)) | split | (refine (foldl_pending _ _ _ (fun _ _ => ?_)).trans ?_) | (simp only [apply_ite State.pending, *]))
@[simp] theorem requestIssue_pending (x1 : Side) (s : State) : (requestIssue x1 s).pending = s.pending := by simp [requestIssue]
@[simp] theorem ctxCfgRead_pending (x1 : Side) (x2 : Nat) (s : State) : (ctxCfgRead x1 x2 s).pending = s.pending := by simp [ctxCfgRead]
@[simp] theorem voltageTimeout_pending (s : State) : (voltageTimeout s).pending = s.pending := by unfold voltageTimeout; dsimp only; (repeat' split) <;> simp [apply_ite State.pending]
@[simp] theorem failoverFault_pending (s : State) : (failoverFault s).pending = s.pending := by unfold failoverFault; split <;> simp_all
@[simp] theorem thermWarn_pending (x1 : Nat) (x2 : Int) (s : State) : (thermWarn x1 x2 s).pending = s.pending := by simp [thermWarn, apply_ite State.pending]
@[simp] theorem walkRead_pending (x1 : Side) (x2 : Walk) (s : State) : (walkRead x1 x2 s).pending = s.pending := by simp [walkRead]
@[simp] theorem walkFrom_pending (x1 : Side) (x2 : Walk) (s : State) : (walkFrom x1 x2 s).pending = s.pending := by simp [walkFrom]
@[simp] theorem walkRoot_pending (x1 : Side) (x2 : Walk) (s : State) : (walkRoot x1 x2 s).pending = s.pending := by simp [walkRoot]
@[simp] theorem walkBegin_pending (x1 : Side) (x2 : Walk) (s : State) : (walkBegin x1 x2 s).pending = s.pending := by unfold walkBegin; dsimp only; (repeat' split) <;> simp [apply_ite State.pending]
@[simp] theorem walkStart_pending (x1 : Side) (s : State) : (walkStart x1 s).pending = s.pending := by unfold walkStart; dsimp only; (repeat' split) <;> simp [apply_ite State.pending]
@[simp] theorem ringRead_pending (x1 : Side) (x2 : Nat) (x3 : Nat) (x4 : Nat) (x5 : List Byte) (s : State) : (ringRead x1 x2 x3 x4 x5 s).pending = s.pending := by simp [ringRead, apply_ite State.pending]
@[simp] theorem descDone_pending (x1 : Side) (x2 : Nat) (x3 : Desc) (s : State) : (descDone x1 x2 x3 s).pending = s.pending := by simp [descDone, apply_ite State.pending]
@[simp] theorem crecDone_pending (x1 : Side) (x2 : Nat) (x3 : Nat) (s : State) : (crecDone x1 x2 x3 s).pending = s.pending := by unfold crecDone; (repeat' split) <;> simp_all
@[simp] theorem crecWrite_pending (x1 : Side) (x2 : Nat) (x3 : Nat) (s : State) : (crecWrite x1 x2 x3 s).pending = s.pending := by unfold crecWrite; (repeat' split) <;> simp_all
@[simp] theorem dmaXlat_pending (x1 : Side) (x2 : XMiss) (x3 : XAns) (s : State) : (dmaXlat x1 x2 x3 s).pending = s.pending := by unfold dmaXlat; (repeat' split) <;> simp_all
@[simp] theorem xlatAnswers_pending (x1 : Side) (x2 : List (XMiss × XAns)) (s : State) : (xlatAnswers x1 x2 s).pending = s.pending := by unfold xlatAnswers; repeat' (first | (first | rfl | (simp [*]; done)) | split | (refine (foldl_pending _ _ _ (fun _ _ => ?_)).trans ?_) | (simp only [apply_ite State.pending, *]))
theorem xlatRelease_pending (x1 : Side) (k : Nat) (x : List (XMiss × XAns) × State) :
    (xlatRelease x1 k x).2.pending = x.2.pending := by
  induction k generalizing x with
  | zero => rfl
  | succ k ih =>
    obtain ⟨l, s⟩ := x
    rw [xlatRelease]
    split
    · rfl
    · split
      · rfl
      · split <;> rw [ih]
        · next q => exact (lookUp_pending q).trans (modOeb_pending _ _ _)
        · next q => exact (lookUp_pending q).trans (modOeb_pending _ _ _)
@[simp] theorem walkNext_pending (x1 : Side) (s : State) : (walkNext x1 s).pending = s.pending := by
  unfold walkNext
  dsimp only
  rw [xlatAnswers_pending, xlatRelease_pending]
  exact walkStart_pending _ _
@[simp] theorem selftestFail_pending (x1 : Nat) (s : State) : (selftestFail x1 s).pending = s.pending := by simp [selftestFail, apply_ite State.pending]
theorem vecOp_pending {x1 : Core} {x2 : Instr} {x3 : ElemT} {x4 : VReg} {x5 : VReg} {x6 : VReg} {x7 : PReg} {x8 : Nat → Nat → Nat} {s : State} {t : State} (h : vecOp x1 x2 x3 x4 x5 x6 x7 x8 s = .next t) : t.pending = s.pending := by
  unfold vecOp at h
  refine lunaOp_pending (fun r t u e => ?_) h
  simp [scalarTo] at e
  subst e
  first | simp | (split <;> simp)
@[simp] theorem pinRead_pending (x1 : Nat) (x2 : Nat) (x3 : Bool) (s : State) : (pinRead x1 x2 x3 s).pending = s.pending := by simp [pinRead, apply_ite State.pending]
@[simp] theorem contends_pending (x1 : Bool) (s : State) : (contends x1 s).pending = s.pending := by simp [contends, apply_ite State.pending]
@[simp] theorem readback_pending (x1 : Bool) (x2 : Bool) (x3 : Bool) (x4 : Bool) (x5 : Bool) (s : State) : (readback x1 x2 x3 x4 x5 s).pending = s.pending := by simp [readback]
theorem vecCmp_pending {x1 : Core} {x2 : Instr} {x3 : ElemT} {x4 : PReg} {x5 : VReg} {x6 : VReg} {x7 : PReg} {x8 : Cmp} {s : State} {t : State} (h : vecCmp x1 x2 x3 x4 x5 x6 x7 x8 s = .next t) : t.pending = s.pending := by
  unfold vecCmp at h
  refine lunaOp_pending (fun r t u e => ?_) h
  dsimp only at e
  split at e <;> (injection e with e; subst e; simp)
@[simp] theorem jumpTo_pending (x1 : Run) (x2 : Nat) (x3 : LCore) (s : State) : (jumpTo x1 x2 x3 s).pending = s.pending := by simp [jumpTo]
theorem branch_pending {x1 : Core} {x2 : Instr} {x3 : Imm} {x4 : LCore → Bool} {s : State} {t : State} (h : branch x1 x2 x3 x4 s = .next t) : t.pending = s.pending := by
  unfold branch at h
  refine lunaOp_pending (fun r t u e => ?_) h
  simp [scalarTo] at e
  subst e
  first | simp | (split <;> simp)
@[simp] theorem replaceSlice_pending (x1 : Nat) (x2 : Option Nat) (s : State) : (replaceSlice x1 x2 s).pending = s.pending := by unfold replaceSlice; dsimp only; (repeat' split) <;> simp [apply_ite State.pending]
@[simp] theorem cutClock_pending (s : State) : (cutClock s).pending = s.pending := by unfold cutClock; dsimp only; (repeat' split) <;> simp [apply_ite State.pending]
@[simp] theorem scanDenied_pending (s : State) : (scanDenied s).pending = s.pending := by simp [scanDenied]
@[simp] theorem noteUe_pending (x1 : Nat) (x2 : Nat) (x3 : Nat) (s : State) : (noteUe x1 x2 x3 s).pending = s.pending := by simp [noteUe, apply_ite State.pending]
@[simp] theorem scanRead_pending (x1 : Nat) (x2 : Nat) (s : State) : (scanRead x1 x2 s).pending = s.pending := by simp [scanRead, apply_ite State.pending]
theorem hosted_pending {x1 : State → State} {s : State} (h1 : ∀ t, (x1 t).pending = t.pending) {t : State} (h : hosted x1 s = .next t) : t.pending = s.pending := by unfold hosted at h; (repeat' split at h) <;> first | (injection h with h; subst h; (first | rfl | (simp [*]; done)); done) | (simp at h; done) | (simp at h; obtain ⟨rfl, rfl⟩ := h; (first | rfl | (simp [*]; done)); done) | (simp at h; subst h; (first | rfl | (simp [*]; done)); done) | (simp at h; obtain ⟨_, rfl, rfl⟩ := h; (first | rfl | (simp [*]; done)); done)
@[simp] theorem refuseOne_pending (x1 : Prog) (x2 : List Prog) (x3 : Nat) (x4 : Nat) (s : State) : (refuseOne x1 x2 x3 x4 s).pending = s.pending := by simp [refuseOne]
@[simp] theorem runCmd_pending (x1 : Nat) (x2 : Cmd) (x3 : List Byte) (s : State) : (runCmd x1 x2 x3 s).pending = s.pending := by unfold runCmd; dsimp only; (repeat' split) <;> simp [apply_ite State.pending]
@[simp] theorem copyEnd_pending (x1 : UnitId) (s : State) : (copyEnd x1 s).pending = s.pending := by unfold copyEnd; dsimp only; (repeat' split) <;> simp [apply_ite State.pending]
@[simp] theorem copiesEnd_pending (s : State) : (copiesEnd s).pending = s.pending := by simp [copiesEnd, apply_ite State.pending]
@[simp] theorem trainingIn_pending (x1 : LinkEnd) (x2 : Line) (x3 : State → State) (s : State) (h3 : ∀ t, (x3 t).pending = t.pending) : (trainingIn x1 x2 x3 s).pending = s.pending := by simp only [trainingIn]; (repeat' split) <;> simp_all
@[simp] theorem nrIn_pending (x1 : LinkEnd) (x2 : Line) (s : State) : (nrIn x1 x2 s).pending = s.pending := by simp [nrIn, apply_ite State.pending]
@[simp] theorem nrPatternRx_pending (x1 : LinkEnd) (x2 : Line) (s : State) : (nrPatternRx x1 x2 s).pending = s.pending := by simp [nrPatternRx]
@[simp] theorem verifyTimeout_pending (x1 : Nat) (x2 : ChunkId) (s : State) : (verifyTimeout x1 x2 s).pending = s.pending := by unfold verifyTimeout; dsimp only; (repeat' split) <;> simp [apply_ite State.pending]
@[simp] theorem putFlit_pending (x1 : LinkEnd) (x2 : Flit) (s : State) : (putFlit x1 x2 s).pending = s.pending := by simp [putFlit]
@[simp] theorem resend_pending (x1 : LinkEnd) (x2 : Nat) (x3 : Bool) (x4 : Flit) (s : State) : (resend x1 x2 x3 x4 s).pending = s.pending := by simp [resend]
@[simp] theorem replay_pending (x1 : LinkEnd) (s : State) : (replay x1 s).pending = s.pending := by unfold replay; dsimp only; (repeat' split) <;> simp [apply_ite State.pending]
@[simp] theorem dropOeb_pending (x1 : Side) (x2 : OPort) (x3 : Nat) (s : State) : (dropOeb x1 x2 x3 s).pending = s.pending := by simp [dropOeb]
@[simp] theorem dropLink_pending (x1 : LinkEnd) (x2 : Nat) (s : State) : (dropLink x1 x2 s).pending = s.pending := by unfold dropLink; split <;> simp_all
@[simp] theorem replayTimeout_pending (x1 : LinkEnd) (s : State) : (replayTimeout x1 s).pending = s.pending := by simp [replayTimeout, apply_ite State.pending]
theorem xid_pending {x1 : Core} {x2 : Instr} {x3 : Nat} {x4 : AReg} {x5 : SReg} {x6 : SReg} {s : State} {t : State} (h : xid x1 x2 x3 x4 x5 x6 s = .next t) : t.pending = s.pending := by
  unfold xid at h
  refine lunaOp_pending (fun r t u e => ?_) h
  dsimp only at e
  repeat' split at e
  all_goals first | (cases e; done) | (injection e with e; subst e; simp; done) | (injection e with e; subst e; simp; split <;> simp)
theorem storeFrom_pending {x1 : Core} {x2 : Instr} {x3 : SReg} {x4 : SReg} {x5 : Imm} {x6 : Nat} {s : State} {t : State} (h : storeFrom x1 x2 x3 x4 x5 x6 s = .next t) : t.pending = s.pending := by
  unfold storeFrom at h
  refine lunaOp_pending (fun r t u e => ?_) h
  split at e
  · injection e with e
    subst e
    exact retire_pending _ _ _
  · cases e
@[simp] theorem commitAgain_pending (x1 : Run) (s : State) : (commitAgain x1 s).pending = s.pending := by simp [commitAgain, apply_ite State.pending]
theorem taskDone_pending {x1 : Run} {s : State} {t : State} (h : taskDone x1 s = .ok t) : t.pending = s.pending := by
  unfold taskDone at h
  split at h
  · cases h
  · rw [← Except.ok.inj h, progress_pending]
    split
    · rw [commitAgain_pending]
      split
      · rw [modChunk_pending, setCore_pending]
      · rw [setCore_pending]
    · split
      · rw [modChunk_pending, setCore_pending]
      · rw [setCore_pending]
@[simp] theorem skipNote_pending (x1 : Skip) (x2 : Packet) (s : State) : (skipNote x1 x2 s).pending = s.pending := by simp [skipNote]
@[simp] theorem txRead_pending (x1 : Skip) (x2 : Nat) (x3 : Nat) (s : State) : (txRead x1 x2 x3 s).pending = s.pending := by unfold txRead; repeat' (first | (first | rfl | (simp [*]; done)) | split | (refine (foldl_pending _ _ _ (fun _ _ => ?_)).trans ?_) | (simp only [apply_ite State.pending, *]))
@[simp] theorem txSource_pending (x1 : Skip) (x2 : TxRun) (s : State) : (txSource x1 x2 s).pending = s.pending := by simp [txSource]
@[simp] theorem txHalt_pending (x1 : Skip) (x2 : Nat) (s : State) : (txHalt x1 x2 s).pending = s.pending := by simp [txHalt]
@[simp] theorem txNext_pending (x1 : Skip) (s : State) : (txNext x1 s).pending = s.pending := by unfold txNext; dsimp only; (repeat' split) <;> simp [apply_ite State.pending]
@[simp] theorem txEmit_pending (x1 : Skip) (s : State) : (txEmit x1 s).pending = s.pending := by unfold txEmit; split <;> simp_all
@[simp] theorem skipperWrRsp_pending (x1 : Skip) (x2 : Packet) (s : State) : (skipperWrRsp x1 x2 s).pending = s.pending := by unfold skipperWrRsp; (repeat' split) <;> simp_all
@[simp] theorem setSessions_pending (x1 : UnitId) (x2 : List Session) (s : State) : (setSessions x1 x2 s).pending = s.pending := by simp [setSessions]
@[simp] theorem inSession_pending (x1 : UnitId) (x2 : Nat) (x3 : State → State) (s : State) (h3 : ∀ t, (x3 t).pending = t.pending) : (inSession x1 x2 x3 s).pending = s.pending := by unfold inSession; split <;> simp_all
theorem ppsServo_pending {s : State} {t : State} {a : Option (Nat × Nat)} (h : ppsServo s = (t, a)) : t.pending = s.pending := by
  refine (congrArg (fun x : State × Option (Nat × Nat) => x.1.pending) h).symm.trans ?_
  unfold ppsServo
  dsimp only
  generalize hs : (sx PPS_IN_EDGE.FT _ _ _ : State) = s1
  have e : s1.pending = s.pending := by
    rw [← hs]
    simp
  clear hs
  have q : ∀ (c : Prop) [Decidable c], (if c then setQual .ox9 7 s1 else s1).pending = s.pending := fun c _ =>
    ite_pending ((setQual_pending _ _ _).trans e) e
  exact ite_fst_pending ((setTime_pending _ _ _).trans ((stepFt_pending _ _ _).trans (q _))) ((setTime_pending _ _ _).trans (q _))
@[simp] theorem ppsServo_fst_pending (s : State) : (ppsServo s).1.pending = s.pending := ppsServo_pending (Eq.refl _)
theorem ppsIn_pending {s : State} {t : State} {a : Option (Nat × Nat)} (h : ppsIn s = (t, a)) : t.pending = s.pending := by
  unfold ppsIn at h
  split at h
  · split at h
    · exact ppsServo_pending h
    · injection h with h _
      rw [← h]
      exact countG_pending _ _
  · injection h with h _
    rw [← h]
    exact sx_pending _ _ _ _
@[simp] theorem ppsIn_fst_pending (s : State) : (ppsIn s).1.pending = s.pending := ppsIn_pending (Eq.refl _)
@[simp] theorem snapshotInstant_pending (s : State) : (snapshotInstant s).pending = s.pending := by simp [snapshotInstant, apply_ite State.pending]
@[simp] theorem ringHalt_pending (x1 : Nat) (s : State) : (ringHalt x1 s).pending = s.pending := by simp [ringHalt, apply_ite State.pending]
@[simp] theorem ringTail_pending (x1 : Nat) (x2 : Nat) (s : State) : (ringTail x1 x2 s).pending = s.pending := by simp [ringTail]
theorem landPart_pending {x1 : Nat} {x2 : LChunk} {x3 : LStream} {x4 : List Byte} {x5 : Bool} {x6 : LPart} {s : State} {a : LPart} {t : State} (h : landPart x1 x2 x3 x4 x5 x6 s = (a, t)) : t.pending = s.pending := by
  unfold landPart at h
  dsimp only at h
  split at h
  · injection h with _ h
    subst h
    exact modCore_pending _ _ _
  · injection h with _ h
    subst h
    have e : ∀ n, ((List.range n).foldl (fun s i => pushTask x6.core (beatTask x2 x3 x6 (unitBytes x3.wide x2.rop x2.fmt)
        (x6.sent + i * beatUnits x3.wide x2.rop x2.fmt) (beatUnits x3.wide x2.rop x2.fmt)) s)
        (modCore x6.core (fun x => x.write (x6.addr + x6.landed * unitBytes x3.wide x2.rop x2.fmt)
          ((landedOn x2 x3 x4 x6).drop x6.landed).flatten) s)).pending = s.pending := fun n =>
      (foldl_pending _ _ _ fun t a => pushTask_pending _ _ _).trans (modCore_pending _ _ _)
    split
    · rw [pushTask_pending]
      exact e _
    · exact e _
@[simp] theorem landPart_snd_pending (x1 : Nat) (x2 : LChunk) (x3 : LStream) (x4 : List Byte) (x5 : Bool) (x6 : LPart) (s : State) : (landPart x1 x2 x3 x4 x5 x6 s).2.pending = s.pending := landPart_pending (Eq.refl _)
theorem landStream_pending {x1 : Nat} {x2 : LChunk} {x3 : LStream} {x4 : List Byte} {x5 : Bool} {s : State} {a : LStream} {t : State} (h : landStream x1 x2 x3 x4 x5 s = (a, t)) : t.pending = s.pending := by
  refine (congrArg (fun x : LStream × State => x.2.pending) h).symm.trans ?_
  unfold landStream
  exact foldl_snd_pending _ _ _ fun acc p => landPart_pending (Prod.eta _).symm
@[simp] theorem landStream_snd_pending (x1 : Nat) (x2 : LChunk) (x3 : LStream) (x4 : List Byte) (x5 : Bool) (s : State) : (landStream x1 x2 x3 x4 x5 s).2.pending = s.pending := landStream_pending (Eq.refl _)
@[simp] theorem setStream_pending (x1 : Nat) (x2 : ChunkId) (x3 : LStream) (s : State) : (setStream x1 x2 x3 s).pending = s.pending := by simp [setStream]
@[simp] theorem landSoFar_pending (x1 : Nat) (x2 : ChunkId) (x3 : Nat) (s : State) : (landSoFar x1 x2 x3 s).pending = s.pending := by unfold landSoFar; dsimp only; (repeat' split) <;> simp [apply_ite State.pending]
@[simp] theorem allocStream_pending (x1 : Nat) (x2 : ChunkId) (x3 : Nat) (s : State) : (allocStream x1 x2 x3 s).pending = s.pending := by unfold allocStream; (repeat' split) <;> simp_all
@[simp] theorem holdAllocated_pending (x1 : Nat) (x2 : ChunkId) (x3 : Nat) (s : State) : (holdAllocated x1 x2 x3 s).pending = s.pending := by simp [holdAllocated]
@[simp] theorem resetOx9_pending (s : State) : (resetOx9 s).pending = s.pending := by simp [resetOx9]
@[simp] theorem resetFalls_pending (s : State) : (resetFalls s).pending = s.pending := by simp [resetFalls]
theorem predOp_pending {x1 : Core} {x2 : Instr} {x3 : PReg} {x4 : PReg} {x5 : PReg} {x6 : Word → Word → Word} {s : State} {t : State} (h : predOp x1 x2 x3 x4 x5 x6 s = .next t) : t.pending = s.pending := by
  unfold predOp at h
  refine lunaOp_pending (fun r t u e => ?_) h
  simp [scalarTo] at e
  subst e
  first | simp | (split <;> simp)
@[simp] theorem nakResend_pending (x1 : LinkEnd) (s : State) : (nakResend x1 s).pending = s.pending := by simp [nakResend, apply_ite State.pending]
@[simp] theorem sendTraining_pending (x1 : LinkEnd) (s : State) : (sendTraining x1 s).pending = s.pending := by unfold sendTraining; dsimp only; (repeat' split) <;> simp [apply_ite State.pending]
@[simp] theorem downEnd_pending (x1 : LinkEnd) (s : State) : (downEnd x1 s).pending = s.pending := by simp [downEnd, apply_ite State.pending]
@[simp] theorem finish_pending (x1 : UnitId) (x2 : Nat) (x3 : List Byte) (x4 : List Byte) (s : State) : (finish x1 x2 x3 x4 s).pending = s.pending := by simp [finish, apply_ite State.pending]
@[simp] theorem nextSwap_pending (x1 : Nat) (s : State) : (nextSwap x1 s).pending = s.pending := by unfold nextSwap; dsimp only; (repeat' split) <;> simp [apply_ite State.pending]
@[simp] theorem swapTxSwitch_pending (x1 : Nat) (s : State) : (swapTxSwitch x1 s).pending = s.pending := by unfold swapTxSwitch; dsimp only; (repeat' split) <;> simp [apply_ite State.pending]
@[simp] theorem drbgUse_pending (x1 : UnitId) (s : State) : (drbgUse x1 s).pending = s.pending := by simp [drbgUse]
@[simp] theorem needRandom_pending (x1 : UnitId) (x2 : State → State) (s : State) (h2 : ∀ t, (x2 t).pending = t.pending) : (needRandom x1 x2 s).pending = s.pending := by unfold needRandom; split <;> simp_all
@[simp] theorem getMeasurements_pending (x1 : UnitId) (x2 : Nat) (x3 : Bool) (x4 : List Byte) (s : State) : (getMeasurements x1 x2 x3 x4 s).pending = s.pending := by
  unfold getMeasurements
  split
  · exact spdmFail_pending _ _ _
  · dsimp only
    split
    · exact needRandom_pending _ _ _ fun t => emit_pending _ _
    · exact emit_pending _ _
@[simp] theorem nportsSet_pending (x1 : Side) (s : State) : (nportsSet x1 s).pending = s.pending := by simp [nportsSet]
@[simp] theorem oebPortEnable_pending (x1 : Side) (x2 : OPort) (s : State) : (oebPortEnable x1 x2 s).pending = s.pending := by simp [oebPortEnable, apply_ite State.pending]
@[simp] theorem markerLoss_pending (x1 : UnitId) (s : State) : (markerLoss x1 s).pending = s.pending := by unfold markerLoss; (repeat' split) <;> simp_all
@[simp] theorem hostRead_pending (x1 : Skip) (x2 : Header) (s : State) : (hostRead x1 x2 s).pending = s.pending := by unfold hostRead; split <;> simp_all
@[simp] theorem hostReadNext_pending (x1 : Skip) (s : State) : (hostReadNext x1 s).pending = s.pending := by unfold hostReadNext; dsimp only; (repeat' split) <;> simp [apply_ite State.pending]
@[simp] theorem pcieCompletion_pending (x1 : Skip) (x2 : Nat) (x3 : PcieStatus) (x4 : List Byte) (s : State) : (pcieCompletion x1 x2 x3 x4 s).pending = s.pending := by unfold pcieCompletion; dsimp only; (repeat' split) <;> simp [apply_ite State.pending]
theorem served_pending {x1 : State → State} {s : State} (h1 : ∀ t, (x1 t).pending = t.pending) {t : State} (h : served x1 s = .next t) : t.pending = s.pending := by unfold served at h; (repeat' split at h) <;> first | (injection h with h; subst h; (first | rfl | (simp [*]; done)); done) | (simp at h; done) | (simp at h; obtain ⟨rfl, rfl⟩ := h; (first | rfl | (simp [*]; done)); done) | (simp at h; subst h; (first | rfl | (simp [*]; done)); done) | (simp at h; obtain ⟨_, rfl, rfl⟩ := h; (first | rfl | (simp [*]; done)); done)
@[simp] theorem debugUnlock_pending (x1 : List Byte) (s : State) : (debugUnlock x1 s).pending = s.pending := by simp [debugUnlock, apply_ite State.pending]
theorem keepOneCell_pending {x1 : BufPkt} {s : State} {a : BufPkt} {t : State} (h : keepOneCell x1 s = (a, t)) : t.pending = s.pending := by unfold keepOneCell at h; (repeat' split at h) <;> first | (injection h with h; subst h; (first | rfl | (simp [*]; done)); done) | (simp at h; done) | (simp at h; obtain ⟨rfl, rfl⟩ := h; (first | rfl | (simp [*]; done)); done) | (simp at h; subst h; (first | rfl | (simp [*]; done)); done) | (simp at h; obtain ⟨_, rfl, rfl⟩ := h; (first | rfl | (simp [*]; done)); done)
@[simp] theorem keepOneCell_snd_pending (x1 : BufPkt) (s : State) : (keepOneCell x1 s).2.pending = s.pending := keepOneCell_pending (Eq.refl _)
@[simp] theorem egressAged_pending (x1 : Nat) (x2 : Nat) (x3 : Copy) (x4 : BufPkt) (s : State) : (egressAged x1 x2 x3 x4 s).pending = s.pending := by simp [egressAged, apply_ite State.pending]
@[simp] theorem egressHead_pending (x1 : Nat) (x2 : Nat) (s : State) : (egressHead x1 x2 s).pending = s.pending := by unfold egressHead; (repeat' split) <;> simp_all
@[simp] theorem beginTask_pending (x1 : Nat) (s : State) : (beginTask x1 s).pending = s.pending := by
  unfold beginTask
  dsimp only
  split
  · split
    · exact setCore_pending _ _ _
    · exact setCore_pending _ _ _
  · rfl
@[simp] theorem noteStart_pending (x1 : Nat) (s : State) : (noteStart x1 s).pending = s.pending := by simp [noteStart, apply_ite State.pending]
@[simp] theorem taskStart_pending (x1 : Nat) (s : State) : (taskStart x1 s).pending = s.pending := by
  unfold taskStart
  exact ite_pending rfl ((noteStart_pending _ _).trans (beginTask_pending _ _))
@[simp] theorem ppsFall_pending (x1 : Nat) (s : State) : (ppsFall x1 s).pending = s.pending := by simp [ppsFall, apply_ite State.pending]
@[simp] theorem xlatFaultRead_pending (x1 : Side) (x2 : Nat) (s : State) : (xlatFaultRead x1 x2 s).pending = s.pending := by simp [xlatFaultRead]
@[simp] theorem aonDone_pending (x1 : Nat) (x2 : Bool) (x3 : Bool) (s : State) : (aonDone x1 x2 x3 s).pending = s.pending := by simp [aonDone]
@[simp] theorem writeIndex_pending (x1 : Skip) (s : State) : (writeIndex x1 s).pending = s.pending := by simp [writeIndex]
@[simp] theorem txComplete_pending (x1 : Skip) (s : State) : (txComplete x1 s).pending = s.pending := by unfold txComplete; dsimp only; (repeat' split) <;> simp [apply_ite State.pending]
@[simp] theorem descComplete_pending (x1 : Side) (x2 : Nat) (s : State) : (descComplete x1 x2 s).pending = s.pending := by unfold descComplete; repeat' (first | (first | rfl | (simp [*]; done) | (have e := translate_pending ‹_›; simp [*]; done)) | split | (refine (foldl_pending _ _ _ (fun _ _ => ?_)).trans ?_) | (simp only [apply_ite State.pending, *]))
@[simp] theorem keyUpdate_pending (x1 : UnitId) (x2 : Nat) (x3 : List Byte) (s : State) : (keyUpdate x1 x2 x3 s).pending = s.pending := by simp [keyUpdate]
@[simp] theorem turnAway_pending (x1 : Prog) (x2 : Nat) (s : State) : (turnAway x1 x2 s).pending = s.pending := by simp [turnAway]
@[simp] theorem finishCheck_pending (x1 : Prog) (s : State) : (finishCheck x1 s).pending = s.pending := by unfold finishCheck; dsimp only; (repeat' split) <;> simp [apply_ite State.pending]
@[simp] theorem gotPayload_pending (x1 : Nat) (x2 : Option (List Byte)) (s : State) : (gotPayload x1 x2 s).pending = s.pending := by unfold gotPayload; dsimp only; (repeat' split) <;> simp [apply_ite State.pending]
@[simp] theorem fetchedEnough_pending (s : State) : (fetchedEnough s).pending = s.pending := by unfold fetchedEnough; dsimp only; (repeat' split) <;> simp [apply_ite State.pending]
@[simp] theorem gotFetch_pending (x1 : List Byte) (s : State) : (gotFetch x1 s).pending = s.pending := by simp [gotFetch, apply_ite State.pending]
@[simp] theorem rowCopyDone_pending (x1 : Nat) (x2 : Nat) (s : State) : (rowCopyDone x1 x2 s).pending = s.pending := by unfold rowCopyDone; dsimp only; (repeat' split) <;> simp [apply_ite State.pending]
@[simp] theorem keepSegment_pending (x1 : Skip) (x2 : Packet) (x3 : Bool) (s : State) : (keepSegment x1 x2 x3 s).pending = s.pending := by simp [keepSegment]
@[simp] theorem reenterSegment_pending (x1 : Skip) (x2 : Packet) (x3 : Tail) (s : State) : (reenterSegment x1 x2 x3 s).pending = s.pending := by simp [reenterSegment]
@[simp] theorem recordRemote_pending (x1 : Skip) (x2 : Header) (s : State) : (recordRemote x1 x2 s).pending = s.pending := by simp [recordRemote, apply_ite State.pending]
@[simp] theorem segmentArrival_pending (x1 : Skip) (x2 : Packet) (x3 : Bool) (s : State) : (segmentArrival x1 x2 x3 s).pending = s.pending := by simp [segmentArrival, apply_ite State.pending]
@[simp] theorem hostCplTimeout_pending (x1 : Skip) (x2 : Nat) (s : State) : (hostCplTimeout x1 x2 s).pending = s.pending := by unfold hostCplTimeout; dsimp only; (repeat' split) <;> simp [apply_ite State.pending]
@[simp] theorem mailboxGo_pending (x1 : Nat) (x2 : Nat) (s : State) : (mailboxGo x1 x2 s).pending = s.pending := by simp [mailboxGo, apply_ite State.pending]
@[simp] theorem descFetch_pending (x1 : Side) (x2 : Nat) (s : State) : (descFetch x1 x2 s).pending = s.pending := by unfold descFetch; repeat' (first | (first | rfl | (simp [*]; done) | (have e := translate_pending ‹_›; simp [*]; done)) | split | (refine (foldl_pending _ _ _ (fun _ _ => ?_)).trans ?_) | (simp only [apply_ite State.pending, *]))
@[simp] theorem dmaRing_pending (x1 : Side) (x2 : Areq) (s : State) : (dmaRing x1 x2 s).pending = s.pending := by simp [dmaRing, apply_ite State.pending]
@[simp] theorem mgmtTrained_pending (s : State) : (mgmtTrained s).pending = s.pending := by simp [mgmtTrained, apply_ite State.pending]
@[simp] theorem dmaStop_pending (x1 : Side) (x2 : Nat) (s : State) : (dmaStop x1 x2 s).pending = s.pending := by unfold dmaStop; (repeat' split) <;> simp_all
@[simp] theorem siteTakes_pending (x1 : Nat) (x2 : Nat) (s : State) : (siteTakes x1 x2 s).pending = s.pending := by simp [siteTakes]
@[simp] theorem alignEq_pending (x1 : Nat) (s : State) : (alignEq x1 s).pending = s.pending := by
  unfold alignEq
  refine foldl_pending _ _ _ fun t a => ?_
  split
  · exact siteTakes_pending _ _ _
  · rfl
@[simp] theorem detected_pending (x1 : LinkEnd) (s : State) : (detected x1 s).pending = s.pending := by unfold detected; dsimp only; (repeat' split) <;> simp [apply_ite State.pending]
@[simp] theorem align_pending (x1 : LinkEnd) (x2 : Line) (x3 : List (List Byte)) (x4 : List Nat) (s : State) : (align x1 x2 x3 x4 s).pending = s.pending := by unfold align; dsimp only; (repeat' split) <;> simp [apply_ite State.pending]
theorem tsIn_pending {x1 : LinkEnd} {x2 : Nat} {x3 : Line} {s : State} {a : Option (List (List Byte))} {t : State} (h : tsIn x1 x2 x3 s = (a, t)) : t.pending = s.pending := by unfold tsIn at h; (repeat' split at h) <;> first | (injection h with h; subst h; (first | rfl | (simp [*]; done) | (have e := receive_pending ‹_›; simp [*]; done)); done) | (simp at h; done) | (simp at h; obtain ⟨rfl, rfl⟩ := h; (first | rfl | (simp [*]; done) | (have e := receive_pending ‹_›; simp [*]; done)); done) | (simp at h; subst h; (first | rfl | (simp [*]; done) | (have e := receive_pending ‹_›; simp [*]; done)); done) | (simp at h; obtain ⟨_, rfl, rfl⟩ := h; (first | rfl | (simp [*]; done) | (have e := receive_pending ‹_›; simp [*]; done)); done)
@[simp] theorem tsIn_snd_pending (x1 : LinkEnd) (x2 : Nat) (x3 : Line) (s : State) : (tsIn x1 x2 x3 s).2.pending = s.pending := tsIn_pending (Eq.refl _)
@[simp] theorem ts1In_pending (x1 : LinkEnd) (x2 : Line) (x3 : List Nat) (s : State) : (ts1In x1 x2 x3 s).pending = s.pending := by unfold ts1In; repeat' (first | (first | rfl | (simp [*]; done) | (have e := tsIn_pending ‹_›; simp [*]; done)) | split | (refine (foldl_pending _ _ _ (fun _ _ => ?_)).trans ?_) | (simp only [apply_ite State.pending, *]))
@[simp] theorem ts1Rx_pending (x1 : LinkEnd) (x2 : Line) (x3 : List Nat) (s : State) : (ts1Rx x1 x2 x3 s).pending = s.pending := by simp [ts1Rx]
@[simp] theorem invDrain_pending (x1 : Side) (s : State) : (invDrain x1 s).pending = s.pending := by unfold invDrain; (repeat' split) <;> simp_all
@[simp] theorem enterSegment_pending (x1 : Skip) (x2 : Packet) (x3 : Tail) (s : State) : (enterSegment x1 x2 x3 s).pending = s.pending := by unfold enterSegment; dsimp only; (repeat' split) <;> simp [apply_ite State.pending]
theorem segmentRead_pending {x1 : Skip} {x2 : Packet × Bool} {x3 : SramRead} {s : State} {a : Tail} {t : State} (h : segmentRead x1 x2 x3 s = (a, t)) : t.pending = s.pending := by unfold segmentRead at h; (repeat' split at h) <;> first | (injection h with h; subst h; (first | rfl | (simp [*]; done)); done) | (simp at h; done) | (simp at h; obtain ⟨rfl, rfl⟩ := h; (first | rfl | (simp [*]; done)); done) | (simp at h; subst h; (first | rfl | (simp [*]; done)); done) | (simp at h; obtain ⟨_, rfl, rfl⟩ := h; (first | rfl | (simp [*]; done)); done)
@[simp] theorem segmentRead_snd_pending (x1 : Skip) (x2 : Packet × Bool) (x3 : SramRead) (s : State) : (segmentRead x1 x2 x3 s).2.pending = s.pending := segmentRead_pending (Eq.refl _)
@[simp] theorem segmentRelease_pending (x1 : Skip) (x2 : Nat) (x3 : Nat) (x4 : Nat) (x5 : SramRead) (s : State) : (segmentRelease x1 x2 x3 x4 x5 s).pending = s.pending := by unfold segmentRelease; dsimp only; (repeat' split) <;> simp [apply_ite State.pending]
@[simp] theorem showEyes_pending (x1 : Nat) (x2 : List EyeResult) (s : State) : (showEyes x1 x2 s).pending = s.pending := by unfold showEyes; repeat' (first | (first | rfl | (simp [*]; done)) | split | (refine (foldl_pending _ _ _ (fun _ _ => ?_)).trans ?_) | (simp only [apply_ite State.pending, *]))
@[simp] theorem subPassed_pending (x1 : Nat) (x2 : Nat × Nat × Bool) (s : State) : (subPassed x1 x2 s).pending = s.pending := by simp [subPassed]
@[simp] theorem subsFailed_pending (x1 : Nat) (x2 : List Nat) (s : State) : (subsFailed x1 x2 s).pending = s.pending := by simp [subsFailed, apply_ite State.pending]
@[simp] theorem raiseLink_pending (x1 : LinkEnd) (x2 : EvCode) (x3 : Bool) (x4 : List (Bool × Nat)) (s : State) : (raiseLink x1 x2 x3 x4 s).pending = s.pending := by unfold raiseLink; split <;> simp_all
@[simp] theorem trainFail_pending (x1 : LinkEnd) (x2 : Nat) (x3 : List (Bool × Nat)) (s : State) : (trainFail x1 x2 x3 s).pending = s.pending := by simp [trainFail, apply_ite State.pending]
@[simp] theorem spareLane_pending (x1 : Nat) (x2 : Nat) (s : State) : (spareLane x1 x2 s).pending = s.pending := by unfold spareLane; dsimp only; (repeat' split) <;> simp [apply_ite State.pending]
@[simp] theorem marginOx_pending (x1 : Nat) (x2 : List EyeResult) (s : State) : (marginOx x1 x2 s).pending = s.pending := by unfold marginOx; dsimp only; (repeat' split) <;> simp [apply_ite State.pending]
@[simp] theorem subsPassed_pending (x1 : LinkEnd) (s : State) : (subsPassed x1 s).pending = s.pending := by unfold subsPassed; split <;> simp_all
@[simp] theorem sendTso_pending (x1 : LinkEnd) (x2 : Nat) (x3 : Nat) (x4 : Nat) (s : State) : (sendTso x1 x2 x3 x4 s).pending = s.pending := by simp [sendTso]
@[simp] theorem enterTime_pending (x1 : LinkEnd) (s : State) : (enterTime x1 s).pending = s.pending := by simp [enterTime]
@[simp] theorem marginNext_pending (x1 : LinkEnd) (s : State) : (marginNext x1 s).pending = s.pending := by simp [marginNext, apply_ite State.pending]
@[simp] theorem marginOeb_pending (x1 : LinkEnd) (x2 : List EyeResult) (s : State) : (marginOeb x1 x2 s).pending = s.pending := by simp [marginOeb]
@[simp] theorem marginDone_pending (x1 : LinkEnd) (x2 : List EyeResult) (s : State) : (marginDone x1 x2 s).pending = s.pending := by unfold marginDone; (repeat' split) <;> simp_all
@[simp] theorem burstFetch_pending (x1 : Side) (x2 : Nat) (x3 : Nat) (x4 : Nat) (x5 : Nat) (x6 : Nat) (x7 : Leaf) (x8 : Nat) (s : State) : (burstFetch x1 x2 x3 x4 x5 x6 x7 x8 s).pending = s.pending := by simp [burstFetch, apply_ite State.pending]
@[simp] theorem burstIssue_pending (x1 : Side) (x2 : Nat) (s : State) : (burstIssue x1 x2 s).pending = s.pending := by unfold burstIssue; dsimp only; (repeat' split) <;> simp [apply_ite State.pending]
@[simp] theorem dmaBurst_pending (x1 : Side) (s : State) : (dmaBurst x1 s).pending = s.pending := by unfold dmaBurst; split <;> simp_all
@[simp] theorem stateTimeout_pending (x1 : Nat) (x2 : Nat) (x3 : LinkEnd) (s : State) : (stateTimeout x1 x2 x3 s).pending = s.pending := by simp [stateTimeout, apply_ite State.pending]
@[simp] theorem echoSend_pending (x1 : Nat) (s : State) : (echoSend x1 s).pending = s.pending := by unfold echoSend; dsimp only; (repeat' split) <;> simp [apply_ite State.pending]
@[simp] theorem contribEvent_pending (x1 : Nat) (x2 : EvCode) (x3 : Header) (s : State) : (contribEvent x1 x2 x3 s).pending = s.pending := by simp [contribEvent]
@[simp] theorem contribFail_pending (x1 : Nat) (x2 : Header) (x3 : Nat) (s : State) : (contribFail x1 x2 x3 s).pending = s.pending := by unfold contribFail; dsimp only; (repeat' split) <;> simp [apply_ite State.pending]
@[simp] theorem row12Fail_pending (x1 : Nat) (x2 : EvCode) (x3 : Nat) (x4 : Header) (s : State) : (row12Fail x1 x2 x3 x4 s).pending = s.pending := by simp [row12Fail]
@[simp] theorem commit_pending (x1 : Nat) (x2 : LChunk) (x3 : LStream) (x4 : List Byte) (s : State) : (commit x1 x2 x3 x4 s).pending = s.pending := by simp [commit, apply_ite State.pending]
@[simp] theorem contribEop_pending (x1 : Nat) (x2 : ChunkId) (x3 : Nat) (x4 : Bool) (x5 : List Byte) (s : State) : (contribEop x1 x2 x3 x4 x5 s).pending = s.pending := by
  unfold contribEop
  split
  · rfl
  · split
    · rfl
    · next c _ t _ =>
      refine ite_pending rfl (ite_pending (row12Fail_pending _ _ _ _ _) (ite_pending rfl ?_))
      generalize ho : (if t.hdr.enc = true then _ else _ : Option (List Byte) × State) = o
      have e : o.2.pending = s.pending := by
        rw [← ho]
        split
        · exact openFrom_snd_pending _ _ _ _ _
        · rfl
      clear ho
      obtain ⟨plain, s1⟩ := o
      cases plain with
      | none => exact (row12Fail_pending _ _ _ _ _).trans e
      | some bs => exact ite_pending ((row12Fail_pending _ _ _ _ _).trans e) ((commit_pending _ _ _ _ _).trans e)
@[simp] theorem hwFault_pending (x1 : Nat) (x2 : Option (Nat × Nat)) (s : State) : (hwFault x1 x2 s).pending = s.pending := by unfold hwFault; dsimp only; (repeat' split) <;> simp [apply_ite State.pending]
@[simp] theorem unpin_pending (x1 : Nat) (x2 : Nat) (x3 : Nat) (s : State) : (unpin x1 x2 x3 s).pending = s.pending := by simp [unpin, apply_ite State.pending]
@[simp] theorem wakeChunks_pending (x1 : Nat) (s : State) : (wakeChunks x1 s).pending = s.pending := by simp [wakeChunks]
@[simp] theorem armDone_pending (x1 : Nat) (x2 : Nat) (s : State) : (armDone x1 x2 s).pending = s.pending := by simp [armDone, apply_ite State.pending]
@[simp] theorem xlatInv_pending (x1 : Side) (x2 : Nat) (x3 : Bool) (x4 : Nat) (x5 : Nat) (x6 : Nat) (s : State) : (xlatInv x1 x2 x3 x4 x5 x6 s).pending = s.pending := by simp [xlatInv, apply_ite State.pending]
@[simp] theorem dmaDisable_pending (x1 : Side) (x2 : Nat) (s : State) : (dmaDisable x1 x2 s).pending = s.pending := by simp [dmaDisable, apply_ite State.pending]
@[simp] theorem dropWhere_pending (x1 : Link → Bool) (x2 : Nat) (x3 : LinkEnd) (s : State) : (dropWhere x1 x2 x3 s).pending = s.pending := by simp [dropWhere, apply_ite State.pending]
@[simp] theorem disarmDone_pending (x1 : Nat) (x2 : Nat) (s : State) : (disarmDone x1 x2 s).pending = s.pending := by simp [disarmDone, apply_ite State.pending]
@[simp] theorem applyEcho_pending (x1 : RateUnit) (x2 : Nat) (x3 : Nat) (x4 : Nat) (s : State) : (applyEcho x1 x2 x3 x4 s).pending = s.pending := by unfold applyEcho; dsimp only; (repeat' split) <;> simp [apply_ite State.pending]
@[simp] theorem echoBody_pending (x1 : RateUnit) (x2 : List Byte) (s : State) : (echoBody x1 x2 s).pending = s.pending := by simp [echoBody]
@[simp] theorem echoRx_pending (x1 : EchoIn) (s : State) : (echoRx x1 s).pending = s.pending := by
  unfold echoRx
  split
  · refine insertIn_pending _ _ _ _ _ fun a t => ?_
    exact ite_pending rfl (countPort_pending _ _ _ _)
  · refine insertIn_pending _ _ _ _ _ fun a t => ?_
    split
    · exact echoBody_pending _ _ _
    · exact countO_pending _ _ _
  · split
    · exact echoBody_pending _ _ _
    · exact countD_pending _ _ _
@[simp] theorem logEvent_pending (x1 : UnitId) (x2 : Event) (x3 : Nat) (x4 : Bool) (s : State) : (logEvent x1 x2 x3 x4 s).pending = s.pending := by simp [logEvent]
@[simp] theorem downPorts_pending (x1 : List Nat) (s : State) : (downPorts x1 s).pending = s.pending := by simp [downPorts]
@[simp] theorem trayOut_pending (s : State) : (trayOut s).pending = s.pending := by simp [trayOut, apply_ite State.pending]
@[simp] theorem trigger_pending (x1 : UnitId) (x2 : Event) (s : State) : (trigger x1 x2 s).pending = s.pending := by unfold trigger; split <;> simp_all
@[simp] theorem openEntry_pending (x1 : UnitId) (x2 : Event) (s : State) : (openEntry x1 x2 s).pending = s.pending := by simp [openEntry, apply_ite State.pending]
@[simp] theorem foldPlain_pending (x1 : UnitId) (x2 : Event) (s : State) : (foldPlain x1 x2 s).pending = s.pending := by simp [foldPlain, apply_ite State.pending]
@[simp] theorem foldMarked_pending (x1 : UnitId) (x2 : Event) (s : State) : (foldMarked x1 x2 s).pending = s.pending := by simp [foldMarked, apply_ite State.pending]
@[simp] theorem foldEvent_pending (x1 : UnitId) (x2 : Event) (s : State) : (foldEvent x1 x2 s).pending = s.pending := by simp [foldEvent, apply_ite State.pending]
@[simp] theorem eventFold_pending (x1 : UnitId) (s : State) : (eventFold x1 s).pending = s.pending := by unfold eventFold; dsimp only; (repeat' split) <;> simp [apply_ite State.pending]
@[simp] theorem landed_pending (x1 : Side) (x2 : Header) (x3 : Bool) (s : State) : (landed x1 x2 x3 s).pending = s.pending := by simp [landed, apply_ite State.pending]
@[simp] theorem walkFault_pending (x1 : Side) (x2 : Walk) (x3 : XMiss) (x4 : Nat) (s : State) : (walkFault x1 x2 x3 x4 s).pending = s.pending := by simp [walkFault]
@[simp] theorem walkInstall_pending (x1 : Side) (x2 : Walk) (x3 : Leaf) (x4 : XMiss) (s : State) : (walkInstall x1 x2 x3 x4 s).pending = s.pending := by simp [walkInstall]
theorem walkEnd_pending {x1 : Side} {x2 : Walk} {x3 : Except Nat Leaf} {s : State} {a : List (XMiss × XAns)} {t : State} (h : walkEnd x1 x2 x3 s = (a, t)) : t.pending = s.pending := by
  refine (congrArg (fun x : List (XMiss × XAns) × State => x.2.pending) h).symm.trans ?_
  unfold walkEnd
  refine (foldl_snd_pending _ _ _ fun acc m => ?_).trans (modOeb_pending _ _ _)
  split
  · exact walkFault_pending _ _ _ _ _
  · dsimp only
    split
    · exact ite_pending (walkInstall_pending _ _ _ _ _) rfl
    · exact walkFault_pending _ _ _ _ _
@[simp] theorem walkEnd_snd_pending (x1 : Side) (x2 : Walk) (x3 : Except Nat Leaf) (s : State) : (walkEnd x1 x2 x3 s).2.pending = s.pending := walkEnd_pending (Eq.refl _)
theorem walkMrsp_pending {x1 : Side} {x2 : Nat} {x3 : Nat} {x4 : List Byte} {s : State} {a : List (XMiss × XAns)} {t : State} (h : walkMrsp x1 x2 x3 x4 s = (a, t)) : t.pending = s.pending := by
  unfold walkMrsp at h
  split at h
  · exact (Prod.mk.inj h).2 ▸ rfl
  · refine ite_cases (fun h => ?_) (ite_cases (fun h => walkEnd_pending h) fun h => ?_) h
    · rw [← (Prod.mk.inj h).2]
      exact walkRoot_pending _ _ _
    · dsimp only at h
      split at h
      · exact walkEnd_pending h
      · exact walkEnd_pending h
      · rw [← (Prod.mk.inj h).2, walkRead_pending, modOeb_pending]
@[simp] theorem walkMrsp_snd_pending (x1 : Side) (x2 : Nat) (x3 : Nat) (x4 : List Byte) (s : State) : (walkMrsp x1 x2 x3 x4 s).2.pending = s.pending := walkMrsp_pending (Eq.refl _)
@[simp] theorem recallDone_pending (x1 : Side) (x2 : Packet) (x3 : Nat) (x4 : Nat) (x5 : List Byte) (s : State) : (recallDone x1 x2 x3 x4 x5 s).pending = s.pending := by simp [recallDone, apply_ite State.pending]
@[simp] theorem mrspFor_pending (x1 : Side) (x2 : MPurp) (x3 : Nat) (x4 : List Byte) (s : State) : (mrspFor x1 x2 x3 x4 s).pending = s.pending := by unfold mrspFor; dsimp only; (repeat' split) <;> simp [apply_ite State.pending]
@[simp] theorem mrspTimeout_pending (x1 : Side) (x2 : Nat) (s : State) : (mrspTimeout x1 x2 s).pending = s.pending := by unfold mrspTimeout; dsimp only; (repeat' split) <;> simp [apply_ite State.pending]
@[simp] theorem foldStatRead_pending (s : State) : (foldStatRead s).pending = s.pending := by simp [foldStatRead, apply_ite State.pending]
@[simp] theorem rowRepair_pending (x1 : Nat) (x2 : Nat) (x3 : Nat) (s : State) : (rowRepair x1 x2 x3 s).pending = s.pending := by simp [rowRepair, apply_ite State.pending]
@[simp] theorem chainLinkUp_pending (x1 : Nat) (s : State) : (chainLinkUp x1 s).pending = s.pending := by simp [chainLinkUp, apply_ite State.pending]
@[simp] theorem ringFlush_pending (x1 : Nat) (s : State) : (ringFlush x1 s).pending = s.pending := by simp [ringFlush]
@[simp] theorem hostRefuse_pending (x1 : Skip) (x2 : Header) (x3 : Nat) (s : State) : (hostRefuse x1 x2 x3 s).pending = s.pending := by simp [hostRefuse]
@[simp] theorem hostRecord_pending (x1 : Skip) (x2 : Packet) (s : State) : (hostRecord x1 x2 s).pending = s.pending := by simp [hostRecord, apply_ite State.pending]
@[simp] theorem hostRequest_pending (x1 : Skip) (x2 : Packet) (x3 : Bool) (s : State) : (hostRequest x1 x2 x3 s).pending = s.pending := by unfold hostRequest; dsimp only; (repeat' split) <;> simp [apply_ite State.pending]
@[simp] theorem oebReset_pending (x1 : Side) (x2 : Bool) (s : State) : (oebReset x1 x2 s).pending = s.pending := by
  unfold oebReset
  dsimp only
  refine (foldl_pending _ _ _ fun t a => sendInsert_pending _ _ _ _).trans ((so_pending _ _ _ _ _).trans ?_)
  refine (foldl_pending _ _ _ fun t a => ?_).trans ?_
  · rw [setAux_pending, setLink_pending]
  · rw [setOeb_pending, setKeySec_pending, setRates_pending, setUnit_pending]
theorem xWide_pending {x1 : Core} {x2 : Instr} {x3 : XOp} {x4 : AReg} {x5 : SReg} {x6 : SReg} {x7 : SramRead} {s : State} {t : State} (h : xWide x1 x2 x3 x4 x5 x6 x7 s = .next t) : t.pending = s.pending := by
  unfold xWide at h
  refine lunaRead_pending (fun r t u e => ?_) h
  dsimp only at e
  repeat' split at e
  all_goals first | (cases e; done) | (injection e with e; subst e; simp; done) | (injection e with e; subst e; simp; split <;> simp)
@[simp] theorem contribCell_pending (x1 : Nat) (x2 : ChunkId) (x3 : Nat) (x4 : List Byte) (x5 : SramRead) (s : State) : (contribCell x1 x2 x3 x4 x5 s).pending = s.pending := by unfold contribCell; (repeat' split) <;> simp_all
@[simp] theorem mreqNext_pending (x1 : Side) (s : State) : (mreqNext x1 s).pending = s.pending := by unfold mreqNext; split <;> simp_all
@[simp] theorem mrspRx_pending (x1 : Side) (x2 : Nat) (x3 : Nat) (x4 : List Byte) (s : State) : (mrspRx x1 x2 x3 x4 s).pending = s.pending := by unfold mrspRx; dsimp only; (repeat' split) <;> simp [apply_ite State.pending]
@[simp] theorem profileDone_pending (s : State) : (profileDone s).pending = s.pending := by unfold profileDone; dsimp only; (repeat' split) <;> simp [apply_ite State.pending]
@[simp] theorem eopArrive_pending (x1 : Nat) (x2 : Bool) (x3 : List (Nat × SramRead)) (s : State) : (eopArrive x1 x2 x3 s).pending = s.pending := by
  unfold eopArrive
  split
  · rfl
  · split
    · rfl
    · split
      · exact handOver_pending _ _ _
      · exact (handOver_pending _ _ _).trans ((setBuf_pending _ _).trans (mend_snd_pending _ _ _ _))
@[simp] theorem skipSend_pending (x1 : LinkEnd) (s : State) : (skipSend x1 s).pending = s.pending := by simp [skipSend, apply_ite State.pending]
@[simp] theorem respondBy_pending (x1 : Nat) (x2 : Header) (x3 : Nat) (s : State) : (respondBy x1 x2 x3 s).pending = s.pending := by
  unfold respondBy
  have e0 := answerTo_snd_pending x2 x3 s
  split
  · next pk s1 q =>
    rw [q] at e0
    dsimp only
    split
    · exact (hold_pending _ _).trans e0
    · have e := fun x g => (stage4_pending x g s1).trans e0
      split
      · next q => exact fate_done q (e _ _)
      · next q => exact (dropRsp_pending _ _).trans (fate_fail q (e _ _))
      · next q => exact (hold_pending _ _).trans (fate_held q (e _ _))
  · next q =>
    rw [q] at e0
    exact e0
@[simp] theorem denyTraces_pending (x1 : Nat) (x2 : Header) (s : State) : (denyTraces x1 x2 s).pending = s.pending := by simp [denyTraces]
@[simp] theorem notReadyTraces_pending (x1 : Nat) (s : State) : (notReadyTraces x1 s).pending = s.pending := by simp [notReadyTraces]
@[simp] theorem takeSample_pending (x1 : Nat) (x2 : Nat) (x3 : Packet) (s : State) : (takeSample x1 x2 x3 s).pending = s.pending := by simp [takeSample, apply_ite State.pending]
@[simp] theorem sample_pending (x1 : Nat) (x2 : Nat) (x3 : Packet) (s : State) : (sample x1 x2 x3 s).pending = s.pending := by simp [sample, apply_ite State.pending]
@[simp] theorem malformedTraces_pending (x1 : Nat) (x2 : Header) (s : State) : (malformedTraces x1 x2 s).pending = s.pending := by simp [malformedTraces]
@[simp] theorem portLookup_pending (x1 : Port) (x2 : Packet) (x3 : Tail) (s : State) : (portLookup x1 x2 x3 s).pending = s.pending := by simp [portLookup, apply_ite State.pending]
@[simp] theorem ingressLookup_pending (x1 : Entry) (x2 : Packet) (x3 : Bool) (x4 : Bool) (x5 : List (Nat × SramRead)) (s : State) : (ingressLookup x1 x2 x3 x4 x5 s).pending = s.pending := by unfold ingressLookup; dsimp only; (repeat' split) <;> simp [apply_ite State.pending]
@[simp] theorem segmentEgress_pending (x1 : Skip) (x2 : Packet) (x3 : Bool) (s : State) : (segmentEgress x1 x2 x3 s).pending = s.pending := by simp [segmentEgress, apply_ite State.pending]
@[simp] theorem slotDone_pending (x1 : LinkEnd) (s : State) : (slotDone x1 s).pending = s.pending := by unfold slotDone; split <;> simp_all
@[simp] theorem packetSent_pending (x1 : Nat) (x2 : BufPkt) (s : State) : (packetSent x1 x2 s).pending = s.pending := by unfold packetSent; dsimp only; (repeat' split) <;> simp [apply_ite State.pending]
@[simp] theorem sendFlit_pending (x1 : LinkEnd) (x2 : Flit) (s : State) : (sendFlit x1 x2 s).pending = s.pending := by simp [sendFlit]
@[simp] theorem sendVc_pending (x1 : Nat) (x2 : Nat) (x3 : LinkAux) (x4 : SramRead) (s : State) : (sendVc x1 x2 x3 x4 s).pending = s.pending := by unfold sendVc; dsimp only; (repeat' split) <;> simp [apply_ite State.pending]
@[simp] theorem sendOebVc_pending (x1 : LinkEnd) (x2 : Nat) (x3 : LinkAux) (s : State) : (sendOebVc x1 x2 x3 s).pending = s.pending := by unfold sendOebVc; dsimp only; (repeat' split) <;> simp [apply_ite State.pending]
@[simp] theorem slotFlit_pending (x1 : LinkEnd) (x2 : SramRead) (s : State) : (slotFlit x1 x2 s).pending = s.pending := by
  unfold slotFlit
  dsimp only
  split
  · exact (sendFlit_pending _ _ _).trans (setAux_pending _ _ _)
  · exact sendOebVc_pending _ _ _ _
  · split
    · split
      · exact sendVc_pending _ _ _ _ _
      · exact (sendFlit_pending _ _ _).trans (setAux_pending _ _ _)
    · exact sendVc_pending _ _ _ _ _
@[simp] theorem echoSlot_pending (x1 : Nat) (s : State) : (echoSlot x1 s).pending = s.pending := by simp [echoSlot]
@[simp] theorem flitSlot_pending (x1 : LinkEnd) (x2 : SramRead) (s : State) : (flitSlot x1 x2 s).pending = s.pending := by unfold flitSlot; dsimp only; (repeat' split) <;> simp [apply_ite State.pending]
@[simp] theorem rejectTraces_pending (s : State) : (rejectTraces s).pending = s.pending := by unfold rejectTraces; repeat' (first | (first | rfl | (simp [*]; done)) | split | (refine (foldl_pending _ _ _ (fun _ _ => ?_)).trans ?_) | (simp only [apply_ite State.pending, *]))
@[simp] theorem sendNr_pending (x1 : List Nat) (s : State) : (sendNr x1 s).pending = s.pending := by unfold sendNr; repeat' (first | (first | rfl | (simp [*]; done)) | split | (refine (foldl_pending _ _ _ (fun _ _ => ?_)).trans ?_) | (simp only [apply_ite State.pending, *]))
@[simp] theorem portsNotReady_pending (s : State) : (portsNotReady s).pending = s.pending := by simp [portsNotReady]
@[simp] theorem enterChrysalis_pending (x1 : Nat) (s : State) : (enterChrysalis x1 s).pending = s.pending := by simp [enterChrysalis]
@[simp] theorem bootDone_pending (s : State) : (bootDone s).pending = s.pending := by unfold bootDone; dsimp only; (repeat' split) <;> simp [apply_ite State.pending]
@[simp] theorem enterActive_pending (x1 : LinkEnd) (x2 : List Nat) (s : State) : (enterActive x1 x2 s).pending = s.pending := by simp [enterActive]
@[simp] theorem tscIn_pending (x1 : LinkEnd) (x2 : List (List Byte)) (s : State) : (tscIn x1 x2 s).pending = s.pending := by simp [tscIn, apply_ite State.pending]
@[simp] theorem tscRx_pending (x1 : LinkEnd) (x2 : Line) (s : State) : (tscRx x1 x2 s).pending = s.pending := by
  unfold tscRx
  refine trainingIn_pending _ _ _ _ fun t => ?_
  have e := tsIn_snd_pending x1 4 x2 t
  split <;> next q => (rw [q] at e; first | exact e | exact (ite_pending ((tscIn_pending _ _ _).trans ((sendTraining_pending _ _).trans (ite_pending rfl (modAux_pending _ _ _)))) rfl).trans e)
@[simp] theorem skipRx_pending (x1 : LinkEnd) (x2 : Line) (x3 : Bool) (s : State) : (skipRx x1 x2 x3 s).pending = s.pending := by simp [skipRx, apply_ite State.pending]
@[simp] theorem mailboxResponse_pending (x1 : Nat) (x2 : List Byte) (s : State) : (mailboxResponse x1 x2 s).pending = s.pending := by simp [mailboxResponse, apply_ite State.pending]
@[simp] theorem keyExchange_pending (x1 : UnitId) (x2 : Nat) (x3 : List Byte) (s : State) : (keyExchange x1 x2 x3 s).pending = s.pending := by simp [keyExchange, apply_ite State.pending]
@[simp] theorem cohInvRx_pending (x1 : Side) (x2 : Packet) (x3 : Nat) (s : State) : (cohInvRx x1 x2 x3 s).pending = s.pending := by simp [cohInvRx]
@[simp] theorem voltageReached_pending (x1 : Int) (s : State) : (voltageReached x1 s).pending = s.pending := by unfold voltageReached; dsimp only; (repeat' split) <;> simp [apply_ite State.pending]
@[simp] theorem mcOx7Eop_pending (x1 : Nat) (x2 : Bool) (s : State) : (mcOx7Eop x1 x2 s).pending = s.pending := by unfold mcOx7Eop; dsimp only; (repeat' split) <;> simp [apply_ite State.pending]
@[simp] theorem txStart_pending (x1 : Skip) (x2 : List Word) (x3 : List Byte) (s : State) : (txStart x1 x2 x3 s).pending = s.pending := by simp [txStart, apply_ite State.pending]
@[simp] theorem bufGrantReturn_pending (x1 : Nat) (x2 : Nat) (s : State) : (bufGrantReturn x1 x2 s).pending = s.pending := by simp [bufGrantReturn]
@[simp] theorem creditStall_pending (x1 : LinkEnd) (x2 : Nat) (s : State) : (creditStall x1 x2 s).pending = s.pending := by unfold creditStall; dsimp only; (repeat' split) <;> simp [apply_ite State.pending]
@[simp] theorem lunaCocoon_pending (x1 : Nat) (x2 : Nat) (s : State) : (lunaCocoon x1 x2 s).pending = s.pending := by simp [lunaCocoon, apply_ite State.pending]
@[simp] theorem skipEnd_pending (x1 : LinkEnd) (s : State) : (skipEnd x1 s).pending = s.pending := by simp [skipEnd]
@[simp] theorem bufGrantRequest_pending (x1 : Nat) (x2 : Nat) (s : State) : (bufGrantRequest x1 x2 s).pending = s.pending := by simp [bufGrantRequest, apply_ite State.pending]
@[simp] theorem assignRoles_pending (x1 : List Nat) (s : State) : (assignRoles x1 s).pending = s.pending := by unfold assignRoles; dsimp only; (repeat' split) <;> simp [apply_ite State.pending]
@[simp] theorem coreFails_pending (x1 : Nat) (s : State) : (coreFails x1 s).pending = s.pending := by simp [coreFails, apply_ite State.pending]
@[simp] theorem siteFails_pending (x1 : Nat) (s : State) : (siteFails x1 s).pending = s.pending := by unfold siteFails; dsimp only; (repeat' split) <;> simp [apply_ite State.pending]
@[simp] theorem rowFails_pending (x1 : Nat) (x2 : Nat) (x3 : Nat) (s : State) : (rowFails x1 x2 x3 s).pending = s.pending := by simp [rowFails, apply_ite State.pending]
@[simp] theorem quiet_pending (x1 : State → State) (s : State) (h1 : ∀ t, (x1 t).pending = t.pending) : (quiet x1 s).pending = s.pending := by unfold quiet; (repeat' split) <;> simp_all
@[simp] theorem applyRetired_pending (x1 : UnitLog) (s : State) : (applyRetired x1 s).pending = s.pending := by unfold applyRetired; dsimp only; (repeat' split) <;> simp [apply_ite State.pending]
@[simp] theorem applyRepairLog_pending (s : State) : (applyRepairLog s).pending = s.pending := by simp [applyRepairLog]
@[simp] theorem selftestDone_pending (x1 : List Nat) (x2 : List Nat) (x3 : List Nat) (x4 : List (Nat × Nat × Nat)) (s : State) : (selftestDone x1 x2 x3 x4 s).pending = s.pending := by unfold selftestDone; dsimp only; (repeat' split) <;> simp [apply_ite State.pending]
@[simp] theorem refclkLost_pending (s : State) : (refclkLost s).pending = s.pending := by simp [refclkLost, apply_ite State.pending]
@[simp] theorem trayIn_pending (s : State) : (trayIn s).pending = s.pending := by simp [trayIn, apply_ite State.pending]
@[simp] theorem idleEntry_pending (x1 : LinkEnd) (s : State) : (idleEntry x1 s).pending = s.pending := by simp [idleEntry, apply_ite State.pending]
@[simp] theorem cmdFrames_pending (x1 : Prog) (x2 : List (Nat × Nat)) (s : State) : (cmdFrames x1 x2 s).pending = s.pending := by simp [cmdFrames]
@[simp] theorem forwardProg_pending (x1 : Prog) (x2 : List (Nat × Nat)) (s : State) : (forwardProg x1 x2 s).pending = s.pending := by simp [forwardProg, apply_ite State.pending]
@[simp] theorem takeProg_pending (x1 : Prog) (s : State) : (takeProg x1 s).pending = s.pending := by simp [takeProg, apply_ite State.pending]
@[simp] theorem takeUp_pending (x1 : Prog) (s : State) : (takeUp x1 s).pending = s.pending := by simp [takeUp, apply_ite State.pending]
@[simp] theorem programCheck_pending (s : State) : (programCheck s).pending = s.pending := by unfold programCheck; dsimp only; (repeat' split) <;> simp [apply_ite State.pending]
@[simp] theorem gustRx_pending (x1 : LinkEnd) (x2 : Line) (s : State) : (gustRx x1 x2 s).pending = s.pending := by simp [gustRx, apply_ite State.pending]
@[simp] theorem trngStartup_pending (x1 : TrngUnit) (x2 : Bool) (s : State) : (trngStartup x1 x2 s).pending = s.pending := by simp [trngStartup, apply_ite State.pending]
@[simp] theorem lcGate_pending (x1 : Side) (x2 : Packet) (x3 : Bool) (x4 : State → State) (x5 : Packet → State → State) (s : State) (h4 : ∀ t, (x4 t).pending = t.pending) (h5 : ∀ a0 t, (x5 a0 t).pending = t.pending) : (lcGate x1 x2 x3 x4 x5 s).pending = s.pending := by simp only [lcGate]; (repeat' split) <;> simp_all
theorem resultFrees_pending {x1 : Side} {x2 : Nat} {x3 : Nat} {x4 : Header} {s : State} {a : Bool} {t : State} (h : resultFrees x1 x2 x3 x4 s = (a, t)) : t.pending = s.pending := by
  unfold resultFrees at h
  split at h
  · injection h with _ h
    rw [h]
  · dsimp only at h
    have one : ∀ (o : Option Nat) (k : Nat) (s u : State), (o.map fun q => windowSet x1 k q s) = some u → u.pending = s.pending := by
      intro o k s u e
      obtain ⟨q, _, rfl⟩ := Option.map_eq_some_iff.mp e
      exact windowSet_pending _ _ _ _
    split at h
    · split at h
      · next s0 s1 e0 e1 =>
        injection h with _ h
        subst h
        refine Eq.trans ?_ (one _ _ _ _ e0)
        generalize hx : (Option.map _ _) = o
        cases o with
        | none => rfl
        | some u => exact one _ _ _ _ hx
      · next e0 _ => injection h with _ h; rw [← h]; exact one _ _ _ _ e0
      · next e0 => injection h with _ h; rw [← h]; exact one _ _ _ _ e0
      · injection h with _ h; rw [h]
    · split at h
      · next e0 => injection h with _ h; rw [← h]; exact one _ _ _ _ e0
      · injection h with _ h; rw [h]
@[simp] theorem resultFrees_snd_pending (x1 : Side) (x2 : Nat) (x3 : Nat) (x4 : Header) (s : State) : (resultFrees x1 x2 x3 x4 s).2.pending = s.pending := resultFrees_pending (Eq.refl _)
@[simp] theorem resultWrite_pending (x1 : Side) (x2 : Nat) (x3 : Nat) (x4 : Header) (x5 : List Byte) (s : State) : (resultWrite x1 x2 x3 x4 x5 s).pending = s.pending := by simp [resultWrite, apply_ite State.pending]
@[simp] theorem rresultRx_pending (x1 : Side) (x2 : Nat) (x3 : Packet) (x4 : Bool) (s : State) : (rresultRx x1 x2 x3 x4 s).pending = s.pending := by
  unfold rresultRx
  dsimp only
  split
  · exact oebMalformed_pending _ _ _ _
  · split
    · rw [raiseOF_pending, countO_pending]
    · split
      · rw [raiseO_pending, countO_pending]
      · generalize ho : (if x3.hdr.enc = true then _ else _ : Option (List Byte) × State) = o
        have e : o.2.pending = s.pending := by
          rw [← ho]
          split
          · exact openPacket_pending (Prod.eta _).symm
          · split <;> rfl
        clear ho
        obtain ⟨o1, s1⟩ := o
        cases o1 with
        | none => exact (gcmFail_pending _ _ _ _).trans e
        | some data =>
          dsimp only
          split
          · next e2 => exact (countO_pending _ _ _).trans ((resultFrees_pending e2).trans e)
          · next e2 =>
            split
            · exact (resultFrees_pending e2).trans e
            · refine (lcGate_pending _ _ _ _ _ _ (fun _ => rfl) fun p t => resultWrite_pending _ _ _ _ _ _).trans ((resultFrees_pending e2).trans e)
@[simp] theorem keepAlive_pending (x1 : LinkEnd) (s : State) : (keepAlive x1 s).pending = s.pending := by simp [keepAlive, apply_ite State.pending]
@[simp] theorem oebClearRc_pending (x1 : Side) (x2 : Nat) (s : State) : (oebClearRc x1 x2 s).pending = s.pending := by unfold oebClearRc; repeat' (first | (first | rfl | (simp [*]; done)) | split | (refine (foldl_pending _ _ _ (fun _ _ => ?_)).trans ?_) | (simp only [apply_ite State.pending, *]))
@[simp] theorem oebRead_pending (x1 : Side) (x2 : Nat) (x3 : Nat) (s : State) : (oebRead x1 x2 x3 s).pending = s.pending := by simp [oebRead, apply_ite State.pending]
@[simp] theorem bar0Read_pending (x1 : Nat) (x2 : Nat) (x3 : Nat) (s : State) : (bar0Read x1 x2 x3 s).pending = s.pending := by unfold bar0Read; repeat' (first | (first | rfl | (simp [*]; done) | (have e := ctlRead_pending ‹_›; simp [*]; done) | (have e := monarchRead_pending ‹_›; simp [*]; done)) | split | (refine (foldl_pending _ _ _ (fun _ _ => ?_)).trans ?_) | (simp only [apply_ite State.pending, *]))
@[simp] theorem unmappedAccess_pending (x1 : Nat) (x2 : Nat) (x3 : Nat) (x4 : Bool) (s : State) : (unmappedAccess x1 x2 x3 x4 s).pending = s.pending := by simp [unmappedAccess, apply_ite State.pending]
@[simp] theorem thermTrip_pending (x1 : Nat) (x2 : Int) (s : State) : (thermTrip x1 x2 s).pending = s.pending := by simp [thermTrip, apply_ite State.pending]
@[simp] theorem writeSample_pending (x1 : Nat) (x2 : List Byte) (s : State) : (writeSample x1 x2 s).pending = s.pending := by simp [writeSample, apply_ite State.pending]
@[simp] theorem writeRecord_pending (x1 : Sample) (x2 : List Sample) (s : State) : (writeRecord x1 x2 s).pending = s.pending := by unfold writeRecord; dsimp only; (repeat' split) <;> simp [apply_ite State.pending]
@[simp] theorem sampleWrite_pending (x1 : SramRead) (s : State) : (sampleWrite x1 s).pending = s.pending := by unfold sampleWrite; dsimp only; (repeat' split) <;> simp [apply_ite State.pending]
@[simp] theorem lineIn_pending (x1 : Side) (x2 : Header) (s : State) : (lineIn x1 x2 s).pending = s.pending := by simp [lineIn]
@[simp] theorem responseRx_pending (x1 : Side) (x2 : Nat) (x3 : Packet) (x4 : Bool) (s : State) : (responseRx x1 x2 x3 x4 s).pending = s.pending := by unfold responseRx; repeat' (first | (first | rfl | (simp [*]; done) | (have e := openPacket_pending ‹_›; simp [*]; done)) | split | (refine (foldl_pending _ _ _ (fun _ _ => ?_)).trans ?_) | (simp only [apply_ite State.pending, *]))
@[simp] theorem fourSlot_pending (x1 : LinkEnd) (x2 : Special) (x3 : Nat → Bool) (x4 : Line) (x5 : State → State) (s : State) (h5 : ∀ t, (x5 t).pending = t.pending) : (fourSlot x1 x2 x3 x4 x5 s).pending = s.pending := by simp only [fourSlot]; (repeat' split) <;> simp_all
@[simp] theorem downRx_pending (x1 : LinkEnd) (x2 : Line) (s : State) : (downRx x1 x2 s).pending = s.pending := by simp [downRx]
@[simp] theorem grantsResume_pending (s : State) : (grantsResume s).pending = s.pending := by simp [grantsResume]
@[simp] theorem trngHealth_pending (x1 : TrngUnit) (x2 : Bool) (s : State) : (trngHealth x1 x2 s).pending = s.pending := by simp [trngHealth, apply_ite State.pending]
@[simp] theorem calmFreeze_pending (s : State) : (calmFreeze s).pending = s.pending := by unfold calmFreeze; dsimp only; (repeat' split) <;> simp [apply_ite State.pending]
@[simp] theorem keyPayload_pending (x1 : UnitId) (x2 : Nat) (x3 : List Byte) (s : State) : (keyPayload x1 x2 x3 s).pending = s.pending := by unfold keyPayload; (repeat' split) <;> simp_all
@[simp] theorem vendorRequest_pending (x1 : UnitId) (x2 : Nat) (x3 : Nat) (x4 : Nat) (x5 : List Byte) (s : State) : (vendorRequest x1 x2 x3 x4 x5 s).pending = s.pending := by simp [vendorRequest, apply_ite State.pending]
@[simp] theorem collWrite_pending (x1 : Side) (x2 : Nat) (x3 : Nat) (x4 : Nat) (s : State) : (collWrite x1 x2 x3 x4 s).pending = s.pending := by simp [collWrite, apply_ite State.pending]
@[simp] theorem dmaErrClear_pending (x1 : Side) (x2 : Nat) (s : State) : (dmaErrClear x1 x2 s).pending = s.pending := by simp [dmaErrClear, apply_ite State.pending]
@[simp] theorem dmaChWrite_pending (x1 : Side) (x2 : Nat) (x3 : Nat) (x4 : Nat) (s : State) : (dmaChWrite x1 x2 x3 x4 s).pending = s.pending := by unfold dmaChWrite; dsimp only; (repeat' split) <;> simp [apply_ite State.pending]
@[simp] theorem xlatCfgWrite_pending (x1 : Side) (x2 : Nat) (x3 : Nat) (x4 : Nat) (s : State) : (xlatCfgWrite x1 x2 x3 x4 s).pending = s.pending := by simp [xlatCfgWrite, apply_ite State.pending]
@[simp] theorem portCfgWrite_pending (x1 : Side) (x2 : Nat) (x3 : Nat) (s : State) : (portCfgWrite x1 x2 x3 s).pending = s.pending := by unfold portCfgWrite; dsimp only; (repeat' split) <;> simp [apply_ite State.pending]
@[simp] theorem oebWrite_pending (x1 : Side) (x2 : Reg) (x3 : Nat) (x4 : Nat) (x5 : Nat) (s : State) : (oebWrite x1 x2 x3 x4 x5 s).pending = s.pending := by unfold oebWrite; dsimp only; (repeat' split) <;> simp [apply_ite State.pending]
@[simp] theorem openWrite_pending (x1 : Nat) (x2 : Nat) (x3 : Nat → State → State) (s : State) (h3 : ∀ a0 t, (x3 a0 t).pending = t.pending) : (openWrite x1 x2 x3 s).pending = s.pending := by unfold openWrite; split <;> simp_all
@[simp] theorem oebAccess_pending (x1 : Side) (x2 : Nat) (x3 : Bool) (x4 : Nat) (s : State) : (oebAccess x1 x2 x3 x4 s).pending = s.pending := by unfold oebAccess; (repeat' split) <;> simp_all
@[simp] theorem hostAccess_pending (x1 : Nat) (x2 : Nat) (x3 : Bool) (x4 : Nat) (s : State) : (hostAccess x1 x2 x3 x4 s).pending = s.pending := by simp [hostAccess, apply_ite State.pending]
@[simp] theorem reqWrite_pending (x1 : Nat) (x2 : Nat) (x3 : Nat) (x4 : Nat) (s : State) : (reqWrite x1 x2 x3 x4 s).pending = s.pending := by simp [reqWrite, apply_ite State.pending]
@[simp] theorem slotWrite_pending (x1 : Nat) (x2 : Nat) (x3 : Nat) (x4 : Nat) (s : State) : (slotWrite x1 x2 x3 x4 s).pending = s.pending := by simp [slotWrite]
@[simp] theorem ringCtlWrite_pending (x1 : Nat) (x2 : Nat) (s : State) : (ringCtlWrite x1 x2 s).pending = s.pending := by simp [ringCtlWrite, apply_ite State.pending]
@[simp] theorem checkedWrite_pending (x1 : Reg) (x2 : Nat) (x3 : Nat) (x4 : Nat → State → State) (s : State) (h4 : ∀ a0 t, (x4 a0 t).pending = t.pending) : (checkedWrite x1 x2 x3 x4 s).pending = s.pending := by unfold checkedWrite; (repeat' split) <;> simp_all
@[simp] theorem directWrite_pending (x1 : Reg) (x2 : Nat) (x3 : Nat) (x4 : Nat) (s : State) : (directWrite x1 x2 x3 x4 s).pending = s.pending := by simp [directWrite, apply_ite State.pending]
@[simp] theorem mbCtlWrite_pending (x1 : Nat) (x2 : Nat) (s : State) : (mbCtlWrite x1 x2 s).pending = s.pending := by simp [mbCtlWrite, apply_ite State.pending]
@[simp] theorem ringTailWrite_pending (x1 : Nat) (x2 : Nat) (s : State) : (ringTailWrite x1 x2 s).pending = s.pending := by
  exact ringTail_pending _ _ _
theorem regDirect_of (x1 : Nat) (x2 : Reg) (x3 x4 x5 : Nat) (s : State)
    (rw_ : (checkedWrite x2 x4 x5 (regWrite .ox9 x2 x3 x4) s).pending = s.pending)
    (dw : (checkedWrite x2 x4 x5 (directWrite x2 x3 x4) s).pending = s.pending)
    (un : (unmapped s).pending = s.pending)
    (rc : (openWrite 3 x5 (ringCtlWrite x3) s).pending = s.pending)
    (rt : (checkedWrite x2 x4 x5 (ringTailWrite x3) s).pending = s.pending)
    (mb : (openWrite (2 ^ 14 - 1) x5 (mbCtlWrite x3) s).pending = s.pending)
    (sc : (countG .scanDeny s).pending = s.pending) : (regDirect x1 x2 x3 x4 x5 s).pending = s.pending := by
  unfold regDirect
  split
  · exact ite_pending dw un
  · split
    · exact ite_pending rw_ sc
    · exact ite_pending rw_ (Eq.refl _)
    · exact dw
    · exact rc
    · exact rt
    · exact mb
    · exact rw_
theorem regDirect_dw (x2 : Reg) (x3 x4 x5 : Nat) (s : State) : (checkedWrite x2 x4 x5 (directWrite x2 x3 x4) s).pending = s.pending :=
  checkedWrite_pending _ _ _ _ _ fun _ _ => directWrite_pending _ _ _ _ _
theorem regDirect_rc (x3 x5 : Nat) (s : State) : (openWrite 3 x5 (ringCtlWrite x3) s).pending = s.pending :=
  openWrite_pending _ _ _ _ fun _ _ => ringCtlWrite_pending _ _ _
theorem regDirect_rt (x2 : Reg) (x3 x4 x5 : Nat) (s : State) :
    (checkedWrite x2 x4 x5 (ringTailWrite x3) s).pending = s.pending :=
  checkedWrite_pending _ _ _ _ _ fun _ _ => ringTailWrite_pending _ _ _
theorem regDirect_mb (m x3 x5 : Nat) (s : State) : (openWrite m x5 (mbCtlWrite x3) s).pending = s.pending :=
  openWrite_pending _ _ _ _ fun _ _ => mbCtlWrite_pending _ _ _
theorem regDirect_rw (x2 : Reg) (x3 x4 x5 : Nat) (s : State) :
    (checkedWrite x2 x4 x5 (regWrite .ox9 x2 x3 x4) s).pending = s.pending :=
  checkedWrite_pending _ _ _ _ _ fun _ _ => regWrite_pending _ _ _ _ _ _
@[simp] theorem regDirect_pending (x1 : Nat) (x2 : Reg) (x3 : Nat) (x4 : Nat) (x5 : Nat) (s : State) : (regDirect x1 x2 x3 x4 x5 s).pending = s.pending := by
  exact regDirect_of x1 x2 x3 x4 x5 s (regDirect_rw _ _ _ _ _) (regDirect_dw _ _ _ _ _) (unmapped_pending s)
    (regDirect_rc _ _ _) (regDirect_rt _ _ _ _ _) (regDirect_mb (2 ^ 14 - 1) x3 x5 s) (countG_pending .scanDeny s)
@[simp] theorem bar0Write_pending (x1 : Nat) (x2 : Nat) (x3 : Bool) (x4 : Nat) (s : State) : (bar0Write x1 x2 x3 x4 s).pending = s.pending := by
  unfold bar0Write
  dsimp only
  refine ite_pending (unmapped_pending _) (ite_pending (reqWrite_pending _ _ _ _ _) (ite_pending (slotWrite_pending _ _ _ _ _)
    (ite_pending (unmapped_pending _) (ite_pending rfl (ite_pending (ite_pending rfl (countG_pending _ _)) (ite_pending rfl ?_))))))
  split
  · exact unmapped_pending _
  · exact regDirect_pending _ _ _ _ _ _
  · rfl
@[simp] theorem hostWrite_pending (x1 : Nat) (x2 : Nat) (x3 : Bool) (x4 : Nat) (s : State) : (hostWrite x1 x2 x3 x4 s).pending = s.pending := by simp [hostWrite, apply_ite State.pending]
@[simp] theorem rateRecover_pending (x1 : RateUnit) (x2 : Nat) (x3 : Nat) (s : State) : (rateRecover x1 x2 x3 s).pending = s.pending := by unfold rateRecover; dsimp only; (repeat' split) <;> simp [apply_ite State.pending]
@[simp] theorem laneDegraded_pending (x1 : Nat) (s : State) : (laneDegraded x1 s).pending = s.pending := by simp [laneDegraded, apply_ite State.pending]
@[simp] theorem swapRx_pending (x1 : LinkEnd) (x2 : Line) (s : State) : (swapRx x1 x2 s).pending = s.pending := by simp [swapRx]
@[simp] theorem rxWake_pending (x1 : LinkEnd) (s : State) : (rxWake x1 s).pending = s.pending := by simp [rxWake]
@[simp] theorem idleRx_pending (x1 : LinkEnd) (x2 : Line) (s : State) : (idleRx x1 x2 s).pending = s.pending := by simp [idleRx]
@[simp] theorem flushCocoon_pending (s : State) : (flushCocoon s).pending = s.pending := by simp [flushCocoon]
@[simp] theorem wakeDone_pending (x1 : Nat) (s : State) : (wakeDone x1 s).pending = s.pending := by simp [wakeDone, apply_ite State.pending]
@[simp] theorem setSwapStep_pending (x1 : Nat) (x2 : Nat) (s : State) : (setSwapStep x1 x2 s).pending = s.pending := by simp [setSwapStep]
@[simp] theorem swapRxSwitch_pending (x1 : Nat) (s : State) : (swapRxSwitch x1 s).pending = s.pending := by unfold swapRxSwitch; (repeat' split) <;> simp_all
@[simp] theorem drbgReseed_pending (x1 : TrngUnit) (s : State) : (drbgReseed x1 s).pending = s.pending := by simp [drbgReseed, apply_ite State.pending]
@[simp] theorem gustExit_pending (x1 : LinkEnd) (s : State) : (gustExit x1 s).pending = s.pending := by simp [gustExit, apply_ite State.pending]
theorem admitAll_pending {x1 : Entry} {x2 : List Packet} {s : State} {t : State} (h : admitAll x1 x2 s = some t) : t.pending = s.pending := by
  induction x2 generalizing s with
    | nil => rw [← Option.some.inj h]
    | cons pk pks ih =>
      rw [admitAll] at h
      have e0 : (choose (arrival x1 pk (Tail.whole pk false)) s).2.pending = s.pending := choose_pending (Prod.eta _).symm
      split at h
      · next q0 =>
        rw [q0] at e0
        split at h
        · next q => exact (ih h).trans (fate_done q ((admitTo_pending _ _ _).trans e0))
        · cases h
      · cases h
@[simp] theorem mirrorCopy_pending (x1 : Nat) (x2 : Nat) (x3 : Bool) (x4 : Packet) (x5 : Bool) (x6 : Nat) (x7 : Nat) (s : State) : (mirrorCopy x1 x2 x3 x4 x5 x6 x7 s).pending = s.pending := by unfold mirrorCopy; repeat' (first | (first | rfl | (simp [*]; done) | (have e := admitAll_pending ‹_›; simp [*]; done)) | split | (refine (foldl_pending _ _ _ (fun _ _ => ?_)).trans ?_) | (simp only [apply_ite State.pending, *]))
@[simp] theorem setPace_pending (x1 : Bool) (s : State) : (setPace x1 s).pending = s.pending := by simp [setPace, apply_ite State.pending]
@[simp] theorem governor_pending (x1 : Nat) (s : State) : (governor x1 s).pending = s.pending := by
  unfold governor
  have p : ∀ (t : State) (x : Power), ({ t with power := x } : State).pending = t.pending := fun t x => rfl
  have e : ∀ (x : Power) (a : Bool) (b c d : Nat), (setPace a (sx GOV_STAT.PAD 0 b (sx GOV_STAT.D 0 c (sx GOV_STAT.G 0 d
      ({ s with power := x } : State))))).pending = s.pending := fun x a b c d => by
    rw [setPace_pending, sx_pending, sx_pending, sx_pending, p]
  exact ite_pending rfl (ite_pending ((sx_pending _ _ _ _).trans ((countG_pending _ _).trans (e _ _ _ _ _))) (e _ _ _ _ _))
@[simp] theorem shadowDone_pending (x1 : UnitKind) (x2 : Nat) (x3 : Bool) (s : State) : (shadowDone x1 x2 x3 s).pending = s.pending := by unfold shadowDone; (repeat' split) <;> simp_all
@[simp] theorem startUp_pending (s : State) : (startUp s).pending = s.pending := by simp [startUp, apply_ite State.pending]
@[simp] theorem spdmMsg_pending (x1 : Side) (x2 : Header) (x3 : Nat) (x4 : List Byte) (s : State) : (spdmMsg x1 x2 x3 x4 s).pending = s.pending := by simp [spdmMsg, apply_ite State.pending]
@[simp] theorem inboundRequest_pending (x1 : Side) (x2 : Nat) (x3 : Packet) (x4 : Bool) (s : State) : (inboundRequest x1 x2 x3 x4 s).pending = s.pending := by
  unfold inboundRequest
  refine ite_pending (countO_pending _ _ _) (ite_pending (oebMalformed_pending _ _ _ _) (ite_pending rfl (ite_pending
    ((respondIn_pending _ _ _ _ _ _).trans ((raiseOF_pending _ _ _ _ _ _ _ _ _ _).trans (countO_pending _ _ _)))
    (inboundCheck_pending _ _ _ _ _ _ (fun k t => respondIn_pending _ _ _ _ _ _) fun data t => ?_))))
  refine ite_pending (ite_pending (spdmMsg_pending _ _ _ _ _) (mreq_pending _ _ _ _ _ _ _ _)) (ite_pending (mreq_pending _ _ _ _ _ _ _ _) (ite_pending
    (atomArrive_pending _ _ _ _ _) (lcGate_pending _ _ _ _ _ _ (fun t => respondIn_pending _ _ _ _ _ _)
      fun pk t => mreq_pending _ _ _ _ _ _ _ _)))
@[simp] theorem setCtls_pending (x1 : List (Packet × Bool)) (x2 : List (Packet × Bool)) (s : State) : (setCtls x1 x2 s).pending = s.pending := by simp [setCtls]
@[simp] theorem launch_pending (x1 : Packet) (s : State) : (launch x1 s).pending = s.pending := by simp [launch, apply_ite State.pending]
@[simp] theorem refuseLaunch_pending (x1 : Packet) (x2 : Nat) (s : State) : (refuseLaunch x1 x2 s).pending = s.pending := by simp [refuseLaunch]
@[simp] theorem checkCtl_pending (x1 : Packet × Bool) (s : State) : (checkCtl x1 s).pending = s.pending := by unfold checkCtl; (repeat' split) <;> simp_all
@[simp] theorem frontCtl_pending (s : State) : (frontCtl s).pending = s.pending := by unfold frontCtl; split <;> simp_all
@[simp] theorem ctlQueue_pending (x1 : Packet × Bool) (s : State) : (ctlQueue x1 s).pending = s.pending := by simp [ctlQueue, apply_ite State.pending]
@[simp] theorem takeCtls_pending (s : State) : (takeCtls s).pending = s.pending := by simp [takeCtls]
@[simp] theorem stepLaunch_pending (s : State) : (stepLaunch s).pending = s.pending := by simp [stepLaunch]
@[simp] theorem timeNext_pending (x1 : LinkEnd) (s : State) : (timeNext x1 s).pending = s.pending := by simp [timeNext, apply_ite State.pending]
@[simp] theorem tsoIn_pending (x1 : LinkEnd) (x2 : List (List Byte)) (x3 : Nat) (s : State) : (tsoIn x1 x2 x3 s).pending = s.pending := by simp [tsoIn, apply_ite State.pending]
@[simp] theorem tsoRx_pending (x1 : LinkEnd) (x2 : Line) (x3 : Nat) (s : State) : (tsoRx x1 x2 x3 s).pending = s.pending := by
  unfold tsoRx
  refine trainingIn_pending _ _ _ _ fun t => ?_
  have e := tsIn_snd_pending x1 3 x2 t
  split <;> next q => (rw [q] at e; first | exact e | exact (ite_pending (tsoIn_pending _ _ _ _) rfl).trans e)
@[simp] theorem sliceDrained_pending (x1 : Nat) (s : State) : (sliceDrained x1 s).pending = s.pending := by simp [sliceDrained, apply_ite State.pending]
@[simp] theorem stallPacket_pending (x1 : Nat) (x2 : BufPkt) (s : State) : (stallPacket x1 x2 s).pending = s.pending := by simp [stallPacket, apply_ite State.pending]
@[simp] theorem sliceFail_pending (x1 : Nat) (s : State) : (sliceFail x1 s).pending = s.pending := by simp [sliceFail, apply_ite State.pending]
@[simp] theorem noteFirst_pending (x1 : Nat) (x2 : Header) (s : State) : (noteFirst x1 x2 s).pending = s.pending := by simp [noteFirst, apply_ite State.pending]
@[simp] theorem contribDeny_pending (x1 : Nat) (x2 : Header) (s : State) : (contribDeny x1 x2 s).pending = s.pending := by simp [contribDeny]
@[simp] theorem streamIn_pending (x1 : Nat) (x2 : Header) (x3 : Nat) (x4 : Nat) (x5 : List Byte) (s : State) : (streamIn x1 x2 x3 x4 x5 s).pending = s.pending := by simp [streamIn, apply_ite State.pending]
@[simp] theorem contribSop_pending (x1 : Nat) (x2 : Packet) (s : State) : (contribSop x1 x2 s).pending = s.pending := by unfold contribSop; dsimp only; (repeat' split) <;> simp [apply_ite State.pending]
@[simp] theorem ts2Bad_pending (x1 : Nat) (x2 : List Nat) (s : State) : (ts2Bad x1 x2 s).pending = s.pending := by unfold ts2Bad; dsimp only; (repeat' split) <;> simp [apply_ite State.pending]
@[simp] theorem ts2In_pending (x1 : LinkEnd) (x2 : List (List Byte)) (s : State) : (ts2In x1 x2 s).pending = s.pending := by unfold ts2In; dsimp only; (repeat' split) <;> simp [apply_ite State.pending]
@[simp] theorem ts2Rx_pending (x1 : LinkEnd) (x2 : Line) (s : State) : (ts2Rx x1 x2 s).pending = s.pending := by
  unfold ts2Rx
  refine trainingIn_pending _ _ _ _ fun t => ?_
  have e := tsIn_snd_pending x1 2 x2 t
  split <;> next q => (rw [q] at e; first | exact e | exact (ite_pending ((ts2In_pending _ _ _).trans (sendTraining_pending _ _)) rfl).trans e)
@[simp] theorem trackingRelease_pending (x1 : Nat) (x2 : List (Nat × SramRead)) (s : State) : (trackingRelease x1 x2 s).pending = s.pending := by unfold trackingRelease; split <;> simp_all
@[simp] theorem gotWords_pending (x1 : List Byte) (s : State) : (gotWords x1 s).pending = s.pending := by unfold gotWords; dsimp only; (repeat' split) <;> simp [apply_ite State.pending]
@[simp] theorem wordsBeyond_pending (x1 : List Byte) (s : State) : (wordsBeyond x1 s).pending = s.pending := by simp [wordsBeyond, apply_ite State.pending]
@[simp] theorem cmdFrameRx_pending (x1 : Nat) (x2 : List Byte) (s : State) : (cmdFrameRx x1 x2 s).pending = s.pending := by unfold cmdFrameRx; repeat' (first | (first | rfl | (simp [*]; done) | (have e := frameArrives_pending ‹_›; simp [*]; done)) | split | (refine (foldl_pending _ _ _ (fun _ _ => ?_)).trans ?_) | (simp only [apply_ite State.pending, *]))
@[simp] theorem endFetch_pending (x1 : Nat) (s : State) : (endFetch x1 s).pending = s.pending := by simp [endFetch]
@[simp] theorem relayData_pending (x1 : Nat) (x2 : List Byte) (s : State) : (relayData x1 x2 s).pending = s.pending := by simp [relayData]
@[simp] theorem payloadFetchDone_pending (x1 : Option (Fin 64)) (x2 : Nat) (x3 : FetchResult) (s : State) : (payloadFetchDone x1 x2 x3 s).pending = s.pending := by unfold payloadFetchDone; dsimp only; (repeat' split) <;> simp [apply_ite State.pending]
@[simp] theorem tokenReturn_pending (x1 : Nat) (x2 : Nat) (s : State) : (tokenReturn x1 x2 s).pending = s.pending := by simp [tokenReturn]
@[simp] theorem applyNak_pending (x1 : LinkEnd) (x2 : Nat) (s : State) : (applyNak x1 x2 s).pending = s.pending := by simp [applyNak, apply_ite State.pending]
@[simp] theorem applyAckNak_pending (x1 : LinkEnd) (x2 : Flit) (s : State) : (applyAckNak x1 x2 s).pending = s.pending := by simp [applyAckNak, apply_ite State.pending]
@[simp] theorem nakOnce_pending (x1 : LinkEnd) (s : State) : (nakOnce x1 s).pending = s.pending := by simp [nakOnce]
@[simp] theorem applyCredits_pending (x1 : LinkEnd) (x2 : Nat) (x3 : Nat) (s : State) : (applyCredits x1 x2 x3 s).pending = s.pending := by simp [applyCredits, apply_ite State.pending]
@[simp] theorem cellIn_pending (x1 : Port) (x2 : Flit) (s : State) : (cellIn x1 x2 s).pending = s.pending := by unfold cellIn; dsimp only; (repeat' split) <;> simp [apply_ite State.pending]
@[simp] theorem acceptFlit_pending (x1 : LinkEnd) (x2 : Flit) (s : State) : (acceptFlit x1 x2 s).pending = s.pending := by unfold acceptFlit; dsimp only; (repeat' split) <;> simp [apply_ite State.pending]
@[simp] theorem flitDecoded_pending (x1 : LinkEnd) (x2 : Flit) (s : State) : (flitDecoded x1 x2 s).pending = s.pending := by simp [flitDecoded, apply_ite State.pending]
@[simp] theorem countErasures_pending (x1 : Nat) (x2 : List Nat) (s : State) : (countErasures x1 x2 s).pending = s.pending := by unfold countErasures; repeat' (first | (first | rfl | (simp [*]; done)) | split | (refine (foldl_pending _ _ _ (fun _ _ => ?_)).trans ?_) | (simp only [apply_ite State.pending, *]))
@[simp] theorem flitBytesRx_pending (x1 : LinkEnd) (x2 : List Byte) (x3 : List Nat) (x4 : Bool) (s : State) : (flitBytesRx x1 x2 x3 x4 s).pending = s.pending := by unfold flitBytesRx; dsimp only; (repeat' split) <;> simp [apply_ite State.pending]
@[simp] theorem flitRx_pending (x1 : LinkEnd) (x2 : Line) (x3 : Bool) (s : State) : (flitRx x1 x2 x3 s).pending = s.pending := by simp [flitRx]
@[simp] theorem chainDrop_pending (x1 : Nat) (s : State) : (chainDrop x1 s).pending = s.pending := by simp [chainDrop, apply_ite State.pending]
@[simp] theorem trngStatRead_pending (x1 : TrngUnit) (s : State) : (trngStatRead x1 s).pending = s.pending := by simp [trngStatRead, apply_ite State.pending]
@[simp] theorem bucketClock_pending (x1 : Nat) (x2 : Nat) (s : State) : (bucketClock x1 x2 s).pending = s.pending := by simp [bucketClock]
@[simp] theorem bucketClocks_pending (x1 : Nat) (x2 : Nat) (x3 : Nat) (s : State) : (bucketClocks x1 x2 x3 s).pending = s.pending := by
  induction x3 generalizing x2 s with
  | zero => rfl
  | succ n ih => rw [bucketClocks]; exact (ih _ _).trans (bucketClock_pending _ _ _)
@[simp] theorem bucketStep_pending (x1 : Nat) (s : State) : (bucketStep x1 s).pending = s.pending := by simp [bucketStep]
@[simp] theorem refreshQual_pending (x1 : UnitId) (s : State) : (refreshQual x1 s).pending = s.pending := by unfold refreshQual; dsimp only; (repeat' split) <;> simp [apply_ite State.pending]

end Sys2Proof.Machine
end

