-- ==== Sys2Proof/Tests/Slice0.lean ====
section
/-! SUPPORT. Tests: ill-formed operands that WellFormed refuses, Luna words written out from the encoding tables, single
steps with results taken from the spec, and for every statement with hypotheses operands and a state that meet them. -/

namespace Sys2Proof.Tests

open Sys2Proof Sys2Proof.Machine

set_option Elab.async false

/-! ### Helpers -/

/-- A header with nothing set. -/
def hdr : Header :=
  { opcode := 0, vc := 0, status := 0, part := 0, srcEp := 0, dstEp := 0, tag := 0, enc := false, w1 := 0, len := 0
    scope := 0, lcId := 0, keySlot := 0, subop := 0, mc := false, mcg := 0, ageStamp := 0, seq := 0 }

/-- A packet with a trailer one byte too long. -/
def longPkt : Packet := { hdr := hdr, payload := [], trailer := List.replicate 17 0 }

/-- A descriptor with nothing set. -/
def areq : Areq :=
  { aop := 0, ctx := 0, atag := 0, scope := 0, len := 0, subop := 0, rsv := 0, addr := 0, w2 := 0, w3 := 0, data := [] }

/-- A key command with nothing set. -/
def keyCmd : KeyCmd :=
  { kindOrIndex := 0, slot := 0, part := 0, overlap := 0, arg := 0, key := 0, nmeas := 0, meas := [], rsvZero := true
    lenOk := true }

/-- The state after a command, the state before it where it gives none. -/
def after (i : Instr) (s : State) : State :=
  match exec i s with
  | .next t => t
  | _ => s

/-- A command answers a next state. -/
def runs (i : Instr) (s : State) : Bool :=
  match exec i s with
  | .next _ => true
  | _ => false

/-- The fault that a command ends in, if any. -/
def faults (i : Instr) (s : State) : Option Fault :=
  match exec i s with
  | .fault f => some f
  | _ => none

theorem exec_of_runs {i : Instr} {s : State} (h : runs i s = true) : exec i s = .next (after i s) := by
  unfold runs at h
  unfold after
  cases e : exec i s <;> simp_all

/-- The OX9 held in reset. -/
def held : State := { State.reset with power := { State.reset.power with held := true } }

/-- Reset with one field of the OX9 set. -/
def withX (f : Fld) (i v : Nat) : State := sx f i v State.reset

/-- Reset with one field of an OEB set. -/
def withO (f : Fld) (i v : Nat) : State := so 0 f i v State.reset

/-! ### Ill-formed operands -/

theorem test_illformed_register : WellFormed (.registerWrite (.bar0 0) (2 ^ 27) false 0) = false ∧
    WellFormed (.registerWrite (.oeb 0) (2 ^ 20) false 0) = false ∧
    WellFormed (.registerWrite (.host 0) (2 ^ 20) false 0) = false ∧
    WellFormed (.registerWrite (.bar0 0) 0 true (2 ^ 32)) = false ∧ WellFormed (.unmappedAccess (.bar0 0) 0 0 false) = false ∧
    WellFormed (.unmappedAccess (.bar0 0) (2 ^ 27) 1 false) = false ∧ WellFormed (.unmappedAccess (.oeb 0) (2 ^ 20 - 1) 2 false) = false := by decide

theorem test_illformed_numbers : ∀ i ∈ [Instr.sramRowRepaired 0 0 1024, .egressFlitSlot (.ox 0) (.corrected 0 1024),
    .egressFlitSlot (.ox 0) (.uncorrectable 0 1024), .mirrorCopy 0 0 false ⟨hdr, [], []⟩ false (2 ^ 64) 0, .trackingHoldRelease 0 [(0, .atRow 0 1024)],
    .sampleRecordWrite (.atRow 0 1024), .ld 0 1 1 0 (.corrected 0 1024), .xdns 0 (.uncorrectable 0 1024),
    .seqExhausted .ox9 0 2048, .cwAckTimeout 0 (2 ^ 64) 0, .cwAckTimeout 0 32 0, .holdRangeAllocated 0 ⟨16384, 0, 0, 0⟩ 0,
    .holdRangeAllocated 0 ⟨0, 2, 0, 0⟩ 0, .holdRangeAllocated 0 ⟨0, 0, 2 ^ 24, 0⟩ 0, .holdRangeAllocated 0 ⟨0, 0, 0, 256⟩ 0,
    .holdRangeAllocated 0 ⟨0, 0, 0, 0⟩ 1024, .verifyTimeout 0 ⟨0, 2, 0, 0⟩, .segmentRelease 0 4096 0 0 .clean,
    .segmentRelease 0 0 4096 0 .clean, .segmentRelease 0 0 0 16 .clean, .pcieCompletionRx 0 1024 .ok [], .hostCplTimeout 0 1024,
    .keyErase .ox9 (2 ^ 32) keyCmd, .getCertificate .ox9 0 16 0 0, .getCertificate .ox9 0 0 65536 0,
    .getCertificate .ox9 0 0 0 65536, .challenge .ox9 0 256 [], .getMeasurements .ox9 0 256 false [],
    .keyUpdate .ox9 (2 ^ 32) [], .foldWindowExpiry .ox9 (2 ^ 64), .foldMaxspanExpiry .ox9 (2 ^ 64),
    .unitTestDone .laneSite 1024 true, .unitShadowDone .laneSite 1024 true, .scanRead 0 4096,
    .payloadFetchDone none 1024 .failed, .retireUnit 0 .laneSite 1024, .serviceTest 0 .laneSite 1024,
    .restoreUnit 0 .laneSite 1024, .selftestPhaseDone [] [] [] [(0, 0, 1024)], .dvfsVoltageReached 2048,
    .thermalWarn 0 2048, .thermalTrip 0 (-2049)], WellFormed i = false := by decide

set_option maxRecDepth 4000 in
theorem test_illformed_lengths : ∀ i ∈ [Instr.echoRx (.skipper 0 [0, 0, 0]), .echoRx (.oeb 0 0 []), .flitRx (.ox 0) [] false,
    .flitRx (.ox 0) (List.replicate 128 [.m1]) false, .breezeRx (.ox 0) [[]], .skipRx (.ox 0) [] false, .idleRx (.ox 0) [],
    .swapRx (.ox 0) [[]], .downRx (.ox 0) [[.p1]], .ts1Rx (.ox 0) [] [0, 0],
    .ts2Rx (.ox 0) [[.m1]], .tsoRx (.ox 0) [] 0, .tscRx (.ox 0) [], .nrPatternRx (.ox 0) [], .gustRx (.ox 0) [[.m1]], .echoRx (.ox 0 []), .marginCheckDone (.ox 0) [],
    .contribCellRx 0 ⟨0, 0, 0, 0⟩ 0 (List.replicate 113 0) .clean,
    .contribEopCheck 0 ⟨0, 0, 0, 0⟩ 0 false (List.replicate 17 0), .checkRecordRx 0 ⟨0, 0, 0, false, [], [], []⟩,
    .hostTxDescriptor 0 [0] [], .finish .ox9 0 [] (List.replicate 98 0),
    .signerEnroll 0 0 [0], .calmFrameRx 0 [0], .enumFrameRx [0], .cmdFrameRx 0 [0], .cplFrameRx 0 [0], .fetchFrameRx 0 [0],
    .breezeFrameRx 0 [0], .eventFrameRx 0 [0], .delayFrameRx 0 [0] 0, .ingressLookup (.port 0) longPkt true false [],
    .inboundRequest 0 0 longPkt false], WellFormed i = false := by decide

theorem test_illformed_luna : ∀ i ∈ [Instr.vadd 0 .raw 0 0 0 0, .vsub 0 .raw 0 0 0 0, .vmax 0 .raw 0 0 0 0,
    .vmin 0 .raw 0 0 0 0, .vcvt 0 .f32 0 0 1, .vrnd 0 .i64 0 0 0 0 1], WellFormed i = false := by decide

theorem test_illformed_long_data (bs : List Byte) (h : 8192 ≤ bs.length) (ms : List (BitVec 384)) (hm : 256 ≤ ms.length) :
    WellFormed (.load 0 { areq with data := bs }) = false ∧ WellFormed (.mrspRx 0 0 0 bs) = false ∧
    WellFormed (.mailboxResponse 0 bs) = false ∧ WellFormed (.vendorDefinedRequest .ox9 0 0 0 bs) = false ∧
    WellFormed (.expel 0 bs) = false ∧ WellFormed (.readmit 0 bs) = false ∧ WellFormed (.pcieCompletionRx 0 0 .ok bs) = false ∧
    WellFormed (.keyErase .ox9 0 { keyCmd with meas := ms }) = false := by
  have e1 : ¬bs.length < 2 ^ 13 := by omega
  have e2 : ¬bs.length ≤ 4096 := by omega
  have e3 : ¬bs.length < 2 ^ 12 := by omega
  have e4 : ¬bs.length ≤ 256 := by omega
  have e5 : ¬ms.length ≤ 255 := by omega
  simp only [WellFormed, areqOk, e1, e2, e3, e4, e5, decide_false, Bool.and_false, and_self]

theorem test_illformed_images (bs : List Byte) (h : 2 ^ 23 ≤ bs.length) : WellFormed (.fwStage 0 bs) = false ∧
    WellFormed (.lunaLoad 0 0 bs) = false ∧ WellFormed (.profileStore 0 0 bs) = false := by
  simp only [WellFormed, decide_eq_false_iff_not]
  omega

theorem test_illformed_words (vs : List Word) (h : 2 ^ 21 ≤ vs.length) : WellFormed (.blkWr 0 0 vs) = false := by
  simp only [WellFormed, decide_eq_false_iff_not]
  omega

/-! ### Luna words and steps -/

/-- The instruction's word, 0 where it has none. -/
def wordOf (i : Instr) : Nat := ((encodeLunaWord i).map (·.2)).getD 0

/-- An image of one word of text and 64 bytes of constants. -/
def image (i : Instr) : LImage :=
  { prog := 0
    bytes := List.replicate 12 0 ++ toLE 4 4 ++ toLE 4 64 ++ List.replicate 108 0 ++ toLE 4 (wordOf i) ++ List.replicate 60 0 ++
      (List.range 64).map (BitVec.ofNat 8)
    meas := 0 }

/-- A chunk in its first phase. -/
def chunk : LChunk :=
  { id := ⟨0, 0, 0, 0⟩, cluster := 0, waking := false, scratch := 0, rop := 0, native := false, fmt := 0, e := 4, bitmap := [0]
    parts := [], acc := [], recs := [], dense := false, stored := [], streams := [], blocks := [], scales := [], outs := []
    phase := .fill, ending := false, partialEnd := false, outRange := false, doneFt := 0, record := none, verified := false
    cols := [], arbiter := none, rscratch := 0, rparts := [], racc := [] }

/-- A task of the chunk, with a hold range of 1,024 bytes. -/
def task (kind : Nat) : LTask :=
  { id := ⟨0, 0, 0, 0⟩, kind := kind, slot := 0, wide := false, dense := true, elems := [0, 1, 2, 3], s2 := 4, s3 := 4, s4 := 0
    holdAt := 0, holdLen := 1024 }

/-- Core 0 with its views on the partials, registers s1 = 5, s2 = 3, s4 = 0x34000, p1 = 0xF, v1 with rising bytes. -/
def core0 (kind : Nat) : LCore :=
  { LCore.reset with
    run := some (task kind), sregs := [(1, 5), (2, 3), (4, 0x34000)], pregs := [(1, 0xF)], views := [(0, .parts 0 4)]
    vregs := [(1, 0x0F0E0D0C0B0A09080706050403020100)] }

/-- Core 0 about to issue an instruction. -/
def running (kind : Nat) (i : Instr) : State :=
  { State.reset with
    cores := [(0, core0 kind)]
    luna := [(0, { LDieSt.reset 0 with chunks := [chunk], images := [image i] })] }

/-- What that instruction runs with. -/
def runAt (kind : Nat) : Run := { core := 0, d := 0, t := task kind, c := chunk, x := core0 kind, scratch := scratchAt 0 }

/-- The premises of Issues, decided. -/
def issuesAt (i : Instr) : Bool :=
  halted (running 0 i) == false && runOf 0 (running 0 i) == some (runAt 0) && fetchOf (runAt 0) (running 0 i) == some i

theorem issues_of {i : Instr} (h : issuesAt i = true) : Issues 0 i (running 0 i) (runAt 0) := by
  simp only [issuesAt, Bool.and_eq_true, beq_iff_eq] at h
  exact ⟨h.1.1, h.1.2, h.2⟩

/-- Meets the premises of LunaScalarArithmetic. -/
theorem test_scalar_issues : ∀ i ∈ [Instr.add 0 3 1 2, .sub 0 3 1 2, .andd 0 3 1 2, .orr 0 3 1 2, .xorr 0 3 1 2, .shl 0 3 1 2,
    .shr 0 3 1 2, .sar 0 3 1 2, .mul 0 3 1 2, .slt 0 3 1 2, .sltu 0 3 1 2, .seqq 0 3 1 2, .smin 0 3 1 2, .smax 0 3 1 2,
    .addi 0 3 1 0xFFFF, .andi 0 3 1 0xFFFF, .ori 0 3 1 7, .lsh 0 3 1 7, .shli 0 3 1 63, .shri 0 3 1 63, .li 0 3 0x8000],
    issuesAt i = true := by decide +kernel

/-- Meets the premises of LunaBranches and LunaPredicates. -/
theorem test_branch_issues : ∀ i ∈ [Instr.beq 0 1 2 0xFFFF, .bne 0 1 2 1, .blt 0 1 2 1, .bltu 0 1 2 1, .bany 0 1 1, .bnone 0 1 1,
    .jmp 0 0xFFFF, .call 0 1, .ret 0, .pand 0 1 2 3, .por 0 1 2 3, .pxor 0 1 2 3, .pandn 0 1 2 3, .pmov 0 1 2, .pget 0 1 2,
    .pfirst 0 1 2, .pcnt 0 1 2, .bitm 0 3 1], issuesAt i = true := by decide +kernel

/-- Meets the premises of LunaLoadsAndStores, the image of ldc and vldc among them. -/
theorem test_memory_issues : (∀ i ∈ [Instr.ld 0 3 0 1016 .clean, .ldw 0 3 0 1020 .clean, .vld 0 1 0 960 .clean, .st 0 1 0 8, .stw 0 1 0 4, .vst 0 1 0 64,
    .ldc 0 3 0 56, .vldc 0 1 0 0], issuesAt i = true ∧ progOf 0 0 (running 0 i) = some (image i)) := by decide +kernel

/-- Meets the premises of LunaVectorLanes and LunaCompareSplatConvert: an integer, a float and the type raw. -/
theorem test_vector_issues : (∀ t ∈ [ElemT.f32, .i64], t.arith = true ∧ ∀ i ∈ [Instr.vadd 0 t 1 2 3 1, .vsub 0 t 1 2 3 1,
      .vmax 0 t 1 2 3 1, .vmin 0 t 1 2 3 1], issuesAt i = true) ∧
    (∀ t ∈ [ElemT.raw, .f16, .i32], ∀ i ∈ [Instr.vand 0 t 1 2 3 1, .vor 0 t 1 2 3 1, .vxor 0 t 1 2 3 1, .vsel 0 t 1 2 3 1,
      .vcmpEq 0 t 1 2 3 1, .vcmpLt 0 t 1 2 3 1, .vcmpLe 0 t 1 2 3 1, .vcmpNe 0 t 1 2 3 1, .vsplat 0 t 1 2, .vcvt 0 t 1 2 0],
      issuesAt i = true) ∧ decodeLane ElemT.f32.code 0x7FC00000 = .nan := by decide +kernel

/-- Meets the premises of LunaAccumulate, LunaIdentitiesWideAndViews and LunaSweeps. -/
theorem test_accumulate_issues : ∀ i ∈ [Instr.xadd 0 .f32 0 1 2 1 .clean, .xsub 0 .f32 0 1 2 1 .clean, .xmax 0 .f32 0 1 2 1 .clean, .xmin 0 .f32 0 1 2 1 .clean,
    .xand 0 .i32 0 1 2 1 .clean, .xior 0 .i32 0 1 2 1 .clean, .xxor 0 .i32 0 1 2 1 .clean, .xset 0 .f32 0 1 2 1, .xidSum 0 0 1 2, .xidMax 0 0 1 2,
    .xidMin 0 0 1 2, .xidAnd 0 0 1 2, .xidOr 0 0 1 2, .xidXor 0 0 1 2, .xidCopy 0 0 1 2, .xaddw 0 0 1 2 .clean, .xsubw 0 0 1 2 .clean,
    .aoff 0 1 0 2, .vlda 0 1 0 2 .clean, .vsta 0 1 0 2 1, .xswpAdd 0 .f32 0 1 2 1 .clean, .xswpMax 0 .f32 0 1 2 1 .clean, .xswpMin 0 .f32 0 1 2 1 .clean,
    .xswpAnd 0 .i32 0 1 2 1 .clean, .xswpOr 0 .i32 0 1 2 1 .clean, .xswpXor 0 .i32 0 1 2 1 .clean, .xswpCopy 0 .f32 0 1 2 1 .clean, .fswp 0 .f32 1 1 2 1 .clean],
    issuesAt i = true := by decide +kernel

/-- Meets the premises of LunaRoundAndOutput and LunaMergeAndTaskEnd. -/
theorem test_output_issues : ∀ i ∈ [Instr.xrnd 0 .f32 1 0 2 1 .clean, .vrnd 0 .f32 1 2 3 1 0, .xbexp 0 .mxe4m3 0 2 1 .clean, .vbexp 0 .mxi8 1 2 1,
    .ost 0 .f32 1 1, .xmrg 0 .f32 3 1 2 .clean, .xdns 0 .clean, .rdt 0 3 1 0, .rdt 0 3 1 5, .done 0], issuesAt i = true := by decide +kernel

/-- A word the task is asked for that it has (m = 0, 5) and one it has not: element 5 of 4, a view that is not bound. -/
theorem test_task_info : taskInfo (runAt 0) 0 5 (running 0 (.rdt 0 3 1 0)) = .ok 4 ∧
    taskInfo (runAt 0) 5 3 (running 0 (.rdt 0 3 1 5)) = .ok 3 ∧
    taskInfo (runAt 0) 5 4 (running 0 (.rdt 0 3 1 5)) = .error excBounds ∧
    taskInfo (runAt 0) 4 0 (running 0 (.rdt 0 3 1 4)) = .error excBounds := ⟨rfl, rfl, rfl, rfl⟩

/-- Table 9-9: 5 + 3, 5 - 3, a signed branch taken backwards, the top-bit shift, s0 stays 0. -/
theorem test_scalar_steps : sGet (lcore 0 (after (.add 0 3 1 2) (running 0 (.add 0 3 1 2)))) 3 = 8 ∧
    sGet (lcore 0 (after (.sub 0 3 2 1) (running 0 (.sub 0 3 2 1)))) 3 = 0xFFFFFFFFFFFFFFFE ∧
    sGet (lcore 0 (after (.add 0 0 1 2) (running 0 (.add 0 0 1 2)))) 0 = 0 ∧
    sGet (lcore 0 (after (.addi 0 3 1 0xFFFF) (running 0 (.addi 0 3 1 0xFFFF)))) 3 = 4 ∧
    (lcore 0 (after (.blt 0 2 1 3) (running 0 (.blt 0 2 1 3)))).pc = 4 ∧
    (lcore 0 (after (.blt 0 1 2 3) (running 0 (.blt 0 1 2 3)))).pc = 1 := by decide +kernel

/-- Tables 9-9 and 9-6: a doubleword stored in the core's own area; a store to the hold range is out of bounds and leaves it;
the constants; pcnt counts the four lanes of p1. -/
theorem test_memory_steps :
    memRead (lcore 0 (after (.st 0 1 4 8) (running 0 (.st 0 1 4 8)))) 0x34008 9 = [5, 0, 0, 0, 0, 0, 0, 0, 0] ∧
    memRead (lcore 0 (after (.stw 0 1 0 0) (running 0 (.stw 0 1 0 0)))) 0 4 = [0, 0, 0, 0] ∧
    sGet (lcore 0 (after (.ldc 0 3 0 8) (running 0 (.ldc 0 3 0 8)))) 3 = 0x0F0E0D0C0B0A0908 ∧
    sGet (lcore 0 (after (.pcnt 0 3 1) (running 0 (.pcnt 0 3 1)))) 3 = 4 := by decide +kernel

/-- Table 9-11: lanes 0 to 3 are enabled; i32 lane 1 of v1 added to v3 = 0 is that lane, lane 4 keeps what v2 holds. -/
theorem test_vector_step :
    laneGet 4 (vGet (lcore 0 (after (.vadd 0 .i32 2 1 3 1) (running 0 (.vadd 0 .i32 2 1 3 1)))) 2) 1 = 0x07060504 ∧
    laneGet 1 (vGet (lcore 0 (after (.vxor 0 .raw 2 1 1 0) (running 0 (.vxor 0 .raw 2 1 1 0)))) 2) 5 = 0 := by decide +kernel

/-- Clauses of LunaMergeAndTaskEnd and LunaWordDecodesBack, LunaWordIsExact at the ends of their ranges. -/
theorem test_words : WellFormed (.add 863 15 15 15) = true ∧
    encodeLunaWord (.add 863 15 15 15) = some (863, 0x05EF7800) ∧ decodeLunaWord 863 0x05EF7800 = some (.add 863 15 15 15) ∧
    WellFormed (.vrnd 0 .bf16 31 31 15 7 1) = true ∧ encodeLunaWord (.vrnd 0 .bf16 31 31 15 7 1) = some (0, 0x9BFF7F11) ∧
    decodeLunaWord 0 (2 ^ 32 - 1) = none := by decide +kernel

/-! ### The queue, the clock, the gates -/

/-- Meets the premises of StepRunsFrontCommand, ExecLeavesTheQueueAlone and IdleStepAdvancesTime. -/
theorem test_queue : ({ State.reset with pending := [.hpGlitch, .reset] } : State).pending = .hpGlitch :: [.reset] ∧
    runs .hpGlitch State.reset = true ∧ State.reset.pending = [] ∧ dark State.reset = false ∧ dark held = true ∧
    held.pending = [] := by decide +kernel

/-- R334: a cycle adds 16 units of 100 ns/2,500 to every fabric time. -/
theorem test_idle : (∃ t, step State.reset = .next t ∧ ftOf .ox9 t = 16 ∧ ftOf (.oeb 0) t = 16) := ⟨_, rfl, by decide +kernel⟩

/-- Meets the premises of ResetHoldsTheSpecValues. -/
theorem test_reset_fields : (∃ x ∈ fieldMap .timeCfg, x.fld = TIME_CFG.SLEW_MAX) ∧
    Reg.timeCfg ∉ [Reg.dieInfo, .deviceId, .laneStat, .lunaCoreMap, .sampleCtl, .domRights, .eqF, .eqE, .sensCal, .trngStat, .oebId] := by
  decide +kernel

/-- Meets the premises of StandingStillOx9IgnoresCommands: in Calm, and held in reset. -/
theorem test_halted : oxStops (.sampleRecordWrite .clean) = true ∧ oxStops (.egressFlitSlot (.ox 1) .clean) = true ∧ halted held = true ∧
    halted (withX CALM_STAT.CALM 0 1) = true ∧ halted State.reset = false := by decide +kernel

/-- Meets the premises of OebCommandsLeaveTheRestAlone. -/
theorem test_oeb_side : oebSide (.oebIdLock 0) = some 0 ∧ runs (.oebIdLock 0) State.reset = true ∧ (1 : Side) ≠ 0 := by
  decide +kernel

/-! ### Registers -/

/-- Meets the premises of WrittenFieldReadsBack: a field that ends at bit 63, one beside it, another word, another entry. -/
theorem test_fields : LC_ENTRY.COUNT.lo + LC_ENTRY.COUNT.len ≤ LC_ENTRY.PART.lo ∧ LC_ENTRY.PART.reg = LC_ENTRY.COUNT.reg ∧
    LC_ENTRY.PART.word = LC_ENTRY.COUNT.word ∧ KS_INFO.ROT_AT.lo + KS_INFO.ROT_AT.len = 64 ∧
    regKey .lcEntry 1 0 ≠ regKey .lcEntry 0 0 ∧ regKey .ksInfo 0 1 ≠ regKey .ksInfo 0 0 ∧
    regKey .ksInfo 8191 127 = regKey .ksInfo 8191 127 := by decide +kernel

/-- An OX9 past BOOT, whose management port serves its hosts. -/
def serving : State := withX START_STAT.PHASE 0 4

/-- Meets the premises of UndefinedAccessReadsZeroAndCounts: an offset that holds nothing, a read too short. -/
theorem test_undefined_offsets : bar0Accepts 0 0xFFFFF8 8 true serving = false ∧ (0xFFFFF8 < 0x1000000) ∧
    bar0Accepts 1 0 4 false serving = false ∧ dark serving = false ∧ hostServed serving = true ∧ inChrysalis serving = false := by
  decide +kernel

/-- R8: the read returns 0 and one is counted. -/
theorem test_undefined_read : (after (.unmappedAccess (.bar0 0) 0xFFFFF8 8 false) serving).out = [.readData 0] ∧
    counter .ox9 .glob .unmappedAccess (after (.unmappedAccess (.bar0 0) 0xFFFFF8 8 false) serving) = 1 := by decide +kernel

/-- Meets the premises of ReadClearFieldsLoseNothing. -/
theorem test_read_clear : gb CALM_STAT.CALM 0 serving = false ∧ hostServed serving = true ∧ inChrysalis serving = false ∧
    dieDead 62 (sx DOM_STAT.STATE 165 1 serving) = false ∧ hostServed (sx DOM_STAT.STATE 165 1 serving) = true ∧
    frozenReg .trngStat 0 State.reset = false ∧ (trngAt (.monarch 0)).1 = .ox9 ∧
    (trngAt (.oeb 1)).1 = .oeb 1 ∧ FOLD_STAT.OPEN.reg = .foldStat ∧ FOLD_STAT.OPEN.word = 0 ∧
    (FOLD_STAT.OPEN.lo + FOLD_STAT.OPEN.len ≤ FOLD_STAT.OVERFLOW.lo ∨
      FOLD_STAT.OVERFLOW.lo + FOLD_STAT.OVERFLOW.len ≤ FOLD_STAT.OPEN.lo) := by decide +kernel

/-- Meets the premises of LandingCounterRegisterWrite at the edge of the reserved bits. -/
theorem test_lc_values : ((2 ^ 47 : Word)).toNat / 2 ^ 47 ≠ 0 ∧ ((2 ^ 47 - 1 : Word)).toNat / 2 ^ 47 = 0 := by decide +kernel

/-- Table 3-1: COUNT, PART and EN are written, POISONED and DENIED clear on 1. -/
theorem test_lc_write :
    (getW (.oeb 0) .lcEntry 5 0 (after (.registerWrite (.oeb 0) 0x20028 false 0x300300000007) State.reset)).toNat = 0x100300000007 ∧
    runs (.registerWrite (.oeb 0) 0x20028 false 0x8000000000000000) State.reset = true := by decide +kernel

/-- Meets the premises of EndpointIdLock: the ID, the configuration, the first and the last side-map word. -/
theorem test_id_lock : go 0 OEB_ID.LOCK 0 (withO OEB_ID.LOCK 0 1) = 1 ∧ (∀ off ∈ [0, 8, 0x200, 0x200 + 8 * 63],
    (findRow oebMap off).map (fun x => 0 - Nat.land 0 (oebMask x.1 x.2.2)) = some 0) := by decide +kernel

/-- Meets the premises of RightlessDirectWriteIsIgnored: domain 0 has TELEMETRY at reset, domain 1 has not; a die's own word. -/
theorem test_direct_write : ∃ off, ctlAt 1 off = some (some (.reg .foldCtl 0 0)) ∧ off % 8 = 0 ∧
    ¬(0x1000000 ≤ off ∧ off < 0x5000000) ∧ directRight 1 .foldCtl 0 State.reset = false ∧
    gx DOM_RIGHTS.TELEMETRY 0 serving = 1 ∧ programMay .foldCtl = true ∧ directRight 1 .foldCtl 0 serving = false ∧ hostServed serving = true ∧ 0 - Nat.land 0 (fieldMask .foldCtl 0) = 0 := ⟨0xC0, by decide +kernel⟩

/-- Meets the premises of the completion statements: the OX9 is awake and lit, answers SPDM, is in each start-up phase. -/
theorem test_gates : halted State.reset = false ∧ dark State.reset = false ∧ spdmLive .ox9 State.reset = true ∧
    State.reset.power.held = false ∧ (∀ p < 5, dark (withX START_STAT.PHASE 0 p) = false ∧
      gx START_STAT.PHASE 0 (withX START_STAT.PHASE 0 p) = p) := by decide +kernel

/-! ### Numbers -/

/-- Meets the premises of ExactSumIsOrderFree: the same three elements in two orders, the largest E5M2 value among them. -/
theorem test_sum_trees :
    let t : SumTree := .node (.leaf .nan) (.node (.leaf (.fin true 7)) (.leaf (decodeLane 4 0x7B)))
    let u : SumTree := .node (.node (.leaf (decodeLane 4 0x7B)) (.leaf .nan)) (.leaf (.fin true 7))
    t.leaves.Perm u.leaves ∧ t.leaves.length ≤ 2 ^ 24 ∧ (∀ v ∈ t.leaves, v.toInt.natAbs ≤ 57344 * 2 ^ 276) ∧ t.sum = u.sum := by
  decide +kernel

/-- Meets the premises of ExactSumAddsAndRemoves at the bounds of FIX and of the counts. -/
theorem test_sum_bounds :
    let p : Partial := ⟨2 ^ 317 - 2, 4095, 2047, 2047⟩
    p.nan ≤ 4095 ∧ p.pinf ≤ 2047 ∧ p.ninf ≤ 2047 ∧ p.fix.natAbs < 2 ^ 317 - 1 ∧ (1 : Nat) < 2 ^ 317 - 1 ∧
    (p.fix + Val.toInt (.fin false 1)).natAbs ≤ 2 ^ 317 - 1 ∧ (p.fix + (1 : Int)).natAbs ≤ 2 ^ 317 - 1 ∧
    (p.fix - (0 : Int)).natAbs ≤ 2 ^ 317 - 1 ∧ (⟨1, 4094, 0, 0⟩ : Partial).nan + 0 < 4095 := by decide +kernel

/-- R180: a sum beyond FIX saturates; a count at its largest stays. -/
theorem test_sum_saturates : ((⟨2 ^ 317 - 1, 4095, 0, 0⟩ : Partial).add ⟨1, 1, 2, 0⟩).1 = ⟨2 ^ 317 - 1, 4095, 2, 0⟩ := by decide +kernel

/-- Meets the premises of ExactPartialLayout at both ends of every field; an element of a list; a number of an MX format. -/
theorem test_layout : (∀ p ∈ [(⟨-(2 ^ 317), 4095, 2047, 2047⟩ : Partial), ⟨2 ^ 317 - 1, 0, 0, 0⟩],
      -(2 ^ 317) ≤ p.fix ∧ p.fix < 2 ^ 317 ∧ p.nan < 2 ^ 12 ∧ p.pinf < 2 ^ 11 ∧ p.ninf < 2 ^ 11) ∧
    (⟨-1, 0, 0, 1⟩ : Partial).toNat = 2 ^ 318 - 1 + 2 ^ 341 ∧ 2 ^ 352 - 1 < 2 ^ 352 ∧
    decodeFp (fpOf 9) 7 = .fin false (6 * 2 ^ 149) := by decide +kernel

/-- Meets the premises of ZeroResultIsPositive and SpecialResultsAreCanonical: a negative value that rounds to zero. -/
theorem test_zero_and_nan : (roundFp 3 0 0 (.fin true 1)).1 % 2 ^ ((fpOf 3).eb + (fpOf 3).mb) = 0 ∧
    (roundMx 9 0 0 255 (.fin true 1)).1 % 2 ^ (mxWidth 9 - 1) = 0 ∧ decodeLane 0 0x7F800001 = .nan ∧
    decodeLane 0 0xFFFFFFFF = .nan := by decide +kernel

/-- R182: 1 + 2⁻²⁴ in FP32 is a tie and goes to even; the largest FP32 value times two overflows to infinity. -/
theorem test_rounding : (roundFp 0 0 0 (.fin false (2 ^ 149 + 2 ^ 125))).1 = 0x3F800000 ∧
    (roundFp 0 0 0 (.fin false (2 ^ 149 + 2 ^ 126 + 2 ^ 125))).1 = 0x3F800002 := by decide +kernel

/-- Meets the premises of HeaderRoundTrip. -/
theorem test_header : (List.replicate 32 (0xA5 : Byte)).length = 32 ∧ (3 < 4 ∧ 7 < 8) := by decide +kernel

/-- Meets the premises of LunaInstructionsLeaveTheRestAlone; a read that loses its word loses the task. -/
theorem test_luna_frame : (encodeLunaWord (.ret 0)).isSome = true ∧ runs (.ret 0) (running 0 (.ret 0)) = true ∧
    bareRead (.ret 0) = .ret 0 ∧ issuesAt (bareRead (.ld 0 3 0 1016 (.uncorrectable 0 1))) = true ∧
    (lcore 0 (after (.ld 0 3 0 1016 (.uncorrectable 0 1)) (running 0 (.ld 0 3 0 1016 .clean)))).run = none := by decide +kernel

/-! ### The rules -/

/-- An event of the OX9 with nothing set but its code. -/
def event (folded : Bool) : Event := Event.mk0 .ox9 .thermalWarn folded 0 0 0 [] State.reset

/-- An open entry with the key of that event, or with another code. -/
def entry (c : EvCode) : FoldEntry :=
  { code := c, okind := 0, origin := 0, oep := none, cause := false, qual := 0, die := 0, part := none, firstFt := 0, openFt := 0
    winFt := 0, count := 1, conseq := 0, firstConseq := 0, sources := [], firstSeq := 0, foldWin := 1, maxSpan := 1 }

/-- A unit's events with one raised and some entries open. -/
def folding (l : List FoldEntry) : EventSys := { raised := [event true], log := [], entries := l }

/-- Meets the premises of FoldedEventJoinsOrIsLoggedAlone: an entry of its key; 1,024 and 32 entries of others. -/
theorem test_fold_premises : calmTrigger (event true) State.reset = none ∧ foldsNow .ox9 serving = true ∧
    nextRaised [event true] = some (event true) ∧ [event true].erase (event true) = [] ∧ gx FOLD_CTL.EN 0 State.reset = 1 ∧
    gf (.oeb 0) FOLD_CTL.EN 0 State.reset = 1 ∧ (event true).folded = true ∧ sameKey (entry .thermalWarn) (event true) = true ∧
    sameKey (entry .trngFail) (event true) = false ∧ attributes (entry .trngFail) (event true) = false ∧
    (List.replicate 1024 (entry .trngFail)).length = 1024 ∧ (folding [entry .thermalWarn]).raised = event true :: [] := by
  decide +kernel

/-- R376: the event joins the entry of its key. -/
theorem test_fold_joins : (entriesOf .ox9 (after (.eventFold .ox9)
    { serving with ox := { serving.ox with events := folding [entry .trngFail, entry .thermalWarn] } })).map (·.count) =
    [1, 2] := by decide +kernel

/-- Meets the premises of RingTailHaltsOnOverrun at the edge; R420: 2,049 entries halt the ring. -/
theorem test_ring_tail : (2048 < ((2049 : BitVec 32).toNat + 2 ^ 32 - gx RING_HEAD.HEAD 0 State.reset) % 2 ^ 32) ∧
    ((2048 : BitVec 32).toNat + 2 ^ 32 - gx RING_HEAD.HEAD 0 State.reset) % 2 ^ 32 ≤ 2048 ∧
    gx RING_CTL.EN 0 (after (.ringTailWrite 0 2049) (sx RING_CTL.EN 0 1 serving)) = 0 ∧
    gx RING_CTL.EN 0 (after (.ringTailWrite 0 2048) (sx RING_CTL.EN 0 1 serving)) = 1 := by decide +kernel

/-- A mailbox of domain 1 whose request is of type 5. -/
def mail : State := setMailbox 1 { req := [(0, 5)], rsp := [] } serving

/-- Meets the premises of MailboxExchange: busy; a length and a type refused; a request that is taken, at both ends of REQ_LEN. -/
theorem test_mailbox : gx MB_STAT.BUSY 1 (withX MB_STAT.BUSY 1 1) = 1 ∧ gx MB_STAT.BUSY 1 mail = 0 ∧ mbType 1 mail = 5 ∧
    (mbType 0 mail ≠ 5 ∧ mbType 0 mail ≠ 6) ∧ (4096 < (4097 : BitVec 13).toNat) ∧ 1 ≤ (1 : BitVec 13).toNat ∧
    (4096 : BitVec 13).toNat ≤ 4096 ∧ gx MB_STAT.BUSY 1 (after (.mailboxGo 1 1 4096) mail) = 1 ∧
    gx MB_STAT.ERR 1 (after (.mailboxGo 1 1 4097) mail) = 1 ∧ (1 : Dom) ≠ 0 := by decide +kernel

/-- Reset with one register word of the OX9 listed: for words with fused fields, which no test can compute with. -/
def withWord (r : Reg) (i w v : Nat) : State :=
  { State.reset with ox := { State.reset.ox with regs := [(regKey r i w, BitVec.ofNat 64 v)] } }

/-- The generator of Monarch die 62 with one field set. -/
def trngIs (f : Fld) (v : Nat) : State := withWord .trngStat 62 0 (v * 2 ^ f.lo)

/-- Meets the premises of TrngStartsFailsAndLocks: not started, two tries spent, locked, ready. -/
theorem test_trng : gx TRNG_STAT.READY 62 (trngIs TRNG_STAT.TRIES 2) = 0 ∧ gx TRNG_STAT.FAILED 62 (trngIs TRNG_STAT.TRIES 2) = 0 ∧
    gx TRNG_STAT.TRIES 62 (trngIs TRNG_STAT.TRIES 2) = 2 ∧ gx TRNG_STAT.FAILED 62 (trngIs TRNG_STAT.FAILED 1) = 1 ∧
    gx TRNG_STAT.READY 62 (trngIs TRNG_STAT.READY 1) = 1 := by decide +kernel

/-- A key slot that rotates at 0, and one in overlap until 2,500. -/
def rotating (st : Nat) : State :=
  sx KS_INFO.STATE 5 st (sx KS_INFO.OVERLAP 5 1 (setKeySlot .ox9 5 (some ⟨1, some 2, none, [], 0⟩) State.reset))

/-- Meets the premises of KeyRotatesAtItsTime: at its time and before it. -/
theorem test_key_rotation : keySlot .ox9 5 (rotating 2) = some ⟨1, some 2, none, [], 0⟩ ∧ gx KS_INFO.STATE 5 (rotating 2) = 2 ∧
    gx KS_INFO.ROT_AT 5 (rotating 2) ≤ ftOf .ox9 (rotating 2) ∧
    ftOf .ox9 State.reset < gx KS_INFO.ROT_AT 5 (sx KS_INFO.ROT_AT 5 1 (rotating 2)) ∧
    gx KS_INFO.STATE 5 (rotating 3) = 3 ∧
    ftOf .ox9 (rotating 3) < gx KS_INFO.ROT_AT 5 (rotating 3) + gx KS_INFO.OVERLAP 5 (rotating 3) * 2500 ∧
    gx KS_INFO.ROT_AT 5 State.reset + gx KS_INFO.OVERLAP 5 State.reset * 2500 ≤ ftOf .ox9 State.reset := by decide +kernel

/-- Port 0 of OEB 0 in ACTIVE, with a pair's rate held or none. -/
def echoPort (l : List RateEnt) : State :=
  setRates (.oeb 0) l (setLink (linkKey (.oeb 0 0)) { Link.reset with st := 6 } State.reset)

/-- An echo for endpoint 2, class 3, level 3, as it leaves a port as wide as that one. -/
def echoLine : Line :=
  (codeLine 2 [false, false] 0
    (onLanes 2 .echo ++ dataCodes [2, 0x30, 3, BitVec.ofNat 8 (crc8 [2, 0x30, 3])])).1

/-- Meets the premises of EchoLowersAndQuietRaisesRate: a whole echo, one with an erasure; an entry for its pair. -/
theorem test_echo : linkWidth (.oeb 0 0) (echoPort []) = 2 ∧ (getLink (linkKey (.oeb 0 0)) (echoPort [])).st = 6 ∧
    voted 2 (slotAt 2 (receive (.oeb 0 0) echoLine (echoPort [])).1 0) = some .echo ∧
    rxBody 2 4 (receive (.oeb 0 0) echoLine (echoPort [])).1 = some [2, 0x30, 3, BitVec.ofNat 8 (crc8 [2, 0x30, 3])] ∧
    rxBody 2 4 (receive (.oeb 0 0) (echoLine.take 5 ++ [[.m3, .m3, .m3, .m3, .m3]]) (echoPort [])).1 = none ∧
    ratesOf (.oeb 0) (echoPort [⟨1, 3, 8, 0, 0⟩, ⟨2, 3, 128, 0, 1⟩]) = [⟨1, 3, 8, 0, 0⟩] ++ ⟨2, 3, 128, 0, 1⟩ :: [] ∧
    ratesOf (.oeb 0) (echoPort []) = [] ∧ ¬(locOf (.oeb 0) (echoPort []) < 0 + 5000 ∧ 3 ≤ 1) ∧
    (locOf (.oeb 0) (echoPort []) < 0 + 5000 ∧ 1 ≤ 1) := by decide +kernel

/-- R145: an echo of level 3 halves the rate, and a quiet time raises it by 8. -/
theorem test_echo_step : ratesOf (.oeb 0) (after (.echoRx (.oeb 0 0 echoLine)) (echoPort [])) = [⟨2, 3, 128, 0, 3⟩] ∧
    ratesOf (.oeb 0) (after (.rateRecovery (.oeb 0) 2 3) (echoPort [⟨2, 3, 128, 0, 3⟩])) =
      [⟨2, 3, 136, 0, 3⟩] := by decide +kernel

/-- A TS1 of two lanes from endpoint 5 as it leaves, its byte 13 off by `x` on lane 1 (R302). -/
def ts1Line (x : BitVec 8) : Line :=
  (codeLine 2 [false, false] 0 (tsCodes 2 fun j =>
    let b := tsBytes [1, BitVec.ofNat 8 j, 5, 0, 1, 0]
    if j = 1 then b.take 13 ++ [b[13]! + x] else b)).1

/-- R302, R303: a TS1 whose lanes are all sound counts as one valid sequence; one bad CRC-8 on one lane breaks the run. -/
theorem test_ts1 : let p := setLink (linkKey (.oeb 0 0)) { Link.reset with st := 1 } State.reset
    linkWidth (.oeb 0 0) p = 2 ∧ (tsIn (.oeb 0 0) 1 (ts1Line 0) p).1.map (·.map (·.take 3)) = some [[1, 0, 5], [1, 1, 5]] ∧
    (getAux (linkKey (.oeb 0 0)) (tsIn (.oeb 0 0) 1 (ts1Line 0) p).2).tsRun = 1 ∧
    (getAux (linkKey (.oeb 0 0)) (tsIn (.oeb 0 0) 1 (ts1Line 1) p).2).tsRun = 0 := by decide +kernel

/-- R289, 8b/10b: K28.5 and D21.5, D0.0, D17.7 and D31.7 at negative disparity, the lane after them; two bits a symbol. -/
theorem test_line_code : codeWord false (.special .com) = 0b0011111010 ∧ codeWord true (.special .com) = 0b1100000101 ∧
    codeWord false (.data 0xB5) = 0b1010101010 ∧ codeWord false (.data 0) = 0b1001110100 ∧
    codeWord false (.data 0xF1) = 0b1000110111 ∧ codeWord false (.data 0xFF) = 0b1010110001 ∧ groupRd false 0b0011111010 = true ∧
    wordSyms 0b0011111010 = [.m3, .p1, .p1, .p3, .p3] := by decide +kernel

/-- Every code is read back at both disparities; K28.7 is none. -/
theorem test_codes_read_back : (∀ rd : Bool, ∀ n < 256, decodeAt rd (codeWord rd (.data (BitVec.ofNat 8 n))) =
      some (.data (BitVec.ofNat 8 n))) ∧
    (∀ rd : Bool, ∀ x ∈ specials, decodeAt rd (codeWord rd (.special x.1)) = some (.special x.1)) ∧
    decodeAt false 0b0011111000 = none := by decide +kernel

/-- The worked example of R296: three invalid groups on lane 2, a disparity error on lane 0 at slot 20 of a port of width 4. -/
theorem test_erasures : erasures 4 ((List.range 128).map fun i =>
    { code := if i = 42 ∨ i = 46 ∨ i = 50 then none else some (.data 0), brk := decide (i = 80) }) = [42, 46, 50, 76, 80] := by
  decide +kernel

/-- Meets the premises of CodesSentAreCodesReceived. -/
theorem test_line_premises : 0 < 2 ∧ [false, true].length = 2 ∧
    decodeLine 2 [some false, some true] 0 (polarised 0 2 (codeLine 2 [false, true] 0 (onLanes 2 .down)).1) =
      ([⟨some (.special .down), false⟩, ⟨some (.special .down), false⟩], [some false, some true]) := by decide +kernel

/-- A faulty row of a bank with `n` spare rows used. -/
def faultyRow (n : Nat) : State :=
  { State.reset with sram := { State.reset.sram with faulty := [⟨1, 2, 3⟩], sparesUsed := [(bankKey 1 2, n)] } }

/-- Meets the premises of FaultyRowTakesSpareOrIsFenced at the eighth spare and beyond. -/
theorem test_spare_rows : (⟨1, 2, 3⟩ : RowId) ∈ (faultyRow 7).sram.faulty ∧ rowSparesUsed 1 2 (faultyRow 7) < 8 ∧
    8 ≤ rowSparesUsed 1 2 (faultyRow 8) ∧ (after (.sramRowRepaired 1 2 3) (faultyRow 8)).sram.fenced = [⟨1, 2, 3⟩] ∧
    (after (.sramRowRepaired 1 2 3) (faultyRow 7)).sram.copying = [⟨1, 2, 3⟩] := by decide +kernel

/-- A link in a state. -/
def linkIn (st : Nat) : State := setLink 0 { Link.reset with st := st } State.reset

/-- Meets the premises of LinkDropsByItsCause; Table 13-7: a lost signal drops an active link, not a gusting or idle one. -/
theorem test_link_drop : linkUp (getLink 0 (linkIn 6)) = true ∧ (getLink 0 (after (.los (.ox 0)) (linkIn 6))).st = 9 ∧
    (getLink 0 (after (.los (.ox 0)) (linkIn 7))).st = 7 ∧ (getLink 0 (after (.losIdle (.ox 0)) (linkIn 7))).cause = 2 := by
  decide +kernel

/-- A context valid, channel 0 its own. -/
def dmaReady : State := so 0 CTX_CFG.VALID 0 1 State.reset

/-- Meets the premises of DmaRingSetsTailOrWaits: a doorbell on its own channel and on another's, a wait that is due and one
that is not, at both ends of the timeout. -/
theorem test_dma_ring : go 0 CTX_CFG.VALID 0 dmaReady = 1 ∧ go 0 DMA_CH.CTX 0 dmaReady = 0 ∧
    go 0 DMA_CH.CTX 0 (so 0 DMA_CH.CTX 0 1 dmaReady) ≠ 0 ∧ (16000 * 2 ^ 10 + 2 ^ 6 < 2 ^ 24) ∧
    bits (16000 * 2 ^ 10 + 2 ^ 6) 6 1 = 1 ∧ bits (16000 * 2 ^ 10 + 2 ^ 6) 10 14 = 16000 ∧ bits (16000 * 2 ^ 10 + 2 ^ 6) 7 3 = 0 ∧
    go 0 DMA_CH.ERR 0 dmaReady = 0 ∧ (oebOf 0 dmaReady).waits = [] ∧ subMod 32 0 0 < 2 ^ 31 ∧ 2 ^ 31 ≤ subMod 32 0 1 := by
  decide +kernel

/-- Sensor k of a die with no offset: the offsets are fused, so a test names the word. -/
def sensor (k : Nat) : State := withWord .sensCal k 0 0

/-- Meets the premises of ThermalWarnsAndTrips: a die's sensor at each level and below it, an inlet sensor. -/
theorem test_thermal : ((gx THERM_CFG.WARN 0 (sensor 0) : Nat) : Int) ≤ reading 0 1839 (sensor 0) ∧
    reading 0 (-2048) (sensor 0) < ((gx THERM_CFG.WARN 0 (sensor 0) : Nat) : Int) ∧ 1840 ≤ reading 127 1840 (sensor 127) ∧
    reading 127 1839 (sensor 127) < 1840 ∧ dark (after (.thermalTrip 127 1840) (sensor 127)) = true ∧
    dark (after (.thermalTrip 128 2047) (sensor 128)) = false := by decide +kernel

/-- Output 0 enabled each microsecond, one microsecond in, with QUAL 2. -/
def ppsOn : State :=
  setTime .ox9 { State.reset.ox.time with ft := 2500, ppsOut := [(0, 0, false), (0, 0, false)] }
    (sx TIME_STAT.QUAL 0 2 (sx PPS_OUT_CFG.PERIOD 0 1 (withX PPS_OUT_CFG.EN 0 1)))

/-- Output 1 high since 0. -/
def ppsHigh (f : Nat) : State :=
  setTime .ox9 { State.reset.ox.time with ft := f, ppsOut := [(0, 0, false), (1, 0, true)] } State.reset

/-- Meets the premises of PpsOutRisesAtItsEdgeAndFalls: disabled; a rise due; a fall due and one not. -/
theorem test_pps_out : State.reset.ox.time.ppsOut.length = 2 ∧ gx PPS_OUT_CFG.EN 0 State.reset = 0 ∧ gx PPS_OUT_CFG.EN 0 ppsOn = 1 ∧
    qualOf .ox9 ppsOn ≠ 0 ∧ gx PPS_OUT_CFG.PHASE 0 ppsOn ≤ ft ppsOn ∧ 0 < gx PPS_OUT_CFG.PERIOD 0 ppsOn * 2500 ∧
    (ppsOutOf 0 ppsOn).1 < (ft ppsOn - gx PPS_OUT_CFG.PHASE 0 ppsOn) / (gx PPS_OUT_CFG.PERIOD 0 ppsOn * 2500) + 1 ∧
    (after (.ppsOutEdge 0) ppsOn).out = [.ppsOut 0 true] ∧ (ppsOutOf 1 (ppsHigh 0)).2.2 = true ∧
    ft (ppsHigh 24999) < 0 + (qualOf .ox9 (ppsHigh 24999) + 1) * 25000 ∧
    0 + (qualOf .ox9 (ppsHigh 25000) + 1) * 25000 ≤ ft (ppsHigh 25000) ∧
    (after (.ppsOutFall 1) (ppsHigh 25000)).out = [.ppsOut 1 false] := by decide +kernel

/-! ### The directory and the Skippers -/

/-- A packet with an opcode, from endpoint 5. -/
def from5 (op : Nat) : Packet := { hdr := { hdr with opcode := BitVec.ofNat 6 op, srcEp := 5 }, payload := [], trailer := [] }

/-- Endpoint 5 is member 1; line 0 of bank 0 waits for INV_ACK of members 1 and 2, and a GET_S of endpoint 5 waits for it. -/
def invLine : State :=
  setCwBank 0 { CwBank.reset with
    lines := [{ addr := 0, st := .bInv, owner := 64, sharers := [1, 2], used := 0, req := none, acks := [1, 2], data := none
                asked := false, poison := false, notHeld := false, since := 0 }]
    queue := [from5 opGETS] } (sx CW_MEMBER.VALID 1 1 (sx CW_MEMBER.EP 1 5 State.reset))

/-- Meets the premises of DirectoryCommandsAct: an INV_ACK of member 1, a second request for the line, a time-out of 20 us. -/
theorem test_directory : halted invLine = false ∧ (from5 opACK).hdr.opcode.toNat = opACK ∧ bankOfAddr (from5 opACK).hdr.addr = 0 ∧
    (cwLine 0 0 invLine).map (fun l => (l.st, l.acks)) = some (.bInv, [1, 2]) ∧ senderOf (from5 opACK).hdr invLine = some 1 ∧
    (cwLine 0 0 (after (.cohAckAtBank (from5 opACK)) invLine)).map (fun l => (l.st, l.acks)) = some (.bInv, [2]) ∧
    bankRequest (from5 opGETM).hdr.opcode.toNat = true ∧ lineAddr (from5 opGETM).hdr.addr = 0 ∧
    (cwBank 0 (after (.cwBankRequest [from5 opGETM]) invLine)).queue.map (·.hdr.opcode.toNat) = [opGETS, opGETM] ∧
    ft invLine < 0 + 2500 * gx CW_CTRL.ACK_TIMEOUT 0 invLine := by decide +kernel

/-- A transmit descriptor waits at Skipper 0; its remote table and its PCIe reads hold an entry from ft 0. -/
def txWaits : State :=
  modSkip 0 (fun x => { x with remote := [{ hdr := hdr, since := 0 }]
                               reads := [{ ptag := 3, hdr := hdr, since := 0 }] }) (withX HOST_CFG.TX_TAIL 0 1)

/-- Meets the premises of SkipperCommandsAct: entries that are not yet due; a descriptor with NP and ENC. -/
theorem test_skipper : halted txWaits = false ∧ (skipOf 0 txWaits).tx = none ∧ (skipOf 0 txWaits).txDone ≠ gx HOST_CFG.TX_TAIL 0 txWaits ∧
    gx HOST_STAT.TX_HALT 0 txWaits = 0 ∧ ft txWaits < 0 + 2500 * gx GW_CTRL.REMOTE_TO 0 txWaits ∧ locOf .ox9 txWaits < 0 + 25000000 ∧ hostTag 0 txWaits = some 0 ∧
    bits 3 0 1 = 1 ∧ bits 3 1 1 = 1 ∧ (after (.hostTxDescriptor 0 [3, 0, 0, 1, 0, 0, 0, 0] []) txWaits).out =
      [.pcieRead 0 0 0 64 snooped, .hostMsix 0 1] := by
  decide +kernel

end Sys2Proof.Tests
end

section
/-! SUPPORT. Where register words stand, what a write of one does field by field, what a read that clears leaves, what an
undefined access leaves, the gates of hosts and units, landing counters, the registers at reset. -/

namespace Sys2Proof.Machine

/-! ### Places of register words -/

/-- Below 2^20 entries and 128 words, the key of a register word names its register, its entry and its word. -/
theorem regKey_inj {r q : Reg} {i j w k : Nat} (hi : i < 2 ^ 20) (hj : j < 2 ^ 20) (hw : w < 128) (hk : k < 128)
    (h : regKey r i w = regKey q j k) : r = q ∧ i = j ∧ w = k := by
  unfold regKey at h
  have hr : r.ctorIdx = q.ctorIdx := by omega
  exact ⟨Reg.ctorIdx_inj hr, by omega, by omega⟩

/-! ### States that differ in one register word and in what has left the block -/

theorem oneWord_emit (u : UnitId) (r : Reg) (i w : Nat) (o : Output) (s : State) : oneWord u r i w s (emit o s) :=
  ⟨rfl, fun _ _ => emit_unit o s _, by simp, fun _ _ _ _ => getW_emit o u _ _ _ s⟩

theorem oneWord_setW (u : UnitId) (r : Reg) (i w : Nat) (x : Word) (s : State) : oneWord u r i w s (setW u r i w x s) := by
  refine ⟨?_, fun v hv => ?_, ?_, fun q j k hk => ?_⟩
  · unfold setW State.setUnit
    split <;> rfl
  · rw [unit_setW, if_neg hv]
  · rw [unit_setW, if_pos rfl]
  · rw [getW_setW _ _ _ _ _ _ _ _ _ _ (.inl hk), if_neg fun h => hk h.2]

theorem oneWord_sf (u : UnitId) (f : Fld) (i v : Nat) (s : State) : oneWord u f.reg i f.word s (sf u f i v s) :=
  oneWord_setW ..

theorem oneWord_ctrs {u : UnitId} {r : Reg} {i w : Nat} {s t : State} (h : oneWord u r i w s t) :
    (t.unit u).ctrs = (s.unit u).ctrs := by
  obtain ⟨-, -, hown, -⟩ := h
  have hctrs := congrArg UnitSt.ctrs hown
  exact hctrs

theorem oneWord_trans {u : UnitId} {r : Reg} {i w : Nat} {s t x : State} (h : oneWord u r i w s t)
    (h' : oneWord u r i w t x) : oneWord u r i w s x := by
  obtain ⟨a1, b1, c1, d1⟩ := h
  obtain ⟨a2, b2, c2, d2⟩ := h'
  refine ⟨?_, fun v hv => (b2 v hv).trans (b1 v hv), ?_, fun q j k hk => (d2 q j k hk).trans (d1 q j k hk)⟩
  · rw [← a2] at a1
    exact a1
  · rw [← c2] at c1
    exact c1

/-! ### The gates of a host, of a Monarch, of a unit -/

theorem hosted_served {s : State} (f : State → State) (hd : dark s = false) (hh : hostServed s = true) :
    hosted f s = .next (f s) := by
  simp [hosted, hd, hh]

theorem manned_live {s : State} (f : State → State) (hd : dark s = false) (hm : monarchLive s = true) :
    manned f s = .next (f s) := by
  simp [manned, hd, hm]

theorem spdmAt_live {u : UnitId} {s : State} (f : State → State) (h : spdmLive u s = true) : spdmAt u f s = .next (f s) := by
  simp [spdmAt, h]

theorem liveAt_awake {u : UnitId} {s : State} (f : State → State) (h : u = .ox9 → halted s = false) :
    liveAt u f s = .next (f s) := by
  cases u with
  | ox9 => exact live_awake f (h rfl)
  | oeb side => rfl

/-! ### TRNG_STAT_READ -/

theorem exec_trngStatRead_alive {d : Fin 2} {s : State} (hd : dark s = false) (hh : hostServed s = true)
    (hdie : dieDead (62 + d.val) s = false) (hc : inChrysalis s = false) :
    exec (.trngStatRead (.monarch d)) s = .next (trngStatRead (.monarch d) s) := by
  show execTrngStatRead (.monarch d) s = _
  rw [execTrngStatRead, hosted_served _ hd hh, if_neg (by simp [hdie, hc])]

theorem exec_trngStatRead_unserved {d : Fin 2} {s : State} (hd : dark s = false) (hh : hostServed s = true)
    (hz : dieDead (62 + d.val) s = true ∨ inChrysalis s = true) :
    exec (.trngStatRead (.monarch d)) s = .next (emit (.readData 0) s) := by
  show execTrngStatRead (.monarch d) s = _
  rw [execTrngStatRead, hosted_served _ hd hh, if_pos (by simpa using hz)]

/-! ### Reads that clear -/

/-- A field that holds nothing holds exactly what is counted next, as far as it can hold it. -/
theorem gf_satAdd_of_zero {u : UnitId} {f : Fld} {i n : Nat} {t : State} (hf : f.lo + f.len ≤ 64) (h : gf u f i t = 0)
    (hn : n < 2 ^ f.len) : gf u f i (satAdd u f i n t) = n := by
  rw [satAdd, gf_sf_self u f i _ t hf, h, Nat.zero_add, min_eq_left (by omega), Nat.mod_eq_of_lt hn]

/-- What a read that returns a word and clears one field of it leaves (R7). -/
theorem emit_clear_field (u : UnitId) (f : Fld) (i v : Nat) (s : State) (hf : f.lo + f.len ≤ 64) :
    let t := sf u f i 0 (emit (.readData v) s)
    t.out = s.out ++ [.readData v] ∧ gf u f i t = 0 ∧ (∀ n < 2 ^ f.len, gf u f i (satAdd u f i n t) = n) ∧
      (∀ g : Fld, g.reg = f.reg → g.word = f.word → (g.lo + g.len ≤ f.lo ∨ f.lo + f.len ≤ g.lo) → gf u g i t = gf u g i s) ∧
      oneWord u f.reg i f.word s t := by
  intro t
  have hz : gf u f i t = 0 := by rw [gf_sf_self u f i 0 _ hf, Nat.zero_mod]
  refine ⟨sf_out .., hz, fun n hn => gf_satAdd_of_zero hf hz hn, fun g hr hw hd => ?_,
    oneWord_trans (oneWord_emit ..) (oneWord_sf ..)⟩
  rw [gf_sf_beside u f g i 0 _ hf hr hw hd, gf_emit]

/-- Calm freezes every TRNG_STAT but the active Monarch's, and D62 or D63 is the active one (R410). -/
theorem not_calm_of_unfrozen {d : Fin 2} {s : State} (h : frozenReg .trngStat d.val s = false) :
    gb CALM_STAT.CALM 0 s = false := by
  have ha : d.val ≠ activeMonarch s := by
    unfold activeMonarch
    split <;> omega
  simpa [frozenReg, ha] using h

/-- A read of a TRNG_STAT that is not frozen returns the word and clears both counts. -/
theorem trngStatRead_unfrozen {k : TrngUnit} {s : State}
    (h : ((trngAt k).1 = .ox9 && frozenReg .trngStat (trngAt k).2 s) = false) :
    trngStatRead k s = sf (trngAt k).1 TRNG_STAT.APT_FAILS (trngAt k).2 0 (sf (trngAt k).1 TRNG_STAT.RCT_FAILS (trngAt k).2 0
      (emit (.readData (getW (trngAt k).1 .trngStat (trngAt k).2 0 s).toNat) s)) := by
  simp only [trngStatRead, h, Bool.false_eq_true, if_false]

/-- Where a host is served, or at an OEB, TRNG_STAT_READ returns the word and clears both counts (R373). -/
theorem exec_trngStatRead_clears (k : TrngUnit) (s : State)
    (h : ∀ d : Fin 2, k = .monarch d → dark s = false ∧ hostServed s = true ∧ inChrysalis s = false ∧
      dieDead (62 + d.val) s = false ∧ frozenReg .trngStat d.val s = false) :
    exec (.trngStatRead k) s = .next (sf (trngAt k).1 TRNG_STAT.APT_FAILS (trngAt k).2 0
      (sf (trngAt k).1 TRNG_STAT.RCT_FAILS (trngAt k).2 0
        (emit (.readData (getW (trngAt k).1 .trngStat (trngAt k).2 0 s).toNat) s))) := by
  cases k with
  | monarch d =>
    obtain ⟨hd, hh, hc, hdie, hf⟩ := h d rfl
    rw [exec_trngStatRead_alive hd hh hdie hc, trngStatRead_unfrozen]
    simp [frozenReg, not_calm_of_unfrozen hf]
  | oeb side => rfl

/-! ### Undefined accesses -/

/-- The event an undefined access raises (R8): the die is the active Monarch's. -/
def unmappedEvent (s : State) : Event := Event.mk0 .ox9 .unmappedAccess false (activeMonarch s) 0 0 [] (countG .unmappedAccess s)

theorem unmapped_frame (s : State) : { unmapped s with ox := s.ox } = s := rfl

theorem counter_unmapped (q : Place) (d : Ctr) (s : State) :
    counter .ox9 q d (unmapped s) = counter .ox9 q d (countG .unmappedAccess s) := by
  simp [unmapped, raise0]

/-- An undefined access counts and raises, and changes nothing else (R8). -/
theorem countedAndRaised_unmapped (s : State) : countedAndRaised .glob .unmappedAccess (unmappedEvent s) s (unmapped s) := by
  refine ⟨unmapped_frame s, rfl, rfl, ?_, fun q d hk => ?_, rfl⟩
  · rw [counter_unmapped, countG, counter_countN_self]
  · rw [counter_unmapped, countG, counter_countN, if_neg fun h => hk h.2]

theorem countedAndRaised_emit {p : Place} {c : Ctr} {e : Event} {s t : State} (o : Output) (h : countedAndRaised p c e s t) :
    countedAndRaised p c e s (emit o t) := h

/-- BAR0 accepts an aligned 8-byte write of a buffer, of a word slot and of every address that its tables assign. -/
theorem not_accepted_word {fn off : Nat} {s : State} (ha : off % 8 = 0) (h : bar0Accepts fn off 8 true s = false) :
    bufferAt fn off 8 = false ∧ ¬(0x100000 + 0x10000 * fn + 0x8000 ≤ off ∧ off < 0x100000 + 0x10000 * fn + 0x10000) ∧
      ctlAt fn off = none := by
  simp only [bar0Accepts, ha, decide_true, Bool.true_and, Bool.or_eq_false_iff, Option.isSome_eq_false_iff,
    Option.isNone_iff_eq_none, Bool.and_eq_false_iff, decide_eq_false_iff_not] at h
  obtain ⟨⟨⟨⟨-, hb⟩, hslot⟩, hctl⟩, -⟩ := h
  exact ⟨hb, by omega, hctl⟩

/-- An 8-byte write below the die windows that BAR0 does not accept is an undefined access. -/
theorem bar0Write_not_accepted {fn off v : Nat} {s : State} (hoff : off < 0x1000000)
    (h : bar0Accepts fn off 8 true s = false) : bar0Write fn off false v s = unmapped s := by
  by_cases ha : off % 8 = 0
  · obtain ⟨hb, hslot, hctl⟩ := not_accepted_word ha h
    simp only [bufferAt, Bool.or_eq_false_iff, Bool.and_eq_false_iff, decide_eq_false_iff_not] at hb
    have hreq : ¬(0x6000000 + 0x4000 * fn + 0x1000 ≤ off ∧ off < 0x6000000 + 0x4000 * fn + 0x2000) := by omega
    have hro : ¬((0x6000000 + 0x4000 * fn + 0x2000 ≤ off ∧ off < 0x6000000 + 0x4000 * fn + 0x3000) ∨
      (0x200000 ≤ off ∧ off < 0x800000)) := by omega
    have hscan : ¬(0x80000 ≤ off ∧ off < 0x81000) := by omega
    have hwin : ¬(0x1000000 ≤ off ∧ off < 0x5000000) := by omega
    simp [bar0Write, ha, hslot, hreq, hro, hscan, hwin, hctl]
  · simp [bar0Write, ha]

/-! ### Field maps -/

theorem fieldMap_inside (r : Reg) : ∀ x ∈ fieldMap r, x.fld.reg = r ∧ x.fld.word < 128 ∧ x.fld.lo + x.fld.len ≤ 64 := by
  cases r <;> decide

/-- Two fields of one word of a field map lie side by side. -/
theorem fieldMap_pairwise (r : Reg) : (fieldMap r).Pairwise fun x y =>
    x.fld.word = y.fld.word → x.fld.lo + x.fld.len ≤ y.fld.lo ∨ y.fld.lo + y.fld.len ≤ x.fld.lo := by
  cases r <;> decide

/-- Two rows lie side by side in a word. -/
def FldRow.beside (x y : FldRow) : Prop := x.fld.lo + x.fld.len ≤ y.fld.lo ∨ y.fld.lo + y.fld.len ≤ x.fld.lo

theorem fieldsOf_inside {r : Reg} {w : Nat} {x : FldRow} (h : x ∈ fieldsOf r w) :
    x.fld.reg = r ∧ x.fld.word = w ∧ x.fld.lo + x.fld.len ≤ 64 := by
  obtain ⟨hx, hw⟩ := List.mem_filter.1 h
  obtain ⟨hreg, -, hlen⟩ := fieldMap_inside r x hx
  exact ⟨hreg, by simpa using hw, hlen⟩

theorem fieldsOf_pairwise (r : Reg) (w : Nat) : (fieldsOf r w).Pairwise FldRow.beside :=
  ((fieldMap_pairwise r).filter _).imp_of_mem fun hx hy h => by
    obtain ⟨-, hxw, -⟩ := fieldsOf_inside hx
    obtain ⟨-, hyw, -⟩ := fieldsOf_inside hy
    exact h (hxw.trans hyw.symm)

/-! ### A register word written field by field (R4, Table 0-4) -/

/-- What a row's field holds once `v` is written where the word held `old`. -/
def FldRow.written (x : FldRow) (old v : Nat) : Nat :=
  let o := bits old x.fld.lo x.fld.len
  let n := bits v x.fld.lo x.fld.len
  match x.acc with
  | .rw | .wo => n
  | .w1c => o - Nat.land o n
  | .w1s => Nat.lor o n
  | .ro | .rc => o

/-- The word `a` with the field of a row written. -/
def mergeField (old v a : Nat) (x : FldRow) : Nat :=
  match x.acc with
  | .ro | .rc => a
  | _ => setBits a x.fld.lo x.fld.len (x.written old v)

theorem mergeWrite_eq_foldl (r : Reg) (w old v : Nat) : mergeWrite r w old v = (fieldsOf r w).foldl (mergeField old v) old := by
  unfold mergeWrite
  congr 1
  funext a x
  obtain ⟨f, acc, _⟩ := x
  cases acc <;> rfl

theorem FldRow.written_lt (x : FldRow) (old v : Nat) : x.written old v < 2 ^ x.fld.len := by
  have ho := bits_lt old x.fld.lo x.fld.len
  have hn := bits_lt v x.fld.lo x.fld.len
  unfold FldRow.written
  split
  · exact hn
  · exact hn
  · exact lt_of_le_of_lt (Nat.sub_le _ _) ho
  · exact Nat.or_lt_two_pow ho hn
  · exact ho
  · exact ho

theorem bits_mergeField_self {old v a : Nat} {x : FldRow} (h : bits a x.fld.lo x.fld.len = bits old x.fld.lo x.fld.len) :
    bits (mergeField old v a x) x.fld.lo x.fld.len = x.written old v := by
  unfold mergeField
  split
  · next hacc => simp [FldRow.written, hacc, h]
  · next hacc => simp [FldRow.written, hacc, h]
  · rw [bits_setBits_self, Nat.mod_eq_of_lt (x.written_lt old v)]

theorem bits_mergeField_beside {old v a : Nat} {x y : FldRow} (h : x.beside y) :
    bits (mergeField old v a x) y.fld.lo y.fld.len = bits a y.fld.lo y.fld.len := by
  unfold mergeField
  split
  · rfl
  · rfl
  · exact bits_setBits_disjoint h.symm

theorem mergeField_lt {old v a : Nat} {x : FldRow} (ha : a < 2 ^ 64) (h : x.fld.lo + x.fld.len ≤ 64) :
    mergeField old v a x < 2 ^ 64 := by
  unfold mergeField
  split
  · exact ha
  · exact ha
  · exact setBits_lt ha h

theorem foldl_mergeField_lt {l : List FldRow} {old v a : Nat} (ha : a < 2 ^ 64)
    (hl : ∀ x ∈ l, x.fld.lo + x.fld.len ≤ 64) : l.foldl (mergeField old v) a < 2 ^ 64 := by
  induction l generalizing a with
  | nil => exact ha
  | cons x l ih =>
    exact ih (mergeField_lt ha (hl x (by simp))) fun y hy => hl y (by simp [hy])

theorem bits_foldl_mergeField_beside {l : List FldRow} {old v a : Nat} {y : FldRow} (h : ∀ x ∈ l, x.beside y) :
    bits (l.foldl (mergeField old v) a) y.fld.lo y.fld.len = bits a y.fld.lo y.fld.len := by
  induction l generalizing a with
  | nil => rfl
  | cons x l ih =>
    rw [List.foldl_cons, ih fun z hz => h z (by simp [hz]), bits_mergeField_beside (h x (by simp))]

/-- Each field of a written word holds what its access code makes of it, whatever stands beside it. -/
theorem bits_foldl_mergeField {l : List FldRow} {old v a : Nat} (hl : l.Pairwise FldRow.beside)
    (ha : ∀ x ∈ l, bits a x.fld.lo x.fld.len = bits old x.fld.lo x.fld.len) {x : FldRow} (hx : x ∈ l) :
    bits (l.foldl (mergeField old v) a) x.fld.lo x.fld.len = x.written old v := by
  induction l generalizing a with
  | nil => simp at hx
  | cons y l ih =>
    obtain ⟨hy, hl'⟩ := List.pairwise_cons.1 hl
    rcases List.mem_cons.1 hx with rfl | hx
    · rw [List.foldl_cons, bits_foldl_mergeField_beside fun z hz => (hy z hz).symm, bits_mergeField_self (ha x (by simp))]
    · exact ih hl' (fun z hz => (bits_mergeField_beside (hy z hz)).trans (ha z (by simp [hz]))) hx

/-- What a field holds after its register word is written (R4). -/
theorem gf_regWrite (u : UnitId) {r : Reg} {i w v : Nat} (s : State) {x : FldRow} (hx : x ∈ fieldsOf r w) :
    gf u x.fld i (regWrite u r i w v s) = x.written (getW u r i w s).toNat v := by
  obtain ⟨hr, hw, -⟩ := fieldsOf_inside hx
  have hlt : mergeWrite r w (getW u r i w s).toNat v < 2 ^ 64 := by
    rw [mergeWrite_eq_foldl]
    exact foldl_mergeField_lt (getW u r i w s).isLt fun y hy => (fieldsOf_inside hy).2.2
  rw [gf, regWrite, hr, hw, getW_setW_self, BitVec.toNat_ofNat, Nat.mod_eq_of_lt hlt, mergeWrite_eq_foldl]
  exact bits_foldl_mergeField (fieldsOf_pairwise r w) (fun _ _ => rfl) hx

theorem oneWord_regWrite (u : UnitId) (r : Reg) (i w v : Nat) (s : State) : oneWord u r i w s (regWrite u r i w v s) :=
  oneWord_setW ..

/-! ### Writes in an OEB's register space -/

/-- Where every row of a map ends at or below an offset, the offset is looked up in the rows behind it. -/
theorem findRow_append_of_le {l : List MapRow} {off : Nat} (h : ∀ x ∈ l, x.base + x.stride * x.count ≤ off) (m : List MapRow) :
    findRow (l ++ m) off = findRow m off := by
  have hn : l.find? (fun x => decide (x.base ≤ off) && decide (off < x.base + x.stride * x.count) &&
      decide ((off - x.base) % x.stride / 8 < x.words)) = none := by
    refine List.find?_eq_none.2 fun x hx => ?_
    have := h x hx
    simp only [Bool.and_eq_true, decide_eq_true_eq, not_and]
    omega
  simp [findRow, List.find?_append, hn]

/-- An offset of the first row of a map: the entry, the word. -/
theorem findRow_cons_of_inside {x : MapRow} {off k : Nat} (m : List MapRow) (hoff : off = x.base + k)
    (hk : k < x.stride * x.count) (hw : k % x.stride / 8 < x.words) :
    findRow (x :: m) off = some (x.reg, k / x.stride, k % x.stride / 8) := by
  subst hoff
  simp [findRow, hk, hw]

theorem findRow_lcEntry (n : Fin 4096) : findRow oebMap (0x20000 + 8 * n.val) = some (.lcEntry, n.val, 0) := by
  have hsplit : oebMap = oebMap.take 9 ++ ⟨0x20000, 8, 4096, 1, .lcEntry⟩ :: oebMap.drop 10 := rfl
  have hle : ∀ x ∈ oebMap.take 9, x.base + x.stride * x.count ≤ 0x20000 := by decide
  have hn : 8 * n.val < 8 * 4096 := by omega
  have hword : 8 * n.val % 8 / 8 < 1 := by omega
  rw [hsplit, findRow_append_of_le fun x hx => (hle x hx).trans (Nat.le_add_right _ _),
    findRow_cons_of_inside _ rfl hn hword]
  simp

/-- A write of a word whose lowest `k` bits are named: past them it takes a free value (R5; log entry 18). -/
theorem openWrite_low (k v : Nat) (f : Nat → State → State) (s : State) :
    openWrite (2 ^ k - 1) v f s = if v / 2 ^ k = 0 then f v s else f (freeVal s % 2 ^ k) (draw s) := by
  have hm : ∀ n : Nat, Nat.land n (2 ^ k - 1) = n % 2 ^ k := fun n => Nat.and_two_pow_sub_one_eq_mod n k
  have hd := Nat.div_add_mod v (2 ^ k)
  have hz : v - v % 2 ^ k = 0 ↔ v / 2 ^ k = 0 := by
    have : v - v % 2 ^ k = 2 ^ k * (v / 2 ^ k) := by omega
    rw [this]
    simp
  simp only [openWrite, hm, ne_eq, hz, ite_not]

theorem bits_mod_two_pow {n lo len k : Nat} (h : lo + len ≤ k) : bits (n % 2 ^ k) lo len = bits n lo len := by
  apply Nat.eq_of_testBit_eq
  intro i
  rw [testBit_bits, testBit_bits, Nat.testBit_mod_two_pow]
  by_cases hi : i < len
  · have : lo + i < k := by omega
    simp [this]
  · simp [hi]

/-! ### Landing counters -/

theorem oebOf_setOeb (side : Side) (o : Oeb) (s : State) : oebOf side (setOeb side o s) = o := by simp [oebOf, setOeb]

theorem oebOf_emit (side : Side) (o : Output) (s : State) : oebOf side (emit o s) = oebOf side s := rfl

theorem oebOf_regWrite (side : Side) (u : UnitId) (r : Reg) (i w v : Nat) (s : State) :
    oebOf side (regWrite u r i w v s) = oebOf side s := by
  simp [oebOf, regWrite]

/-- A completion with status OK records no error in its context, so that a row of them changes only what leaves the block. -/
theorem foldl_arsp_ok {α : Type} (view : State → α) (hview : ∀ o t, view (emit o t) = view t) (side : Side) (l : List OWait)
    (s : State) : view (l.foldl (fun s w => arsp side w.ctx w.atag 0 0 0 [] s) s) = view s := by
  induction l generalizing s with
  | nil => rfl
  | cons w l ih =>
    rw [List.foldl_cons, ih]
    exact hview _ _

theorem lcTest_unit (side : Side) (n : Nat) (s : State) (v : UnitId) : (lcTest side n s).unit v = s.unit v := by
  unfold lcTest
  exact (foldl_arsp_ok (fun t => t.unit v) (fun o t => emit_unit o t v) side _ _).trans (modOeb_unit side _ s v)

/-- Waits that are met leave the list, and no other wait joins it. -/
theorem lcTest_waits (side : Side) (n : Nat) (s : State) : List.Sublist (oebOf side (lcTest side n s)).waits (oebOf side s).waits := by
  unfold lcTest
  rw [foldl_arsp_ok (oebOf side) (oebOf_emit side), modOeb, oebOf_setOeb, List.partition_eq_filter_filter]
  exact List.filter_sublist

theorem getW_of_unit {u : UnitId} {s t : State} (h : t.unit u = s.unit u) (r : Reg) (i w : Nat) :
    getW u r i w t = getW u r i w s := by
  rw [getW, getW, h]

theorem gf_of_unit {u : UnitId} {s t : State} (h : t.unit u = s.unit u) (f : Fld) (i : Nat) : gf u f i t = gf u f i s := by
  rw [gf, gf, getW_of_unit h]

/-- A W1C bit: cleared where a 1 is written, as it was where a 0 is (Table 0-4). -/
theorem FldRow.written_w1c_bit (x : FldRow) (old v : Nat) (hacc : x.acc = .w1c) (hlen : x.fld.len = 1) :
    x.written old v = if bits v x.fld.lo 1 = 1 then 0 else bits old x.fld.lo 1 := by
  have ho : bits old x.fld.lo 1 < 2 := bits_lt ..
  have hv : bits v x.fld.lo 1 < 2 := bits_lt ..
  simp only [FldRow.written, hacc, hlen]
  generalize bits old x.fld.lo 1 = o at ho
  generalize bits v x.fld.lo 1 = n at hv
  interval_cases o <;> interval_cases n <;> rfl

/-- The effect of a write of `w` to LC_ENTRY `n` of an OEB: its fields by Table 3-1, and what stays (R63, R252). -/
structure LcWritten (side : Side) (n w : Nat) (s t : State) : Prop where
  count : go side LC_ENTRY.COUNT n t = bits w 0 32
  part : go side LC_ENTRY.PART n t = bits w 32 12
  en : go side LC_ENTRY.EN n t = bits w 44 1
  poisoned : go side LC_ENTRY.POISONED n t = if bits w 45 1 = 1 then 0 else go side LC_ENTRY.POISONED n s
  denied : go side LC_ENTRY.DENIED n t = if bits w 46 1 = 1 then 0 else go side LC_ENTRY.DENIED n s
  words : ∀ (q : Reg) (j k : Nat), regKey q j k ≠ regKey .lcEntry n 0 → getW (.oeb side) q j k t = getW (.oeb side) q j k s
  units : ∀ u : UnitId, u ≠ .oeb side → t.unit u = s.unit u
  ctrs : (t.unit (.oeb side)).ctrs = (s.unit (.oeb side)).ctrs
  waits : List.Sublist (oebOf side t).waits (oebOf side s).waits

theorem lcWritten_oebWrite (side : Side) (n w : Nat) (s : State) : LcWritten side n w s (oebWrite side .lcEntry n 0 w s) := by
  let s1 := regWrite (.oeb side) .lcEntry n 0 w s
  have hunit : ∀ v, (oebWrite side .lcEntry n 0 w s).unit v = s1.unit v := lcTest_unit side n s1
  have hfld : ∀ x ∈ fieldsOf .lcEntry 0,
      go side x.fld n (oebWrite side .lcEntry n 0 w s) = x.written (getW (.oeb side) .lcEntry n 0 s).toNat w :=
    fun x hx => (gf_of_unit (hunit _) x.fld n).trans (gf_regWrite (.oeb side) s hx)
  have hone : oneWord (.oeb side) .lcEntry n 0 s s1 := oneWord_regWrite ..
  have hctrs := oneWord_ctrs hone
  obtain ⟨-, hother, -, hwords⟩ := hone
  exact {
    count := hfld ⟨LC_ENTRY.COUNT, .rw, 0, 0, 4294967295⟩ (by decide)
    part := hfld ⟨LC_ENTRY.PART, .rw, 0, 0, 4095⟩ (by decide)
    en := hfld ⟨LC_ENTRY.EN, .rw, 0, 0, 1⟩ (by decide)
    poisoned := (hfld ⟨LC_ENTRY.POISONED, .w1c, 0, 0, 1⟩ (by decide)).trans (FldRow.written_w1c_bit _ _ _ rfl rfl)
    denied := (hfld ⟨LC_ENTRY.DENIED, .w1c, 0, 0, 1⟩ (by decide)).trans (FldRow.written_w1c_bit _ _ _ rfl rfl)
    words := fun q j k hk => (getW_of_unit (hunit _) q j k).trans (hwords q j k hk)
    units := fun u hu => (hunit u).trans (hother u hu)
    ctrs := (congrArg UnitSt.ctrs (hunit _)).trans hctrs
    waits := oebOf_regWrite side (.oeb side) .lcEntry n 0 w s ▸ lcTest_waits side n s1 }

/-- The bits past the named ones and the drawing of a free value do not show in the effect. -/
theorem LcWritten.of_masked {side : Side} {n w : Nat} {s t : State} (h : LcWritten side n (w % 2 ^ 47) (draw s) t) :
    LcWritten side n w s t := by
  have hb : ∀ lo len, lo + len ≤ 47 → bits (w % 2 ^ 47) lo len = bits w lo len := fun _ _ => bits_mod_two_pow
  obtain ⟨hc, hp, he, hpo, hde, hw, hu, hctr, hwait⟩ := h
  rw [hb _ _ (by decide)] at hc hp he hpo hde
  exact ⟨hc, hp, he, hpo, hde, hw, fun u hu' => (hu u hu').trans (draw_unit s u), hctr, hwait⟩

theorem oebAccess_lcEntry (side : Side) (n : Fin 4096) (v : Nat) (s : State) :
    oebAccess side (0x20000 + 8 * n.val) false v s = if v / 2 ^ 47 = 0 then oebWrite side .lcEntry n.val 0 v s
      else oebWrite side .lcEntry n.val 0 (freeVal s % 2 ^ 47) (draw s) := by
  have ha : (0x20000 + 8 * n.val) % 8 = 0 := by omega
  have hm : oebMask .lcEntry 0 = 2 ^ 47 - 1 := by decide
  simp only [oebAccess, ha, findRow_lcEntry, hm, openWrite_low, Bool.false_or, ne_eq, not_true_eq_false, decide_false,
    Bool.false_eq_true, if_false]

/-! ### Reset -/

/-- At reset one place alone is listed in a register file: OEB_ID of OEB 1, with its side strap. -/
theorem getW_reset (u : UnitId) {r : Reg} {i w : Nat} (h : regKey r i w ≠ regKey .oebId 0 0) :
    getW u r i w State.reset = regReset r i w := by
  have side : ∀ a : Side, a = 0 ∨ a = 1 := by decide
  cases u with
  | ox9 => rfl
  | oeb a =>
    rcases side a with rfl | rfl
    · rfl
    · exact if_neg h

theorem mapReset_field (r : Reg) : ∀ x ∈ fieldMap r,
    mapReset r x.fld.word < 2 ^ 64 ∧ bits (mapReset r x.fld.word) x.fld.lo x.fld.len = x.reset := by
  cases r <;> decide

/-- The registers whose reset word differs by entry or is fused, and OEB_ID, which holds the side strap. -/
def resetByEntry : List Reg :=
  [.dieInfo, .deviceId, .laneStat, .lunaCoreMap, .sampleCtl, .domRights, .eqF, .eqE, .sensCal, .trngStat, .oebId]

theorem regReset_of_mapped {r : Reg} (hr : r ∉ resetByEntry) (i w : Nat) : regReset r i w = BitVec.ofNat 64 (mapReset r w) := by
  cases r <;> simp [resetByEntry] at hr <;> rfl

/-- Every other register's fields hold the reset values of its map, for every unit and every entry below 2^20. -/
theorem gf_reset_of_mapped (u : UnitId) {r : Reg} {i : Nat} {x : FldRow} (hx : x ∈ fieldMap r) (hi : i < 2 ^ 20)
    (hr : r ∉ resetByEntry) : gf u x.fld i State.reset = x.reset := by
  obtain ⟨hreg, hw, -⟩ := fieldMap_inside r x hx
  obtain ⟨hlt, hbits⟩ := mapReset_field r x hx
  have hkey : regKey r i x.fld.word ≠ regKey .oebId 0 0 := fun h =>
    absurd ((regKey_inj hi (by decide) hw (by decide) h).1 ▸ hr) (by decide)
  rw [gf, hreg, getW_reset u hkey, regReset_of_mapped hr, BitVec.toNat_ofNat, Nat.mod_eq_of_lt hlt, hbits]

end Sys2Proof.Machine
end

section
/-! PROOFS. The statements of the scope chapter: field accesses, undefined accesses, a landing counter's register, the step,
reset, the commands of keys, random numbers, SPDM and the mailbox. -/

namespace Sys2Proof.Machine

/-- Settles O7: by the read and write laws of a field, and since a key below the bounds names its place. -/
theorem writtenFieldReadsBack : Obligations.WrittenFieldReadsBack := by
  refine ⟨fun u f i v s h => ⟨gf_sf_self u f i v s h, fun g j hg => ?_, sf_out u f i v s, oneWord_sf u f i v s⟩,
    fun r q i j w k hi hj hw hk e => regKey_inj hi hj hw hk e⟩
  rcases hg with ⟨hr, rfl, hw, hd⟩ | hkey
  · exact gf_sf_beside u f g j v s h hr hw hd
  · exact gf_sf_other u u f g i j v s (.inl hkey)

/-- Settles O8: both commands end in the operation that counts and raises, a write of BAR0 because no branch of it takes an
offset that BAR0 does not accept. -/
theorem undefinedAccessReadsZeroAndCounts : Obligations.UndefinedAccessReadsZeroAndCounts := by
  refine ⟨fun fn off len write s hd hh hacc => ?access, fun fn off v s hd hh hc hoff hacc => ?write⟩
  case access =>
    have hexec : exec (.unmappedAccess (.bar0 fn) off len write) s = .next (unmappedAccess fn.val off len write s) :=
      hosted_served _ hd hh
    refine ⟨_, unmappedEvent s, hexec, rfl, ?_⟩
    cases write with
    | true => simpa [unmappedAccess, hacc] using countedAndRaised_unmapped s
    | false => simpa [unmappedAccess, hacc, emit] using countedAndRaised_emit (.readData 0) (countedAndRaised_unmapped s)
  case write =>
    have hexec : exec (.registerWrite (.bar0 fn) off false v) s = .next (hostWrite fn.val off false v.toNat s) :=
      hosted_served _ hd hh
    have hw : hostWrite fn.val off false v.toNat s = unmapped s := by
      simp [hostWrite, hc, bar0Write_not_accepted hoff hacc]
    exact ⟨_, unmappedEvent s, hexec.trans (congrArg _ hw), rfl, unmapped_out s, countedAndRaised_unmapped s⟩

/-- Settles O9: three of the reads clear one field, TRNG_STAT's clears two in a row. -/
theorem readClearFieldsLoseNothing : Obligations.ReadClearFieldsLoseNothing := by
  intro s
  refine ⟨fun fn hd hh hcalm => ⟨_, ?foldStat, emit_clear_field .ox9 FOLD_STAT.OVERFLOW 0 _ s (by decide)⟩,
    fun side x => ⟨_, rfl, emit_clear_field (.oeb side) CTX_CFG.ERR_COUNT x.val _ s (by decide)⟩,
    fun side x => ⟨_, rfl, emit_clear_field (.oeb side) XLAT_FAULT.COUNT x.val _ s (by decide)⟩,
    fun k h => ⟨_, exec_trngStatRead_clears k s h, ?trngStat⟩⟩
  case foldStat =>
    show hosted foldStatRead s = _
    rw [hosted_served _ hd hh, foldStatRead]
    simp only [hcalm, Bool.false_eq_true, if_false]
    rfl
  case trngStat =>
    generalize (trngAt k).1 = u, (trngAt k).2 = i
    obtain ⟨hout, hrct, -, hbeside, hone⟩ :=
      emit_clear_field u TRNG_STAT.RCT_FAILS i (getW u .trngStat i 0 s).toNat s (by decide)
    have hrct' := (gf_sf_beside u TRNG_STAT.APT_FAILS TRNG_STAT.RCT_FAILS i 0 _ (by decide) rfl rfl (by decide)).trans hrct
    have hapt := gf_sf_self u TRNG_STAT.APT_FAILS i 0
      (sf u TRNG_STAT.RCT_FAILS i 0 (emit (.readData (getW u .trngStat i 0 s).toNat) s)) (by decide)
    refine ⟨(sf_out ..).trans hout, hrct', fun n hn => gf_satAdd_of_zero (by decide) hrct' hn, hapt,
      fun n hn => gf_satAdd_of_zero (by decide) hapt hn, fun g hr hw hd => ?_, oneWord_trans hone (oneWord_sf ..)⟩
    exact (gf_sf_beside u TRNG_STAT.APT_FAILS g i 0 _ (by decide) hr hw hd.2).trans (hbeside g hr hw hd.1)

/-- Settles O10: the write merges by access codes and tests the waits; a write with rsv bits is that of the free value. -/
theorem landingCounterRegisterWrite : Obligations.LandingCounterRegisterWrite := by
  intro side n v s w
  have h : LcWritten side n.val w s (oebAccess side (0x20000 + 8 * n.val) false v.toNat s) := by
    rw [oebAccess_lcEntry]
    by_cases hv : v.toNat / 2 ^ 47 = 0
    · simpa only [w, hv, if_true] using lcWritten_oebWrite side n.val v.toNat s
    · simpa only [w, hv, if_false] using (lcWritten_oebWrite side n.val (freeVal s % 2 ^ 47) (draw s)).of_masked
  exact ⟨_, rfl, h.count, h.part, h.en, h.poisoned, h.denied, h.words, h.units, h.ctrs, h.waits⟩

/-- Settles O1, by the second arm of the step. -/
theorem stepRunsFrontCommand : Obligations.StepRunsFrontCommand := by
  intro c rest s h
  simp only [step, h]

/-- Refutes O4: the statement bounds no entry number, and an entry number of 2^20 or more names another register's place. Entry
22 * 2^20 of LC_ENTRY is the place of OEB_ID, where OEB 1 holds its side strap: its COUNT reads 4,096 at reset, not 0. Below
2^20 the fields of every register outside the eleven do hold their reset values (`gf_reset_of_mapped`). -/
theorem not_resetHoldsTheSpecValues : ¬ Obligations.ResetHoldsTheSpecValues := by
  rintro ⟨hfields, -⟩
  have hcount : gf (.oeb 1) LC_ENTRY.COUNT (22 * 2 ^ 20) State.reset = 4096 := by decide
  have hzero := hfields (.oeb 1) .lcEntry (22 * 2 ^ 20) ⟨LC_ENTRY.COUNT, .rw, 0, 0, 4294967295⟩ (by decide) (by decide)
  exact absurd (hcount.symm.trans hzero) (by decide)

/-- Settles O21: each command is its operation behind one gate, and the condition given with it opens the gate. -/
theorem securityCommandsAct : Obligations.SecurityCommandsAct := by
  intro s
  refine ⟨fun u slot unit h => liveAt_awake _ h, fun u sess c h => spdmAt_live _ h, fun u sess c h => spdmAt_live _ h,
    fun u sess c h => spdmAt_live _ h, fun u sess c h => spdmAt_live _ h, fun u sess c h => spdmAt_live _ h,
    fun u slot h => liveAt_awake _ h, fun u slot h => liveAt_awake _ h, fun u conn h => spdmAt_live _ h,
    fun u conn req h => spdmAt_live _ h, fun u conn req h => spdmAt_live _ h, fun u conn h => spdmAt_live _ h,
    fun u conn slot offset length h => ?certificate, fun u conn slot req h => ?challenge,
    fun u conn index signed req h => spdmAt_live _ h, fun u conn sess req h => spdmAt_live _ h,
    fun u sess req leafKey h => spdmAt_live _ h, fun u sess req h => spdmAt_live _ h, fun u sess h => spdmAt_live _ h,
    fun u sess h => spdmAt_live _ h, fun u sess std pen payload h => spdmAt_live _ h, fun u pass h => liveAt_awake _ h,
    fun u apt h => liveAt_awake _ h, fun u h => liveAt_awake _ h, fun token h => served_awake _ h,
    fun d fn reqLen hd hh => hosted_served _ hd hh, fun d rsp hd hm => manned_live _ hd hm,
    fun d hd hh hdie hc => exec_trngStatRead_alive hd hh hdie hc, fun d hd hh hz => exec_trngStatRead_unserved hd hh hz,
    fun side => rfl, fun u sess std pen payload h => spdmAt_live _ h⟩
  case certificate =>
    show execGetCertificate u conn slot offset length s = _
    rw [execGetCertificate, spdmAt_live _ h]
  case challenge =>
    show execChallenge u conn slot req s = _
    rw [execChallenge, spdmAt_live _ h]

end Sys2Proof.Machine
end

section
/-! SUPPORT. What one count with one event leaves, and the two ends of a row due for repair (R32, R34). -/

namespace Sys2Proof.Machine

/-! ### A count with its event -/

/-- A counter of the OX9 raised by one, then an event raised: one count, one event and nothing else. -/
theorem countedAndRaised_raise_countN (p : Place) (c : Ctr) (e : Event) (s : State) :
    countedAndRaised p c e s (raise .ox9 e (countN .ox9 p c 1 s)) := by
  refine ⟨rfl, rfl, rfl, ?_, fun q d hk => ?_, rfl⟩
  · rw [counter_raise, counter_countN_self]
  · rw [counter_raise, counter_countN, if_neg fun h => hk h.2]

/-! ### A row due for repair -/

/-- The rows once `r` is no longer due for repair, its error log cleared. -/
def Sram.settled (r : RowId) (m : Sram) : Sram :=
  { m with faulty := m.faulty.erase r, errs := m.errs.filter fun x => x.1 ≠ r }

/-- The rows once one more spare of its bank is used for `r`, which is being copied to it (R32). -/
def Sram.spared (r : RowId) (m : Sram) : Sram :=
  { m.settled r with
    sparesUsed := SMap.set (fun _ => 0) m.sparesUsed (bankKey r.die r.bank)
      (SMap.get (fun _ => 0) m.sparesUsed (bankKey r.die r.bank) + 1)
    copying := m.copying ++ [r] }

/-- The rows once `r` is fenced out (R34). -/
def Sram.fencedOut (r : RowId) (m : Sram) : Sram := { m.settled r with fenced := m.fenced ++ [r] }

theorem Sram.get_sparesUsed_spared (r : RowId) (m : Sram) (b : Nat) :
    SMap.get (fun _ => 0) (m.spared r).sparesUsed b =
      if b = bankKey r.die r.bank then SMap.get (fun _ => 0) m.sparesUsed b + 1
      else SMap.get (fun _ => 0) m.sparesUsed b := by
  rw [Sram.spared, SMap.get_set]
  split
  · next h => rw [h]
  · rfl

section
variable {die bank row : Nat} {s : State}

theorem rowRepair_of_spare (hf : (⟨die, bank, row⟩ : RowId) ∈ s.sram.faulty) (hn : rowSparesUsed die bank s < 8) :
    rowRepair die bank row s = raiseDie .sramRowRepaired false die [na bank, na row]
      (countD die .sramRowRepaired { s with sram := s.sram.spared ⟨die, bank, row⟩ }) := by
  simp only [rowRepair, List.contains_iff_mem.2 hf, hn, Bool.not_true, Bool.false_eq_true, if_false, if_true]
  rfl

theorem rowRepair_of_no_spare (hf : (⟨die, bank, row⟩ : RowId) ∈ s.sram.faulty) (hn : 8 ≤ rowSparesUsed die bank s) :
    rowRepair die bank row s = raiseDie .spareExhausted false die [na bank, na row]
      (countD die .sramRowFenced { s with sram := s.sram.fencedOut ⟨die, bank, row⟩ }) := by
  simp only [rowRepair, List.contains_iff_mem.2 hf, Nat.not_lt.2 hn, Bool.not_true, Bool.false_eq_true, if_false]
  rfl

end

end Sys2Proof.Machine
end

section
/-! PROOFS. The statements of the package organisation: repair of SRAM rows, the commands of forwarding, buffers and rates. -/

namespace Sys2Proof.Machine

/-- Settles O13: each command is its operation behind the gate of its unit, and the condition given with it opens the gate. -/
theorem forwardingCommandsAct : Obligations.ForwardingCommandsAct := by
  intro s
  exact ⟨fun die bank row h => live_awake _ h, fun die bank h => live_awake _ h,
    fun src pk eop bad reads h => live_awake _ h, fun bank reads h => live_awake _ h, fun src vc reads h => live_awake _ h,
    fun src vc h => live_awake _ h, fun pid bad h => live_awake _ h, fun pid bad reads h => live_awake _ h,
    fun p vc h => live_awake _ h, fun p vc h => live_awake _ h, fun die part h => live_awake _ h,
    fun die part h => live_awake _ h, fun die part h => live_awake _ h, fun die part h => live_awake _ h,
    fun sess p egress pk bad sopFt sopQual h => live_awake _ h, fun sram h => live_awake _ h,
    fun e vc h => liveAt_awake _ h, fun p h => live_awake _ h, fun h => live_awake _ h, fun side q line => rfl,
    fun p line h => live_awake _ h, fun k body h => live_awake _ h, fun side dst vc => rfl,
    fun k dst vc h => live_awake _ h⟩

/-- Settles O56: the bank has a spare left or not, and either end of the row is one count with one event over its own rows. -/
theorem faultyRowTakesSpareOrIsFenced : Obligations.FaultyRowTakesSpareOrIsFenced := by
  intro die bank row s h hf
  have hexec : exec (.sramRowRepaired die bank row) s = .next (rowRepair die.val bank row s) := live_awake _ h
  rcases Nat.lt_or_ge (rowSparesUsed die.val bank s) 8 with hn | hn
  · rw [rowRepair_of_spare hf hn] at hexec
    have hspares := Sram.get_sparesUsed_spared ⟨die.val, bank, row⟩ s.sram
    exact ⟨_, _, hexec, raiseDie_out .., rfl, rfl, fun b hb => (hspares b).trans (if_neg hb.symm),
      fun _ => ⟨(hspares _).trans (if_pos rfl), rfl, rfl, rfl, rfl, countedAndRaised_raise_countN ..⟩,
      fun hge => absurd hn (Nat.not_lt.2 hge)⟩
  · rw [rowRepair_of_no_spare hf hn] at hexec
    exact ⟨_, _, hexec, raiseDie_out .., rfl, rfl, fun _ _ => rfl, fun hlt => absurd hlt (Nat.not_lt.2 hn),
      fun _ => ⟨rfl, rfl, rfl, rfl, countedAndRaised_raise_countN ..⟩⟩

end Sys2Proof.Machine
end

section
/-! SUPPORT. Fields laid side by side in a word, a word of bytes, and the words of a header in them (Table 2-2, R41). -/

namespace Sys2Proof

/-! ### Fields side by side in a word -/

/-- The number that fields, given as width and value, make side by side, the first one lowest. -/
def packFields : List (Nat × Nat) → Nat
  | [] => 0
  | (len, v) :: fs => v + 2 ^ len * packFields fs

/-- The fields of these widths that stand side by side in `n` from bit `lo` up. -/
def fieldsFrom (n : Nat) : Nat → List Nat → List (Nat × Nat)
  | _, [] => []
  | lo, len :: ws => (len, bits n lo len) :: fieldsFrom n (lo + len) ws

theorem bits_shiftRight (n k lo len : Nat) : bits (n >>> k) lo len = bits n (k + lo) len := by
  rw [bits, bits, Nat.shiftRight_add]

theorem bits_zero_of_lt {n len : Nat} (h : n < 2 ^ len) : bits n 0 len = n := Nat.mod_eq_of_lt h

/-- Two fields that touch are one. -/
theorem bits_add_bits (n lo len len' : Nat) :
    bits n lo len + 2 ^ len * bits n (lo + len) len' = bits n lo (len + len') := by
  simp only [bits, Nat.shiftRight_add, Nat.shiftRight_eq_div_pow _ len, Nat.pow_add, Nat.mod_mul]

theorem fieldsFrom_shiftRight (n k lo : Nat) (ws : List Nat) : fieldsFrom (n >>> k) lo ws = fieldsFrom n (k + lo) ws := by
  induction ws generalizing lo with
  | nil => rfl
  | cons len ws ih => rw [fieldsFrom, fieldsFrom, bits_shiftRight, ih, Nat.add_assoc]

theorem packFields_fieldsFrom (n lo : Nat) (ws : List Nat) : packFields (fieldsFrom n lo ws) = bits n lo ws.sum := by
  induction ws generalizing lo with
  | nil => simp [fieldsFrom, packFields, bits, Nat.mod_one]
  | cons len ws ih => rw [fieldsFrom, packFields, ih, bits_add_bits, List.sum_cons]

theorem fieldsFrom_packFields (fs : List (Nat × Nat)) (h : ∀ f ∈ fs, f.2 < 2 ^ f.1) :
    fieldsFrom (packFields fs) 0 (fs.map Prod.fst) = fs := by
  induction fs with
  | nil => rfl
  | cons f fs ih =>
    obtain ⟨hv, hfs⟩ := List.forall_mem_cons.1 h
    have hlow : bits (packFields (f :: fs)) 0 f.1 = f.2 := by
      rw [packFields, bits, Nat.shiftRight_zero, Nat.add_mul_mod_self_left, Nat.mod_eq_of_lt hv]
    have hrest : packFields (f :: fs) >>> f.1 = packFields fs := by
      rw [packFields, Nat.shiftRight_eq_div_pow, Nat.add_mul_div_left _ _ (Nat.two_pow_pos _), Nat.div_eq_of_lt hv,
        Nat.zero_add]
    calc fieldsFrom (packFields (f :: fs)) 0 ((f :: fs).map Prod.fst)
        = f :: fieldsFrom (packFields (f :: fs)) (f.1 + 0) (fs.map Prod.fst) := by
          rw [List.map_cons, fieldsFrom, hlow, Nat.add_comm]
      _ = f :: fs := by rw [← fieldsFrom_shiftRight, hrest, ih hfs]

theorem packFields_lt (fs : List (Nat × Nat)) (h : ∀ f ∈ fs, f.2 < 2 ^ f.1) :
    packFields fs < 2 ^ (fs.map Prod.fst).sum := by
  have hbits := congrArg packFields (fieldsFrom_packFields fs h)
  rw [packFields_fieldsFrom] at hbits
  calc packFields fs = bits (packFields fs) 0 (fs.map Prod.fst).sum := hbits.symm
    _ < _ := bits_lt ..

/-! ### Words of bytes (R41) -/

/-- Word `w` of a list of bytes. -/
def wordAt (bs : List Byte) (w : Nat) : Nat := ofLE ((bs.drop (8 * w)).take 8)

section
variable {bs : List Byte} {w : Nat}

theorem length_bytesOfWord (h : 8 * w + 8 ≤ bs.length) : ((bs.drop (8 * w)).take 8).length = 8 := by
  rw [List.length_take, List.length_drop]
  omega

theorem wordAt_lt (bs : List Byte) (w : Nat) : wordAt bs w < 2 ^ 64 :=
  calc wordAt bs w < 256 ^ ((bs.drop (8 * w)).take 8).length := ofLE_lt _
    _ ≤ 256 ^ 8 := Nat.pow_le_pow_right (by decide) (List.length_take_le ..)
    _ = 2 ^ 64 := by decide

theorem toLE_wordAt (h : 8 * w + 8 ≤ bs.length) : toLE 8 (wordAt bs w) = (bs.drop (8 * w)).take 8 := by
  have hle := toLE_ofLE ((bs.drop (8 * w)).take 8)
  rwa [length_bytesOfWord h] at hle

/-- The bytes of the first words are the first bytes. -/
theorem flatMap_toLE_wordAt {k : Nat} (h : 8 * k ≤ bs.length) :
    (List.range k).flatMap (fun w => toLE 8 (wordAt bs w)) = bs.take (8 * k) := by
  induction k with
  | zero => rfl
  | succ k ih =>
    rw [List.range_succ, List.flatMap_append, ih (by omega), List.flatMap_singleton, toLE_wordAt h, ← List.take_add,
      Nat.mul_succ]

/-- A word of the bytes of a list of words is the word that stands at its place. -/
theorem wordAt_flatMap_toLE {ns : List Nat} {n : Nat} (hw : ns[w]? = some n) (hn : n < 2 ^ 64) :
    wordAt (ns.flatMap (toLE 8)) w = n := by
  induction ns generalizing w with
  | nil => simp at hw
  | cons m ns ih =>
    cases w with
    | zero =>
      obtain rfl : m = n := by simpa using hw
      rw [wordAt, List.flatMap_cons, Nat.mul_zero, List.drop_zero, List.take_left' (length_toLE 8 m), ofLE_toLE]
      exact Nat.mod_eq_of_lt hn
    | succ w =>
      have hdrop : (toLE 8 m ++ ns.flatMap (toLE 8)).drop (8 * (w + 1)) = (ns.flatMap (toLE 8)).drop (8 * w) := by
        rw [Nat.mul_succ, Nat.add_comm, ← List.drop_drop, List.drop_left' (length_toLE 8 m)]
      rw [wordAt, List.flatMap_cons, hdrop]
      exact ih hw

/-- Byte `b` of a little-endian number holds its bits from 8b up. -/
theorem getElem?_eq_bits_ofLE {b : Nat} (h : b < bs.length) :
    (bs.map BitVec.toNat)[b]? = some (bits (ofLE bs) (8 * b) 8) := by
  induction bs generalizing b with
  | nil => exact absurd h (Nat.not_lt_zero b)
  | cons x bs ih =>
    have hx : x.toNat < 256 := x.isLt
    cases b with
    | zero => simp [ofLE, bits, Nat.mod_eq_of_lt hx]
    | succ b =>
      have hrest : ofLE (x :: bs) >>> 8 = ofLE bs := by
        rw [ofLE, Nat.shiftRight_eq_div_pow]
        omega
      rw [List.map_cons, List.getElem?_cons_succ, ih (Nat.lt_of_succ_lt_succ h), ← hrest, bits_shiftRight, Nat.mul_succ,
        Nat.add_comm]

/-- Byte 8w + b of a packet holds bits 8b to 8b + 7 of word w (R41). -/
theorem getElem?_eq_bits_wordAt {b : Nat} (hb : b < 8) (h : 8 * w + 8 ≤ bs.length) :
    (bs.map BitVec.toNat)[8 * w + b]? = some (bits (wordAt bs w) (8 * b) 8) := by
  rw [wordAt, ← getElem?_eq_bits_ofLE (by rwa [length_bytesOfWord h]), List.map_take, List.map_drop,
    List.getElem?_take_of_lt hb, List.getElem?_drop]

end

/-! ### The fields of a header -/

/-- The widths of the fields of header word `w`, lowest first; word 1 is one field (Table 2-2). -/
def headerWidths : Nat → List Nat
  | 0 => [6, 3, 4, 12, 12, 12, 14, 1]
  | 1 => [64]
  | 2 => [13, 2, 12, 13, 8, 1, 15]
  | 3 => [16, 48]
  | _ => []

/-- The fields of header word `w` with their widths, lowest first (Table 2-2). -/
def headerFields (h : Header) : Nat → List (Nat × Nat)
  | 0 => [(6, h.opcode.toNat), (3, h.vc.toNat), (4, h.status.toNat), (12, h.part.toNat), (12, h.srcEp.toNat),
      (12, h.dstEp.toNat), (14, h.tag.toNat), (1, h.enc.toNat)]
  | 1 => [(64, h.w1.toNat)]
  | 2 => [(13, h.len.toNat), (2, h.scope.toNat), (12, h.lcId.toNat), (13, h.keySlot.toNat), (8, h.subop.toNat),
      (1, h.mc.toNat), (15, h.mcg.toNat)]
  | 3 => [(16, h.ageStamp.toNat), (48, h.seq.toNat)]
  | _ => []

theorem headerWidths_sum : ∀ w < 4, (headerWidths w).sum = 64 := by decide

theorem headerFields_widths (h : Header) : ∀ w, (headerFields h w).map Prod.fst = headerWidths w
  | 0 | 1 | 2 | 3 | _ + 4 => rfl

theorem headerFields_fit (h : Header) : ∀ w, ∀ f ∈ headerFields h w, f.2 < 2 ^ f.1
  | 0 => by
    simp only [headerFields, List.forall_mem_cons]
    exact ⟨h.opcode.isLt, h.vc.isLt, h.status.isLt, h.part.isLt, h.srcEp.isLt, h.dstEp.isLt, h.tag.isLt, h.enc.toNat_lt,
      List.forall_mem_nil _⟩
  | 1 => by
    simp only [headerFields, List.forall_mem_cons]
    exact ⟨h.w1.isLt, List.forall_mem_nil _⟩
  | 2 => by
    simp only [headerFields, List.forall_mem_cons]
    exact ⟨h.len.isLt, h.scope.isLt, h.lcId.isLt, h.keySlot.isLt, h.subop.isLt, h.mc.toNat_lt, h.mcg.isLt,
      List.forall_mem_nil _⟩
  | 3 => by
    simp only [headerFields, List.forall_mem_cons]
    exact ⟨h.ageStamp.isLt, h.seq.isLt, List.forall_mem_nil _⟩
  | _ + 4 => List.forall_mem_nil _

theorem bool_toNat_inj {a b : Bool} : a.toNat = b.toNat ↔ a = b := by
  cases a <;> cases b <;> decide

/-- A header is its fields. -/
theorem Header.ext_fields {h g : Header} (he : ∀ w, headerFields h w = headerFields g w) : h = g := by
  have h0 := he 0
  have h1 := he 1
  have h2 := he 2
  have h3 := he 3
  simp only [headerFields, List.cons.injEq, Prod.mk.injEq, true_and, and_true, BitVec.toNat_inj, bool_toNat_inj]
    at h0 h1 h2 h3
  cases h
  cases g
  simp_all

/-! ### The bytes of a header -/

theorem length_headerBytes (h : Header) : (headerBytes h).length = 32 := by
  simp [headerBytes]

theorem headerBytes_eq_flatMap (h : Header) :
    headerBytes h = ((List.range 4).map fun w => packFields (headerFields h w)).flatMap (toLE 8) := by
  have h0 : headerWord0 h = packFields (headerFields h 0) := by
    simp only [headerWord0, headerFields, packFields]
    ring
  have h1 : h.w1.toNat = packFields (headerFields h 1) := by
    simp only [headerFields, packFields]
    ring
  have h2 : headerWord2 h = packFields (headerFields h 2) := by
    simp only [headerWord2, headerFields, packFields]
    ring
  have h3 : headerWord3 h = packFields (headerFields h 3) := by
    simp only [headerWord3, headerFields, packFields]
    ring
  rw [headerBytes, h0, h1, h2, h3]
  simp [List.range_succ]

theorem wordAt_headerBytes (h : Header) {w : Nat} (hw : w < 4) : wordAt (headerBytes h) w = packFields (headerFields h w) := by
  have hlt := packFields_lt _ (headerFields_fit h w)
  rw [headerFields_widths, headerWidths_sum w hw] at hlt
  rw [headerBytes_eq_flatMap]
  exact wordAt_flatMap_toLE (by simp [hw]) hlt

theorem fieldsFrom_headerBytes (h : Header) {w : Nat} (hw : w < 4) :
    fieldsFrom (wordAt (headerBytes h) w) 0 (headerWidths w) = headerFields h w := by
  rw [wordAt_headerBytes h hw, ← headerFields_widths h, fieldsFrom_packFields _ (headerFields_fit h w)]

theorem toNat_ofNat_div_eq_bits (len n lo : Nat) : (BitVec.ofNat len (n / 2 ^ lo)).toNat = bits n lo len := by
  rw [BitVec.toNat_ofNat, bits, Nat.shiftRight_eq_div_pow]

theorem toNat_bits_eq_one (n lo : Nat) : (bits n lo 1 == 1).toNat = bits n lo 1 := by
  have hlt : bits n lo 1 < 2 := bits_lt ..
  interval_cases bits n lo 1 <;> rfl

theorem headerFields_headerOfBytes (bs : List Byte) :
    ∀ w, headerFields (headerOfBytes bs) w = fieldsFrom (wordAt bs w) 0 (headerWidths w)
  | 0 => by
    simp only [headerFields, headerOfBytes, headerOfWords, toNat_ofNat_div_eq_bits, toNat_bits_eq_one]
    rfl
  | 1 => rfl
  | 2 => by
    simp only [headerFields, headerOfBytes, headerOfWords, toNat_ofNat_div_eq_bits, toNat_bits_eq_one]
    rfl
  | 3 => by
    simp only [headerFields, headerOfBytes, headerOfWords, toNat_ofNat_div_eq_bits]
    rfl
  | _ + 4 => rfl

theorem headerOfBytes_headerBytes (h : Header) : headerOfBytes (headerBytes h) = h := by
  refine Header.ext_fields fun w => ?_
  rw [headerFields_headerOfBytes]
  match w with
  | 0 | 1 | 2 | 3 => exact fieldsFrom_headerBytes h (by decide)
  | _ + 4 => rfl

theorem headerBytes_headerOfBytes {bs : List Byte} (h : bs.length = 32) : headerBytes (headerOfBytes bs) = bs := by
  have hword : ∀ w ∈ List.range 4, packFields (headerFields (headerOfBytes bs) w) = wordAt bs w := fun w hw => by
    rw [headerFields_headerOfBytes, packFields_fieldsFrom, headerWidths_sum w (List.mem_range.1 hw),
      bits_zero_of_lt (wordAt_lt bs w)]
  calc headerBytes (headerOfBytes bs)
      = (List.range 4).flatMap fun w => toLE 8 (wordAt bs w) := by
        rw [headerBytes_eq_flatMap, List.map_congr_left hword, List.flatMap_map]
    _ = bs.take 32 := flatMap_toLE_wordAt h.ge
    _ = bs := List.take_of_length_le h.le

end Sys2Proof
end

section
/-! PROOFS. The statements of transactions and packets: the header as bytes. -/

namespace Sys2Proof.Machine

/-- Settles O47: the bytes of a header spell words whose fields are the header's, and fields that fill a word pack to it. -/
theorem headerRoundTrip : Obligations.HeaderRoundTrip := by
  refine ⟨fun h => ?_, fun bs hlen => headerBytes_headerOfBytes hlen⟩
  have h0 := fieldsFrom_headerBytes h (w := 0) (by decide)
  have h1 := fieldsFrom_headerBytes h (w := 1) (by decide)
  have h2 := fieldsFrom_headerBytes h (w := 2) (by decide)
  have h3 := fieldsFrom_headerBytes h (w := 3) (by decide)
  simp only [headerWidths, fieldsFrom, headerFields, Nat.reduceAdd, List.cons.injEq, Prod.mk.injEq, true_and, and_true,
    bits_zero_of_lt (wordAt_lt _ 1)] at h0 h1 h2 h3
  obtain ⟨hopcode, hvc, hstatus, hpart, hsrc, hdst, htag, henc⟩ := h0
  obtain ⟨hlen, hscope, hlc, hkey, hsubop, hmc, hmcg⟩ := h2
  obtain ⟨hage, hseq⟩ := h3
  exact ⟨length_headerBytes h, headerOfBytes_headerBytes h, h1, hopcode, hvc, hstatus, hpart, hsrc, hdst, htag, hlen, hscope,
    hlc, hkey, hsubop, hmcg, hage, hseq, henc, hmc, fun w hw b hb =>
      getElem?_eq_bits_wordAt hb (by rw [length_headerBytes]; omega)⟩

end Sys2Proof.Machine
end

section
/-! SUPPORT. An OEB's operation has no gate: it runs in every state. -/

namespace Sys2Proof.Machine

theorem run_next (f : State → State) (s : State) : run f s = .next (f s) := rfl

end Sys2Proof.Machine
end

section
/-! PROOFS. The statements of ordering and visibility: the commands of attach ports, walkers, inbound requests and OEBs. -/

namespace Sys2Proof.Machine

/-- Settles O15: each command of an OEB is its operation and no gate stands before it; a flit slot belongs to a link end,
where the condition given with it opens the gate of an OX9 end. -/
theorem endpointCommandsAct : Obligations.EndpointCommandsAct := by
  intro s
  exact ⟨fun side => run_next _ s, fun side x => run_next _ s, fun side x => run_next _ s,
    fun e sram h => liveAt_awake _ h, fun side d => run_next _ s, fun side d => run_next _ s, fun side d => run_next _ s,
    fun side d => run_next _ s, fun side d => run_next _ s, fun side d => run_next _ s, fun side d => run_next _ s,
    fun ctx atag => run_next _ s, fun side d => run_next _ s, fun side ctx atag => run_next _ s,
    fun side d => run_next _ s, fun side d => run_next _ s, fun side d => run_next _ s, fun side d => run_next _ s,
    fun side d => run_next _ s, fun side d => run_next _ s, fun side => run_next _ s, fun side => run_next _ s,
    fun side tag => run_next _ s, fun side tag => run_next _ s, fun side q pkt bad => run_next _ s,
    fun side q pkt bad => run_next _ s, fun side mtag status data => run_next _ s, fun side mtag => run_next _ s,
    fun side q pkt bad => run_next _ s, fun side drain => run_next _ s, fun side drain asid => run_next _ s,
    fun side drain asid npages => run_next _ s, fun side drain npages => run_next _ s, fun side drain apt => run_next _ s,
    fun side => run_next _ s, fun side => run_next _ s, fun side pkt bad => run_next _ s, fun side pkt bad => run_next _ s,
    fun side pkt bad => run_next _ s, fun side strap => run_next _ s⟩

end Sys2Proof.Machine
end

section
/-! SUPPORT. A directory bank and its lines after a write of either, and a cycle that brings one request (R86, R91, R92). -/

namespace Sys2Proof.Machine

/-! ### Banks and lines (R86) -/

theorem cwBank_setCwBank (b j : Nat) (x : CwBank) (s : State) :
    cwBank j (setCwBank b x s) = if j = b then x else cwBank j s := SMap.get_set ..

theorem cwBank_setCwBank_ne {b j : Nat} (x : CwBank) (s : State) (h : j ≠ b) : cwBank j (setCwBank b x s) = cwBank j s := by
  rw [cwBank_setCwBank, if_neg h]

@[simp] theorem cwBank_setCwBank_self (b : Nat) (x : CwBank) (s : State) : cwBank b (setCwBank b x s) = x := by
  rw [cwBank_setCwBank, if_pos rfl]

/-- An entry found for an address stands at the address of its line. -/
theorem addr_of_cwLine {b a : Nat} {s : State} {l : CwLine} (h : cwLine b a s = some l) : l.addr = lineAddr a := by
  simpa using List.find?_some h

theorem cwBank_setLine_ne {b j : Nat} (l : CwLine) (s : State) (h : j ≠ b) : cwBank j (setLine b l s) = cwBank j s :=
  cwBank_setCwBank_ne _ s h

@[simp] theorem queue_setLine (b : Nat) (l : CwLine) (s : State) : (cwBank b (setLine b l s)).queue = (cwBank b s).queue := by
  simp [setLine]

@[simp] theorem setLine_out (b : Nat) (l : CwLine) (s : State) : (setLine b l s).out = s.out := rfl
@[simp] theorem setLine_ox (b : Nat) (l : CwLine) (s : State) : (setLine b l s).ox = s.ox := rfl

/-- An entry set is found at its address, marked as the one used last. -/
theorem cwLine_setLine_self {b a : Nat} {l : CwLine} (s : State) (h : l.addr = lineAddr a) :
    cwLine b a (setLine b l s) = some { l with used := (cwBank b s).clock + 1 } := by
  have hnone : ((cwBank b s).lines.filter fun y => y.addr ≠ l.addr).find? (fun y => decide (y.addr = lineAddr a)) = none := by
    simp [List.find?_eq_none, h]
  simp only [cwLine, setLine, cwBank_setCwBank_self, List.find?_append, hnone, Option.none_or]
  simp [h]

/-- Every other line of the bank is found as before. -/
theorem cwLine_setLine_ne {b a : Nat} {l : CwLine} (s : State) (h : lineAddr a ≠ l.addr) :
    cwLine b a (setLine b l s) = cwLine b a s := by
  have hkept : (fun y : CwLine => decide (decide (y.addr ≠ l.addr) = true ∧ decide (y.addr = lineAddr a) = true)) =
      fun y => decide (y.addr = lineAddr a) := by
    funext y
    exact decide_eq_decide.2 (by simpa using fun e => e ▸ h)
  simp only [cwLine, setLine, cwBank_setCwBank_self, List.find?_append, List.find?_filter, hkept]
  simp [h.symm]

/-! ### An INV_ACK that is not the last (R89) -/

/-- A line once the INV_ACK of member `m` has come. -/
def CwLine.acked (m : Nat) (l : CwLine) : CwLine :=
  { l with acks := l.acks.filter (· ≠ m), sharers := l.sharers.filter (· ≠ m) }

/-- While another member's INV_ACK is awaited, one only takes its member out of the line. -/
theorem cwInvAck_of_other {b m : Nat} {l : CwLine} (s : State) (h : ∃ k ∈ l.acks, k ≠ m) :
    cwInvAck b l m s = setLine b (l.acked m) s := by
  obtain ⟨k, hk, hne⟩ := h
  have hmem : k ∈ (l.acked m).acks := by simpa [CwLine.acked] using ⟨hk, hne⟩
  exact if_neg fun he => List.ne_nil_of_mem hmem (List.isEmpty_iff.1 he)

/-- A COH_ACK of kind INV_ACK from a member that the line awaits is that member's INV_ACK. -/
theorem cohAckAtBank_of_awaited {pk : Packet} {l : CwLine} {m : Nat} {s : State} (hop : pk.hdr.opcode.toNat = opACK)
    (hkind : bits pk.hdr.subop.toNat 0 2 = 0) (hl : cwLine (bankOfAddr pk.hdr.addr) pk.hdr.addr s = some l)
    (hst : l.st = .bInv) (hm : senderOf pk.hdr s = some m) (hack : m ∈ l.acks) :
    cohAckAtBank pk s = cwInvAck (bankOfAddr pk.hdr.addr) l m s := by
  simp [cohAckAtBank, hop, hkind, hl, hst, hm, hack]

/-- An INV_ACK from one of several awaited members takes it out of the line and leaves the rest as it was (R89). -/
theorem exec_cohAckAtBank_of_several {pk : Packet} {l : CwLine} {m : Nat} {s : State} (hs : halted s = false)
    (hop : pk.hdr.opcode.toNat = opACK) (hkind : bits pk.hdr.subop.toNat 0 2 = 0)
    (hl : cwLine (bankOfAddr pk.hdr.addr) pk.hdr.addr s = some l) (hst : l.st = .bInv) (hm : senderOf pk.hdr s = some m)
    (hack : m ∈ l.acks) (hother : ∃ k ∈ l.acks, k ≠ m) :
    exec (.cohAckAtBank pk) s = .next (setLine (bankOfAddr pk.hdr.addr) (l.acked m) s) := by
  rw [← cwInvAck_of_other s hother, ← cohAckAtBank_of_awaited hop hkind hl hst hm hack]
  exact live_awake _ hs

/-! ### A request behind another of its line (R92) -/

theorem cwRequestAt_of_waiting {b : Nat} {pk : Packet} {s : State}
    (h : ∃ q ∈ (cwBank b s).queue, lineAddr q.hdr.addr = lineAddr pk.hdr.addr) : cwRequestAt b pk s = cwQueue b pk s :=
  if_pos (by simpa using h)

/-! ### A cycle that brings one request (R91) -/

theorem bankOfAddr_lt (a : Nat) : bankOfAddr a < 16 :=
  Nat.xor_lt_two_pow (n := 4) (bits_lt _ _ _) (bits_lt _ _ _)

/-- A request is no answer: a cycle takes it last. -/
theorem cwRank_of_bankRequest {pk : Packet} (s : State) (h : bankRequest pk.hdr.opcode.toNat = true) : cwRank s pk = 2 := by
  simp [cwRank, h]

/-- What no single arrival touches, the arrivals of a cycle leave as it was. -/
theorem cwArrive_frame {α : Type} (g : State → α) (hg : ∀ k s, g (hasCome k s) = g s) (pks : List Packet) (s : State) :
    g (cwArrive pks s) = g s := by
  induction pks generalizing s with
  | nil => rfl
  | cons pk pks ih =>
    refine (ih _).trans ?_
    dsimp only
    split
    · exact hg _ s
    · rfl

/-- A walk over the numbers below `n` that acts at `k` alone acts once. -/
theorem foldl_range_at {α : Type} (f : α → α) (k n : Nat) (x : α) :
    (List.range n).foldl (fun y i => if i = k then f y else y) x = if k < n then f x else x := by
  induction n with
  | zero => rfl
  | succ n ih =>
    rw [List.range_succ, List.foldl_append, ih]
    rcases Nat.lt_trichotomy k n with h | rfl | h
    · simp [h, h.ne', Nat.lt_succ_of_lt h]
    · simp
    · simp [h.ne, Nat.not_lt.2 h.le, Nat.not_lt.2 (Nat.succ_le_of_lt h)]

/-- Lists laid end to end over the numbers below `n`, all empty but the one at `k`, are that one. -/
theorem flatten_range_at {α : Type} (xs : List α) (k n : Nat) :
    ((List.range n).map fun i => if k = i then xs else []).flatten = if k < n then xs else [] := by
  induction n with
  | zero => rfl
  | succ n ih =>
    rw [List.range_succ, List.map_append, List.flatten_append, ih]
    rcases Nat.lt_trichotomy k n with h | rfl | h
    · simp [h, h.ne, Nat.lt_succ_of_lt h]
    · simp
    · simp [h.ne', Nat.not_lt.2 h.le, Nat.not_lt.2 (Nat.succ_le_of_lt h)]

/-- One request has its turn at some distance from the pointer, wherever that stands. -/
theorem cwOrder_singleton (b : Nat) (pk : Packet) (s : State) : cwOrder b [pk] s = [pk] := by
  have hturn : cwTurn b pk.hdr s < 64 := Nat.mod_lt _ (by decide)
  simp [cwOrder, List.filter_singleton, Bool.cond_decide, flatten_range_at, hturn]

/-- A cycle that brings one request brings it to the bank of its address. -/
theorem cwBankCycle_singleton {pk : Packet} (s : State) (h : bankRequest pk.hdr.opcode.toNat = true) :
    cwBankCycle [pk] s = cwRequestAt (bankOfAddr pk.hdr.addr) pk (cwArrive [pk] s) := by
  have hbank : ∀ (t u : State) (b : Nat), (cwOrder b ([pk].filter fun q => bankOfAddr q.hdr.addr = b) u).foldl
      (fun s q => cwRequestAt b q s) t =
        if b = bankOfAddr pk.hdr.addr then cwRequestAt (bankOfAddr pk.hdr.addr) pk t else t := by
    intro t u b
    split
    · next hb => subst hb; simp [cwOrder_singleton]
    · next hb => simp [Ne.symm hb, cwOrder]
  simp [cwBankCycle, cwRank_of_bankRequest _ h, hbank, foldl_range_at, bankOfAddr_lt]

/-! ### A member's time to answer (R98) -/

/-- Before its time to answer has passed, a member is not taken as silent (R98). -/
theorem cwAckTimeout_of_early {b a m : Nat} {l : CwLine} {s : State} (hl : cwLine b a s = some l)
    (h : ft s < l.since + 2500 * gx CW_CTRL.ACK_TIMEOUT 0 s) : cwAckTimeout b a m s = s := by
  simp [cwAckTimeout, hl, h]

end Sys2Proof.Machine
end

section
/-! PROOFS. The statements of the common window: the commands of the directory banks. -/

namespace Sys2Proof.Machine

/-- Settles O17: each command is its operation behind the gate of the OX9; one INV_ACK of several is the line set without its
member, a request behind another of its line is the queue made longer, and an early time-out is no change. -/
theorem directoryCommandsAct : Obligations.DirectoryCommandsAct := by
  intro s
  refine ⟨fun pks h => live_awake _ h, fun pk h => live_awake _ h, fun pk h => live_awake _ h, fun pk h => live_awake _ h,
    fun bank line member h => live_awake _ h, ?_, ?_, ?_⟩
  · intro pk l m b hs hop hkind hl hst hm hack hother
    have haddr : l.addr = lineAddr pk.hdr.addr := addr_of_cwLine hl
    exact ⟨_, _, exec_cohAckAtBank_of_several hs hop hkind hl hst hm hack hother, cwLine_setLine_self s haddr, hst, rfl, rfl, rfl,
      queue_setLine .., fun a ha => cwLine_setLine_ne s (haddr ▸ ha), fun j hj => cwBank_setLine_ne _ s hj, setLine_out ..,
      setLine_ox ..⟩
  · intro pk b hs hreq hwait
    have hcw : (cwArrive [pk] s).cw = s.cw := cwArrive_frame State.cw (fun _ _ => rfl) _ s
    have hbank : ∀ j, cwBank j (cwArrive [pk] s) = cwBank j s := fun j => by rw [cwBank, hcw]; rfl
    have hexec : exec (.cwBankRequest [pk]) s = .next (cwQueue b pk (cwArrive [pk] s)) := by
      rw [← cwRequestAt_of_waiting (by rwa [hbank]), ← cwBankCycle_singleton s hreq]
      exact live_awake _ hs
    refine ⟨_, hexec, ?_, fun j hj => ?_, ?_, ?_⟩
    · rw [cwQueue, cwBank_setCwBank_self, hbank]
    · rw [cwQueue, cwBank_setCwBank_ne _ _ hj, hbank]
    · exact cwArrive_frame State.out (fun _ _ => rfl) _ s
    · exact cwArrive_frame State.ox (fun _ _ => rfl) _ s
  · intro bank line member l hs hl hearly
    have hexec : exec (.cwAckTimeout bank line member) s = .next (cwAckTimeout bank.val line member.val s) := live_awake _ hs
    rw [hexec, cwAckTimeout_of_early hl hearly]

end Sys2Proof.Machine
end

section
/-! SUPPORT. A line received at a link end, an insert with a body, and a unit's rate entries after an echo or a quiet time
(R144, R145, R295). -/

namespace Sys2Proof.Machine

/-! ### A line received -/

section
variable (e : LinkEnd) (line : Line) (s : State)

/-- Receiving a line sets the progress of its link end, where the running disparities stand, and nothing else (R289). -/
theorem receive_snd_eq_setAux : ∃ x, (receive e line s).2 = setAux (linkKey e) x s := by
  unfold receive
  dsimp only
  split <;> exact ⟨_, rfl⟩

theorem receive_snd_with_links : { (receive e line s).2 with links := s.links } = s := by
  obtain ⟨x, hx⟩ := receive_snd_eq_setAux e line s
  rw [hx]
  rfl

@[simp] theorem receive_snd_unit (v : UnitId) : (receive e line s).2.unit v = s.unit v := by
  obtain ⟨x, hx⟩ := receive_snd_eq_setAux e line s
  rw [hx, setAux_unit]

@[simp] theorem receive_snd_rates : (receive e line s).2.rates = s.rates := by
  obtain ⟨x, hx⟩ := receive_snd_eq_setAux e line s
  rw [hx, setAux_rates]

@[simp] theorem ratesOf_receive_snd (u : RateUnit) : ratesOf u (receive e line s).2 = ratesOf u s := by
  simp [ratesOf]

@[simp] theorem locOf_receive_snd (v : UnitId) : locOf v (receive e line s).2 = locOf v s := by
  simp [locOf]

@[simp] theorem linkWidth_oeb_receive_snd (side : Side) (q : OPort) :
    linkWidth (.oeb side q) (receive e line s).2 = linkWidth (.oeb side q) s := by
  simp [linkWidth, gf_of_unit (receive_snd_unit e line s (.oeb side))]

end

/-! ### An insert with a body -/

theorem insertIn_of_voted {e : LinkEnd} {k : Special} {line : Line} {s : State} (f : List RxGroup → State → State)
    (hst : (getLink (linkKey e) s).st = 6)
    (hv : voted (linkWidth e s) (slotAt (linkWidth e s) (receive e line s).1 0) = some k) (hk : usedInActive k = true) :
    insertIn e k line f s = f (receive e line s).1 (receive e line s).2 := by
  simp [insertIn, atBoundary, hst, hv, hk]

section
variable {e : LinkEnd} {n : Nat} {gs : List RxGroup} {s : State}

theorem bodied_of_sound {body : List Byte} (hbody : rxBody (linkWidth e s) n gs = some body)
    (hcrc : crc8 (body.take (n - 1)) = nth (body.map (·.toNat)) (n - 1)) : bodied e n gs s = some body := by
  simp [bodied, hbody, hcrc]

theorem bodied_of_erasure (hbody : rxBody (linkWidth e s) n gs = none) : bodied e n gs s = none := by
  simp [bodied, hbody]

end

section
variable {side : Side} {q : OPort} {line : Line} {s : State}
  (hst : (getLink (linkKey (.oeb side q)) s).st = 6)
  (hv : voted (linkWidth (.oeb side q) s) (slotAt (linkWidth (.oeb side q) s) (receive (.oeb side q) line s).1 0) = some .echo)
include hst hv

/-- A sound echo is applied to the rate entries of its OEB. -/
theorem echoRx_oeb_of_sound {body : List Byte}
    (hbody : rxBody (linkWidth (.oeb side q) s) 4 (receive (.oeb side q) line s).1 = some body)
    (hcrc : crc8 (body.take 3) = nth (body.map (·.toNat)) 3) :
    echoRx (.oeb side q line) s = echoBody (.oeb side) body (receive (.oeb side q) line s).2 := by
  rw [← linkWidth_oeb_receive_snd (.oeb side q) line s] at hbody
  rw [echoRx, insertIn_of_voted _ hst hv rfl, bodied_of_sound hbody hcrc]

/-- An echo with an erasure is counted. -/
theorem echoRx_oeb_of_erasure
    (hbody : rxBody (linkWidth (.oeb side q) s) 4 (receive (.oeb side q) line s).1 = none) :
    echoRx (.oeb side q line) s = countO side .echoRxBad (receive (.oeb side q) line s).2 := by
  rw [← linkWidth_oeb_receive_snd (.oeb side q) line s] at hbody
  rw [echoRx, insertIn_of_voted _ hst hv rfl, bodied_of_erasure hbody]

end

/-! ### The rate entries of a unit -/

theorem rateKey_inj {u v : RateUnit} (h : rateKey u = rateKey v) : u = v := by
  match u, v with
  | .oeb _, .oeb _ => exact congrArg _ (Fin.ext h)
  | .skipper _, .skipper _ => exact congrArg _ (Fin.ext (Nat.add_left_cancel h))
  | .oeb a, .skipper b => exact absurd (show a.val = 2 + b.val from h) (by omega)
  | .skipper a, .oeb b => exact absurd (show 2 + a.val = b.val from h) (by omega)

@[simp] theorem ratesOf_setRates_self (u : RateUnit) (l : List RateEnt) (s : State) : ratesOf u (setRates u l s) = l :=
  SMap.get_set_self ..

theorem ratesOf_setRates_ne {u v : RateUnit} (l : List RateEnt) (s : State) (h : v ≠ u) :
    ratesOf v (setRates u l s) = ratesOf v s :=
  SMap.get_set_ne _ _ _ fun hkey => h (rateKey_inj hkey)

/-- An echo sets at most the rate entries of its unit. -/
theorem applyEcho_cases (u : RateUnit) (dst vc lvl : Nat) (s : State) :
    applyEcho u dst vc lvl s = s ∨ ∃ l, applyEcho u dst vc lvl s = setRates u l s := by
  unfold applyEcho
  dsimp only
  split
  · split
    · exact .inl rfl
    · exact .inr ⟨_, rfl⟩
  · exact .inr ⟨_, rfl⟩

theorem applyEcho_with_rates (u : RateUnit) (dst vc lvl : Nat) (s : State) :
    { applyEcho u dst vc lvl s with rates := s.rates } = s := by
  obtain h | ⟨l, h⟩ := applyEcho_cases u dst vc lvl s
  · rw [h]
  · rw [h]; rfl

theorem ratesOf_applyEcho_ne {u v : RateUnit} (dst vc lvl : Nat) (s : State) (hv : v ≠ u) :
    ratesOf v (applyEcho u dst vc lvl s) = ratesOf v s := by
  obtain h | ⟨l, h⟩ := applyEcho_cases u dst vc lvl s
  · rw [h]
  · rw [h, ratesOf_setRates_ne l s hv]

/-- A table with room takes an entry for a pair it does not hold: it starts from 256 and is lowered (R144). -/
theorem applyEcho_of_absent {u : RateUnit} {dst vc : Nat} {s : State} (lvl : Nat)
    (habsent : ∀ y ∈ ratesOf u s, ¬(y.dst = dst ∧ y.vc = vc)) (hroom : (ratesOf u s).length < 1024) :
    applyEcho u dst vc lvl s = setRates u (ratesOf u s ++ [⟨dst, vc, lowerRate 256 lvl, rateFt u s, lvl⟩]) s := by
  have hfind : (ratesOf u s).find? (fun y => y.dst == dst && y.vc == vc) = none := by simpa using habsent
  simp [applyEcho, hfind, Nat.not_le.2 hroom]

/-- Replacing every copy of an element that stands once in a list replaces it where it stands. -/
theorem map_replace_of_once {α : Type} [DecidableEq α] {pre post : List α} {x : α} (z : α) (h : x ∉ pre ++ post) :
    (pre ++ x :: post).map (fun y => if y = x then z else y) = pre ++ z :: post := by
  have hid : ∀ l : List α, x ∉ l → l.map (fun y => if y = x then z else y) = l := fun l hl =>
    (List.map_congr_left fun y hy => if_neg (ne_of_mem_of_not_mem hy hl)).trans l.map_id
  rw [List.mem_append, not_or] at h
  rw [List.map_append, List.map_cons, if_pos rfl, hid pre h.1, hid post h.2]

section
variable {u : RateUnit} {dst vc : Nat} {s : State} {pre post : List RateEnt} {x : RateEnt}
  (hl : ratesOf u s = pre ++ x :: post) (hdst : x.dst = dst) (hvc : x.vc = vc)
  (honce : ∀ y ∈ pre ++ post, ¬(y.dst = dst ∧ y.vc = vc))
include hl hdst hvc honce

/-- The entry looked up for a pair is the one held for it. -/
theorem find?_pair_of_held : (ratesOf u s).find? (fun y => y.dst == dst && y.vc == vc) = some x := by
  have hpre : pre.find? (fun y => y.dst == dst && y.vc == vc) = none := by
    simpa using fun y hy => honce y (List.mem_append_left _ hy)
  simp [hl, hpre, hdst, hvc]

/-- While its 2 us run, an entry withholds an echo of a level no higher than its last (R144). -/
theorem applyEcho_of_withheld {lvl : Nat} (h : rateFt u s < x.lastFt + 5000 ∧ lvl ≤ x.lastLevel) :
    applyEcho u dst vc lvl s = s := by
  simp [applyEcho, find?_pair_of_held hl hdst hvc honce, h]

/-- Any other echo lowers the entry of its pair in its place, and its 2 us start again (R144). -/
theorem applyEcho_of_held {lvl : Nat} (h : ¬(rateFt u s < x.lastFt + 5000 ∧ lvl ≤ x.lastLevel)) :
    applyEcho u dst vc lvl s = setRates u (pre ++ ⟨dst, vc, lowerRate x.r lvl, rateFt u s, lvl⟩ :: post) s := by
  have hnot : x ∉ pre ++ post := fun hx => honce x hx ⟨hdst, hvc⟩
  simp only [applyEcho, find?_pair_of_held hl hdst hvc honce, Bool.and_eq_true, decide_eq_true_eq, h, if_false]
  rw [hl, map_replace_of_once _ hnot, hdst, hvc]

/-- A quiet 4 us raises the entry of the pair in its place, and frees it where it reaches 256 (R145). -/
theorem rateRecover_of_held : rateRecover u dst vc s =
    setRates u (if 256 ≤ x.r + 8 then pre ++ post else pre ++ { x with r := x.r + 8 } :: post) s := by
  have hnot : x ∉ pre ++ post := fun hx => honce x hx ⟨hdst, hvc⟩
  simp only [rateRecover, find?_pair_of_held hl hdst hvc honce, ge_iff_le]
  split
  · rw [hl, List.erase_append_right _ fun hx => hnot (List.mem_append_left _ hx), List.erase_cons_head]
  · rw [hl, map_replace_of_once _ hnot]

end

end Sys2Proof.Machine
end

section
/-! PROOFS. The statements of paths, credits and shaping: echoes and the rates they lower. -/

namespace Sys2Proof.Machine

/-- Settles O54: a sound echo is `applyEcho` after the line is received, one with an erasure a count. The table has room for the
pair, or holds it once, and there the echo is withheld or lowers the entry; a quiet time raises or frees it. -/
theorem echoLowersAndQuietRaisesRate : Obligations.EchoLowersAndQuietRaisesRate := by
  refine ⟨fun side q line s => ⟨receive_snd_with_links .., fun hst hv => ⟨?_, fun hbody => ?_⟩⟩, ?_⟩
  · rintro body dst vc lvl hbody hcrc hdst hvc hlvl -
    have hloc : rateFt (.oeb side) (receive (.oeb side q) line s).2 = locOf (.oeb side) s := locOf_receive_snd ..
    have hrates := ratesOf_receive_snd (.oeb side q) line s
    have hexec : exec (.echoRx (.oeb side q line)) s =
        .next (applyEcho (.oeb side) dst vc lvl (receive (.oeb side q) line s).2) := by
      rw [hdst, hvc, hlvl]
      exact congrArg _ (echoRx_oeb_of_sound hst hv hbody hcrc)
    refine ⟨_, hexec, applyEcho_with_rates .., fun v hv => (ratesOf_applyEcho_ne _ _ _ _ hv).trans (hrates v), ?_, ?_⟩
    · intro habsent hroom
      rw [← hrates] at habsent hroom
      rw [applyEcho_of_absent lvl habsent hroom, ratesOf_setRates_self, hrates, hloc]
      rfl
    · intro pre post x hl hx hxv honce
      rw [← hrates] at hl
      rw [← hloc]
      refine ⟨applyEcho_of_withheld hl hx hxv honce, fun h => ?_⟩
      rw [applyEcho_of_held hl hx hxv honce h, ratesOf_setRates_self]
      rfl
  · exact congrArg _ (echoRx_oeb_of_erasure hst hv hbody)
  · intro side dst vc pre post x s hl hdst hvc honce
    have hexec : exec (.rateRecovery (.oeb side) dst vc) s = .next (rateRecover (.oeb side) dst.toNat vc.val s) := run_next _ s
    rw [rateRecover_of_held hl hdst hvc honce] at hexec
    exact ⟨_, hexec, rfl, ratesOf_setRates_self ..⟩

end Sys2Proof.Machine
end

section
/-! PROOFS. The statements of the Luna engine: the commands of contributions, tasks, verification and contexts. -/

namespace Sys2Proof.Machine

/-- Settles O18: each command is its operation behind the gate of the OX9, which an OX9 that does not stand still opens. -/
theorem lunaEngineCommandsAct : Obligations.LunaEngineCommandsAct := by
  intro s
  exact ⟨fun die pkt h => live_awake _ h, fun die id slot h => live_awake _ h,
    fun die id slot bytes sram h => live_awake _ h, fun die id slot bad trailer h => live_awake _ h,
    fun core h => live_awake _ h, fun die comm h => live_awake _ h, fun die rec h => live_awake _ h,
    fun die id h => live_awake _ h, fun core row h => live_awake _ h, fun core h => live_awake _ h,
    fun die comm h => live_awake _ h, fun die comm h => live_awake _ h⟩

end Sys2Proof.Machine
end

section
/-! SUPPORT. Reduction arithmetic: two's complement readings, the exact partial and its sums, the magnitudes that a format
decodes to, the fields that a rounding gives (chapter 8). -/

namespace Sys2Proof

/-! ### Two's complement -/

/-- The sign bit of `w` bits is the upper half of their range. -/
theorem bits_top_eq_one (w n : Nat) : bits n w 1 = 1 ↔ 2 ^ w ≤ n % 2 ^ (w + 1) := by
  have hlow : n % 2 ^ w < 2 ^ w := Nat.mod_lt _ (Nat.two_pow_pos w)
  rw [bits, Nat.shiftRight_eq_div_pow, pow_one, Nat.mod_pow_succ]
  obtain h | h := Nat.mod_two_eq_zero_or_one (n / 2 ^ w) <;> rw [h] <;> omega

theorem signed_succ_eq_bmod (w n : Nat) : signed (w + 1) n = (n : Int).bmod (2 ^ (w + 1)) := by
  have hhalf : (2 : Nat) ^ (w + 1) = 2 * 2 ^ w := Nat.pow_succ'
  rw [signed, Nat.add_sub_cancel, Int.bmod, ← Int.natCast_mod]
  simp only [bits_top_eq_one]
  split <;> split <;> omega

theorem signed_unsigned {w : Nat} {z : Int} (hlo : -2 ^ w ≤ z) (hhi : z < 2 ^ w) :
    signed (w + 1) (unsigned (w + 1) z) = z := by
  have hhalf : (2 : Nat) ^ (w + 1) = 2 * 2 ^ w := Nat.pow_succ'
  have hcast : ((2 ^ w : Nat) : Int) = 2 ^ w := Int.natCast_pow 2 w
  have hmod : ((unsigned (w + 1) z : Nat) : Int) = z % (2 ^ (w + 1) : Nat) :=
    Int.toNat_of_nonneg (Int.emod_nonneg _ (by have := Nat.two_pow_pos w; omega))
  rw [signed_succ_eq_bmod, hmod, Int.emod_bmod]
  exact Int.bmod_eq_of_le (by omega) (by omega)

theorem unsigned_signed (w n : Nat) : unsigned (w + 1) (signed (w + 1) n) = n % 2 ^ (w + 1) := by
  rw [signed_succ_eq_bmod, unsigned, Int.bmod_emod, ← Int.natCast_mod, Int.toNat_natCast]

theorem natAbs_signed_le (w n : Nat) : (signed (w + 1) n).natAbs ≤ 2 ^ w := by
  have hhalf : (2 : Nat) ^ (w + 1) = 2 * 2 ^ w := Nat.pow_succ'
  have hpos := Nat.two_pow_pos (w + 1)
  have hlo := Int.le_bmod (x := n) hpos
  have hhi := Int.bmod_lt (x := n) hpos
  rw [signed_succ_eq_bmod]
  omega

/-! ### The layout of a partial (Table 8-4) -/

/-- A partial whose parts lie in the fields of Table 8-4. -/
def Partial.Fits (p : Partial) : Prop :=
  -(2 ^ 317) ≤ p.fix ∧ p.fix < 2 ^ 317 ∧ p.nan < 2 ^ 12 ∧ p.pinf < 2 ^ 11 ∧ p.ninf < 2 ^ 11

/-- The fields of a partial with their widths, the lowest first (Table 8-4). -/
def Partial.fields (p : Partial) : List (Nat × Nat) :=
  [(318, unsigned 318 p.fix), (12, p.nan % 2 ^ 12), (11, p.pinf % 2 ^ 11), (11, p.ninf % 2 ^ 11)]

/-- The widths of the fields of a partial, the lowest first (Table 8-4). -/
def partialWidths : List Nat := [318, 12, 11, 11]

namespace Partial

theorem fields_widths (p : Partial) : p.fields.map Prod.fst = partialWidths := rfl

theorem fields_fit (p : Partial) : ∀ f ∈ p.fields, f.2 < 2 ^ f.1 := by
  simp only [fields, List.forall_mem_cons]
  exact ⟨unsigned_lt .., Nat.mod_lt _ (Nat.two_pow_pos 12), Nat.mod_lt _ (Nat.two_pow_pos 11),
    Nat.mod_lt _ (Nat.two_pow_pos 11), List.forall_mem_nil _⟩

theorem toNat_eq_packFields (p : Partial) : p.toNat = packFields p.fields := by
  have hpinf : (2 : Nat) ^ 330 = 2 ^ 318 * 2 ^ 12 := by rw [← Nat.pow_add]
  have hninf : (2 : Nat) ^ 341 = 2 ^ 318 * 2 ^ 12 * 2 ^ 11 := by rw [← Nat.pow_add, ← Nat.pow_add]
  simp only [toNat, fields, packFields, hpinf, hninf]
  generalize (2 : Nat) ^ 318 = x
  ring

theorem toNat_lt (p : Partial) : p.toNat < 2 ^ 352 := by
  rw [toNat_eq_packFields]
  exact packFields_lt _ p.fields_fit

theorem fieldsFrom_toNat (p : Partial) : fieldsFrom p.toNat 0 partialWidths = p.fields := by
  rw [toNat_eq_packFields, ← fields_widths, fieldsFrom_packFields _ p.fields_fit]

theorem fields_ofNat (n : Nat) : (ofNat n).fields = fieldsFrom n 0 partialWidths := by
  simp only [fields, ofNat, unsigned_signed, Nat.mod_eq_of_lt (bits_lt ..)]
  rfl

theorem toNat_ofNat {n : Nat} (h : n < 2 ^ 352) : (ofNat n).toNat = n :=
  calc (ofNat n).toNat = packFields (fieldsFrom n 0 partialWidths) := by rw [toNat_eq_packFields, fields_ofNat]
    _ = bits n 0 352 := packFields_fieldsFrom ..
    _ = n := bits_zero_of_lt h

/-- The four fields of a partial's integer hold FIX in two's complement and the counts. -/
theorem bits_toNat {p : Partial} (h : p.Fits) : bits p.toNat 0 318 = unsigned 318 p.fix ∧ bits p.toNat 318 12 = p.nan ∧
    bits p.toNat 330 11 = p.pinf ∧ bits p.toNat 341 11 = p.ninf := by
  obtain ⟨-, -, hnan, hpinf, hninf⟩ := h
  have hf := fieldsFrom_toNat p
  simp only [partialWidths, fieldsFrom, fields, List.cons.injEq, Prod.mk.injEq, true_and, and_true, Nat.mod_eq_of_lt hnan,
    Nat.mod_eq_of_lt hpinf, Nat.mod_eq_of_lt hninf] at hf
  exact hf

theorem signed_bits_toNat {p : Partial} (h : p.Fits) : signed 318 (bits p.toNat 0 318) = p.fix := by
  rw [(bits_toNat h).1]
  exact signed_unsigned h.1 h.2.1

theorem ofNat_toNat {p : Partial} (h : p.Fits) : ofNat p.toNat = p := by
  obtain ⟨hfix, hnan, hpinf, hninf⟩ := bits_toNat h
  have hs : signed 318 p.toNat = p.fix := by
    rw [← signed_bits_toNat h, signed_succ_eq_bmod, signed_succ_eq_bmod, bits, Nat.shiftRight_zero, Int.natCast_mod,
      Int.emod_bmod]
  rw [ofNat, hs, hnan, hpinf, hninf]

end Partial

/-! ### Partials in a payload (R179) -/

theorem length_partialBytes (p : Partial) : (Machine.partialBytes p).length = 44 := length_toLE ..

theorem ofLE_partialBytes (p : Partial) : ofLE (Machine.partialBytes p) = p.toNat := by
  rw [Machine.partialBytes, ofLE_toLE]
  exact Nat.mod_eq_of_lt p.toNat_lt

theorem widePartial_flatMap {ps : List Partial} {e : Nat} {p : Partial} (he : ps[e]? = some p) (hp : p.Fits) :
    Machine.widePartial (ps.flatMap Machine.partialBytes) e = p := by
  induction ps generalizing e with
  | nil => simp at he
  | cons q ps ih =>
    cases e with
    | zero =>
      obtain rfl : q = p := by simpa using he
      rw [Machine.widePartial, List.flatMap_cons, Nat.mul_zero, List.drop_zero, List.take_left' (length_partialBytes q),
        ofLE_partialBytes, Partial.ofNat_toNat hp]
    | succ e =>
      have hdrop : (Machine.partialBytes q ++ ps.flatMap Machine.partialBytes).drop (44 * (e + 1)) =
          (ps.flatMap Machine.partialBytes).drop (44 * e) := by
        rw [Nat.mul_succ, Nat.add_comm, ← List.drop_drop, List.drop_left' (length_partialBytes q)]
      rw [Machine.widePartial, List.flatMap_cons, hdrop]
      exact ih he

/-! ### Additions that keep FIX inside its range (R180) -/

theorem natCast_fixTop : ((2 ^ 317 - 1 : Nat) : Int) = fixTop := by decide +kernel

/-- An addend strictly inside the range of FIX: no end, which would hold FIX there (R181). -/
theorem inside_of_natAbs_lt {a : Int} (h : a.natAbs < 2 ^ 317 - 1) : -fixTop < a ∧ a < fixTop := by
  rw [← natCast_fixTop]
  omega

/-- FIX strictly inside its range takes the exact sum, where that lies in the range. -/
theorem fixAdd_eq_add {a d : Int} (ha : -fixTop < a ∧ a < fixTop) (hd : -fixTop < d ∧ d < fixTop)
    (h : -fixTop ≤ a + d ∧ a + d ≤ fixTop) : fixAdd a d = (a + d, false) := by
  have hend : (a = fixTop || a = -fixTop) = false := by simp; omega
  have htop : (d = fixTop || fixTop < a + d) = false := by simp; omega
  have hbot : (d = -fixTop || a + d < -fixTop) = false := by simp; omega
  simp only [fixAdd, hend, htop, hbot, Bool.false_eq_true, if_false]

/-- Adding 0 changes no FIX between its ends, the ends included. -/
theorem fixAdd_zero {a : Int} (h : -fixTop ≤ a ∧ a ≤ fixTop) : fixAdd a 0 = (a, false) := by
  by_cases hend : a = fixTop ∨ a = -fixTop
  · rw [fixAdd, if_pos (by simpa using hend)]
  · have hpos : (0 : Int) < fixTop := by decide +kernel
    rw [fixAdd_eq_add (by omega) (by omega) (by omega), Int.add_zero]

namespace Partial

theorem add_of_fixAdd {p q : Partial} {f : Int} {st : Bool} (h : fixAdd p.fix q.fix = (f, st)) :
    p.add q = (⟨f, min 4095 (p.nan + q.nan), min 2047 (p.pinf + q.pinf), min 2047 (p.ninf + q.ninf)⟩, st) := by
  rw [add, h]
  rfl

theorem sub_of_fixAdd {p q : Partial} {f : Int} {st : Bool} (h : fixAdd p.fix (-q.fix) = (f, st)) :
    p.sub q = (⟨f, if p.nan = 4095 then 4095 else p.nan - q.nan, if p.pinf = 2047 then 2047 else p.pinf - q.pinf,
      if p.ninf = 2047 then 2047 else p.ninf - q.ninf⟩, st) := by
  rw [sub, h, cntSub, cntSub, cntSub]
  split_ifs <;> simp only [*]

/-- A special adds 1 to its own count, held at its maximum, and nothing else, where FIX lies between its ends and no count is
past its maximum. -/
theorem add_ofVal_special {p : Partial} (hfix : -fixTop ≤ p.fix ∧ p.fix ≤ fixTop) (hnan : p.nan ≤ 4095) (hpinf : p.pinf ≤ 2047)
    (hninf : p.ninf ≤ 2047) :
    p.add (ofVal .nan) = ({ p with nan := min 4095 (p.nan + 1) }, false) ∧
      p.add (ofVal (.inf false)) = ({ p with pinf := min 2047 (p.pinf + 1) }, false) ∧
      p.add (ofVal (.inf true)) = ({ p with ninf := min 2047 (p.ninf + 1) }, false) := by
  have hzero := fixAdd_zero hfix
  refine ⟨?_, ?_, ?_⟩ <;> rw [add_of_fixAdd hzero] <;> simp [ofVal, hnan, hpinf, hninf]

/-- A removal gives back the partial that an addition started from, where nothing saturated. -/
theorem add_sub_cancel {p q : Partial} (hp : -fixTop < p.fix ∧ p.fix < fixTop) (hq : -fixTop < q.fix ∧ q.fix < fixTop)
    (hsum : -fixTop < p.fix + q.fix ∧ p.fix + q.fix < fixTop) (hnan : p.nan + q.nan < 4095) (hpinf : p.pinf + q.pinf < 2047)
    (hninf : p.ninf + q.ninf < 2047) : (p.add q).1.sub q = (p, false) := by
  rw [add_of_fixAdd (fixAdd_eq_add hp hq (by omega)), Nat.min_eq_right hnan.le, Nat.min_eq_right hpinf.le,
    Nat.min_eq_right hninf.le, sub_of_fixAdd (fixAdd_eq_add hsum (by omega) (by dsimp only; omega)), if_neg hnan.ne,
    if_neg hpinf.ne, if_neg hninf.ne]
  simp

theorem ofVal_fin (neg : Bool) (m : Nat) : ofVal (.fin neg m) = ⟨Val.toInt (.fin neg m), 0, 0, 0⟩ := rfl

end Partial

/-! ### The exact sum of a list of elements (R181) -/

/-- The partial that holds the exact sum of a list of elements: FIX their integer sum, each count the number of its specials,
held at its maximum. -/
def exactSum (l : List Val) : Partial :=
  ⟨(l.map Val.toInt).sum, min 4095 (l.count .nan), min 2047 (l.count (.inf false)), min 2047 (l.count (.inf true))⟩

theorem exactSum_perm {l l' : List Val} (h : l.Perm l') : exactSum l = exactSum l' := by
  rw [exactSum, exactSum, (h.map Val.toInt).sum_eq, h.count_eq, h.count_eq, h.count_eq]

theorem exactSum_nil : exactSum [] = partialId 0 := by decide +kernel

theorem exactSum_singleton : ∀ v : Val, exactSum [v] = Partial.ofVal v
  | .nan | .inf false | .inf true => by decide
  | .fin neg m => by simp [exactSum, Partial.ofVal_fin]

/-- At most 2^24 elements, none above the largest finite input (R181). -/
def WithinSumLimits (l : List Val) : Prop := l.length ≤ 2 ^ 24 ∧ ∀ v ∈ l, v.toInt.natAbs ≤ 57344 * 2 ^ 276

theorem WithinSumLimits.left {l l' : List Val} (h : WithinSumLimits (l ++ l')) : WithinSumLimits l :=
  ⟨by have := h.1; rw [List.length_append] at this; omega, fun v hv => h.2 v (List.mem_append_left l' hv)⟩

theorem WithinSumLimits.right {l l' : List Val} (h : WithinSumLimits (l ++ l')) : WithinSumLimits l' :=
  ⟨by have := h.1; rw [List.length_append] at this; omega, fun v hv => h.2 v (List.mem_append_right l hv)⟩

theorem natAbs_sum_le {l : List Int} {b : Nat} (h : ∀ z ∈ l, z.natAbs ≤ b) : l.sum.natAbs ≤ l.length * b := by
  induction l with
  | nil => simp
  | cons z l ih =>
    obtain ⟨hz, hl⟩ := List.forall_mem_cons.1 h
    have htri := Int.natAbs_add_le z l.sum
    rw [List.sum_cons, List.length_cons, Nat.succ_mul]
    have := ih hl
    omega

/-- 2^24 elements of the largest finite input stay inside FIX (R181). -/
theorem WithinSumLimits.inside {l : List Val} (h : WithinSumLimits l) :
    -fixTop < (exactSum l).fix ∧ (exactSum l).fix < fixTop := by
  obtain ⟨hlen, hval⟩ := h
  refine inside_of_natAbs_lt ?_
  calc (l.map Val.toInt).sum.natAbs ≤ (l.map Val.toInt).length * (57344 * 2 ^ 276) :=
        natAbs_sum_le (List.forall_mem_map.2 hval)
    _ ≤ 2 ^ 24 * (57344 * 2 ^ 276) := by
        rw [List.length_map]
        exact Nat.mul_le_mul_right _ hlen
    _ < 2 ^ 317 - 1 := by decide +kernel

theorem exactSum_add {l l' : List Val} (h : WithinSumLimits (l ++ l')) :
    (exactSum l).add (exactSum l') = (exactSum (l ++ l'), false) := by
  have hfix : (exactSum (l ++ l')).fix = (exactSum l).fix + (exactSum l').fix := by simp [exactSum]
  have hsum : -fixTop ≤ (exactSum l).fix + (exactSum l').fix ∧ (exactSum l).fix + (exactSum l').fix ≤ fixTop := by
    have := h.inside
    omega
  rw [Partial.add_of_fixAdd (fixAdd_eq_add h.left.inside h.right.inside hsum), ← hfix]
  simp only [exactSum, List.count_append, Prod.mk.injEq, Partial.mk.injEq, true_and, and_true]
  omega

namespace SumTree

/-- A tree of at most 2^24 elements gives their exact sum, and saturates nowhere. -/
theorem sum_eq_exactSum {t : SumTree} (h : WithinSumLimits t.leaves) : t.sum = exactSum t.leaves ∧ t.saturates = false := by
  induction t with
  | leaf v => exact ⟨(exactSum_singleton v).symm, rfl⟩
  | node a b iha ihb =>
    obtain ⟨ha, hasat⟩ := iha h.left
    obtain ⟨hb, hbsat⟩ := ihb h.right
    have hadd : a.sum.add b.sum = (exactSum (a.leaves ++ b.leaves), false) := by rw [ha, hb, exactSum_add h]
    exact ⟨congrArg Prod.fst hadd, by rw [saturates, hasat, hbsat, hadd]; rfl⟩

end SumTree

/-- Elements added one by one to the exact sum of others. -/
theorem foldl_add_exactSum {l l' : List Val} (h : WithinSumLimits (l ++ l')) :
    l'.foldl (fun p v => (p.add (Partial.ofVal v)).1) (exactSum l) = exactSum (l ++ l') := by
  induction l' generalizing l with
  | nil => rw [List.append_nil, List.foldl_nil]
  | cons v l' ih =>
    rw [List.append_cons] at h ⊢
    rw [List.foldl_cons, ← exactSum_singleton, exactSum_add h.left]
    exact ih h

/-! ### Magnitudes of a float format (R176 to R178) -/

/-- A format with at least two exponent bits and a mantissa bit, as every float format has (Tables 8-2, 8-3). -/
def FpFmt.Wide (f : FpFmt) : Prop := 2 ≤ f.eb ∧ 1 ≤ f.mb

theorem fpOf_wide : ∀ t, (fpOf t).Wide
  | 0 | 1 | 2 | 3 | 4 | 5 | 6 | 7 | 8 => ⟨by decide, by decide⟩
  | _ + 9 => ⟨le_refl 2, le_refl 1⟩

theorem FpFmt.top_le (f : FpFmt) : f.top ≤ (2 ^ (f.mb + 1) - 1) * 2 ^ (2 ^ f.eb - 2) := by
  rw [FpFmt.top]
  split
  · exact Nat.mul_le_mul_left _ (Nat.pow_le_pow_right (by decide) (by omega))
  · exact Nat.mul_le_mul_right _ (by omega)
  · exact le_rfl

namespace FpFmt.Wide
variable {f : FpFmt}

theorem four_le_two_pow_mb_succ (h : f.Wide) : 4 ≤ 2 ^ (f.mb + 1) :=
  Nat.pow_le_pow_right (n := 2) (by decide) (Nat.succ_le_succ h.2)

theorem four_le_two_pow_eb (h : f.Wide) : 4 ≤ 2 ^ f.eb := Nat.pow_le_pow_right (n := 2) (by decide) h.1

/-- The largest magnitudes of the IEEE formats, which keep the top exponent for their specials, stand below those of E4M3. -/
theorem full_le_e4m3_top (h : f.Wide) :
    (2 ^ (f.mb + 1) - 1) * 2 ^ (2 ^ f.eb - 3) ≤ (2 ^ (f.mb + 1) - 2) * 2 ^ (2 ^ f.eb - 2) := by
  have hm := h.four_le_two_pow_mb_succ
  have he : 2 ^ f.eb - 2 = 2 ^ f.eb - 3 + 1 := by have := h.four_le_two_pow_eb; omega
  rw [he, pow_succ' 2 (2 ^ f.eb - 3), ← Nat.mul_assoc]
  exact Nat.mul_le_mul_right _ (by omega)

theorem top_pos (h : f.Wide) : 0 < f.top := by
  have hm := h.four_le_two_pow_mb_succ
  rw [top]
  split <;> exact Nat.mul_pos (by omega) (Nat.two_pow_pos _)

theorem top_lt (h : f.Wide) : f.top < 2 ^ (f.mb + 2 ^ f.eb - 1) := by
  have he := h.four_le_two_pow_eb
  have hm := Nat.two_pow_pos (f.mb + 1)
  calc f.top ≤ (2 ^ (f.mb + 1) - 1) * 2 ^ (2 ^ f.eb - 2) := f.top_le
    _ < 2 ^ (f.mb + 1) * 2 ^ (2 ^ f.eb - 2) := Nat.mul_lt_mul_of_pos_right (by omega) (Nat.two_pow_pos _)
    _ = 2 ^ (f.mb + 2 ^ f.eb - 1) := by rw [← Nat.pow_add]; congr 1; omega

end FpFmt.Wide

/-- The magnitude of an exponent field and a mantissa field, in smallest subnormals (R176). -/
def fieldMag (mb e m : Nat) : Nat := if e = 0 then m else (2 ^ mb + m) * 2 ^ (e - 1)

theorem fieldMag_le {mb e m top : Nat} (hm : m < 2 ^ mb) (he : e ≤ top + 1) :
    fieldMag mb e m ≤ (2 ^ (mb + 1) - 1) * 2 ^ top := by
  have hmb : (2 : Nat) ^ (mb + 1) = 2 * 2 ^ mb := Nat.pow_succ'
  rw [fieldMag]
  split
  · calc m ≤ 2 ^ (mb + 1) - 1 := by omega
      _ ≤ _ := Nat.le_mul_of_pos_right _ (Nat.two_pow_pos top)
  · exact Nat.mul_le_mul (by omega) (Nat.pow_le_pow_right (by decide) (by omega))

/-- A finite value is a whole number of a format's smallest subnormals, and none is above the largest. -/
theorem decodeFp_fin {f : FpFmt} {x m : Nat} {neg : Bool} (hf : f.Wide) (h : decodeFp f x = .fin neg m) :
    ∃ k ≤ f.top, m = k * 2 ^ f.unit := by
  have hm : bits x 0 f.mb < 2 ^ f.mb := bits_lt ..
  have he : bits x f.mb f.eb < 2 ^ f.eb := bits_lt ..
  have heb := hf.four_le_two_pow_eb
  have hmb : (2 : Nat) ^ (f.mb + 1) = 2 * 2 ^ f.mb := Nat.pow_succ'
  refine ⟨fieldMag f.mb (bits x f.mb f.eb) (bits x 0 f.mb), ?_, ?_⟩
  · rw [FpFmt.top]
    cases hsp : f.sp with
    | ieee =>
      refine fieldMag_le hm ?_
      by_contra hlast
      have hall : bits x f.mb f.eb = 2 ^ f.eb - 1 := by omega
      by_cases hzero : bits x 0 f.mb = 0 <;> simp [decodeFp, hsp, hall, hzero] at h
    | e4m3 =>
      by_cases hlast : bits x f.mb f.eb = 2 ^ f.eb - 1
      · have hfull : bits x 0 f.mb ≠ 2 ^ f.mb - 1 := fun hfull => by simp [decodeFp, hsp, hlast, hfull] at h
        rw [fieldMag, hlast, if_neg (by omega), Nat.sub_sub]
        exact Nat.mul_le_mul_right _ (by omega)
      · exact (fieldMag_le hm (by omega)).trans hf.full_le_e4m3_top
    | none => exact fieldMag_le hm (by omega)
  · rw [decodeFp] at h
    split at h
    · split at h
      · split at h <;> cases h
      · cases h; rfl
    · split at h
      · cases h
      · cases h; rfl
    · cases h; rfl

@[simp] theorem natAbs_toInt_fin : ∀ (neg : Bool) (m : Nat), (Val.toInt (.fin neg m)).natAbs = m
  | false, m => Int.natAbs_natCast m
  | true, m => (Int.natAbs_neg m).trans (Int.natAbs_natCast m)

theorem decodeFp_natAbs_le (t x : Nat) : (decodeFp (fpOf t) x).toInt.natAbs ≤ (fpOf t).top * 2 ^ (fpOf t).unit := by
  cases h : decodeFp (fpOf t) x with
  | nan => exact Nat.zero_le _
  | inf neg => exact Nat.zero_le _
  | fin neg m =>
    obtain ⟨k, hk, rfl⟩ := decodeFp_fin (fpOf_wide t) h
    rw [natAbs_toInt_fin]
    exact Nat.mul_le_mul_right _ hk

theorem toInt_ofInt (z : Int) : (Val.ofInt z).toInt = z := by
  rw [Val.ofInt]
  by_cases h : z < 0
  · rw [decide_eq_true h, Val.toInt]
    omega
  · rw [decide_eq_false h, Val.toInt]
    omega

/-- The value of an MX element before its scale (R178). -/
def mxElement (t el : Nat) : Val := if t = 10 then Val.ofInt (signed 8 el * 2 ^ 143) else decodeFp (fpOf t) el

/-- No MX element is above the largest of E5M2, which is 57,344. -/
theorem mxElement_natAbs_le {t : Nat} (el : Nat) (h5 : 5 ≤ t) (h10 : t ≤ 10) :
    (mxElement t el).toInt.natAbs ≤ 57344 * 2 ^ 149 := by
  rw [mxElement]
  split
  · rw [toInt_ofInt, Int.natAbs_mul]
    calc (signed 8 el).natAbs * _ ≤ 2 ^ 7 * (2 ^ 143 : Int).natAbs := Nat.mul_le_mul_right _ (natAbs_signed_le ..)
      _ ≤ 57344 * 2 ^ 149 := by decide +kernel
  · have htop : ∀ t ≤ 10, 5 ≤ t → (fpOf t).top * 2 ^ (fpOf t).unit ≤ 57344 * 2 ^ 149 := by decide +kernel
    exact (decodeFp_natAbs_le t el).trans (htop t h10 h5)

theorem decodeMx_natAbs_le {t x : Nat} (el : Nat) (h5 : 5 ≤ t) (h10 : t ≤ 10) (hx : x < 2 ^ 8) :
    (decodeMx t el x).toInt.natAbs ≤ 57344 * 2 ^ 276 := by
  have hel := mxElement_natAbs_le el h5 h10
  have hscale : decodeMx t el x = if x = 0xFF then .nan else match mxElement t el with
    | .fin neg m => .fin neg (m * 2 ^ x / 2 ^ 127)
    | v => v := rfl
  rw [hscale]
  split
  · exact Nat.zero_le _
  · cases hv : mxElement t el with
    | nan => exact Nat.zero_le _
    | inf neg => exact Nat.zero_le _
    | fin neg m =>
      rw [hv, natAbs_toInt_fin] at hel
      rw [natAbs_toInt_fin]
      calc m * 2 ^ x / 2 ^ 127 ≤ 57344 * 2 ^ 149 * 2 ^ 254 / 2 ^ 127 :=
            Nat.div_le_div_right (Nat.mul_le_mul hel (Nat.pow_le_pow_right (by decide) (by omega)))
        _ = 57344 * 2 ^ 276 := by decide +kernel

/-- No finite lane of a float input is above 57,344 × 2^127 (R181). -/
theorem decodeLane_natAbs_le {t : Nat} (x : Nat) (h : t ≤ 10) : (decodeLane t x).toInt.natAbs ≤ 57344 * 2 ^ 276 := by
  rw [decodeLane, if_neg (by omega), if_neg (by omega)]
  by_cases h5 : 5 ≤ t
  · rw [if_pos (by simp [isMx, h5, h])]
    exact decodeMx_natAbs_le _ h5 h (bits_lt ..)
  · have htop : ∀ t < 5, (fpOf t).top * 2 ^ (fpOf t).unit ≤ 57344 * 2 ^ 276 := by decide +kernel
    rw [if_neg (by simp [isMx, h5])]
    exact (decodeFp_natAbs_le t x).trans (htop t (by omega))

/-- The smallest subnormal of an MX element, under the smallest scale, is a whole number of units (R178). -/
theorem le_unit_of_mx {t : Nat} (h5 : 5 ≤ t) (h9 : t ≤ 9) : 127 ≤ (fpOf t).unit := by
  interval_cases t <;> decide

theorem mx_scaled_mod {t el m : Nat} {neg : Bool} (x : Nat) (h5 : 5 ≤ t) (h9 : t ≤ 9)
    (h : decodeFp (fpOf t) el = .fin neg m) : m * 2 ^ x % 2 ^ 127 = 0 := by
  obtain ⟨k, -, rfl⟩ := decodeFp_fin (fpOf_wide t) h
  exact Nat.mod_eq_zero_of_dvd (((Nat.pow_dvd_pow 2 (le_unit_of_mx h5 h9)).mul_left k).mul_right _)

/-! ### The fields of a rounded magnitude (R186 to R191) -/

theorem dvd_roundGrid (rnd : Nat) (neg : Bool) (u q m : Nat) : q ∣ roundGrid rnd neg u q m := by
  rw [roundGrid]
  split
  · exact Nat.dvd_of_mod_eq_zero ‹_›
  · split <;> exact Nat.dvd_mul_left ..

/-- A magnitude that does not round to zero rounds to a smallest subnormal at least. -/
theorem le_roundGrid_quantumAt {rnd u mb q0 m : Nat} {neg : Bool} (h : roundGrid rnd neg u (quantumAt mb q0 m) m ≠ 0) :
    q0 ≤ roundGrid rnd neg u (quantumAt mb q0 m) m :=
  (Nat.le_max_left ..).trans (Nat.le_of_dvd (Nat.pos_of_ne_zero h) (dvd_roundGrid ..))

theorem encodeMag_pos {f : FpFmt} {q0 m : Nat} (hq : 0 < q0) (h : q0 ≤ m) : 0 < encodeMag f q0 m := by
  rw [encodeMag]
  dsimp only
  split
  · exact Nat.div_pos h hq
  · exact Nat.lt_of_lt_of_le (Nat.mul_pos (Nat.succ_pos _) (Nat.two_pow_pos _)) (Nat.le_add_right ..)

/-- The leading mantissa bits of a number, its highest bit among them. -/
theorem div_log2_lt {k mb : Nat} (h : 2 ^ mb ≤ k) : k / 2 ^ (Nat.log2 k - mb) < 2 ^ (mb + 1) := by
  have hk : k ≠ 0 := by have := Nat.two_pow_pos mb; omega
  have hlog : mb ≤ Nat.log2 k := (Nat.le_log2 hk).2 h
  rw [Nat.div_lt_iff_lt_mul (Nat.two_pow_pos _), ← Nat.pow_add, show mb + 1 + (Nat.log2 k - mb) = Nat.log2 k + 1 by omega]
  exact (Nat.log2_lt hk).1 (Nat.lt_succ_self _)

/-- The exponent and mantissa fields of a magnitude inside the format leave its sign bit alone. -/
theorem encodeMag_lt {f : FpFmt} {q0 m : Nat} (hf : f.Wide) (h : m / q0 ≤ f.top) : encodeMag f q0 m < 2 ^ (f.eb + f.mb) := by
  have hmb : (2 : Nat) ^ (f.mb + 1) = 2 * 2 ^ f.mb := Nat.pow_succ'
  have heb := hf.four_le_two_pow_eb
  rw [encodeMag, Nat.pow_add]
  dsimp only
  split
  · next hsub => exact hsub.trans_le (Nat.le_mul_of_pos_left _ (Nat.two_pow_pos _))
  · next hnorm =>
    have hmant := div_log2_lt (Nat.le_of_not_lt hnorm)
    have hk : m / q0 ≠ 0 := by have := Nat.two_pow_pos f.mb; omega
    have hexp : Nat.log2 (m / q0) < f.mb + 2 ^ f.eb - 1 := (Nat.log2_lt hk).2 (h.trans_lt hf.top_lt)
    calc (Nat.log2 (m / q0) - f.mb + 1) * 2 ^ f.mb + (m / q0 / 2 ^ (Nat.log2 (m / q0) - f.mb + 1 - 1) - 2 ^ f.mb)
        < (Nat.log2 (m / q0) - f.mb + 1) * 2 ^ f.mb + 2 ^ f.mb := by rw [Nat.add_sub_cancel]; have := Nat.two_pow_pos f.mb; omega
      _ = (Nat.log2 (m / q0) - f.mb + 2) * 2 ^ f.mb := by ring
      _ ≤ 2 ^ f.eb * 2 ^ f.mb := Nat.mul_le_mul_right _ (by omega)

/-! ### Results that are no negative zero (R186) -/

/-- An encoding whose `w` bits below the sign are 0 is all zero. -/
abbrev NoNegZero (w n : Nat) : Prop := n % 2 ^ w = 0 → n = 0

theorem noNegZero_zero (w : Nat) : NoNegZero w 0 := fun _ => rfl

theorem noNegZero_signBit_add {f : FpFmt} {b : Nat} (neg : Bool) (hpos : 0 < b) (hlt : b < 2 ^ (f.eb + f.mb)) :
    NoNegZero (f.eb + f.mb) (signBit f neg + b) := by
  intro h
  have hb : (signBit f neg + b) % 2 ^ (f.eb + f.mb) = b := by
    cases neg with
    | false => rw [signBit, if_neg (by decide), Nat.zero_add, Nat.mod_eq_of_lt hlt]
    | true => rw [signBit, if_pos rfl, Nat.add_mod_left, Nat.mod_eq_of_lt hlt]
  omega

/-- A magnitude of one smallest subnormal at least and inside the format gives no zero. -/
theorem noNegZero_encodeMag {f : FpFmt} {q0 r : Nat} (neg : Bool) (hf : f.Wide) (hq : 0 < q0) (hlo : q0 ≤ r)
    (hhi : r ≤ f.top * q0) : NoNegZero (f.eb + f.mb) (signBit f neg + encodeMag f q0 r) :=
  noNegZero_signBit_add neg (encodeMag_pos hq hlo) (encodeMag_lt hf (Nat.div_le_of_le_mul (by rwa [Nat.mul_comm] at hhi)))

theorem noNegZero_top {f : FpFmt} {q0 : Nat} (neg : Bool) (hf : f.Wide) (hq : 0 < q0) :
    NoNegZero (f.eb + f.mb) (signBit f neg + encodeMag f q0 (f.top * q0)) :=
  noNegZero_encodeMag neg hf hq (Nat.le_mul_of_pos_left q0 hf.top_pos) le_rfl

theorem roundFp_inf (t rnd u : Nat) (neg : Bool) : roundFp t rnd u (.inf neg) = (infBits t rnd neg, false) := rfl

/-- Only the two ranges of rounding modes tell infinities apart (R185). -/
theorem infBits_eq (t rnd : Nat) (neg : Bool) : infBits t rnd neg = infBits t (if rnd ≤ 5 then 0 else 6) neg := by
  by_cases h : rnd ≤ 5 <;> simp [infBits, h]

theorem noNegZero_infBits {t : Nat} (rnd : Nat) (neg : Bool) (h : t ≤ 6) :
    NoNegZero ((fpOf t).eb + (fpOf t).mb) (infBits t rnd neg) := by
  have hboth : ∀ t ≤ 6, ∀ rnd ∈ [0, 6], ∀ neg, NoNegZero ((fpOf t).eb + (fpOf t).mb) (infBits t rnd neg) := by decide
  rw [infBits_eq]
  exact hboth t h _ (by split <;> decide) neg

theorem noNegZero_canonNan : ∀ t ≤ 4, NoNegZero ((fpOf t).eb + (fpOf t).mb) (canonNan t) := by decide

/-- A scalar float result is no negative zero. -/
theorem noNegZero_roundFp {t : Nat} (rnd u : Nat) (v : Val) (h : t ≤ 4) :
    NoNegZero ((fpOf t).eb + (fpOf t).mb) (roundFp t rnd u v).1 := by
  have hq : 0 < 2 ^ (fpOf t).unit := Nat.two_pow_pos _
  cases v with
  | nan => exact noNegZero_canonNan t h
  | inf neg => exact noNegZero_infBits rnd neg (by omega)
  | fin neg m =>
    rw [roundFp]
    dsimp only
    split
    · exact noNegZero_zero _
    · split
      · split
        · exact noNegZero_infBits rnd neg (by omega)
        · exact noNegZero_top neg (fpOf_wide t) hq
      · next hover =>
        rw [Bool.or_eq_true, not_or, decide_eq_true_eq, Nat.not_lt] at hover
        split
        · exact noNegZero_zero _
        · next hr => exact noNegZero_encodeMag neg (fpOf_wide t) hq (le_roundGrid_quantumAt hr) hover.1

/-- An MXINT8 element holds a whole number, so -0 has no encoding, and -128 is none that a result takes. -/
theorem noNegZero_mxint8 {k : Nat} (neg : Bool) (h : k ≤ 127) : NoNegZero 7 (if neg then (256 - k) % 256 else k) := by
  cases neg <;> simp only [NoNegZero, if_true, Bool.false_eq_true, if_false] <;> omega

theorem mxWidth_sub_one {t : Nat} (h5 : 5 ≤ t) (h9 : t ≤ 9) : mxWidth t - 1 = (fpOf t).eb + (fpOf t).mb := by
  interval_cases t <;> rfl

theorem noNegZero_roundMx_int8 (rnd u x : Nat) (v : Val) : NoNegZero 7 (roundMx 10 rnd u x v).1 := by
  have hmax : ∀ neg : Bool, NoNegZero 7 (if neg then 0x81 else 0x7F) := by decide
  rw [roundMx]
  split
  · exact noNegZero_zero _
  · cases v with
    | nan => exact noNegZero_zero _
    | inf neg => exact hmax neg
    | fin neg m =>
      dsimp only
      split
      · exact noNegZero_zero _
      · rw [if_pos rfl]
        split
        · exact hmax neg
        · exact noNegZero_mxint8 neg (Nat.le_of_not_lt ‹_›)

theorem noNegZero_roundMx_fp {t : Nat} (rnd u x : Nat) (v : Val) (h5 : 5 ≤ t) (h9 : t ≤ 9) :
    NoNegZero ((fpOf t).eb + (fpOf t).mb) (roundMx t rnd u x v).1 := by
  have h10 : t ≠ 10 := by omega
  have hmax : ∀ neg : Bool, NoNegZero ((fpOf t).eb + (fpOf t).mb) (signBit (fpOf t) neg + encodeMag (fpOf t) 1 (fpOf t).top) :=
    fun neg => by simpa using noNegZero_top neg (fpOf_wide t) Nat.one_pos
  have hq : 0 < 2 ^ (fpOf t).unit * 2 ^ x / 2 ^ 127 :=
    Nat.div_pos ((Nat.pow_le_pow_right (by decide) (le_unit_of_mx h5 h9)).trans (Nat.le_mul_of_pos_right _ (Nat.two_pow_pos x)))
      (Nat.two_pow_pos 127)
  rw [roundMx]
  split
  · exact noNegZero_zero _
  · cases v with
    | nan => exact noNegZero_zero _
    | inf neg =>
      dsimp only
      split
      · next h6 =>
        subst h6
        exact noNegZero_infBits rnd neg (le_refl 6)
      · exact hmax neg
    | fin neg m =>
      dsimp only
      split
      · exact noNegZero_zero _
      · split
        · exact hmax neg
        · next hover =>
          split
          · exact noNegZero_zero _
          · next hr => exact noNegZero_encodeMag neg (fpOf_wide t) hq (le_roundGrid_quantumAt hr) (Nat.le_of_not_lt hover)

/-- An MX result is no negative zero, the element's sign bit being its highest. -/
theorem noNegZero_roundMx {t : Nat} (rnd u x : Nat) (v : Val) (h5 : 5 ≤ t) (h10 : t ≤ 10) :
    NoNegZero (mxWidth t - 1) (roundMx t rnd u x v).1 := by
  obtain h9 | rfl := Nat.le_or_eq_of_le_succ h10
  · rw [mxWidth_sub_one h5 h9]
    exact noNegZero_roundMx_fp rnd u x v h5 h9
  · exact noNegZero_roundMx_int8 rnd u x v

/-- The identity of a sum is a positive zero (R184). -/
theorem resolve_partialId_sum {t : Nat} (h : t ≤ 10) : resolve 0 t t (partialId 0) = .fin false 0 := by
  rw [resolve, isFloat, decide_eq_true h]
  rfl

end Sys2Proof
end

section
/-! PROOFS. The statements of reduction arithmetic: the exact sum, the layout of a partial, zero and special results. -/

namespace Sys2Proof.Machine

/-- Settles O42: every tree gives the exact sum of its elements, which no order changes; 2^24 of the largest inputs stay inside
FIX. -/
theorem exactSumIsOrderFree : Obligations.ExactSumIsOrderFree := by
  refine ⟨fun t u hperm hlen hval => ?_, fun f x hf _ => decodeLane_natAbs_le x hf⟩
  have ht : WithinSumLimits t.leaves := ⟨hlen, hval⟩
  have hu : WithinSumLimits u.leaves := ⟨hperm.length_eq ▸ hlen, fun v hv => hval v (hperm.mem_iff.2 hv)⟩
  obtain ⟨htsum, htsat⟩ := t.sum_eq_exactSum ht
  obtain ⟨husum, -⟩ := u.sum_eq_exactSum hu
  have hfold : t.leaves.foldl (fun p v => (p.add (Partial.ofVal v)).1) (partialId 0) = exactSum t.leaves :=
    exactSum_nil ▸ foldl_add_exactSum ht
  rw [hfold, htsum, husum]
  exact ⟨exactSum_perm hperm, htsat, rfl, rfl, rfl, rfl, rfl⟩

/-- Refutes O43: its clause on specials leaves FIX free. A FIX of -2^317, which the field holds and the identity of max is
(Table 8-5), lies below the lower end of FIX, so that adding a NaN to it moves FIX to that end and saturates. With FIX inside
its ends the clause holds (`Partial.add_ofVal_special`). -/
theorem not_exactSumAddsAndRemoves : ¬ Obligations.ExactSumAddsAndRemoves := by
  rintro ⟨-, hspecial, -⟩
  have hnan := (hspecial ⟨-(2 ^ 317), 0, 0, 0⟩ (Nat.zero_le _) (Nat.zero_le _) (Nat.zero_le _)).1
  have hmoved : (⟨-(2 ^ 317), 0, 0, 0⟩ : Partial).add (Partial.ofVal .nan) = (⟨-(2 ^ 317) + 1, 1, 0, 0⟩, true) := by
    decide +kernel
  exact Bool.noConfusion (congrArg Prod.snd (hmoved.symm.trans hnan))

/-- Settles O44: a partial's integer is its four fields side by side, and bytes in little-endian order keep it; an MX element's
smallest subnormal is a whole number of units. -/
theorem exactPartialLayout : Obligations.ExactPartialLayout := by
  refine ⟨fun p hlo hhi hnan hpinf hninf => ?_, fun n hn => Partial.toNat_ofNat hn, fun ps e he hps => ?_,
    fun t el x neg m h5 h9 h => mx_scaled_mod x h5 h9 h⟩
  · have hp : p.Fits := ⟨hlo, hhi, hnan, hpinf, hninf⟩
    obtain ⟨-, hbnan, hbpinf, hbninf⟩ := Partial.bits_toNat hp
    exact ⟨p.toNat_lt, Partial.signed_bits_toNat hp, hbnan, hbpinf, hbninf, Partial.ofNat_toNat hp⟩
  · exact ⟨length_partialBytes _, widePartial_flatMap (List.getElem?_eq_getElem he) (hps _ (List.getElem_mem he))⟩

/-- Settles O45: a magnitude that does not round to zero is a smallest subnormal at least, whose fields are not all 0. -/
theorem zeroResultIsPositive : Obligations.ZeroResultIsPositive := by
  refine ⟨fun t rnd u v ht _ => noNegZero_roundFp rnd u v ht, fun t rnd u x v h5 h10 _ _ => noNegZero_roundMx rnd u x v h5 h10,
    rfl, fun t rnd u ht => ?_⟩
  rw [resolve_partialId_sum (by omega)]
  rfl

/-- Settles O46: a special's encoding depends on its format, its sign and, in E4M3, on the two ranges of modes. -/
theorem specialResultsAreCanonical : Obligations.SpecialResultsAreCanonical := by
  refine ⟨fun rnd u => ⟨rfl, rfl, rfl, rfl, rfl, rfl, rfl, rfl, rfl, rfl, rfl, rfl, rfl, fun hlow neg => ?_, fun hhigh => ?_⟩,
    fun t x y rnd u _ hx hy => ?_⟩
  · rw [roundFp_inf, infBits_eq, if_pos hlow]
    rfl
  · rw [roundFp_inf, roundFp_inf, infBits_eq 3 rnd false, infBits_eq 3 rnd true, if_neg (Nat.not_le.2 hhigh)]
    exact ⟨rfl, rfl⟩
  · rw [hx, hy]
    exact ⟨rfl, rfl⟩

end Sys2Proof.Machine
end

section
/-! SUPPORT. The fields of a Luna word: a word and its fields determine each other, and each decoder undoes the encoder
(Tables 9-8 to 9-12, R207). -/

namespace Sys2Proof

/-! ### The fields of a word -/

section
variable {op d a b p t f imm : Nat}

/-- A field by division, the form in which the fields of a written word are read off. -/
theorem bits_eq_div_mod (n lo len : Nat) : bits n lo len = n / 2 ^ lo % 2 ^ len := by
  rw [bits, Nat.shiftRight_eq_div_pow]

/-- A word is its fields of format R, none of its bits outside them. -/
theorem wordR_fields {w : Nat} (h : w < 2 ^ 32) : wordR (lOp w) (lD w) (lA w) (lB w) (lP w) (lT w) (lF w) = w := by
  simp only [lOp, lD, lA, lB, lP, lT, lF, bits_eq_div_mod, wordR]
  omega

/-- A word is its fields of format I. -/
theorem wordI_fields {w : Nat} (h : w < 2 ^ 32) : wordI (lOp w) (lD w) (lA w) (lImm w).toNat = w := by
  simp only [lOp, lD, lA, lImm, bits_eq_div_mod, wordI, BitVec.toNat_ofNat]
  omega

/-- The bits below OP are zero where every field there is. -/
theorem low_eq_zero_iff {w : Nat} :
    bits w 0 26 = 0 ↔ lD w = 0 ∧ lA w = 0 ∧ lB w = 0 ∧ lP w = 0 ∧ lT w = 0 ∧ lF w = 0 := by
  simp only [lD, lA, lB, lP, lT, lF, bits_eq_div_mod]
  omega

/-- A word of format R holds its fields, where each fits its width. -/
theorem fields_wordR
    (h : op < 2 ^ 6 ∧ d < 2 ^ 5 ∧ a < 2 ^ 5 ∧ b < 2 ^ 5 ∧ p < 2 ^ 3 ∧ t < 2 ^ 4 ∧ f < 2 ^ 4) :
    let w := wordR op d a b p t f
    w < 2 ^ 32 ∧ lOp w = op ∧ lD w = d ∧ lA w = a ∧ lB w = b ∧ lP w = p ∧ lT w = t ∧ lF w = f := by
  simp only [lOp, lD, lA, lB, lP, lT, lF, bits_eq_div_mod, wordR]
  omega

/-- A word of format I holds its fields, where each fits its width. -/
theorem fields_wordI (h : op < 2 ^ 6 ∧ d < 2 ^ 5 ∧ a < 2 ^ 5 ∧ imm < 2 ^ 16) :
    let w := wordI op d a imm
    w < 2 ^ 32 ∧ lOp w = op ∧ lD w = d ∧ lA w = a ∧ bits w 0 16 = imm := by
  simp only [lOp, lD, lA, bits_eq_div_mod, wordI]
  omega

end

/-! ### The operands in fields -/

theorem lImm_eq_iff {w : Nat} {imm : Imm} : lImm w = imm ↔ bits w 0 16 = imm.toNat := by
  rw [← BitVec.toNat_inj, lImm, BitVec.toNat_ofNat, bits_eq_div_mod, Nat.pow_zero, Nat.div_one]

@[simp] theorem sReg?_val (r : SReg) : sReg? r.val = some r := by simp [sReg?]

@[simp] theorem pReg?_val (r : PReg) : pReg? r.val = some r := by simp [pReg?]

@[simp] theorem vReg_val (r : VReg) : vReg r.val = r := by simp [vReg]

theorem vReg_lD (w : Nat) : (vReg (lD w)).val = lD w := Nat.mod_eq_of_lt (bits_lt w 21 5)
theorem vReg_lA (w : Nat) : (vReg (lA w)).val = lA w := Nat.mod_eq_of_lt (bits_lt w 16 5)
theorem vReg_lB (w : Nat) : (vReg (lB w)).val = lB w := Nat.mod_eq_of_lt (bits_lt w 11 5)
theorem lPred_val (w : Nat) : (lPred w).val = lP w := Nat.mod_eq_of_lt (bits_lt w 8 3)

theorem lPred_eq_iff {w : Nat} {q : PReg} : lPred w = q ↔ lP w = q.val := by
  rw [Fin.ext_iff, lPred_val]

@[simp] theorem elemOf_code (t : ElemT) : elemOf t.code = some t := by cases t <;> rfl

theorem sReg?_eq_some {n : Nat} {r : SReg} : sReg? n = some r ↔ n = r.val := by
  simp [sReg?, Fin.ext_iff]
  omega

theorem pReg?_eq_some {n : Nat} {r : PReg} : pReg? n = some r ↔ n = r.val := by
  simp [pReg?, Fin.ext_iff]
  omega

theorem elemOf_eq_some {n : Nat} {t : ElemT} : elemOf n = some t ↔ n = t.code := by
  refine ⟨fun h => ?_, fun h => h ▸ elemOf_code t⟩
  unfold elemOf at h
  split at h <;> cases h <;> rfl

theorem need_eq_some {b : Bool} {u : Unit} : need b = some u ↔ b = true := by
  cases b <;> simp [need]

theorem ElemT.code_lt (t : ElemT) : t.code < 2 ^ 4 := by cases t <;> decide

/-! ### A word that decodes is the encoding of what it decodes to -/

section
variable {c : Core} {w : Nat} {i : Instr} (hw : w < 2 ^ 32)
include hw

/-- An instruction whose encoding is the word that the fields spell encodes as this word. -/
theorem encodes_of_wordR {op d a b p t f : Nat} (h : encodeLunaWord i = some (c, wordR op d a b p t f))
    (hop : lOp w = op) (hd : lD w = d) (ha : lA w = a) (hb : lB w = b) (hp : lP w = p) (ht : lT w = t) (hf : lF w = f) :
    encodeLunaWord i = some (c, w) := by
  rw [h, ← hop, ← hd, ← ha, ← hb, ← hp, ← ht, ← hf, wordR_fields hw]

theorem encodes_of_wordI {op d a imm : Nat} (h : encodeLunaWord i = some (c, wordI op d a imm))
    (hop : lOp w = op) (hd : lD w = d) (ha : lA w = a) (himm : (lImm w).toNat = imm) :
    encodeLunaWord i = some (c, w) := by
  rw [h, ← hop, ← hd, ← ha, ← himm, wordI_fields hw]

theorem encode_decodeAlu (hop : lOp w = 0x01) (h : decodeAlu c w = some i) : encodeLunaWord i = some (c, w) := by
  simp only [decodeAlu, Option.bind_eq_bind, Option.bind_eq_some_iff, sReg?_eq_some, need_eq_some, Bool.and_eq_true,
    beq_iff_eq] at h
  obtain ⟨d, hd, a, ha, b, hb, -, ⟨hp, ht⟩, h⟩ := h
  split at h <;> cases h <;> exact encodes_of_wordR hw rfl hop hd ha hb hp ht ‹_›

theorem encode_decodeImm (h : decodeImm c w = some i) : encodeLunaWord i = some (c, w) := by
  simp only [decodeImm, Option.bind_eq_bind, Option.bind_eq_some_iff, sReg?_eq_some] at h
  obtain ⟨d, hd, a, ha, h⟩ := h
  have himm : (lImm w).toNat = bits w 0 16 := (lImm_eq_iff.1 rfl).symm
  split at h
  -- shli, shri and rdt bound their immediate; li has no register A
  case h_4 | h_5 | h_13 =>
    split at h <;> cases h
    exact encodes_of_wordI hw rfl ‹_› hd ha himm
  case h_6 hop =>
    split at h <;> cases h
    next h0 => exact encodes_of_wordI hw rfl hop hd (by rw [ha, h0]; rfl) rfl
  all_goals
    cases h <;> exact encodes_of_wordI hw rfl ‹_› hd ha rfl

theorem encode_decodeJump (h : decodeJump c w = some i) : encodeLunaWord i = some (c, w) := by
  simp only [decodeJump] at h
  split at h
  case h_1 hop | h_2 hop | h_3 hop | h_4 hop =>
    simp only [Option.bind_eq_bind, Option.bind_eq_some_iff, sReg?_eq_some] at h
    obtain ⟨a, ha, b, hb, h⟩ := h
    cases h
    exact encodes_of_wordI hw rfl hop ha hb rfl
  case h_5 hop | h_6 hop =>
    split at h
    next hb =>
      obtain ⟨a, ha, h⟩ := Option.map_eq_some_iff.1 h
      cases h
      exact encodes_of_wordI hw rfl hop (pReg?_eq_some.1 ha) hb rfl
    next => cases h
  case h_7 hop | h_8 hop =>
    split at h <;> cases h
    next hz =>
      obtain ⟨ha, hb⟩ := by simpa using hz
      exact encodes_of_wordI hw rfl hop ha hb rfl
  case h_9 hop | h_10 hop =>
    split at h <;> cases h
    next hz =>
      obtain ⟨⟨ha, hb⟩, hoff⟩ := by simpa using hz
      exact encodes_of_wordI hw rfl hop ha hb (congrArg BitVec.toNat hoff)
  case h_11 => cases h

theorem encode_decodePred (hop : lOp w = 0x1A ∨ lOp w = 0x1C) (h : decodePred c w = some i) :
    encodeLunaWord i = some (c, w) := by
  simp only [decodePred, Option.bind_eq_bind, Option.bind_eq_some_iff, need_eq_some, Bool.and_eq_true, beq_iff_eq] at h
  obtain ⟨-, ⟨hp, ht⟩, h⟩ := h
  split at h
  next hop =>
    simp only [Option.bind_eq_some_iff, sReg?_eq_some, need_eq_some, Bool.and_eq_true, beq_iff_eq] at h
    obtain ⟨d, hd, a, ha, -, ⟨hb, hf⟩, h⟩ := h
    cases h
    exact encodes_of_wordR hw rfl hop hd ha hb hp ht hf
  next hne =>
    have hop : lOp w = 0x1A := hop.resolve_right hne
    split at h
    case h_1 hf | h_2 hf | h_3 hf | h_4 hf =>
      simp only [Option.bind_eq_some_iff, pReg?_eq_some] at h
      obtain ⟨d, hd, a, ha, b, hb, h⟩ := h
      cases h
      exact encodes_of_wordR hw rfl hop hd ha hb hp ht hf
    case h_5 hf | h_6 hf | h_7 hf | h_8 hf =>
      simp only [Option.bind_eq_some_iff, pReg?_eq_some, sReg?_eq_some, need_eq_some, beq_iff_eq] at h
      obtain ⟨-, hb, d, hd, a, ha, h⟩ := h
      cases h
      exact encodes_of_wordR hw rfl hop hd ha hb hp ht hf
    case h_9 => cases h

theorem encode_decodeVec (h : decodeVec c w = some i) : encodeLunaWord i = some (c, w) := by
  have hd := (vReg_lD w).symm
  have ha := (vReg_lA w).symm
  have hb := (vReg_lB w).symm
  have hp := (lPred_val w).symm
  simp only [decodeVec] at h
  split at h
  case h_1 hop | h_2 hop | h_3 hop =>
    obtain ⟨a, ha, h⟩ := Option.map_eq_some_iff.1 h
    cases h
    exact encodes_of_wordI hw rfl hop hd (sReg?_eq_some.1 ha) rfl
  case h_4 hop =>
    simp only [Option.bind_eq_bind, Option.bind_eq_some_iff, elemOf_eq_some] at h
    obtain ⟨t, ht, h⟩ := h
    split at h
    case h_1 hf | h_2 hf | h_3 hf | h_4 hf =>
      obtain ⟨-, -, h⟩ := Option.bind_eq_some_iff.1 h
      cases h
      exact encodes_of_wordR hw rfl hop hd ha hb hp ht hf
    all_goals
      cases h <;> exact encodes_of_wordR hw rfl hop hd ha hb hp ht ‹_›
  case h_5 hop =>
    simp only [Option.bind_eq_bind, Option.bind_eq_some_iff, elemOf_eq_some, pReg?_eq_some] at h
    obtain ⟨t, ht, q, hq, h⟩ := h
    split at h <;> cases h <;> exact encodes_of_wordR hw rfl hop hq ha hb hp ht ‹_›
  case h_6 hop =>
    simp only [Option.bind_eq_bind, Option.bind_eq_some_iff, elemOf_eq_some, need_eq_some, Bool.and_eq_true, beq_iff_eq] at h
    obtain ⟨t, ht, -, ⟨⟨hb, hp⟩, -⟩, h⟩ := h
    split at h <;> cases h
    exact encodes_of_wordR hw rfl hop hd ha hb hp ht rfl
  case h_7 hop =>
    simp only [Option.bind_eq_bind, Option.bind_eq_some_iff, elemOf_eq_some, sReg?_eq_some] at h
    obtain ⟨t, ht, b, hb, -, -, h⟩ := h
    split at h <;> cases h
    exact encodes_of_wordR hw rfl hop hd ha hb hp ht rfl
  case h_8 hop =>
    simp only [Option.bind_eq_bind, Option.bind_eq_some_iff, elemOf_eq_some, sReg?_eq_some, need_eq_some, Bool.and_eq_true,
      beq_iff_eq] at h
    obtain ⟨t, ht, a, ha, -, ⟨⟨hb, hp⟩, hf⟩, h⟩ := h
    cases h
    exact encodes_of_wordR hw rfl hop hd ha hb hp ht hf
  case h_9 hop =>
    simp only [Option.bind_eq_bind, Option.bind_eq_some_iff, pReg?_eq_some, sReg?_eq_some, need_eq_some, beq_iff_eq] at h
    obtain ⟨a, ha, b, hb, -, ht, h⟩ := h
    split at h
    case h_1 hf =>
      simp only [Option.bind_eq_some_iff, need_eq_some, beq_iff_eq] at h
      obtain ⟨-, hp, h⟩ := h
      cases h
      exact encodes_of_wordR hw rfl hop hd ha hb hp ht hf
    case h_2 hf =>
      cases h
      exact encodes_of_wordR hw rfl hop hd ha hb hp ht hf
    case h_3 => cases h
  case h_10 => cases h

theorem encode_decodeX (h : decodeX c w = some i) : encodeLunaWord i = some (c, w) := by
  have hd := (vReg_lD w).symm
  have ha := (vReg_lA w).symm
  have hp := (lPred_val w).symm
  simp only [decodeX] at h
  split at h
  case h_1 hop =>
    simp only [Option.bind_eq_bind, Option.bind_eq_some_iff, elemOf_eq_some, pReg?_eq_some, sReg?_eq_some] at h
    obtain ⟨t, ht, d, hd, b, hb, h⟩ := h
    split at h <;> cases h <;> exact encodes_of_wordR hw rfl hop hd ha hb hp ht ‹_›
  case h_2 hop | h_3 hop =>
    simp only [Option.bind_eq_bind, Option.bind_eq_some_iff, pReg?_eq_some, sReg?_eq_some, need_eq_some, Bool.and_eq_true,
      beq_iff_eq] at h
    obtain ⟨d, hd, a, ha, b, hb, -, ⟨hp, ht⟩, h⟩ := h
    split at h <;> cases h <;> exact encodes_of_wordR hw rfl hop hd ha hb hp ht ‹_›
  case h_4 hop =>
    simp only [Option.bind_eq_bind, Option.bind_eq_some_iff, pReg?_eq_some, sReg?_eq_some, need_eq_some, Bool.and_eq_true,
      beq_iff_eq] at h
    obtain ⟨d, hd, a, ha, b, hb, -, ⟨⟨hp, ht⟩, hf⟩, h⟩ := h
    cases h
    exact encodes_of_wordR hw rfl hop hd ha hb hp ht hf
  case h_5 hop =>
    simp only [Option.bind_eq_bind, Option.bind_eq_some_iff, elemOf_eq_some, pReg?_eq_some, sReg?_eq_some] at h
    obtain ⟨t, ht, a, ha, b, hb, h⟩ := h
    split at h
    next hf =>
      cases h
      exact encodes_of_wordR hw rfl hop hd ha hb hp ht hf
    next =>
      obtain ⟨d, hd, h⟩ := Option.bind_eq_some_iff.1 h
      split at h <;> cases h <;> exact encodes_of_wordR hw rfl hop (pReg?_eq_some.1 hd) ha hb hp ht ‹_›
  case h_6 hop =>
    simp only [Option.bind_eq_bind, Option.bind_eq_some_iff, elemOf_eq_some, pReg?_eq_some, sReg?_eq_some, need_eq_some,
      beq_iff_eq] at h
    obtain ⟨t, ht, a, ha, b, hb, -, hf, h⟩ := h
    cases h
    exact encodes_of_wordR hw rfl hop hd ha hb hp ht hf
  case h_7 hop =>
    simp only [Option.bind_eq_bind, Option.bind_eq_some_iff, elemOf_eq_some, sReg?_eq_some] at h
    obtain ⟨t, ht, b, hb, h⟩ := h
    split at h
    case h_1 hf =>
      simp only [Option.bind_eq_some_iff, pReg?_eq_some, need_eq_some, beq_iff_eq] at h
      obtain ⟨-, ha, d, hd, h⟩ := h
      cases h
      exact encodes_of_wordR hw rfl hop hd ha hb hp ht hf
    case h_2 hf =>
      simp only [Option.bind_eq_some_iff, need_eq_some, beq_iff_eq] at h
      obtain ⟨-, hd, h⟩ := h
      cases h
      exact encodes_of_wordR hw rfl hop hd ha hb hp ht hf
    case h_3 => cases h
  case h_8 hop =>
    simp only [Option.bind_eq_bind, Option.bind_eq_some_iff, elemOf_eq_some, sReg?_eq_some, need_eq_some, Bool.and_eq_true,
      beq_iff_eq] at h
    obtain ⟨t, ht, d, hd, a, ha, b, hb, -, ⟨hp, hf⟩, h⟩ := h
    cases h
    exact encodes_of_wordR hw rfl hop hd ha hb hp ht hf
  case h_9 hop =>
    split at h <;> cases h
    next hz =>
      obtain ⟨hd, ha, hb, hp, ht, hf⟩ := low_eq_zero_iff.1 hz
      exact encodes_of_wordR hw rfl hop hd ha hb hp ht hf
  case h_10 hop =>
    simp only [Option.bind_eq_bind, Option.bind_eq_some_iff, elemOf_eq_some, need_eq_some, Bool.and_eq_true,
      beq_iff_eq] at h
    obtain ⟨t, ht, -, ⟨⟨hd, hb⟩, hf⟩, h⟩ := h
    cases h
    exact encodes_of_wordR hw rfl hop hd ha hb hp ht hf
  case h_11 => cases h

/-- A word that decodes is the encoding of what it decodes to. -/
theorem encode_decodeLunaWord (h : decodeLunaWord c w = some i) : encodeLunaWord i = some (c, w) := by
  simp only [decodeLunaWord] at h
  split at h
  next hop => exact encode_decodeAlu hw hop h
  split at h
  next => exact encode_decodeImm hw h
  split at h
  next => exact encode_decodeJump hw h
  split at h
  next hop => exact encode_decodePred hw (by simpa using hop) h
  split at h
  next => exact encode_decodeVec hw h
  split at h
  next => exact encode_decodeX hw h
  cases h
end

/-! ### A word encoded decodes back -/

section
variable {c : Core} {w : Nat} {i j : Instr} {op d a b p t f imm : Nat}

/-- A word of format R reads back as an instruction that every word with its fields decodes to. -/
theorem wordR_reads_back
    (hfit : op < 2 ^ 6 ∧ d < 2 ^ 5 ∧ a < 2 ^ 5 ∧ b < 2 ^ 5 ∧ p < 2 ^ 3 ∧ t < 2 ^ 4 ∧ f < 2 ^ 4)
    (h : ∀ w, lOp w = op → lD w = d → lA w = a → lB w = b → lP w = p → lT w = t → lF w = f →
      decodeLunaWord c w = some j) :
    wordR op d a b p t f < 2 ^ 32 ∧ decodeLunaWord c (wordR op d a b p t f) = some j := by
  obtain ⟨hlt, hop, hd, ha, hb, hp, ht, hf⟩ := fields_wordR hfit
  exact ⟨hlt, h _ hop hd ha hb hp ht hf⟩

/-- The same for format I. -/
theorem wordI_reads_back (hfit : op < 2 ^ 6 ∧ d < 2 ^ 5 ∧ a < 2 ^ 5 ∧ imm < 2 ^ 16)
    (h : ∀ w, lOp w = op → lD w = d → lA w = a → bits w 0 16 = imm → decodeLunaWord c w = some j) :
    wordI op d a imm < 2 ^ 32 ∧ decodeLunaWord c (wordI op d a imm) = some j := by
  obtain ⟨hlt, hop, hd, ha, himm⟩ := fields_wordI hfit
  exact ⟨hlt, h _ hop hd ha himm⟩

/-- An encoded instruction decodes back, operation group by operation group. -/
theorem decode_encodeLunaWord (hwf : WellFormed i = true) (h : encodeLunaWord i = some (c, w)) :
    w < 2 ^ 32 ∧ decodeLunaWord c w = some (bareRead i) := by
  cases i with
  | add _ d a b | sub _ d a b | andd _ d a b | orr _ d a b | xorr _ d a b | shl _ d a b | shr _ d a b | sar _ d a b
  | mul _ d a b | slt _ d a b | sltu _ d a b | seqq _ d a b | smin _ d a b | smax _ d a b =>
    cases h
    refine wordR_reads_back (by omega) fun w hop hd ha hb hp ht hf => ?_
    simp [decodeLunaWord, decodeAlu, need, bareRead, hop, hd, ha, hb, hp, ht, hf]
  | addi _ d a imm | andi _ d a imm | ori _ d a imm | lsh _ d a imm | ld _ d a imm | ldw _ d a imm | st _ d a imm
  | stw _ d a imm | ldc _ d a imm =>
    cases h
    refine wordI_reads_back (by have := imm.isLt; omega) fun w hop hd ha himm => ?_
    simp [decodeLunaWord, decodeImm, bareRead, hop, hd, ha, lImm_eq_iff.2 himm]
  | li _ d imm =>
    cases h
    refine wordI_reads_back (by have := imm.isLt; omega) fun w hop hd ha himm => ?_
    have hs0 : sReg? (lA w) = some 0 := by rw [ha]; rfl
    simp [decodeLunaWord, decodeImm, bareRead, hop, hd, hs0, lImm_eq_iff.2 himm]
  | shli _ d a n | shri _ d a n | rdt _ d a n =>
    cases h
    refine wordI_reads_back (by omega) fun w hop hd ha himm => ?_
    simp [decodeLunaWord, decodeImm, bareRead, hop, hd, ha, himm]
  | beq _ d a imm | bne _ d a imm | blt _ d a imm | bltu _ d a imm | bany _ d imm | bnone _ d imm | jmp _ imm
  | call _ imm =>
    cases h
    refine wordI_reads_back (by have := imm.isLt; omega) fun w hop hd ha himm => ?_
    simp [decodeLunaWord, decodeJump, bareRead, hop, hd, ha, lImm_eq_iff.2 himm]
  | ret | done =>
    cases h
    refine wordI_reads_back (by omega) fun w hop hd ha himm => ?_
    have hoff : lImm w = 0 := lImm_eq_iff.2 himm
    simp [decodeLunaWord, decodeJump, bareRead, hop, hd, ha, hoff]
  | bitm _ d a | pmov _ d a | pget _ d a | pfirst _ d a | pcnt _ d a | pand _ d a b | por _ d a b | pxor _ d a b
  | pandn _ d a b =>
    cases h
    refine wordR_reads_back (by omega) fun w hop hd ha hb hp ht hf => ?_
    simp [decodeLunaWord, decodePred, need, bareRead, hop, hd, ha, hb, hp, ht, hf]
  | vld _ d a imm | vst _ d a imm | vldc _ d a imm =>
    cases h
    refine wordI_reads_back (by have := imm.isLt; omega) fun w hop hd ha himm => ?_
    simp [decodeLunaWord, decodeVec, bareRead, hop, hd, ha, lImm_eq_iff.2 himm]
  | vadd _ t d a b p | vsub _ t d a b p | vmax _ t d a b p | vmin _ t d a b p =>
    cases h
    have hcode := t.code_lt
    refine wordR_reads_back (by omega) fun w hop hd ha hb hp ht hf => ?_
    have harith : t.arith = true := hwf
    simp [decodeLunaWord, decodeVec, need, bareRead, hop, hd, ha, hb, lPred_eq_iff.2 hp, ht, hf, harith]
  | vand _ t d a b p | vor _ t d a b p | vxor _ t d a b p | vsel _ t d a b p | vcmpEq _ t d a b p | vcmpLt _ t d a b p
  | vcmpLe _ t d a b p | vcmpNe _ t d a b p | vsplat _ t d a =>
    cases h
    have hcode := t.code_lt
    refine wordR_reads_back (by omega) fun w hop hd ha hb hp ht hf => ?_
    simp [decodeLunaWord, decodeVec, need, bareRead, hop, hd, ha, hb, hp, lPred_eq_iff, ht, hf]
  | vcvt _ t d a f | vrnd _ t d a b p f =>
    cases h
    have hcode := t.code_lt
    have hlanes : 16 * f.val < t.lanes := of_decide_eq_true hwf
    refine wordR_reads_back (by omega) fun w hop hd ha hb hp ht hf => ?_
    simp [decodeLunaWord, decodeVec, need, bareRead, hop, hd, ha, hb, hp, lPred_eq_iff, ht, hf, hlanes]
  | vlda _ d a b | vsta _ d a b p =>
    cases h
    refine wordR_reads_back (by omega) fun w hop hd ha hb hp ht hf => ?_
    simp [decodeLunaWord, decodeVec, need, bareRead, hop, hd, ha, hb, hp, lPred_eq_iff, ht, hf]
  | xadd _ t d a b p | xsub _ t d a b p | xmax _ t d a b p | xmin _ t d a b p | xand _ t d a b p | xior _ t d a b p
  | xxor _ t d a b p | xset _ t d a b p | xswpAdd _ t d a b p | xswpMax _ t d a b p | xswpMin _ t d a b p
  | xswpAnd _ t d a b p | xswpOr _ t d a b p | xswpXor _ t d a b p | xswpCopy _ t d a b p | fswp _ t d a b p
  | xrnd _ t d a b p | xbexp _ t d b p | vbexp _ t a b p | ost _ t a p | xmrg _ t d a b =>
    cases h
    have hcode := t.code_lt
    refine wordR_reads_back (by omega) fun w hop hd ha hb hp ht hf => ?_
    simp [decodeLunaWord, decodeX, need, bareRead, hop, hd, ha, hb, hp, lPred_eq_iff, ht, hf]
  | xidSum _ d a b | xidMax _ d a b | xidMin _ d a b | xidAnd _ d a b | xidOr _ d a b | xidXor _ d a b | xidCopy _ d a b
  | xaddw _ d a b | xsubw _ d a b | aoff _ d a b =>
    cases h
    refine wordR_reads_back (by omega) fun w hop hd ha hb hp ht hf => ?_
    simp [decodeLunaWord, decodeX, need, bareRead, hop, hd, ha, hb, hp, ht, hf]
  | xdns =>
    cases h
    refine wordR_reads_back (by omega) fun w hop hd ha hb hp ht hf => ?_
    have hlow : bits w 0 26 = 0 := low_eq_zero_iff.2 ⟨hd, ha, hb, hp, ht, hf⟩
    simp [decodeLunaWord, decodeX, bareRead, hop, hlow]
  | _ => cases h
end

end Sys2Proof
end

section
/-! SUPPORT. Words of predicates and committed slots, bytes of core-local SRAM, the register files of a core (Tables 9-2, 9-6,
9-10). -/

namespace Sys2Proof.Machine

/-! ### Predicates (Table 9-10) -/

/-- The lowest bits set, as a word of 64 bits. -/
theorem getLsbD_firstBits (n : Nat) {i : Nat} (hi : i < 64) : (firstBits n).getLsbD i = decide (i < n) := by
  rw [firstBits, getLsbD_bitsOf]
  simp [hi]

theorem popCount_eq_countP (p : Word) : popCount p = (List.range 64).countP fun i => p.getLsbD i :=
  List.countP_eq_length_filter.symm

/-- bitm tells a committed slot of the chunk (R211). -/
theorem boolWord_contains_runSlots (r : Run) (s : State) (k : Nat) :
    boolWord ((runSlots r s).contains k) = if k < gx LUNA_CTX.NSRC r.c.id.comm s ∧ k ∈ r.c.bitmap then 1 else 0 := by
  simp [boolWord, runSlots, runNsrc]

/-! ### Bytes of core-local SRAM (R205) -/

theorem memRead_one (x : LCore) (a : Nat) : memRead x a 1 = [SMap.get (fun _ => 0) x.mem a] := rfl

@[simp] theorem length_memRead (x : LCore) (a n : Nat) : (memRead x a n).length = n := by simp [memRead]

/-- A byte written stands at its address. -/
theorem get_memPut_written (m : SMap Byte) (a : Nat) {bs : List Byte} {k : Nat} (hk : k < bs.length) :
    SMap.get (fun _ => 0) (memPut m a bs) (a + k) = bs[k] := by
  rw [get_memPut, if_pos (Nat.le_add_right a k), Nat.add_sub_cancel_left, List.getElem?_eq_getElem hk, Option.getD_some]

/-- The bytes written read back together. -/
theorem memRead_write_self (x : LCore) (a : Nat) (bs : List Byte) : memRead (x.write a bs) a bs.length = bs := by
  refine List.ext_getElem (length_memRead ..) fun k _ hk => ?_
  rw [← get_memPut_written x.mem a hk]
  simp [memRead, LCore.write]

theorem memRead_write_byte (x : LCore) (a : Nat) (bs : List Byte) {k : Nat} (hk : k < bs.length) :
    memRead (x.write a bs) (a + k) 1 = [bs[k]] :=
  congrArg ([·]) (get_memPut_written x.mem a hk)

theorem memRead_write_outside (x : LCore) {a b : Nat} {bs : List Byte} (h : b < a ∨ a + bs.length ≤ b) :
    memRead (x.write a bs) b 1 = memRead x b 1 := by
  rw [memRead_one, memRead_one, LCore.write, get_memPut]
  rcases h with h | h
  · rw [if_neg (Nat.not_le.2 h)]
  · rw [List.getElem?_eq_none (by omega), Option.getD_none, ite_self]

/-! ### The register files (R201) -/

theorem sGet_sPut (x : LCore) (d n : SReg) (v : Word) :
    sGet (sPut x d v) n = if n.val ≠ 0 ∧ n = d then v else sGet x n := by
  by_cases hd : d.val = 0
  · have hne : ¬(n.val ≠ 0 ∧ n = d) := fun ⟨hn, hnd⟩ => hn (hnd ▸ hd)
    rw [sPut, if_pos hd, if_neg hne]
  · by_cases hn : n.val = 0
    · simp [sGet, hn]
    · simp [sGet, sPut, hd, hn, SMap.get_set, Fin.ext_iff]

theorem pGet_pPut (x : LCore) (d n : PReg) (v : Word) :
    pGet (pPut x d v) n = if n.val ≠ 0 ∧ n = d then v else pGet x n := by
  by_cases hd : d.val = 0
  · have hne : ¬(n.val ≠ 0 ∧ n = d) := fun ⟨hn, hnd⟩ => hn (hnd ▸ hd)
    rw [pPut, if_pos hd, if_neg hne]
  · by_cases hn : n.val = 0
    · simp [pGet, hn]
    · simp [pGet, pPut, hd, hn, SMap.get_set, Fin.ext_iff]

theorem vGet_vPut (x : LCore) (d n : VReg) (v : BitVec 512) : vGet (vPut x d v) n = if n = d then v else vGet x n := by
  simp [vGet, vPut, SMap.get_set, Fin.ext_iff]

theorem aGet_aPut (x : LCore) (d n : AReg) (v : View) : aGet (aPut x d v) n = if n = d then v else aGet x n := by
  simp [aGet, aPut, SMap.get_set, Fin.ext_iff]

/-- A write of a scalar register changes the scalar registers alone. -/
theorem sPut_frame (x : LCore) (d : SReg) (v : Word) : { sPut x d v with sregs := x.sregs } = x := by
  unfold sPut; split <;> rfl

theorem pPut_frame (x : LCore) (d : PReg) (v : Word) : { pPut x d v with pregs := x.pregs } = x := by
  unfold pPut; split <;> rfl

end Sys2Proof.Machine
end

section
/-! SUPPORT. What each shared form of a vector or X-unit instruction answers where it issues, and what one lane does to its
partial (Tables 9-11 and 9-12). -/

namespace Sys2Proof.Machine

/-! ### Lanes of a vector (R210) -/

section
variable {c : Core} {i : Instr} {s : State} {r : Run} (h : Issues c i s r)
include h

/-- A lane-wise operation: the enabled lanes take its results, cut to the lane, the others stay. -/
theorem vecOp_issues (t : ElemT) (d a b : VReg) (p : PReg) (f : Nat → Nat → Nat) :
    ∃ v : BitVec 512, vecOp c i t d a b p f s = .next (retire r (vPut r.x d v) s) ∧
      ∀ k < t.lanes, laneGet t.size v k = if (pGet r.x p).getLsbD k then
        f (laneGet t.size (vGet r.x a) k) (laneGet t.size (vGet r.x b) k) % 2 ^ (8 * t.size)
        else laneGet t.size (vGet r.x d) k :=
  ⟨_, lunaOp_issues h _, fun _ hk => laneGet_mergeLanes (ElemT.size_cases t) _ _ _ hk⟩

/-- A lane-wise operation whose results fit a lane. -/
theorem vecOp_issues_of_lt (t : ElemT) (d a b : VReg) (p : PReg) (f : Nat → Nat → Nat)
    (hf : ∀ x < 2 ^ (8 * t.size), ∀ y < 2 ^ (8 * t.size), f x y < 2 ^ (8 * t.size)) :
    ∃ v : BitVec 512, vecOp c i t d a b p f s = .next (retire r (vPut r.x d v) s) ∧
      ∀ k < t.lanes, laneGet t.size v k = if (pGet r.x p).getLsbD k then
        f (laneGet t.size (vGet r.x a) k) (laneGet t.size (vGet r.x b) k) else laneGet t.size (vGet r.x d) k := by
  obtain ⟨v, hexec, hv⟩ := vecOp_issues h t d a b p f
  refine ⟨v, hexec, fun k hk => ?_⟩
  rw [hv k hk, Nat.mod_eq_of_lt (hf _ (laneGet_lt ..) _ (laneGet_lt ..))]

/-- A comparison of lanes that have values: bit by bit. -/
theorem vecCmp_issues {t : ElemT} (ht : t ≠ .raw) (d : PReg) (a b : VReg) (p : PReg) (k : Cmp) :
    ∃ v : Word, vecCmp c i t d a b p k s = .next (retire r (pPut r.x d v) s) ∧
      ∀ j < 64, v.getLsbD j = (decide (j < t.lanes) && (pGet r.x p).getLsbD j &&
        k.holds t (laneGet t.size (vGet r.x a) j) (laneGet t.size (vGet r.x b) j)) := by
  refine ⟨_, (lunaOp_issues h _).trans (by rw [if_neg ht]), fun j hj => ?_⟩
  rw [getLsbD_bitsOf, decide_eq_true hj, Bool.true_and, Bool.eq_iff_iff]
  simp [List.mem_filter, mem_enabledLanes]

/-- A comparison of bytes leaves the bits of lanes that are not enabled at 0. -/
theorem vecCmp_raw_issues (d : PReg) (a b : VReg) (p : PReg) (k : Cmp) :
    ∃ v : Word, vecCmp c i .raw d a b p k s = .next (retire r (pPut r.x d v) (draw s)) ∧
      ∀ j < 64, (pGet r.x p).getLsbD j = false → v.getLsbD j = false := by
  refine ⟨_, (lunaOp_issues h _).trans (by rw [if_pos rfl]), fun j hj hp => ?_⟩
  rw [getLsbD_bitsOf]
  simp [List.mem_filter, mem_enabledLanes, hp]
end

theorem Cmp.holds_nan {t : ElemT} {u w : Nat} (h : decodeLane t.code u = .nan ∨ decodeLane t.code w = .nan) (k : Cmp) :
    k.holds t u w = decide (k = .ne) := by
  unfold Cmp.holds laneVal
  rcases h with h | h
  · rw [h]
  · rw [h]
    cases decodeLane t.code u <;> rfl

/-! ### What one lane does to its partial (R180, R211) -/

theorem laneVal_of_isInt {t : ElemT} (ht : t.isInt = true) (x : Nat) :
    laneVal t x = .ofInt (signed (8 * t.size) x * 2 ^ 149) := by
  cases t with
  | i32 | i64 => rfl
  | _ => cases ht

/-- A bitwise combination with an integer lane works on FIX and the integer itself. -/
theorem toInt_div_of_isInt {t : ElemT} (ht : t.isInt = true) (x : Nat) :
    (laneVal t x).toInt / 2 ^ 149 = signed (8 * t.size) x := by
  rw [laneVal_of_isInt ht, toInt_ofInt]
  exact Int.mul_ediv_cancel _ (by decide)

/-- An integer lane is combined bitwise by its operator; no free value is drawn. -/
theorem xCombine_bitwise_of_isInt {op : XOp} {t : ElemT} (hop : op.bitwise = true) (ht : t.isInt = true)
    (x fr : Nat) (p : Partial) : xCombine op t x fr p = p.combine op.rop (laneVal t x) := by
  cases op with
  | and | or | xor => simp [xCombine, ht]
  | _ => cases hop

theorem partGet_partPut (r : Run) (c : LChunk) (e f : Nat) (p : Partial) :
    partGet r (partPut r e p c) f = if f = e then p else partGet r c f := by
  unfold partGet partPut
  split_ifs <;> simp [SMap.get_set, SMap.get_put, *]

theorem accGet_accPut (r : Run) (c : LChunk) (e f v : Nat) :
    accGet r (accPut r e v c) f = if f = e then v else accGet r c f := by
  unfold accGet accPut
  split_ifs <;> simp [SMap.get_set, *]

/-! ### The forms of the X unit (R211) -/

/-- The entries that the enabled ones of `n` lanes reach: entry sB + i for lane i. -/
abbrev laneEntries (r : Run) (b : SReg) (p : PReg) (n : Nat) : List Nat :=
  (enabledLanes (pGet r.x p) n).map fun i => (sGet r.x b).toNat + i

section
variable {c : Core} {i : Instr} {s : State} {r : Run} (h : Issues c i s r)
include h

/-- An accumulation, where it issues (R211): its type, its handle and its entries are checked before any partial changes. -/
theorem xop_issues (op : XOp) (t : ElemT) (d : AReg) (a : VReg) (b : SReg) (p : PReg) :
    xop c i op t d a b p .clean s =
      .next (if t.code ≠ r.c.fmt then progFault c.val excType s
        else if viewsParts (aGet r.x d) = false then progFault c.val excBounds s
        else match entries (partEntry r (aGet r.x d)) (laneEntries r b p t.lanes) with
          | none => progFault c.val excBounds s
          | some es =>
            let y := ((enabledLanes (pGet r.x p) t.lanes).zip es).foldl (fun acc e => partStep r e.2
              (xCombine op t (laneGet t.size (vGet r.x a) e.1) (bits (freeVal s) (318 * e.1) 318)) acc) (r.c, 0)
            accSat r y.2 (retireChunk r y.1 r.x (if op.bitwise && !t.isInt then draw s else s))) := by
  rw [xop, lunaRead_clean h]
  by_cases ht : t.code = r.c.fmt
  · cases hv : viewsParts (aGet r.x d)
    · simp [ht]
    · cases he : entries (partEntry r (aGet r.x d)) (laneEntries r b p t.lanes) <;> simp [ht, he]
  · simp [ht]

/-- The identities of an operator, where the instruction issues (Table 8-5). -/
theorem xid_issues (rop : Nat) (d : AReg) (a b : SReg) :
    xid c i rop d a b s =
      .next (if viewsParts (aGet r.x d) = false ∨
          (0 < (sGet r.x a).toNat ∧ viewCount r (aGet r.x d) < (sGet r.x b).toNat + (sGet r.x a).toNat)
        then progFault c.val excBounds s
        else match entries (partEntry r (aGet r.x d)) ((List.range (sGet r.x a).toNat).map fun k => (sGet r.x b).toNat + k) with
          | none => progFault c.val excBounds s
          | some es => retireChunk r (es.foldl (fun ch e => partPut r e (partialId rop) ch) r.c) r.x s) := by
  rw [xid, lunaOp_issues h]
  cases hv : viewsParts (aGet r.x d)
  · simp
  · by_cases hn : 0 < (sGet r.x a).toNat ∧ viewCount r (aGet r.x d) < (sGet r.x b).toNat + (sGet r.x a).toNat
    · simp [hn]
    · cases he : entries (partEntry r (aGet r.x d)) ((List.range (sGet r.x a).toNat).map fun k => (sGet r.x b).toNat + k) <;>
        simp [hn, he]

/-- Wide-form partials from the hold range, where the instruction issues (R211). -/
theorem xWide_issues (op : XOp) (d : AReg) (a b : SReg) :
    xWide c i op d a b .clean s =
      .next (if viewsParts (aGet r.x d) = false ∨ viewCount r (aGet r.x d) < (sGet r.x b).toNat ∨
          ¬(r.t.holdAt ≤ (sGet r.x a).toNat ∧ (sGet r.x a).toNat + 44 * (sGet r.x b).toNat ≤ r.t.holdAt + r.t.holdLen)
        then progFault c.val excBounds s
        else match entries (partEntry r (aGet r.x d)) (List.range (sGet r.x b).toNat) with
          | none => progFault c.val excBounds s
          | some es =>
            let y := es.zipIdx.foldl (fun acc e => partStep r e.1 (fun q =>
              xMerge op q (widePartial (memRead r.x (sGet r.x a).toNat (44 * (sGet r.x b).toNat)) e.2)) acc) (r.c, 0)
            accSat r y.2 (retireChunk r y.1 r.x s)) := by
  rw [xWide, lunaRead_clean h]
  generalize (sGet r.x a).toNat = n, (sGet r.x b).toNat = k
  cases hv : viewsParts (aGet r.x d)
  · simp
  · by_cases hn : viewCount r (aGet r.x d) < k
    · simp [hn]
    · by_cases hw : r.t.holdAt ≤ n ∧ n + 44 * k ≤ r.t.holdAt + r.t.holdLen
      · cases he : entries (partEntry r (aGet r.x d)) (List.range k) <;> simp [within, hn, hw, he]
      · have hf : within n (44 * k) r.t.holdAt (r.t.holdAt + r.t.holdLen) = false := by simpa [within] using hw
        simp [hf, hw]

/-- A sweep, where it issues (R211): its type, its handles and its entries are checked before any partial changes; `u` is the
state after the free value, if it draws one. -/
theorem xswp_issues {op : XOp} {copy : Bool} {t : ElemT} {u : State}
    (hu : (if op.bitwise && !t.isInt && !copy then draw s else s) = u) (d a : AReg) (b : SReg) (p : PReg) :
    xswp c i op copy t d a b p .clean s =
      .next (if t.code ≠ r.c.fmt then progFault c.val excType s
        else if viewsParts (aGet r.x d) = false ∨ aGet r.x a = .unbound then progFault c.val excBounds s
        else match entries (partEntry r (aGet r.x d)) (laneEntries r b p t.lanes),
            entries (storedEntry r (aGet r.x a)) (laneEntries r b p t.lanes) with
          | some es, some fs =>
            let y := (((enabledLanes (pGet r.x p) t.lanes).zip es).zip fs).foldl (fun acc x =>
              sweepElem r op copy t x.1.2 x.2 (bits (freeVal s) (318 * x.1.1) 318) acc s) (r.c, 0)
            accSat r y.2 (retireChunk r y.1 r.x u)
          | _, _ => progFault c.val excBounds s) := by
  subst hu
  rw [xswp, lunaRead_clean h]
  generalize hks : laneEntries r b p t.lanes = ks
  by_cases ht : t.code = r.c.fmt
  · by_cases hv : viewsParts (aGet r.x d) = false ∨ aGet r.x a = .unbound
    · simp [ht, hv]
    · cases hes : entries (partEntry r (aGet r.x d)) ks <;> cases hfs : entries (storedEntry r (aGet r.x a)) ks <;>
        simp [ht, hv, hks, hes, hfs]
  · simp [ht]

end

/-- Only a view and an element can be missing, both of them BOUNDS (Table 9-9). -/
theorem taskInfo_error {r : Run} {m : Nat} {x : Word} {s : State} {e : Nat} (h : taskInfo r m x s = .error e) :
    e = excBounds ∧ 4 ≤ m := by
  match m, h with
  | 4, h =>
    simp only [taskInfo] at h
    split at h <;> cases h
    exact ⟨rfl, le_refl 4⟩
  | m + 5, h =>
    simp only [taskInfo] at h
    split at h <;> cases h
    exact ⟨rfl, by omega⟩

/-- A range of bytes that is not within another. -/
theorem within_eq_false {a n lo hi : Nat} : within a n lo hi = false ↔ ¬(lo ≤ a ∧ a + n ≤ hi) := by
  rw [within, ← Bool.decide_and, decide_eq_false_iff_not]

end Sys2Proof.Machine
end

section
/-! SUPPORT. What a Luna instruction can reach: its own core, the open chunks of its die, the free-value counter, the counters
and events of the OX9 (R201, R205, R208); what an SRAM read adds to an instruction (R31, R33). -/

namespace Sys2Proof.Machine

/-! ### States that differ inside the reach of one core -/

/-- A state reached from another by what an instruction of a core can change. -/
structure CoreLocal (core : Core) (s t : State) : Prop where
  cores : ∀ k : Nat, k ≠ core.val → lcore k t = lcore k s
  dies : ∀ d : Nat, d ≠ core.val / 108 → lunaDie d t = lunaDie d s
  die : { lunaDie (core.val / 108) t with chunks := (lunaDie (core.val / 108) s).chunks } = lunaDie (core.val / 108) s
  rest : { t with cores := s.cores, luna := s.luna, free := s.free, ox := s.ox } = s
  regs : t.ox.regs = s.ox.regs
  time : t.ox.time = s.ox.time

namespace CoreLocal

variable {core : Core} {r : Run} {s t u : State}

theorem refl (core : Core) (s : State) : CoreLocal core s s := ⟨fun _ _ => rfl, fun _ _ => rfl, rfl, rfl, rfl, rfl⟩

theorem trans (h : CoreLocal core s t) (h' : CoreLocal core t u) : CoreLocal core s u where
  cores k hk := (h'.cores k hk).trans (h.cores k hk)
  dies d hd := (h'.dies d hd).trans (h.dies d hd)
  die := (congrArg (fun x => { x with chunks := (lunaDie (core.val / 108) s).chunks }) h'.die).trans h.die
  rest := (congrArg (fun x => { x with cores := s.cores, luna := s.luna, free := s.free, ox := s.ox }) h'.rest).trans h.rest
  regs := h'.regs.trans h.regs
  time := h'.time.trans h.time

theorem setCore (x : LCore) (s : State) : CoreLocal core s (setCore core.val x s) :=
  ⟨fun _ hk => lcore_setCore_ne _ _ hk, fun _ _ => rfl, rfl, rfl, rfl, rfl⟩

theorem modChunk (id : ChunkId) (f : LChunk → LChunk) (s : State) :
    CoreLocal core s (modChunk (core.val / 108) id f s) := by
  refine ⟨fun _ _ => rfl, fun d hd => SMap.get_set_ne _ _ _ hd, ?_, rfl, rfl, rfl⟩
  rw [Machine.modChunk, modLuna, lunaDie, SMap.get_set_self]

theorem count_raise (p : Place) (c : Ctr) (e : Event) (s : State) :
    CoreLocal core s (raise .ox9 e (countN .ox9 p c 1 s)) :=
  ⟨fun _ _ => rfl, fun _ _ => rfl, rfl, rfl, rfl, rfl⟩

theorem draw (h : CoreLocal core s t) : CoreLocal core s (draw t) :=
  h.trans ⟨fun _ _ => rfl, fun _ _ => rfl, rfl, rfl, rfl, rfl⟩

theorem draw_if (p : Prop) [Decidable p] (s : State) : CoreLocal core s (if p then Machine.draw s else s) := by
  split
  · exact (refl core s).draw
  · exact refl core s

section
variable {s0 : State} (hr : runOf core s0 = some r) (h : CoreLocal core s t)
include hr h

theorem retire (x : LCore) : CoreLocal core s (retire r x t) := by
  obtain ⟨rfl, -⟩ := runOf_eq hr
  exact h.trans (setCore ..)

theorem jumpTo (pc : Nat) (x : LCore) : CoreLocal core s (jumpTo r pc x t) := by
  obtain ⟨rfl, -⟩ := runOf_eq hr
  exact h.trans (setCore ..)

theorem retireChunk (c : LChunk) (x : LCore) : CoreLocal core s (retireChunk r c x t) := by
  obtain ⟨-, hd, -⟩ := runOf_eq hr
  have hchunk : CoreLocal core t (Machine.modChunk r.d r.c.id (fun _ => c) t) := hd ▸ modChunk ..
  exact (h.trans hchunk).retire hr x

end

/-- Saturations are counts and events. -/
theorem accSat (r : Run) (n : Nat) {t : State} (h : CoreLocal core s t) : CoreLocal core s (accSat r n t) := by
  induction n generalizing t with
  | zero => exact h
  | succ n ih => exact ih (h.trans (count_raise ..))

end CoreLocal

/-! ### An effect of an instruction that stays inside that reach -/

/-- How an instruction ends from a state: an exception, or within the core's reach. -/
def EndsLocal (core : Core) (s : State) (o : Exec) : Prop :=
  match o with
  | .ok t => CoreLocal core s t
  | .error _ => True

/-- A check before an effect ends the task or changes nothing. -/
theorem EndsLocal.check {core : Core} {s : State} {p : Prop} [Decidable p] {cause : Nat} {o : Exec}
    (h : EndsLocal core s o) : EndsLocal core s (if p then .error cause else o) := by
  split
  · trivial
  · exact h

/-- Wherever a core runs a task, the effect ends within the core's reach. -/
def StaysLocal (f : Run → State → Exec) : Prop :=
  ∀ (core : Core) (s : State) (r : Run), runOf core s = some r → EndsLocal core s (f r s)

/-- Within the reach of a core: unchanged, the end of the task by an exception, or local changes. -/
def Reach (core : Core) (s t : State) : Prop :=
  t = s ∨ (∃ cause : Nat, t = progFault core.val cause s) ∨ CoreLocal core s t

theorem issue_cases (core : Core) (i : Instr) (f : Run → State → Exec) (s : State) :
    issue core i f s = s ∨ (∃ cause : Nat, issue core i f s = progFault core.val cause s) ∨
      ∃ r : Run, runOf core s = some r ∧ f r s = .ok (issue core i f s) := by
  unfold issue
  cases hr : runOf core s with
  | none => exact .inl rfl
  | some r =>
    dsimp only
    split
    · cases hf : f r s with
      | ok t => exact .inr (.inr ⟨r, rfl, hf⟩)
      | error cause => exact .inr (.inl ⟨cause, rfl⟩)
    · exact .inl rfl

theorem reach_lunaOp {core : Core} {i : Instr} {f : Run → State → Exec} {s t : State} (hf : StaysLocal f)
    (h : lunaOp core i f s = .next t) : Reach core s t := by
  rcases live_cases (issue core i f) s with hlive | hlive <;> cases h.symm.trans hlive
  · exact .inl rfl
  · rcases issue_cases core i f s with heq | hfault | ⟨r, hr, hok⟩
    · exact .inl heq
    · exact .inr (.inl hfault)
    · have hlocal := hf core s r hr
      rw [hok] at hlocal
      exact .inr (.inr hlocal)

/-- A read that meets no error adds nothing to an instruction. -/
theorem lunaRead_clean_eq (core : Core) (i : Instr) (f : Run → State → Exec) (s : State) :
    lunaRead core i .clean f s = lunaOp core i f s := by
  have hissue : issueRead core i .clean f s = issue core i f s := by
    unfold issueRead
    cases hr : runOf core s with
    | none => simp only [issue, hr]
    | some r =>
      by_cases hw : fetchOf r s = some i
      · simp [hw, rowStalled, readLost, sramRead]
      · simp [hw, issue, hr]
  simp only [lunaRead, lunaOp, live, hissue]

theorem reach_lunaRead {core : Core} {i : Instr} {f : Run → State → Exec} {s t : State} (hf : StaysLocal f)
    (h : lunaRead core i .clean f s = .next t) : Reach core s t :=
  reach_lunaOp hf ((lunaRead_clean_eq ..).symm.trans h)

/-! ### The forms of effects -/

namespace StaysLocal

theorem retires (x : Run → State → LCore) : StaysLocal fun r s => .ok (retire r (x r s) s) :=
  fun core s _ hr => (CoreLocal.refl core s).retire hr _

theorem changesChunk (c : Run → State → LChunk) (x : Run → State → LCore) :
    StaysLocal fun r s => .ok (retireChunk r (c r s) (x r s) s) :=
  fun core s _ hr => (CoreLocal.refl core s).retireChunk hr _ _

theorem jumps (pc : Run → State → Nat) (x : Run → State → LCore) :
    StaysLocal fun r s => .ok (jumpTo r (pc r s) (x r s) s) :=
  fun core s _ hr => (CoreLocal.refl core s).jumpTo hr _ _

end StaysLocal

/-! ### The shared forms of the X unit -/

section
variable {c : Core} {i : Instr} {s u : State}

theorem reach_xop {op : XOp} {t : ElemT} {d : AReg} {a : VReg} {b : SReg} {p : PReg}
    (h : xop c i op t d a b p .clean s = .next u) : Reach c s u := by
  refine reach_lunaRead (fun core s r hr => .check (.check ?_)) h
  split
  · trivial
  · exact ((CoreLocal.draw_if _ s).retireChunk hr _ _).accSat r _

theorem reach_xid {rop : Nat} {d : AReg} {a b : SReg} (h : xid c i rop d a b s = .next u) : Reach c s u := by
  refine reach_lunaOp (fun core s r hr => .check (.check ?_)) h
  split
  · trivial
  · exact (CoreLocal.refl core s).retireChunk hr _ _

theorem reach_xWide {op : XOp} {d : AReg} {a b : SReg} (h : xWide c i op d a b .clean s = .next u) : Reach c s u := by
  refine reach_lunaRead (fun core s r hr => .check (.check ?_)) h
  split
  · trivial
  · exact ((CoreLocal.refl core s).retireChunk hr _ _).accSat r _

theorem reach_xswp {op : XOp} {copy : Bool} {t : ElemT} {d a : AReg} {b : SReg} {p : PReg}
    (h : xswp c i op copy t d a b p .clean s = .next u) : Reach c s u := by
  refine reach_lunaRead (fun core s r hr => .check (.check ?_)) h
  split
  · exact ((CoreLocal.draw_if _ s).retireChunk hr _ _).accSat r _
  · trivial

end

/-! ### Reads that meet an error (R31, R33) -/

theorem halted_sramRead (die : Nat) (r : SramRead) (s : State) : halted (sramRead die r s) = halted s := by
  cases r <;> rfl

/-- An instruction about to issue waits while its row is copied, loses its word, or goes on as one without an error. -/
theorem lunaRead_awaits {core : Core} {i : Instr} {s : State} {k : Run} (h : Issues core i s k) (r : SramRead)
    (f : Run → State → Exec) : lunaRead core i r f s = if rowStalled (52 + k.d) r s then .next s
      else if readLost r then .next (lostWord core.val k.t (sramRead (52 + k.d) r s))
      else lunaRead core i .clean f (sramRead (52 + k.d) r s) := by
  have hawake : halted (sramRead (52 + k.d) r s) = false := (halted_sramRead ..).trans h.awake
  rw [lunaRead_issues h, lunaRead_clean_eq, lunaOp, live_awake _ hawake]
  split_ifs <;> rfl

/-! ### Instruction by instruction -/

/-- A Luna instruction other than done, its SRAM read without an error, stays within the reach of its core. -/
theorem reach_exec {i : Instr} {core : Core} {w : Nat} {s t : State} (henc : encodeLunaWord i = some (core, w))
    (hdone : ∀ c : Core, i ≠ .done c) (hbare : bareRead i = i) (h : exec i s = .next t) : Reach core s t := by
  cases i with
  | add | sub | andd | orr | xorr | shl | shr | sar | mul | slt | sltu | seqq | smin | smax | addi | andi | ori | shli | shri
  | lsh | li | pand | por | pxor | pandn | pmov | pget | pfirst | pcnt | bitm | vadd | vsub | vmax | vmin | vand | vor
  | vxor | vsel | vsplat =>
    cases henc
    exact reach_lunaOp (.retires _) h
  | jmp | call | ret =>
    cases henc
    exact reach_lunaOp (.jumps _ _) h
  | beq | bne | blt | bltu | bany | bnone =>
    cases henc
    refine reach_lunaOp (fun core s r hr => ?_) h
    split
    · exact (CoreLocal.refl core s).jumpTo hr _ _
    · exact (CoreLocal.refl core s).retire hr _
  | ld | ldw | vld =>
    cases henc; cases hbare
    refine reach_lunaRead (fun core s r hr => ?_) h
    split
    · exact (CoreLocal.refl core s).retire hr _
    · trivial
  | st | stw | vst | ldc | vldc | rdt =>
    cases henc
    refine reach_lunaOp (fun core s r hr => ?_) h
    split
    · exact (CoreLocal.refl core s).retire hr _
    · trivial
  | vcmpEq | vcmpLt | vcmpLe | vcmpNe =>
    cases henc
    refine reach_lunaOp (fun core s r hr => ?_) h
    split
    · exact (CoreLocal.refl core s).draw.retire hr _
    · exact (CoreLocal.refl core s).retire hr _
  | vcvt =>
    cases henc
    refine reach_lunaOp (fun core s r hr => ?_) h
    exact (CoreLocal.draw_if _ s).retire hr _
  | vlda =>
    cases henc; cases hbare
    refine reach_lunaRead (fun core s r hr => ?_) h
    split
    · trivial
    · exact (CoreLocal.refl core s).retire hr _
  | vsta =>
    cases henc
    refine reach_lunaOp (fun core s r hr => .check ?_) h
    split
    · trivial
    · exact (CoreLocal.refl core s).retireChunk hr _ _
  | vrnd =>
    cases henc
    refine reach_lunaOp (fun core s r hr => .check ?_) h
    exact (CoreLocal.draw_if _ s).retireChunk hr _ _
  | xadd | xsub | xmax | xmin | xand | xior | xxor =>
    cases henc; cases hbare
    exact reach_xop h
  | xset =>
    cases henc
    exact reach_xop h
  | xidSum | xidMax | xidMin | xidAnd | xidOr | xidXor | xidCopy =>
    cases henc
    exact reach_xid h
  | xaddw | xsubw =>
    cases henc; cases hbare
    exact reach_xWide h
  | aoff =>
    cases henc
    refine reach_lunaOp (fun core s r hr => .check ?_) h
    exact (CoreLocal.refl core s).retire hr _
  | xswpAdd | xswpMax | xswpMin | xswpAnd | xswpOr | xswpXor | xswpCopy =>
    cases henc; cases hbare
    exact reach_xswp h
  | fswp =>
    cases henc; cases hbare
    refine reach_lunaRead (fun core s r hr => .check (.check ?_)) h
    split
    · trivial
    · exact (CoreLocal.refl core s).retire hr _
  | xrnd =>
    cases henc; cases hbare
    refine reach_lunaRead (fun core s r hr => .check (.check ?_)) h
    split
    · trivial
    · exact (CoreLocal.draw_if _ s).retireChunk hr _ _
  | xbexp =>
    cases henc; cases hbare
    refine reach_lunaRead (fun core s r hr => .check (.check ?_)) h
    split
    · trivial
    · exact (CoreLocal.refl core s).retireChunk hr _ _
  | vbexp =>
    cases henc
    refine reach_lunaOp (fun core s r hr => .check ?_) h
    split
    · trivial
    · exact (CoreLocal.refl core s).retireChunk hr _ _
  | xmrg =>
    cases henc; cases hbare
    refine reach_lunaRead (fun core s r hr => .check (.check ?_)) h
    dsimp only
    split
    · refine .check ?_
      split
      · exact (CoreLocal.refl core s).retire hr _
      · exact ((CoreLocal.refl core s).retireChunk hr _ _).accSat r _
    · split
      · trivial
      · exact ((CoreLocal.refl core s).retireChunk hr _ _).accSat r _
  | xdns =>
    cases henc; cases hbare
    exact reach_lunaRead (.changesChunk _ _) h
  | ost =>
    cases henc
    refine reach_lunaOp (fun core s r hr => .check (.check ?_)) h
    exact (CoreLocal.refl core s).retire hr _
  | done c => exact absurd rfl (hdone c)
  | _ => cases henc

/-- An instruction about to issue waits for its row, loses its word, or goes on as one whose read meets no error. -/
theorem exec_awaits {i : Instr} {core : Core} {w : Nat} {s : State} {r : Run} (henc : encodeLunaWord i = some (core, w))
    (h : Issues core (bareRead i) s r) :
    exec i s = if rowStalled (52 + r.d) (readOf i) s then .next s
      else if readLost (readOf i) then .next (lostWord core.val r.t (sramRead (52 + r.d) (readOf i) s))
      else exec (bareRead i) (sramRead (52 + r.d) (readOf i) s) := by
  cases i with
  | ld | ldw | vld | vlda | xadd | xsub | xmax | xmin | xand | xior | xxor | xaddw | xsubw | xswpAdd | xswpMax | xswpMin
  | xswpAnd | xswpOr | xswpXor | xswpCopy | fswp | xrnd | xbexp | xmrg | xdns =>
    cases henc
    exact lunaRead_awaits h _ _
  | _ => rfl

end Sys2Proof.Machine
end

section
/-! PROOFS. The statements of the Luna instruction set: its words, each instruction where it issues, what no instruction
reaches. -/

namespace Sys2Proof.Machine

/-- Settles O40: a word holds the fields it is written with, and its decoder reads them. -/
theorem lunaWordDecodesBack : Obligations.LunaWordDecodesBack :=
  fun _ _ _ => decode_encodeLunaWord

/-- Settles O41: a word is its fields, and the decoder of its OP takes every one of them into the instruction. -/
theorem lunaWordIsExact : Obligations.LunaWordIsExact :=
  fun _ _ _ => encode_decodeLunaWord

/-- Settles O25: a scalar instruction that issues is its one write of sD, a comparison the truth value of its condition. -/
theorem lunaScalarArithmetic : Obligations.LunaScalarArithmetic := by
  refine ⟨fun c d a b s r => ⟨fun h => lunaOp_issues h _, fun h => lunaOp_issues h _, fun h => lunaOp_issues h _,
    fun h => lunaOp_issues h _, fun h => lunaOp_issues h _, fun h => lunaOp_issues h _, fun h => lunaOp_issues h _,
    fun h => lunaOp_issues h _, fun h => lunaOp_issues h _, fun h => (lunaOp_issues h _).trans ?slt,
    fun h => (lunaOp_issues h _).trans ?sltu, fun h => (lunaOp_issues h _).trans ?seq,
    fun h => (lunaOp_issues h _).trans ?smin, fun h => (lunaOp_issues h _).trans ?smax⟩,
    fun c d a s r => ⟨fun imm h => lunaOp_issues h _, fun imm h => lunaOp_issues h _, fun imm h => lunaOp_issues h _,
      fun imm h => lunaOp_issues h _, fun n h => lunaOp_issues h _, fun n h => lunaOp_issues h _,
      fun imm h => lunaOp_issues h _⟩⟩
  case slt | smin | smax => simp only [scalarTo, boolWord, sLess, decide_eq_true_eq]
  case sltu => simp only [scalarTo, boolWord, uLess, decide_eq_true_eq]
  case seq => simp only [scalarTo, boolWord, beq_iff_eq]

/-- Settles O26: a branch that issues goes by its condition; jmp, call and ret go to their target. -/
theorem lunaBranches : Obligations.LunaBranches := by
  intro c off s r
  refine ⟨fun a b h => (lunaOp_issues h _).trans ?beq, fun a b h => (lunaOp_issues h _).trans ?bne,
    fun a b h => (lunaOp_issues h _).trans ?blt, fun a b h => (lunaOp_issues h _).trans ?bltu,
    fun a h => (lunaOp_issues h _).trans ?bany, fun a h => (lunaOp_issues h _).trans ?bnone, fun h => lunaOp_issues h _,
    fun h => lunaOp_issues h _, fun h => (lunaOp_issues h _).trans ?ret, fun pc => rfl⟩
  case beq => simp only [beq_iff_eq]
  case bne => simp only [bne_iff_ne]
  case blt => simp only [sLess, decide_eq_true_eq]
  case bltu => simp only [uLess, decide_eq_true_eq]
  case bany => simp only [anyLane, bne_iff_ne]
  case bnone => simp only [anyLane, Bool.not_eq_true', bne_eq_false_iff_eq]
  case ret => rw [nth, ← List.head?_eq_getElem?, List.drop_one]

/-- Settles O27: each predicate instruction is its one write; pfirst, pcnt and bitm go bit by bit. -/
theorem lunaPredicates : Obligations.LunaPredicates := by
  intro c s r
  refine ⟨fun d a b h => lunaOp_issues h _, fun d a b h => lunaOp_issues h _, fun d a b h => lunaOp_issues h _,
    fun d a b h => lunaOp_issues h _, fun d a h => lunaOp_issues h _, fun d a h => lunaOp_issues h _,
    fun d a h => ⟨_, lunaOp_issues h _, fun i hi => getLsbD_firstBits _ hi⟩, fun d a h => ?pcnt, fun d a h => ?bitm⟩
  case pcnt =>
    rw [← popCount_eq_countP]
    exact lunaOp_issues h _
  case bitm =>
    rw [← boolWord_contains_runSlots]
    exact lunaOp_issues h _

/-- Settles O28: an access is permitted or not, and both ends are those of the shared load and store. -/
theorem lunaLoadsAndStores : Obligations.LunaLoadsAndStores := by
  intro c d a v imm s r
  refine ⟨fun h => (lunaRead_clean h _).trans ?_, fun h => (lunaRead_clean h _).trans ?_,
    fun h => (lunaRead_clean h _).trans ?_, fun h => (lunaOp_issues h _).trans ?_, fun h => (lunaOp_issues h _).trans ?_,
    fun h => (lunaOp_issues h _).trans ?_, fun h p hp => (lunaOp_issues h _).trans ?_,
    fun h p hp => (lunaOp_issues h _).trans ?_⟩
  · cases hm : memOk r (addrOf r a imm) 8 8 false <;> simp [loadN, hm, scalarTo]
  · cases hm : memOk r (addrOf r a imm) 4 4 false <;> simp [loadN, hm, scalarTo]
  · cases hm : memOk r (addrOf r a imm) 64 64 false <;> simp [loadN, hm]
  · cases hm : memOk r (addrOf r a imm) 8 8 true <;> simp [storeN, hm]
  · cases hm : memOk r (addrOf r a imm) 4 4 true <;> simp [storeN, hm]
  · cases hm : memOk r (addrOf r a imm) 64 64 true <;> simp [storeN, hm]
  · by_cases hm : addrOf r a imm % 8 = 0 ∧ addrOf r a imm + 8 ≤ imgFld p 16 4 <;> simp [loadConst, hp, hm, scalarTo]
  · by_cases hm : addrOf r a imm % 64 = 0 ∧ addrOf r a imm + 64 ≤ imgFld p 16 4 <;> simp [loadConst, hp, hm]

/-- Settles O29: a write of bytes puts each of them at its own address of the memory, and touches no other field. -/
theorem lunaStoreChangesItsBytesAlone : Obligations.LunaStoreChangesItsBytesAlone := by
  intro x a n bs
  refine ⟨fun k hk => memRead_write_byte x a bs hk, fun b hb => memRead_write_outside x hb, fun k v hk hbs hv => ?_,
    rfl, rfl, rfl, rfl, rfl, rfl, rfl, rfl, rfl, wf_memPut a bs⟩
  have hlen : bs.length = n := hbs ▸ length_toLE n v
  rw [← hlen, memRead_write_self, hbs, ofLE_toLE, hk, Nat.mod_eq_of_lt hv]

/-- Settles O30: each register file by its own law of reads after writes, and retiring is one core set. -/
theorem lunaRegisterFiles : Obligations.LunaRegisterFiles :=
  ⟨sGet_sPut, fun _ _ h => if_pos h, fun _ _ _ h => if_pos h, pGet_pPut, fun _ _ h => if_pos h, fun _ _ _ h => if_pos h,
    vGet_vPut, aGet_aPut, sPut_frame, pPut_frame, fun _ _ _ => rfl,
    fun _ _ _ => ⟨lcore_setCore_self .., fun _ hk => lcore_setCore_ne _ _ hk, rfl⟩⟩

/-- Settles O31: seven of the operations are one lane-wise form, and vsel merges vA into vB. -/
theorem lunaVectorLanes : Obligations.LunaVectorLanes := by
  intro c t d a b p s r
  exact ⟨fun _ h => vecOp_issues h .., fun _ h => vecOp_issues h .., fun _ h => vecOp_issues h ..,
    fun _ h => vecOp_issues h ..,
    fun h => vecOp_issues_of_lt h (hf := fun x hx y _ => lt_of_le_of_lt Nat.and_le_left hx) ..,
    fun h => vecOp_issues_of_lt h (hf := fun x hx y hy => Nat.or_lt_two_pow hx hy) ..,
    fun h => vecOp_issues_of_lt h (hf := fun x hx y hy => Nat.xor_lt_two_pow hx hy) ..,
    fun h => ⟨_, lunaOp_issues h _, fun k hk => by
      rw [laneGet_mergeLanes (ElemT.size_cases t) _ _ _ hk, Nat.mod_eq_of_lt (laneGet_lt ..)]⟩⟩

/-- Settles O32: a comparison is bit by bit, splat and convert pack every lane, and a NaN leaves .ne alone. -/
theorem lunaCompareSplatConvert : Obligations.LunaCompareSplatConvert := by
  intro c t p s r
  refine ⟨fun d a b h ht => vecCmp_issues h ht .., fun d a b h ht => vecCmp_issues h ht ..,
    fun d a b h ht => vecCmp_issues h ht .., fun d a b h ht => vecCmp_issues h ht ..,
    fun d a h => ⟨_, lunaOp_issues h _, fun k hk => laneGet_packLanes (ElemT.size_cases t) _ hk⟩, fun d a f h => ?_,
    fun d a b i ht hi h => ?_, fun u w _ hnan => ?_⟩
  · refine ⟨_, (lunaOp_issues h _).trans (by simp only [Bool.or_eq_true, decide_eq_true_eq]; rfl), fun k hk ht hl => ?_⟩
    rw [laneGet_packLanes (by decide) _ hk]
    simp [ht, Nat.not_le.2 hl, laneVal]
  · subst ht
    simp only [List.mem_cons, List.not_mem_nil, or_false] at hi
    rcases hi with rfl | rfl | rfl | rfl <;> exact vecCmp_raw_issues h ..
  · simp [Cmp.holds_nan hnan]

/-- Settles O33: the eight accumulations are one form. -/
theorem lunaAccumulate : Obligations.LunaAccumulate := by
  intro c t b p s r
  exact ⟨fun d a h => xop_issues h .., fun d a h => xop_issues h .., fun d a h => xop_issues h ..,
    fun d a h => xop_issues h .., fun d a h => xop_issues h .., fun d a h => xop_issues h .., fun d a h => xop_issues h ..,
    fun d a h => xop_issues h ..⟩

/-- Settles O34: the seven identities are one form, the two wide forms another; the others meet their view or not. -/
theorem lunaIdentitiesWideAndViews : Obligations.LunaIdentitiesWideAndViews := by
  intro c d a b s r
  refine ⟨fun h => xid_issues h .., fun h => xid_issues h .., fun h => xid_issues h .., fun h => xid_issues h ..,
    fun h => xid_issues h .., fun h => xid_issues h .., fun h => xid_issues h .., fun h => xWide_issues h ..,
    fun h => xWide_issues h .., fun e h => (lunaOp_issues h _).trans ?aoff, fun v e h => (lunaRead_clean h _).trans ?vlda,
    fun v e p h => (lunaOp_issues h _).trans ?vsta⟩
  case aoff => by_cases hk : viewCount r (aGet r.x e) ≤ (sGet r.x b).toNat <;> simp [hk]
  case vlda =>
    cases entries (accEntry r (aGet r.x e)) ((List.range 16).map fun k => (sGet r.x b).toNat + k) <;> rfl
  case vsta =>
    by_cases hu : aGet r.x e = .unbound
    · simp [hu]
    · cases he : entries (accEntry r (aGet r.x e)) (laneEntries r b p 16) <;>
        simp [hu, he]

/-- Settles O35: a lane by its operator, partials and accumulators by the read and write laws of the table they stand in. -/
theorem lanesCombineIntoPartials : Obligations.LanesCombineIntoPartials := by
  refine ⟨fun p t x fr => ⟨rfl, rfl, rfl, fun neg m hv => ?max, fun neg m hv => ?min, fun ht => ⟨?and, ?or, ?xor⟩⟩,
    partGet_partPut, accGet_accPut, fun r c e p v => ?frame⟩
  case max =>
    change p.combine 1 (decodeLane t.code x) = _
    rw [hv]
    rfl
  case min =>
    change p.combine 2 (decodeLane t.code x) = _
    rw [hv]
    rfl
  case and | or | xor =>
    rw [xCombine_bitwise_of_isInt rfl ht, ← toInt_div_of_isInt ht]
    rfl
  case frame =>
    unfold partPut accPut
    split_ifs <;> exact ⟨rfl, rfl, rfl, rfl, rfl, rfl, rfl, rfl, rfl, rfl, rfl, rfl⟩

/-- Settles O36: the seven sweeps are one form, of which the three bitwise ones draw a free value for lanes that are no
integers; fswp sums into its own lanes. -/
theorem lunaSweeps : Obligations.LunaSweeps := by
  intro c t d a b p s r
  refine ⟨fun h => xswp_issues h rfl .., fun h => xswp_issues h rfl .., fun h => xswp_issues h rfl ..,
    fun h => xswp_issues h ?and .., fun h => xswp_issues h ?or .., fun h => xswp_issues h ?xor ..,
    fun h => xswp_issues h rfl .., fun v h => (lunaRead_clean h _).trans ?fswp⟩
  case fswp =>
    by_cases ht : t.code = r.c.fmt
    · by_cases hu : aGet r.x a = .unbound
      · simp [hu, ht]
      · cases hes : entries (storedEntry r (aGet r.x a)) (laneEntries r b p 16) <;>
          simp [ht, hu, hes, laneVal]
    · simp [ht]
  case and | or | xor => cases t.isInt <;> rfl

/-- Settles O37: each instruction by its checks, in the order they are made. -/
theorem lunaRoundAndOutput : Obligations.LunaRoundAndOutput := by
  intro c t b p s r
  refine ⟨fun d a h => (lunaRead_clean h _).trans ?xrnd, fun d a f h => (lunaOp_issues h _).trans ?vrnd,
    fun d h => (lunaRead_clean h _).trans ?xbexp, fun a h => (lunaOp_issues h _).trans ?vbexp,
    fun a h => (lunaOp_issues h _).trans ?ost⟩
  case xrnd =>
    by_cases ht : t.code = runOut r s
    · cases hv : viewsParts (aGet r.x a)
      · simp [ht]
      · cases hes : entries (partEntry r (aGet r.x a)) (laneEntries r b p t.lanes) <;>
          simp [ht, hes]
    · simp [ht]
  case vrnd =>
    by_cases ht : t.code = runOut r s <;> simp [ht]
  case xbexp =>
    by_cases hx : t.code ≠ runOut r s ∨ isMx t.code = false
    · simp [hx]
    · cases hv : viewsParts (aGet r.x d)
      · simp [hx]
      · cases hes : entries (partEntry r (aGet r.x d)) (laneEntries r b p t.lanes) <;>
          simp [hx, hes]
  case vbexp =>
    by_cases hx : t.code ≠ runOut r s ∨ isMx t.code = false
    · simp [hx]
    · cases hes : entries (elemAt r) (laneEntries r b p 16) <;> simp [hx, hes]
  case ost =>
    by_cases ht : t.code = runOut r s
    · by_cases ho : r.t.kind ≠ 5 ∨ r.t.s3 < r.x.lanes.length + (enabledLanes (pGet r.x p) t.lanes).length
      · simp [ht, ho]
      · simp [ht, ho]
    · simp [ht]

/-- Settles O38: xmrg by its checks in order and by the form of the chunk; rdt by what it may miss; done by whether its output
suffices. -/
theorem lunaMergeAndTaskEnd : Obligations.LunaMergeAndTaskEnd := by
  intro c t d a b s r
  refine ⟨fun h => (lunaRead_clean h _).trans ?xmrg, fun h => lunaRead_clean h _,
    fun m v h hv => (lunaOp_issues h _).trans ?rdt, fun m e h he => ?rdtMissing, ⟨rfl, rfl, rfl, rfl⟩,
    fun h => (lunaOp_issues h _).trans ?done⟩
  case xmrg =>
    simp only [Bool.or_eq_true, Bool.and_eq_true, decide_eq_true_eq, Bool.not_eq_true', within_eq_false]
    split_ifs
    · rfl
    · rfl
    · rfl
    · rfl
    · rfl
    · cases entries (fun j => (r.t.elems.findIdx? fun e => e = j).bind (partEntry r (aGet r.x 0)))
        ((holdEntries r (sGet r.x a).toNat (sGet r.x b).toNat).map (·.1)) <;> rfl
  case rdt => simp only [hv, scalarTo]
  case rdtMissing =>
    obtain ⟨rfl, hm⟩ := taskInfo_error he
    exact ⟨rfl, hm, (lunaOp_issues h _).trans (by simp only [he])⟩
  case done =>
    obtain ⟨hcore, -⟩ := runOf_eq h.task
    simp only [taskDone, hcore]
    by_cases hk : r.t.kind = 5 ∧ r.x.lanes.length < outRequired r
    · simp [hk]
    · simp [hk]

/-- Settles O39: each word runs through the decoder of its OP. -/
theorem lunaWordsDecode : Obligations.LunaWordsDecode := by
  intro c
  exact ⟨rfl, rfl, rfl, rfl, rfl, rfl, rfl, rfl, rfl, rfl, rfl, rfl, rfl, rfl, rfl, rfl, rfl, rfl, rfl, rfl, rfl, rfl, rfl, rfl,
    rfl, rfl, rfl, rfl, rfl, rfl, rfl⟩

/-- Settles O48: each instruction by the form of its effect, which ends on its own core and in a chunk of its die. -/
theorem lunaInstructionsLeaveTheRestAlone : Obligations.LunaInstructionsLeaveTheRestAlone := by
  refine ⟨fun i core w s t henc hdone hbare h => ?_, fun i core w s r henc h => exec_awaits henc h⟩
  rcases reach_exec henc hdone hbare h with heq | hfault | hlocal
  · exact .inl heq
  · exact .inr (.inl hfault)
  · exact .inr (.inr ⟨hlocal.cores, hlocal.dies, hlocal.die, hlocal.rest, hlocal.regs, hlocal.time⟩)

end Sys2Proof.Machine
end

section
/-! SUPPORT. Commands of one OEB as operations that reach nothing far from it, and writes of the fields that OEB_ID.LOCK
guards. -/

namespace Sys2Proof.Machine

/-! ### Commands of one OEB -/

/-- An operation of one OEB that reaches nothing far from it leaves that as it was in the state its command answers. -/
theorem run_far {acting side : Side} {f : State → State} {s t : State} (hside : some acting = some side)
    (hexec : run f s = .next t) (hfar : farOf acting (f s) = farOf acting s) : farOf side t = farOf side s := by
  obtain rfl := Option.some.inj hside
  obtain rfl := Host.Outcome.next.inj hexec
  exact hfar

/-- Every command of one OEB is an operation of that OEB, and none of them reaches what is far from it. -/
theorem exec_far {c : Instr} {side : Side} {s t : State} (hside : oebSide c = some side) (hexec : exec c s = .next t) :
    farOf side t = farOf side s := by
  cases c with
  | load | store | storeNp | atomic | msgSend | contrib | cwGetS | cwGetM | cwUpg | cwWb =>
    exact run_far hside hexec (attach_far ..)
  | fenceSys => exact run_far hside hexec (fenceSys_far ..)
  | lcWait => exact run_far hside hexec (lcWait_far ..)
  | lcRd => exact run_far hside hexec (lcRd_far ..)
  | lcWr => exact run_far hside hexec (lcWr_far ..)
  | lcWaitTimeout | dmaWaitTimeout => exact run_far hside hexec (waitTimeout_far ..)
  | dmaRingDoorbell | dmaCompletionWait => exact run_far hside hexec (dmaRing_far ..)
  | dmaTailWrite => exact run_far hside hexec (tailWrite_far ..)
  | descriptorFetch => exact run_far hside hexec (descFetch_far ..)
  | dmaCopy | dmaFill | dmaCompare | dmaDecrypt | dmaNoOperation => exact run_far hside hexec (startDesc_far ..)
  | dmaBurstIssue => exact run_far hside hexec (dmaBurst_far ..)
  | dmaTimerTrigger => exact run_far hside hexec (timerTrigger_far ..)
  | dmaDescriptorComplete => exact run_far hside hexec (descComplete_far ..)
  | dmaStop => exact run_far hside hexec (dmaStop_far ..)
  | dmaErrClear => exact run_far hside hexec (dmaErrClear_far ..)
  | dmaChannelDisable => exact run_far hside hexec (dmaDisable_far ..)
  | walkStart => exact run_far hside hexec (walkNext_far ..)
  | requestIssue => exact run_far hside hexec (requestIssue_far ..)
  | loadTimeout => exact run_far hside hexec (loadTimeout_far ..)
  | quarantineEnd => exact run_far hside hexec (quarantineEnd_far ..)
  | responseRx => exact run_far hside hexec (responseRx_far ..)
  | inboundRequest => exact run_far hside hexec (inboundRequest_far ..)
  | rresultRx => exact run_far hside hexec (rresultRx_far ..)
  | mrspRx => exact run_far hside hexec (mrspRx_far ..)
  | mrspTimeout => exact run_far hside hexec (mrspTimeout_far ..)
  | xlatInvAll | xlatInvAsid | xlatInvAsidRange | xlatInvRange | xlatInvApt => exact run_far hside hexec (xlatInv_far ..)
  | invPurge => exact run_far hside hexec (invPurge_far ..)
  | invDrainComplete => exact run_far hside hexec (invDrain_far ..)
  | cohInvRx => exact run_far hside hexec (snoopRx_far _ _ _ _ _ fun _ _ => cohInvRx_far ..)
  | cohRecallRx => exact run_far hside hexec (snoopRx_far _ _ _ _ _ fun _ _ => recallIn_far ..)
  | cohRequestAtHome => exact run_far hside hexec (cohAtHome_far ..)
  | oebIdLock => exact run_far hside hexec (so_far ..)
  | ctxCfgErrCountRead => exact run_far hside hexec (ctxCfgRead_far ..)
  | xlatFaultCountRead => exact run_far hside hexec (xlatFaultRead_far ..)
  | oebPortEnable => exact run_far hside hexec (oebPortEnable_far ..)
  | oebReset => exact run_far hside hexec (oebReset_far ..)
  | echoRx x =>
    cases x with
    | oeb => exact run_far hside hexec (echoRx_far ..)
    | ox | skipper => exact nomatch hside
  | rateRecovery u =>
    cases u with
    | oeb => exact run_far hside hexec (rateRecover_far ..)
    | skipper => exact nomatch hside
  | _ => exact nomatch hside

/-! ### Places of words in other registers -/

/-- No entry of a register, whatever its number, stands at the place of an entry of a register numbered before it. -/
theorem regKey_ne_of_ctorIdx_lt {r q : Reg} {i j w k : Nat} (h : r.ctorIdx < q.ctorIdx) (hi : i < 2 ^ 20) (hw : w < 128) :
    regKey q j k ≠ regKey r i w := by
  unfold regKey
  omega

/-- A write of one register word leaves a field of every other word as it was. -/
theorem gf_of_oneWord {u : UnitId} {r : Reg} {i j w : Nat} {s t : State} (h : oneWord u r i w s t) {f : Fld}
    (hk : regKey f.reg j f.word ≠ regKey r i w) : gf u f j t = gf u f j s := by
  obtain ⟨-, -, -, hwords⟩ := h
  rw [gf, gf, hwords _ _ _ hk]

/-! ### Writes of the locked fields of an OEB (R238) -/

/-- REGISTER_WRITE of an aligned register word with no rsv bit writes that word. -/
theorem exec_registerWrite_oeb {side : Side} {off : Nat} {v : Word} {s : State} {r : Reg} {i w : Nat} (halign : off % 8 = 0)
    (hrow : findRow oebMap off = some (r, i, w)) (hv : v.toNat - Nat.land v.toNat (oebMask r w) = 0) :
    exec (.registerWrite (.oeb side) off false v) s = .next (oebWrite side r i w v.toNat s) := by
  have haccess : oebAccess side off false v.toNat s = oebWrite side r i w v.toNat s := by
    simp only [oebAccess, openWrite, halign, hrow, hv, Bool.false_or, ne_eq, not_true_eq_false, decide_false,
      Bool.false_eq_true, if_false]
  exact congrArg Host.Outcome.next haccess

theorem findRow_sideMap {k : Nat} (h : k < 64) : findRow oebMap (0x200 + 8 * k) = some (.sideMap, k, 0) := by
  have hsplit : oebMap = oebMap.take 5 ++ ⟨0x200, 8, 64, 1, .sideMap⟩ :: oebMap.drop 6 := rfl
  have hle : ∀ x ∈ oebMap.take 5, x.base + x.stride * x.count ≤ 0x200 := by decide
  have hk : 8 * k < 8 * 64 := by omega
  have hword : 8 * k % 8 / 8 < 1 := by omega
  rw [hsplit, findRow_append_of_le fun x hx => (hle x hx).trans (Nat.le_add_right _ _),
    findRow_cons_of_inside _ rfl hk hword]
  simp

/-- While LOCK is 1, the RW field that a write keeps reads as before. -/
theorem gf_regWrite_keepField_self {side : Side} {r : Reg} {i w v : Nat} {s : State} {x : FldRow}
    (hlock : go side OEB_ID.LOCK 0 s = 1) (hx : x ∈ fieldsOf r w) (hacc : x.acc = .rw) :
    gf (.oeb side) x.fld i (regWrite (.oeb side) r i w (keepField side x.fld i v s) s) = gf (.oeb side) x.fld i s := by
  rw [gf_regWrite (.oeb side) s hx]
  simp only [FldRow.written, hacc, keepField, hlock, if_true, bits_setBits_self]
  exact Nat.mod_eq_of_lt (bits_lt ..)

/-- Locked or not, an RW field beside the one that a write may keep takes the bits written. -/
theorem gf_regWrite_keepField_beside {side : Side} {r : Reg} {i w v : Nat} {s : State} {x y : FldRow}
    (hy : y ∈ fieldsOf r w) (hacc : y.acc = .rw) (hbeside : y.beside x) :
    gf (.oeb side) y.fld i (regWrite (.oeb side) r i w (keepField side x.fld i v s) s) = bits v y.fld.lo y.fld.len := by
  rw [gf_regWrite (.oeb side) s hy]
  simp only [FldRow.written, hacc, keepField]
  split
  · exact bits_setBits_disjoint hbeside
  · rfl

/-- A W1S bit that is 1 stays 1, whatever is written (Table 0-4). -/
theorem FldRow.written_w1s_bit_set (x : FldRow) (old v : Nat) (hacc : x.acc = .w1s) (hlen : x.fld.len = 1)
    (hset : bits old x.fld.lo 1 = 1) : x.written old v = 1 := by
  have hv : bits v x.fld.lo 1 < 2 := bits_lt ..
  simp only [FldRow.written, hacc, hlen, hset]
  generalize bits v x.fld.lo 1 = n at hv
  interval_cases n <;> rfl

/-- A write of OEB_CFG sets its RW fields below GW_SIDE to the bits written (Table 11-8). -/
theorem gf_oebWrite_oebCfg (side : Side) (v : Nat) (s : State) {y : FldRow} (hy : y ∈ fieldsOf .oebCfg 0) (hacc : y.acc = .rw)
    (hbelow : y.fld.lo + y.fld.len ≤ OEB_CFG.GW_SIDE.lo) :
    gf (.oeb side) y.fld 0 (oebWrite side .oebCfg 0 0 v s) = bits v y.fld.lo y.fld.len :=
  gf_regWrite_keepField_beside (x := ⟨OEB_CFG.GW_SIDE, .rw, 0, 0, 1⟩) hy hacc (.inl hbelow)

/-- What OEB_ID.LOCK guards is as it was, and LOCK stays 1 (R238, Table 11-1). -/
structure IdLocked (side : Side) (s t : State) : Prop where
  ep : go side OEB_ID.EP 0 t = go side OEB_ID.EP 0 s
  lock : go side OEB_ID.LOCK 0 t = 1
  gwSide : go side OEB_CFG.GW_SIDE 0 t = go side OEB_CFG.GW_SIDE 0 s
  sideMap : ∀ k : Nat, getW (.oeb side) .sideMap k 0 t = getW (.oeb side) .sideMap k 0 s

/-- The side map stands behind OEB_ID and OEB_CFG, so no write of either reaches a word of it. -/
theorem sideMap_of_oneWord {side : Side} {r : Reg} {s t : State} (h : oneWord (.oeb side) r 0 0 s t)
    (hr : r.ctorIdx < Reg.sideMap.ctorIdx) (k : Nat) :
    getW (.oeb side) .sideMap k 0 t = getW (.oeb side) .sideMap k 0 s := by
  obtain ⟨-, -, -, hwords⟩ := h
  exact hwords _ _ _ (regKey_ne_of_ctorIdx_lt hr (by decide) (by decide))

section Locked
variable {side : Side} {s : State} (hlock : go side OEB_ID.LOCK 0 s = 1) (v : Nat)
include hlock

theorem idLocked_oebWrite_oebId : IdLocked side s (oebWrite side .oebId 0 0 v s) := by
  have hone : oneWord (.oeb side) .oebId 0 0 s (oebWrite side .oebId 0 0 v s) := oneWord_regWrite ..
  exact {
    ep := gf_regWrite_keepField_self hlock (x := ⟨OEB_ID.EP, .rw, 0, 0, 4095⟩) (by decide) rfl
    lock := (gf_regWrite (.oeb side) s (x := ⟨OEB_ID.LOCK, .w1s, 0, 0, 1⟩) (by decide)).trans
      (FldRow.written_w1s_bit_set _ _ _ rfl rfl hlock)
    gwSide := gf_of_oneWord hone (by decide)
    sideMap := sideMap_of_oneWord hone (by decide) }

theorem idLocked_oebWrite_oebCfg : IdLocked side s (oebWrite side .oebCfg 0 0 v s) := by
  have hone : oneWord (.oeb side) .oebCfg 0 0 s (oebWrite side .oebCfg 0 0 v s) := oneWord_regWrite ..
  exact {
    ep := gf_of_oneWord hone (by decide)
    lock := (gf_of_oneWord hone (by decide)).trans hlock
    gwSide := gf_regWrite_keepField_self hlock (x := ⟨OEB_CFG.GW_SIDE, .rw, 0, 0, 1⟩) (by decide) rfl
    sideMap := sideMap_of_oneWord hone (by decide) }

theorem oebWrite_sideMap_locked (k : Nat) : oebWrite side .sideMap k 0 v s = s := if_pos hlock

end Locked

end Sys2Proof.Machine
end

section
/-! PROOFS. The statements of the endpoint block: what a command of one OEB cannot reach, and the lock of its ID. -/

namespace Sys2Proof.Machine

/-- Settles O6: every command of an OEB is one of its operations, and none of them reaches what is far from that OEB. -/
theorem oebCommandsLeaveTheRestAlone : Obligations.OebCommandsLeaveTheRestAlone :=
  fun _ _ _ _ hside hexec => same_of_farOf (exec_far hside hexec)

/-- Settles O11: a locked write of OEB_ID or OEB_CFG keeps its locked field and reaches no other word, and a locked write of
the side map is none. -/
theorem endpointIdLock : Obligations.EndpointIdLock := by
  intro side s
  refine ⟨⟨so side OEB_ID.LOCK 0 1 s, rfl, gf_sf_self _ _ _ _ _ (by decide), gf_sf_beside _ _ _ _ _ _ (by decide) rfl rfl
    (by decide), sf_out .., oneWord_sf ..⟩, fun off v hlock hoff hnamed => ?_⟩
  rcases hoff with rfl | rfl | ⟨k, hk, rfl⟩
  · have hrow : findRow oebMap 0 = some (.oebId, 0, 0) := rfl
    obtain ⟨hep, hlock', hgw, hmap⟩ := idLocked_oebWrite_oebId hlock v.toNat
    exact ⟨_, exec_registerWrite_oeb rfl hrow (hnamed _ _ _ hrow), hep, hlock', hgw, hmap, fun h => absurd h (by decide)⟩
  · have hrow : findRow oebMap 8 = some (.oebCfg, 0, 0) := rfl
    obtain ⟨hep, hlock', hgw, hmap⟩ := idLocked_oebWrite_oebCfg hlock v.toNat
    exact ⟨_, exec_registerWrite_oeb rfl hrow (hnamed _ _ _ hrow), hep, hlock', hgw, hmap, fun _ =>
      ⟨gf_oebWrite_oebCfg side _ s (y := ⟨OEB_CFG.QUAR, .rw, 102, 1, 8191⟩) (by decide) rfl (by decide),
        gf_oebWrite_oebCfg side _ s (y := ⟨OEB_CFG.ERR_BYTE, .rw, 255, 0, 255⟩) (by decide) rfl (by decide)⟩⟩
  · have hrow := findRow_sideMap hk
    have hexec := exec_registerWrite_oeb (side := side) (s := s) (by omega) hrow (hnamed _ _ _ hrow)
    rw [oebWrite_sideMap_locked hlock] at hexec
    exact ⟨s, hexec, rfl, hlock, rfl, fun _ => rfl, fun h => absurd h (by omega)⟩

end Sys2Proof.Machine
end

section
/-! SUPPORT. The gate of a descriptor of the attach interface, DMA_RING past it, and the test of a channel's waits (R241, R242,
R279). -/

namespace Sys2Proof.Machine

/-! ### The form of a DMA_RING -/

/-- A descriptor outside its form completes with CHECK_FAIL and is counted, whatever it asks for. -/
theorem areqGate_bad {side : Side} {d : Areq} {s : State} (hvalid : go side CTX_CFG.VALID d.ctx.val s = 1)
    (fail : Nat → State → State) (f : State → State) :
    areqGate side true d fail f s = fail stCheckFail (countO side .attachMalformed s) := by
  simp [areqGate, hvalid]

theorem areqGate_good {side : Side} {d : Areq} {s : State} (hvalid : go side CTX_CFG.VALID d.ctx.val s = 1)
    (fail : Nat → State → State) (f : State → State) : areqGate side false d fail f s = f s := by
  simp [areqGate, hvalid]

/-- What `dmaRing` asks of its descriptor: R241's head, SUBOP, LEN and rsv bits zero, with WAIT = 1 a timeout R279 names. -/
def ringBad (d : Areq) : Bool :=
  headBad d || d.subop != 0 || d.len != 0 || bits d.w2.toNat 7 3 != 0 || decide (2 ^ 24 ≤ d.w2.toNat) || decide (2 ^ 32 ≤ d.w3.toNat) ||
    (bits d.w2.toNat 6 1 == 1 && !(decide (1 ≤ bits d.w2.toNat 10 14) && decide (bits d.w2.toNat 10 14 ≤ 16000)))

/-- The wait that a DMA_RING with WAIT = 1 leaves. -/
def ringWait (side : Side) (d : Areq) (s : State) : OWait :=
  ⟨true, d.ctx.val, d.atag.toNat, bits d.w2.toNat 0 6, d.w3.toNat, ftOf (.oeb side) s + 2500 * bits d.w2.toNat 10 14⟩

/-- A wait joins the waits of an OEB, as the last of them. -/
def joinWait (side : Side) (w : OWait) (s : State) : State := modOeb side (fun o => { o with waits := o.waits ++ [w] }) s

theorem dmaRing_eq (side : Side) (d : Areq) (s : State) :
    dmaRing side d s = areqGate side (ringBad d) d (fun st s => arsp side d.ctx.val d.atag.toNat st 0 0 [] s) (fun s =>
      if go side DMA_CH.CTX (bits d.w2.toNat 0 6) s ≠ d.ctx.val then
        arsp side d.ctx.val d.atag.toNat stPartDeny 0 0 [] (raiseO side .partDeny false 0 0 [] (countO side .dmaRingDeny s))
      else if !(bits d.w2.toNat 6 1 == 1) then
        arsp side d.ctx.val d.atag.toNat 0 0 0 [] (tailWrite side (bits d.w2.toNat 0 6) d.w3.toNat s)
      else dmaWaitTest side (bits d.w2.toNat 0 6) (joinWait side (ringWait side d s) s)) s := rfl

/-- A DMA_RING under an AOP of Table 11-4 whose words are as R279 lays them out is in its form. -/
theorem ringBad_eq_false {d : Areq} (haop : aopReserved d.aop.toNat = false) (hrsv : d.rsv = 0) (hsubop : d.subop = 0)
    (hlen : d.len = 0) (hw3 : d.w3.toNat < 2 ^ 32) (hw2 : d.w2.toNat < 2 ^ 24) (hmid : bits d.w2.toNat 7 3 = 0)
    (htmo : bits d.w2.toNat 6 1 = 1 → 1 ≤ bits d.w2.toNat 10 14 ∧ bits d.w2.toNat 10 14 ≤ 16000) : ringBad d = false := by
  simpa [ringBad, headBad, haop, hrsv, hsubop, hlen, hmid] using ⟨⟨hw2, hw3⟩, htmo⟩

section Gated
variable {side : Side} {d : Areq} {s : State} (hvalid : go side CTX_CFG.VALID d.ctx.val s = 1)
include hvalid

/-- R241 comes before R279: an AOP outside Table 11-4 ends a DMA_RING before its channel is looked at. -/
theorem dmaRing_of_aopReserved (haop : aopReserved d.aop.toNat = true) :
    dmaRing side d s = arsp side d.ctx.val d.atag.toNat stCheckFail 0 0 [] (countO side .attachMalformed s) := by
  have hbad : ringBad d = true := by simp [ringBad, headBad, haop]
  rw [dmaRing_eq, hbad, areqGate_bad hvalid]

/-- The channel of another context is refused, whether the request is a doorbell or a wait. -/
theorem dmaRing_of_foreign (hform : ringBad d = false) (hctx : go side DMA_CH.CTX (bits d.w2.toNat 0 6) s ≠ d.ctx.val) :
    dmaRing side d s =
      arsp side d.ctx.val d.atag.toNat stPartDeny 0 0 [] (raiseO side .partDeny false 0 0 [] (countO side .dmaRingDeny s)) := by
  rw [dmaRing_eq, hform, areqGate_good hvalid, if_pos hctx]

theorem dmaRing_of_doorbell (hform : ringBad d = false) (hctx : go side DMA_CH.CTX (bits d.w2.toNat 0 6) s = d.ctx.val)
    (hbell : bits d.w2.toNat 6 1 = 0) :
    dmaRing side d s = arsp side d.ctx.val d.atag.toNat 0 0 0 [] (tailWrite side (bits d.w2.toNat 0 6) d.w3.toNat s) := by
  rw [dmaRing_eq, hform, areqGate_good hvalid, if_neg (not_not.2 hctx), hbell]
  rfl

theorem dmaRing_of_wait (hform : ringBad d = false) (hctx : go side DMA_CH.CTX (bits d.w2.toNat 0 6) s = d.ctx.val)
    (hwait : bits d.w2.toNat 6 1 = 1) :
    dmaRing side d s = dmaWaitTest side (bits d.w2.toNat 0 6) (joinWait side (ringWait side d s) s) := by
  rw [dmaRing_eq, hform, areqGate_good hvalid, if_neg (not_not.2 hctx), hwait]
  rfl

end Gated

/-! ### The test of a channel's waits -/

/-- ATAG and STATUS in word 0 of an OK completion without data (R242). -/
theorem bits_arsp_ok {atag : Nat} (hatag : atag < 2 ^ 14) (ctx : Nat) :
    bits (atag % 2 ^ 14 + ctx % 2 ^ 10 * 2 ^ 31) 0 14 = atag ∧ bits (atag % 2 ^ 14 + ctx % 2 ^ 10 * 2 ^ 31) 14 4 = 0 := by
  simp only [bits, Nat.shiftRight_eq_div_pow]
  omega

/-- A wait that R279 satisfies while ERR = 0: DONE_SEQ of its channel has reached its value. -/
def waitDue (side : Side) (c : Nat) (s : State) (w : OWait) : Bool :=
  w.dma && decide (w.idx = c) && decide (subMod 32 (cf side DMA_CH.DONE_SEQ c s) w.target < 2 ^ 31)

theorem waitDue_iff {side : Side} {c : Nat} {s : State} {w : OWait} : waitDue side c s w = true ↔
    w.dma = true ∧ w.idx = c ∧ subMod 32 (go side DMA_CH.DONE_SEQ c s) w.target < 2 ^ 31 := by
  simp only [waitDue, Bool.and_eq_true, decide_eq_true_eq, and_assoc]
  exact Iff.rfl

theorem dmaWaitTest_of_no_err {side : Side} {c : Nat} {s : State} (herr : go side DMA_CH.ERR c s = 0) :
    dmaWaitTest side c s = ((oebOf side s).waits.filter (waitDue side c s)).foldl (fun s w => arsp side w.ctx w.atag 0 0 0 [] s)
      (modOeb side (fun o => { o with waits := (oebOf side s).waits.filter fun w => !waitDue side c s w }) s) := by
  have hcf : cf side DMA_CH.ERR c s = 0 := herr
  have hdue : ∀ w : OWait, (w.dma && decide (w.idx = c) && (cf side DMA_CH.ERR c s == 1 ||
      decide (subMod 32 (cf side DMA_CH.DONE_SEQ c s) w.target < 2 ^ 31))) = waitDue side c s w := by
    simp [waitDue, hcf]
  simp only [dmaWaitTest, hdue, List.partition_eq_filter_filter, Function.comp_def]
  simp [hcf]

section Joined
variable {side : Side} {c : Nat} {w : OWait} {s : State} (herr : go side DMA_CH.ERR c s = 0)
  (hothers : ∀ x ∈ (oebOf side s).waits, waitDue side c s x = false)
include herr hothers

/-- The test after a wait has joined waits of which none is due: the new wait completes or stays, the others stay. -/
theorem dmaWaitTest_joinWait : dmaWaitTest side c (joinWait side w s) =
    ([w].filter (waitDue side c s)).foldl (fun s w => arsp side w.ctx w.atag 0 0 0 [] s)
      (modOeb side (fun o => { o with waits := (oebOf side s).waits ++ [w].filter fun x => !waitDue side c s x })
        (joinWait side w s)) := by
  have hunit : (joinWait side w s).unit (.oeb side) = s.unit (.oeb side) := modOeb_unit ..
  have hdue : waitDue side c (joinWait side w s) = waitDue side c s := by
    funext x
    rw [waitDue, waitDue, cf, cf, go, go, gf_of_unit hunit]
  have hwaits : (oebOf side (joinWait side w s)).waits = (oebOf side s).waits ++ [w] :=
    congrArg Oeb.waits (oebOf_setOeb ..)
  have hnone : (oebOf side s).waits.filter (waitDue side c s) = [] :=
    List.filter_eq_nil_iff.2 fun x hx => by simp [hothers x hx]
  have hall : (oebOf side s).waits.filter (fun x => !waitDue side c s x) = (oebOf side s).waits :=
    List.filter_eq_self.2 fun x hx => by simp [hothers x hx]
  rw [dmaWaitTest_of_no_err ((gf_of_unit hunit ..).trans herr), hdue, hwaits, List.filter_append, List.filter_append, hnone, hall,
    List.nil_append]

/-- A wait that is due as it joins completes with OK and leaves nothing behind. -/
theorem dmaWaitTest_joinWait_due (hw : waitDue side c s w = true) :
    let t := dmaWaitTest side c (joinWait side w s)
    t.out = s.out ++ [.arsp side.val (w.atag % 2 ^ 14 + w.ctx % 2 ^ 10 * 2 ^ 31) 0 []] ∧
      (oebOf side t).waits = (oebOf side s).waits ∧ t.unit (.oeb side) = s.unit (.oeb side) := by
  rw [dmaWaitTest_joinWait herr hothers, List.filter_singleton, List.filter_singleton, hw]
  exact ⟨by simp [arsp, ctxError, emit, joinWait], (congrArg Oeb.waits (oebOf_setOeb ..)).trans (List.append_nil _),
    by simp [arsp, ctxError, joinWait]⟩

/-- A wait that is not due stands last among the waits, and nothing leaves. -/
theorem dmaWaitTest_joinWait_open (hw : waitDue side c s w = false) :
    let t := dmaWaitTest side c (joinWait side w s)
    t.out = s.out ∧ (oebOf side t).waits = (oebOf side s).waits ++ [w] ∧ t.unit (.oeb side) = s.unit (.oeb side) := by
  rw [dmaWaitTest_joinWait herr hothers, List.filter_singleton, List.filter_singleton, hw]
  exact ⟨rfl, congrArg Oeb.waits (oebOf_setOeb ..), by simp [joinWait]⟩

end Joined

end Sys2Proof.Machine
end

section
/-! PROOFS. The statements of translation and DMA: the commands of a DMA channel, doorbells and completion waits. -/

namespace Sys2Proof.Machine

/-- Settles O16: each command of a DMA channel is its operation, and no gate stands before it. -/
theorem dmaCommandsAct : Obligations.DmaCommandsAct := by
  intro s
  exact ⟨fun side d => run_next _ s, fun side d => run_next _ s, fun side ctx atag => run_next _ s,
    fun side ch tail => run_next _ s, fun side ch => run_next _ s, fun side ch => run_next _ s, fun side ch => run_next _ s,
    fun side ch => run_next _ s, fun side ch => run_next _ s, fun side ch => run_next _ s, fun side => run_next _ s,
    fun side ch => run_next _ s, fun side ch => run_next _ s, fun side ch => run_next _ s, fun side ch => run_next _ s,
    fun side ch => run_next _ s⟩

/-- R279 for a DMA_RING under an AOP of Table 11-4: refused, a doorbell, or a wait that completes or stays. -/
theorem dmaRing_acts_of_listed_aop {side : Side} {d : Areq} {s : State} (haop : aopReserved d.aop.toNat = false)
    (hvalid : go side CTX_CFG.VALID d.ctx.val s = 1) (hrsv : d.rsv = 0) (hsubop : d.subop = 0) (hlen : d.len = 0)
    (hw3 : d.w3.toNat < 2 ^ 32) (hw2 : d.w2.toNat < 2 ^ 24) (hmid : bits d.w2.toNat 7 3 = 0) :
    let c := bits d.w2.toNat 0 6
    let tmo := bits d.w2.toNat 10 14
    let mine := go side DMA_CH.CTX c s = d.ctx.val
    let dn := go side DMA_CH.DONE_SEQ c s
    (bits d.w2.toNat 6 1 = 0 → ¬mine → exec (.dmaRingDoorbell side d) s =
      .next (arsp side d.ctx.val d.atag.toNat stPartDeny 0 0 [] (raiseO side .partDeny false 0 0 [] (countO side .dmaRingDeny s)))) ∧
    (bits d.w2.toNat 6 1 = 0 → mine → exec (.dmaRingDoorbell side d) s =
      .next (arsp side d.ctx.val d.atag.toNat 0 0 0 [] (tailWrite side c d.w3.toNat s))) ∧
    (bits d.w2.toNat 6 1 = 1 → 1 ≤ tmo → tmo ≤ 16000 → mine → go side DMA_CH.ERR c s = 0 →
      (∀ w ∈ (oebOf side s).waits, ¬(w.dma = true ∧ w.idx = c ∧ subMod 32 dn w.target < 2 ^ 31)) →
      (subMod 32 dn d.w3.toNat < 2 ^ 31 → ∃ (t : State) (w0 : Nat), exec (.dmaCompletionWait side d) s = .next t ∧
        t.out = s.out ++ [.arsp side.val w0 0 []] ∧ bits w0 0 14 = d.atag.toNat ∧ bits w0 14 4 = 0 ∧
        (oebOf side t).waits = (oebOf side s).waits ∧ t.unit (.oeb side) = s.unit (.oeb side)) ∧
      (2 ^ 31 ≤ subMod 32 dn d.w3.toNat → ∃ t, exec (.dmaCompletionWait side d) s = .next t ∧ t.out = s.out ∧
        (oebOf side t).waits = (oebOf side s).waits ++
          [⟨true, d.ctx.val, d.atag.toNat, c, d.w3.toNat, ftOf (.oeb side) s + 2500 * tmo⟩] ∧ t.unit (.oeb side) = s.unit (.oeb side))) := by
  intro c tmo mine dn
  have hform := ringBad_eq_false haop hrsv hsubop hlen hw3 hw2 hmid
  refine ⟨fun hbell hctx => ?_, fun hbell hctx => ?_, fun hwait h1 h2 hctx herr hothers => ?_⟩
  · exact congrArg _ (dmaRing_of_foreign hvalid (hform (by simp [hbell])) hctx)
  · exact congrArg _ (dmaRing_of_doorbell hvalid (hform (by simp [hbell])) hctx hbell)
  · have hexec : exec (.dmaCompletionWait side d) s = .next _ :=
      congrArg Host.Outcome.next (dmaRing_of_wait hvalid (hform fun _ => ⟨h1, h2⟩) hctx hwait)
    have hnone : ∀ x ∈ (oebOf side s).waits, waitDue side c s x = false := fun x hx =>
      Bool.eq_false_iff.2 (mt waitDue_iff.1 (hothers x hx))
    have hnew : waitDue side c s (ringWait side d s) = true ↔ subMod 32 dn d.w3.toNat < 2 ^ 31 := by
      rw [waitDue_iff]
      exact ⟨fun ⟨_, _, h⟩ => h, fun h => ⟨rfl, rfl, h⟩⟩
    refine ⟨fun hdue => ?_, fun hopen => ?_⟩
    · obtain ⟨hout, hwaits, hunit⟩ := dmaWaitTest_joinWait_due herr hnone (hnew.2 hdue)
      obtain ⟨hatag, hstatus⟩ := bits_arsp_ok d.atag.isLt d.ctx.val
      exact ⟨_, _, hexec, hout, hatag, hstatus, hwaits, hunit⟩
    · obtain ⟨hout, hwaits, hunit⟩ := dmaWaitTest_joinWait_open herr hnone (Bool.eq_false_iff.2 (mt hnew.1 (Nat.not_lt.2 hopen)))
      exact ⟨_, hexec, hout, hwaits, hunit⟩

/-- A doorbell of context 0 on channel 0 under AOP 0, which Table 11-4 reserves; all else in it is as R279 asks. -/
def reservedBell : Areq :=
  { aop := 0, ctx := 0, atag := 0, scope := 0, len := 0, subop := 0, rsv := 0, addr := 0, w2 := 0, w3 := 0, data := [] }

/-- Refutes O58: the statement leaves the AOP of its descriptor free, and R241 completes one with a reserved AOP with CHECK_FAIL
before R279 applies. Context 0, made valid at reset, rings its own channel 0 under AOP 0: STATUS is 3 where the clause of the
doorbell gives 0. With an AOP of Table 11-4 every clause holds (`dmaRing_acts_of_listed_aop`). -/
theorem not_dmaRingSetsTailOrWaits : ¬ Obligations.DmaRingSetsTailOrWaits := by
  intro h
  let s := so 0 CTX_CFG.VALID 0 1 State.reset
  have hvalid : go 0 CTX_CFG.VALID reservedBell.ctx.val s = 1 := by decide +kernel
  obtain ⟨-, hbell, -⟩ := h 0 reservedBell s hvalid rfl rfl rfl (by decide) (by decide) (by decide)
  have hok := Host.Outcome.next.inj (hbell (by decide) (by decide +kernel))
  have hfail := dmaRing_of_aopReserved hvalid (by decide)
  have hout : (arsp 0 0 0 stCheckFail 0 0 [] (countO 0 .attachMalformed s)).out ≠ (arsp 0 0 0 0 0 0 [] (tailWrite 0 0 0 s)).out := by
    decide +kernel
  exact hout (congrArg State.out (hfail.symm.trans hok))

end Sys2Proof.Machine
end

section
/-! SUPPORT. Command by command, the queue of waiting commands as it was: the named operations keep it, and so does each gate in
front of one (R410, R426; log entry 4). -/

namespace Sys2Proof.Machine

/-! ### Effects of Luna instructions -/

/-- Where an effect of an instruction answers a state, its queue is that of the state before. -/
def EndsQueued (s : State) (o : Exec) : Prop := ∀ u : State, o = .ok u → u.pending = s.pending

namespace EndsQueued

variable {s u : State}

theorem ok (h : u.pending = s.pending) : EndsQueued s (.ok u) := fun _ hu => by
  cases hu
  exact h

theorem error (cause : Nat) : EndsQueued s (.error cause) := fun _ hu => nomatch hu

theorem check {p : Prop} [Decidable p] {cause : Nat} {o : Exec} (h : EndsQueued s o) :
    EndsQueued s (if p then .error cause else o) := by
  split
  · exact error cause
  · exact h

end EndsQueued

theorem draw_if_pending (p : Prop) [Decidable p] (s : State) : (if p then draw s else s).pending = s.pending :=
  ite_pending (draw_pending s) rfl

section
variable {c : Core} {i : Instr} {f : Run → State → Exec} {s t : State}

theorem queue_of_lunaOp (hf : ∀ r s, EndsQueued s (f r s)) (h : lunaOp c i f s = .next t) : t.pending = s.pending :=
  lunaOp_pending (fun r s u hu => hf r s u hu) h

theorem queue_of_lunaRead {sram : SramRead} (hf : ∀ r s, EndsQueued s (f r s)) (h : lunaRead c i sram f s = .next t) :
    t.pending = s.pending :=
  lunaRead_pending (fun r s u hu => hf r s u hu) h

end

/-- Every Luna instruction keeps the queue. -/
theorem exec_luna_pending {i : Instr} {core : Core} {w : Nat} {s t : State} (henc : encodeLunaWord i = some (core, w))
    (h : exec i s = .next t) : t.pending = s.pending := by
  cases i with
  | add | sub | andd | orr | xorr | shl | shr | sar | mul | slt | sltu | seqq | smin | smax | addi | andi | ori | shli | shri
  | lsh | li | bitm | pget | pcnt => exact lunaOp_pending (fun _ _ _ hu => scalarTo_pending hu) h
  | ld | ldw => exact loadTo_pending h
  | st | stw => exact storeFrom_pending h
  | beq | bne | blt | bltu | bany | bnone | jmp =>
    exact queue_of_lunaOp (fun _ _ => .ok (ite_pending (jumpTo_pending ..) (retire_pending ..))) h
  | vcmpEq | vcmpLt | vcmpLe | vcmpNe => exact vecCmp_pending h
  | xadd | xsub | xmax | xmin | xand | xior | xxor | xset => exact xop_pending h
  | xidSum | xidMax | xidMin | xidAnd | xidOr | xidXor | xidCopy => exact xid_pending h
  | xaddw | xsubw => exact xWide_pending h
  | xswpAdd | xswpMax | xswpMin | xswpAnd | xswpOr | xswpXor | xswpCopy => exact xswp_pending h
  | done => exact lunaOp_pending (fun _ _ _ hu => taskDone_pending hu) h
  | call | ret => exact queue_of_lunaOp (fun _ _ => .ok (jumpTo_pending ..)) h
  | pand | por | pxor | pandn | pmov | pfirst | vadd | vsub | vmax | vmin | vand | vor | vxor | vsel | vsplat =>
    exact queue_of_lunaOp (fun _ _ => .ok (retire_pending ..)) h
  | ldc | rdt | vst | vldc =>
    refine queue_of_lunaOp (fun r s => ?_) h
    split
    · exact .ok (retire_pending ..)
    · exact .error _
  | vcvt => exact queue_of_lunaOp (fun _ s => .ok ((retire_pending ..).trans (draw_if_pending _ s))) h
  | vrnd => exact queue_of_lunaOp (fun _ s => .check (.ok ((retireChunk_pending ..).trans (draw_if_pending _ s)))) h
  | aoff => exact queue_of_lunaOp (fun _ _ => .check (.ok (retire_pending ..))) h
  | ost => exact queue_of_lunaOp (fun _ _ => .check (.check (.ok (retire_pending ..)))) h
  | vsta | vbexp =>
    refine queue_of_lunaOp (fun r s => .check ?_) h
    split
    · exact .error _
    · exact .ok (retireChunk_pending ..)
  | vld =>
    refine queue_of_lunaRead (fun r s => ?_) h
    split
    · exact .ok (retire_pending ..)
    · exact .error _
  | vlda =>
    refine queue_of_lunaRead (fun r s => ?_) h
    split
    · exact .error _
    · exact .ok (retire_pending ..)
  | fswp =>
    refine queue_of_lunaRead (fun r s => .check (.check ?_)) h
    split
    · exact .error _
    · exact .ok (retire_pending ..)
  | xrnd =>
    refine queue_of_lunaRead (fun r s => .check (.check ?_)) h
    split
    · exact .error _
    · exact .ok ((retireChunk_pending ..).trans (draw_if_pending _ s))
  | xbexp =>
    refine queue_of_lunaRead (fun r s => .check (.check ?_)) h
    split
    · exact .error _
    · exact .ok (retireChunk_pending ..)
  | xmrg =>
    refine queue_of_lunaRead (fun r s => .check (.check ?_)) h
    dsimp only
    split
    · refine .check ?_
      split
      · exact .ok (retire_pending ..)
      · exact .ok ((accSat_pending ..).trans (retireChunk_pending ..))
    · split
      · exact .error _
      · exact .ok ((accSat_pending ..).trans (retireChunk_pending ..))
  | xdns => exact queue_of_lunaRead (fun _ _ => .ok (retireChunk_pending ..)) h
  | _ => cases henc

/-! ### Every command -/

theorem pending_of_oebSide {c : Instr} {side : Side} {s t : State} (hside : oebSide c = some side) (h : exec c s = .next t) :
    t.pending = s.pending := by
  have hfar := exec_far hside h
  simp only [farOf, Prod.mk.injEq] at hfar
  exact hfar.1.2.2.2.2.2.2.2.2.2.2.2.2.2.2.2

/-- Every command is a Luna instruction, a command of one OEB, or an operation behind one gate. -/
theorem exec_pending {c : Instr} {s t : State} (h : exec c s = .next t) : t.pending = s.pending := by
  cases c with
  | oebIdLock | ctxCfgErrCountRead | xlatFaultCountRead | oebPortEnable | load | store | storeNp | atomic | msgSend | contrib
  | fenceSys | lcWait | lcWaitTimeout | lcRd | lcWr | dmaRingDoorbell | dmaCompletionWait | dmaWaitTimeout | cwGetS | cwGetM
  | cwUpg | cwWb | walkStart | requestIssue | loadTimeout | quarantineEnd | responseRx | inboundRequest | mrspRx
  | mrspTimeout | rresultRx | xlatInvAll | xlatInvAsid | xlatInvAsidRange | xlatInvRange | xlatInvApt | invPurge
  | invDrainComplete | dmaTailWrite | descriptorFetch | dmaCopy | dmaFill | dmaCompare | dmaDecrypt | dmaNoOperation
  | dmaBurstIssue | dmaTimerTrigger | dmaDescriptorComplete | dmaStop | dmaErrClear | dmaChannelDisable | cohInvRx
  | cohRecallRx | cohRequestAtHome | oebReset => exact pending_of_oebSide rfl h
  | fenceSysComplete => exact run_pending (fun _ => fenceComplete_pending ..) h
  | foldStatRead | scanRead | ringTailWrite | ringFlush | payloadFetchDone | wr | blkWr | rd | ctxArm | ctxDisarm | lunaLoad
  | lunaUnload | profileLoad | profileStore | fwStage | fabricEnable | fabricDisable | snapAt | calm | calmAt
  | signerEnroll | signerRevoke | expel | readmit | monarchSwitch | retireUnit | serviceTest | restoreUnit | gwTxResume
  | commitAt | nop | timeSet => exact hosted_pending (by simp) h
  | mailboxGo => exact hosted_pending (fun _ => by split <;> simp) h
  | sramRowRepaired | sramRowCopyDone | ingressLookup | trackingHoldRelease | heldPacketAdmit | heldPacketAgeOut | mcOx7Eop
  | eopCellBuffered | egressQueueHead | ctStallAbort | bufGrantRequest | bufGrantReturn | tokenBlockRequest
  | tokenBlockReturn | mirrorCopy | sampleRecordWrite | echoSend | cmapBoundary | refclkLost | refclkRestored | laneDegraded
  | laneSwapRxSwitch | laneSwapTxSwitch | cwBankRequest | cohWbAtBank | cohDataAtBank | cohAckAtBank | cwAckTimeout
  | contribSopRx | holdRangeAllocated | contribCellRx | contribEopCheck | taskStart | lunaStepDeadline | checkRecordRx
  | verifyTimeout | lunaHwfault | taskBudgetExceeded | armComplete | disarmComplete | segmentEgress | segmentRelease
  | segmentArrival | remoteTimeout | hostRequest | pcieCompletionRx | hostCplTimeout | hostRxConsWrite | hostTxTailWrite
  | hostTxDescriptor | skipperWrRspRx | hostTxDescriptorComplete | ppsInLost | ppsOutEdge | ppsOutFall
  | monarchHeartbeatLoss | monarchFaultReport | hpGlitch | backgroundSelftestFail | sliceCutClock | grantFreezeEnd
  | sliceDrained | sliceFail | unitTestDone | unitShadowDone | calmFreeze | programCommit | stepLaunch | lunaCocoonEntry
  | cocoonWakeDone | dvfsVoltageReached | dvfsTimeout | thermalWarn | pinReadback => exact live_pending (by simp) h
  | ppsInEdge => exact live_pending (fun _ => (afterStep_pending ..).trans (ppsIn_fst_pending _)) h
  | egressFlitSlot | creditStall | flitRx | replayTimeout | nakResend | skipInsertSend | skipRx | breezeRx | idleRx | swapRx
  | downRx | gustRx | electricalIdleEntry | gustExit | idleKeepalive | los | losIdle | fecBurst | silentTimeout | gustTimeout
  | nrPatternRx | ts1Rx | ts2Rx | tsoRx | tscRx | marginCheckDone | alignTimeout | marginTimeout | timeStateTimeout
  | creditStateTimeout | downHoldEnd | seqExhausted | markerLoss | keyRotationTime | keyOverlapEnd | trngStartupDone
  | trngHealthFail | drbgReseed | eventFold | foldWindowExpiry | foldMaxspanExpiry | skipModeEnd =>
    exact liveAt_pending (by simp) h
  | replayMaxExceeded => exact liveAt_pending (fun _ => ite_pending (dropWhere_pending ..) rfl) h
  | keySet | keyRotate | keyErase | keyQuery | devsetSet | getVersion | getCapabilities | negotiateAlgorithms | getDigests
  | getMeasurements | keyExchange | finish | keyUpdate | heartbeat | endSession | vendorDefinedRequest =>
    exact spdmAt_pending (by simp) h
  | getCertificate | challenge => exact spdmAt_pending (fun _ => ite_pending (spdmFail_pending ..) (by simp)) h
  | debugUnlock | breezeFrameRx | thermalTrip => exact served_pending (by simp) h
  | governorTick => exact served_pending (fun _ => ite_pending rfl (governor_pending ..)) h
  | trayRemoval => exact next_pending (trayOut_pending s) h
  | trayInsertion => exact next_pending (trayIn_pending s) h
  | snapshotInstant => exact next_pending (snapshotInstant_pending s) h
  | snapshotCopyDone => exact next_pending (copiesEnd_pending s) h
  | reset => exact next_pending (resetFalls_pending s) h
  | startUp => exact next_pending (startUp_pending s) h
  | calmFrameRx | mailboxResponse | programCheck | enumFrameRx | chainHeadTimeout | cmdFrameRx | eventFrameRx | delayFrameRx
  | chainFrameResend | chainDown | chainLinkUp | managementPortTrained => exact manned_pending (by simp) h
  | cplFrameRx =>
    refine manned_pending (fun u => ?_) h
    exact onFrame_pending _ _ _ u fun _ => ite_pending (gotCpl_pending ..) rfl
  | fetchFrameRx =>
    refine manned_pending (fun u => ?_) h
    exact onFrame_pending _ _ _ u fun _ => ite_pending (gotFetch_pending ..) rfl
  | aonPhaseDone | powerPhaseDone | selftestPhaseDone | bootPhaseDone | profilePhaseDone => exact inPhase_pending (by simp) h
  | registerWrite x =>
    cases x with
    | bar0 => exact hosted_pending (fun _ => hostWrite_pending ..) h
    | oeb => exact run_pending (fun _ => oebAccess_pending ..) h
    | host => exact live_pending (fun _ => hostAccess_pending ..) h
  | unmappedAccess x _ _ write =>
    cases x with
    | bar0 => exact hosted_pending (fun _ => unmappedAccess_pending ..) h
    | oeb => exact run_pending (fun _ => by cases write <;> simp) h
    | host => exact live_pending (fun _ => by cases write <;> simp) h
  | trngStatRead x =>
    cases x with
    | monarch => exact hosted_pending (fun _ => ite_pending (emit_pending ..) (trngStatRead_pending ..)) h
    | oeb => exact run_pending (fun _ => trngStatRead_pending ..) h
  | echoRx x =>
    cases x with
    | ox | skipper => exact live_pending (fun _ => echoRx_pending ..) h
    | oeb => exact run_pending (fun _ => echoRx_pending ..) h
  | rateRecovery x =>
    cases x with
    | oeb => exact run_pending (fun _ => rateRecover_pending ..) h
    | skipper => exact live_pending (fun _ => rateRecover_pending ..) h
  | breezeSend x =>
    cases x with
    | link => exact liveAt_pending (fun _ => breezeSend_pending ..) h
    | chain => exact served_pending (fun _ => breezeChain_pending ..) h
  | _ => exact exec_luna_pending rfl h

/-! ### A reference cycle -/

theorem tickUnit_pending (u : UnitId) (s : State) : (tickUnit u s).pending = s.pending :=
  (refreshQual_pending ..).trans (setUnit_pending ..)

theorem tickBuckets_pending (s : State) : (tickBuckets s).pending = s.pending :=
  foldl_pending _ _ _ fun _ _ => ite_pending (bucketStep_pending ..) rfl

theorem tickStarved_pending (before : Nat) (s : State) : (tickStarved before s).pending = s.pending :=
  ite_pending rfl (ite_pending rfl (foldl_pending _ _ _ fun _ _ => cmapAdd_pending ..))

theorem tick_pending (s : State) : (tick s).pending = s.pending := by
  have hoebs : (tickUnit (.oeb 1) (tickUnit (.oeb 0) s)).pending = s.pending :=
    (tickUnit_pending ..).trans (tickUnit_pending ..)
  have hox (x : Power) : (tickUnit .ox9 { tickUnit (.oeb 1) (tickUnit (.oeb 0) s) with power := x }).pending = s.pending :=
    (tickUnit_pending ..).trans hoebs
  exact ite_pending hoebs (ite_pending (hox _) ((tickStarved_pending ..).trans ((tickBuckets_pending _).trans (hox _))))

end Sys2Proof.Machine
end

section
/-! PROOFS. The statement of the queue. -/

namespace Sys2Proof.Machine

/-- Settles O2: every command keeps the queue it runs on, and an idle step does too, so a step takes the front alone. -/
theorem execLeavesTheQueueAlone : Obligations.ExecLeavesTheQueueAlone := by
  refine ⟨fun c s t h => exec_pending h, fun s t h => ?_⟩
  unfold step at h
  split at h
  · next hnone =>
    cases h
    rw [tick_pending, hnone, List.tail_nil]
  · next c rest hfront => rw [exec_pending h, hfront, List.tail_cons]

end Sys2Proof.Machine
end

section
/-! SUPPORT. The line code read back: code groups as symbols, the tables of 8b/10b at each disparity, codes striped over lanes
(R289, R293, R296). -/

namespace Sys2Proof.Machine

/-! ### Symbols -/

theorem pamBits_pamOfBits {n : Nat} (h : n < 4) : pamBits (pamOfBits n) = n := by
  interval_cases n <;> rfl

theorem pamNeg_pamNeg (x : Pam4) : pamNeg (pamNeg x) = x := by
  cases x <;> rfl

theorem map_pamNeg_map_pamNeg (g : List Pam4) : (g.map pamNeg).map pamNeg = g := by
  rw [List.map_map, (funext pamNeg_pamNeg : pamNeg ∘ pamNeg = id), List.map_id]

theorem wordSyms_length (n : Nat) : (wordSyms n).length = 5 := rfl

/-- The five symbols of ten bits spell them. -/
theorem symWord_wordSyms {n : Nat} (h : n < 1024) : symWord (wordSyms n) = n := by
  have hbits (m : Nat) : pamBits (pamOfBits (m % 4)) = m % 4 := pamBits_pamOfBits (Nat.mod_lt _ (by decide))
  rw [symWord, if_pos (wordSyms_length n)]
  simp only [wordSyms, List.map_cons, List.map_nil, List.foldl_cons, List.foldl_nil, hbits]
  omega

/-! ### The tables of 8b/10b: each sub-block and each special stands once -/

theorem fourOf_lt : ∀ rd : Bool, ∀ x < 32, ∀ y < 8, fourOf rd x y < 16 := by decide +kernel

theorem find?_sixOf : ∀ rd : Bool, ∀ x < 32, (List.range 32).find? (fun z => sixOf rd z = sixOf rd x) = some x := by
  decide +kernel

theorem find?_fourOf : ∀ rd : Bool, ∀ x < 32, ∀ y < 8,
    (List.range 8).find? (fun z => fourOf rd x z = fourOf rd x y) = some y := by
  decide +kernel

theorem find?_special : ∀ rd : Bool, ∀ x ∈ specials,
    specials.find? (fun z => (if rd then 1023 - z.2 else z.2) = if rd then 1023 - x.2 else x.2) = some x := by
  decide +kernel

theorem mem_specials (k : Special) : (k, specialNeg k) ∈ specials := by
  cases k <;> decide

/-- The ten bits of D.x.y. -/
def dataWord (rd : Bool) (x y : Nat) : Nat := sixOf rd x * 16 + fourOf (sixRd rd (sixOf rd x)) x y

theorem dataWord_lt : ∀ rd : Bool, ∀ x < 32, ∀ y < 8, dataWord rd x y < 1024 := by decide +kernel

/-- No data code group is a special at its disparity. -/
theorem find?_special_dataWord : ∀ rd : Bool, ∀ x < 32, ∀ y < 8,
    specials.find? (fun z => (if rd then 1023 - z.2 else z.2) = dataWord rd x y) = none := by
  decide +kernel

/-! ### A code group read back -/

theorem codeWord_data (rd : Bool) (b : Byte) : codeWord rd (.data b) = dataWord rd (b.toNat % 32) (b.toNat / 32) := rfl

theorem byte_split (b : Byte) : b.toNat % 32 < 32 ∧ b.toNat / 32 < 8 := by omega

theorem codeWord_lt (rd : Bool) (c : Code) : codeWord rd c < 1024 := by
  cases c with
  | data b => exact dataWord_lt rd _ (byte_split b).1 _ (byte_split b).2
  | special k => cases rd <;> cases k <;> decide

/-- A code group says at its disparity the code it was made from. -/
theorem decodeAt_codeWord (rd : Bool) (c : Code) : decodeAt rd (codeWord rd c) = some c := by
  cases c with
  | special k =>
    have hfind : specials.find? (fun z => (if rd then 1023 - z.2 else z.2) = codeWord rd (.special k)) = some (k, specialNeg k) :=
      find?_special rd _ (mem_specials k)
    rw [decodeAt, hfind]
  | data b =>
    obtain ⟨hx, hy⟩ := byte_split b
    have hfour := fourOf_lt (sixRd rd (sixOf rd (b.toNat % 32))) _ hx _ hy
    have hdiv : dataWord rd (b.toNat % 32) (b.toNat / 32) / 16 = sixOf rd (b.toNat % 32) := by
      unfold dataWord
      omega
    have hmod : dataWord rd (b.toNat % 32) (b.toNat / 32) % 16 =
        fourOf (sixRd rd (sixOf rd (b.toNat % 32))) (b.toNat % 32) (b.toNat / 32) := by
      unfold dataWord
      omega
    have hb : BitVec.ofNat 8 (32 * (b.toNat / 32) + b.toNat % 32) = b := by
      rw [Nat.div_add_mod, BitVec.ofNat_toNat, BitVec.setWidth_eq]
    rw [codeWord_data, decodeAt, find?_special_dataWord rd _ hx _ hy]
    simp only [hdiv, hmod, find?_sixOf rd _ hx, find?_fourOf _ _ hx _ hy, Option.map_some, hb]

theorem decodeGroup_codeWord (rd : Bool) (c : Code) :
    decodeGroup (some rd) (codeWord rd c) = (⟨some c, false⟩, some (groupRd rd (codeWord rd c))) := by
  simp only [decodeGroup, decodeAt_codeWord]

/-! ### Codes over the lanes -/

theorem setAt_length {α : Type} (l : List α) (k : Nat) (v : α) : (setAt l k v).length = l.length := by
  induction l generalizing k with
  | nil => rfl
  | cons a l ih => cases k <;> simp [setAt, ih]

theorem map_setAt {α β : Type} (f : α → β) (l : List α) (k : Nat) (v : α) : (setAt l k v).map f = setAt (l.map f) k (f v) := by
  induction l generalizing k with
  | nil => rfl
  | cons a l ih => cases k <;> simp [setAt, ih]

theorem next_lane_lt {w j : Nat} (h : j < w) : (if j + 1 = w then 0 else j + 1) < w := by
  split <;> omega

/-- What leaves on the lanes: one code group of five symbols for each code, and a disparity for each lane. -/
theorem codeLine_shape (w : Nat) (rds : List Bool) (j : Nat) (cs : List Code) :
    (codeLine w rds j cs).2.length = rds.length ∧ (∀ g ∈ (codeLine w rds j cs).1, g.length = 5) ∧
      (codeLine w rds j cs).1.length = cs.length := by
  induction cs generalizing rds j with
  | nil => simp [codeLine]
  | cons c cs ih =>
    obtain ⟨hrds, hfive, hlen⟩ := ih (setAt rds j (groupRd ((rds[j]?).getD false) (codeWord ((rds[j]?).getD false) c)))
      (if j + 1 = w then 0 else j + 1)
    refine ⟨hrds.trans (setAt_length ..), ?_, by rw [codeLine, List.length_cons, hlen, List.length_cons]⟩
    rw [codeLine, List.forall_mem_cons]
    exact ⟨rfl, hfive⟩

/-- A receiver whose lanes stand at the sender's disparities reads the codes, and its lanes then stand where the sender's do. -/
theorem decodeLine_codeLine {w : Nat} {rds : List Bool} {j : Nat} (hlen : rds.length = w) (hj : j < w) (cs : List Code) :
    decodeLine w (rds.map some) j ((codeLine w rds j cs).1.map symWord) =
      (cs.map fun c => ⟨some c, false⟩, (codeLine w rds j cs).2.map some) := by
  induction cs generalizing rds j with
  | nil => rfl
  | cons c cs ih =>
    have hrd : (((rds.map some)[j]?).getD none : Option Bool) = some ((rds[j]?).getD false) := by
      simp [List.getElem?_eq_getElem (hlen ▸ hj : j < rds.length)]
    rw [codeLine, List.map_cons, symWord_wordSyms (codeWord_lt ..), decodeLine, hrd, decodeGroup_codeWord]
    dsimp only
    rw [← map_setAt, ih ((setAt_length ..).trans hlen) (next_lane_lt hj), List.map_cons]

/-! ### Inverted lanes (R305) -/

/-- A line none of whose lanes is inverted. -/
theorem polarised_none (w : Nat) (l : Line) : polarised 0 w l = l.map symWord := by
  have hbit (x : List Pam4 × Nat) : symWord (if bits 0 (slotLane w x.2) 1 = 1 then x.1.map pamNeg else x.1) = symWord x.1 := by
    simp [bits]
  simp only [polarised, hbit]
  rw [← Function.comp_def, ← List.map_map, List.zipIdx_map_fst]

theorem bits_allOnes {w k : Nat} (h : k < w) : bits (2 ^ w - 1) k 1 = 1 := by
  have htest : (2 ^ w - 1).testBit k = true := by simp [Nat.testBit_two_pow_sub_one, h]
  rw [Nat.testBit_eq_decide_div_mod_eq] at htest
  simpa [bits_eq_div_mod] using htest

/-- A line all of whose lanes are inverted, with its receiver turning them. -/
theorem polarised_all {w : Nat} (hw : 0 < w) (l : Line) : polarised (2 ^ w - 1) w (l.map fun g => g.map pamNeg) = l.map symWord := by
  have hlane (k : Nat) : bits (2 ^ w - 1) (slotLane w k) 1 = 1 :=
    bits_allOnes ((Nat.mod_lt _ (by omega)).trans_eq (by omega : max 1 w = w))
  simp only [polarised, hlane, if_true]
  rw [← Function.comp_def (fun g : List Pam4 => symWord (g.map pamNeg)), ← List.map_map, List.zipIdx_map_fst, List.map_map]
  exact List.map_congr_left fun g _ => congrArg symWord (map_pamNeg_map_pamNeg g)

/-! ### Erasures (R296) -/

/-- Bytes read without a break of disparity are no erasures. -/
theorem erasures_data (w : Nat) (bs : List Byte) : erasures w ((dataCodes bs).map fun c => ⟨some c, false⟩) = [] := by
  rw [erasures, List.filter_eq_nil_iff]
  intro i _
  simp only [dataCodes, List.map_map, List.getElem?_map]
  cases bs[i]? <;> cases bs[i + w]? <;> simp [RxGroup.noByte]

end Sys2Proof.Machine
end

section
/-! PROOFS. The statements of lanes and links: the line code both ways. -/

namespace Sys2Proof.Machine

/-- Settles O55: by induction over the codes, each of which is read back at the disparity of its lane. -/
theorem codesSentAreCodesReceived : Obligations.CodesSentAreCodesReceived := by
  refine ⟨fun w rds cs hw hlen => ?_, erasures_data⟩
  obtain ⟨hrds, hfive, hcount⟩ := codeLine_shape w rds 0 cs
  refine ⟨hrds.trans hlen, hfive, hcount, ?_, ?_⟩
  · rw [polarised_none, decodeLine_codeLine hlen hw]
  · rw [polarised_all hw, decodeLine_codeLine hlen hw]

end Sys2Proof.Machine
end

section
/-! SUPPORT. A Skipper's entries that are not due, and a descriptor that its ring refuses (R323, R328, R332). -/

namespace Sys2Proof.Machine

/-! ### What waits for its time -/

theorem remoteTimeout_of_early {k : Skip} {src : BitVec 12} {tag : BitVec 14} {s : State}
    (h : ∀ r ∈ (skipOf k.val s).remote, r.hdr.srcEp = src → r.hdr.tag = tag → ft s < r.since + 2500 * gx GW_CTRL.REMOTE_TO 0 s) :
    remoteTimeout k src.toNat tag.toNat s = s := by
  unfold remoteTimeout
  split
  · rfl
  · next r hfind =>
    obtain ⟨hsrc, htag⟩ : r.hdr.srcEp = src ∧ r.hdr.tag = tag := by
      simpa [← BitVec.toNat_inj] using List.find?_some hfind
    exact if_pos (h r (List.mem_of_find?_eq_some hfind) hsrc htag)

theorem hostCplTimeout_of_early {k : Skip} {ptag : Nat} {s : State}
    (h : ∀ r ∈ (skipOf k.val s).reads, r.ptag = ptag → locOf .ox9 s < r.since + 25000000) : hostCplTimeout k ptag s = s := by
  unfold hostCplTimeout
  split
  · rfl
  · next r hfind =>
    exact if_pos (h r (List.mem_of_find?_eq_some hfind) (by simpa using List.find?_some hfind))

/-! ### A refused descriptor -/

theorem modSkip_of_fixed {k : Nat} {f : Skipper → Skipper} {s : State} (hf : f (skipOf k s) = skipOf k s) :
    skipOf k (modSkip k f s) = skipOf k s := by
  rw [modSkip, skipOf, SMap.get_set_self, hf]

section
variable (k : Skip) (st : Nat) (s : State)

theorem gx_txHalt_halt : gx HOST_STAT.TX_HALT k.val (txHalt k st s) = 1 := by
  simp only [txHalt, raise0, countD, gx, sx, gf_emit, gf_raise, gf_countN]
  exact gf_sf_self _ _ _ _ _ (by decide)

theorem gx_txHalt_err : gx HOST_STAT.TX_ERR k.val (txHalt k st s) = st % 16 := by
  simp only [txHalt, raise0, countD, gx, sx, gf_emit, gf_raise, gf_countN]
  rw [gf_sf_beside _ HOST_STAT.TX_HALT HOST_STAT.TX_ERR _ _ _ (by decide) rfl rfl (by decide), gf_sf_self _ _ _ _ _ (by decide)]
  rfl

theorem counter_txHalt : counter .ox9 (.die (60 + k.val)) .gwTxErr (txHalt k st s) =
    (counter .ox9 (.die (60 + k.val)) .gwTxErr s + 1) % 2 ^ 64 := by
  simp only [txHalt, raise0, countD, sx, counter_emit, counter_raise, counter_countN_self, counter_sf]
  rfl

theorem txHalt_out : (txHalt k st s).out = s.out ++ [.hostMsix k.val 1] := by
  simp [txHalt, raise0, countD, sx, emit]

theorem skipOf_txHalt (h : (skipOf k.val s).tx = none) : skipOf k.val (txHalt k st s) = skipOf k.val s :=
  modSkip_of_fixed (f := fun x => { x with tx := none }) (by rw [← h])

end

/-- A read of at most 256 bytes is one MRd. -/
theorem txRead_of_short {k : Skip} {addr n tag : Nat} {s : State} (h : hostTag k s = some tag) (hpos : 0 < n) (hn : n ≤ 256) :
    txRead k addr n s = emit (.pcieRead k.val tag (addr % 2 ^ 64) n snooped) s := by
  have hone : ceilDiv n 256 = 1 := by
    unfold ceilDiv
    omega
  simp [txRead, h, hone, hn]

/-- A descriptor refused as it stands is read from its ring and halts it. -/
theorem txStart_of_refused {k : Skip} {words : List Word} {data : List Byte} {tag : Nat} {s : State}
    (hidle : (skipOf k.val s).tx = none) (hmore : (skipOf k.val s).txDone ≠ gx HOST_CFG.TX_TAIL k.val s)
    (hgoes : gx HOST_STAT.TX_HALT k.val s = 0) (htag : hostTag k s = some tag)
    (hbad : txRefused { words := words.map (·.toNat), data := data, next := 0, tags := [] } = true) :
    txStart k words data s = txHalt k stCheckFail (emit (.pcieRead k.val tag ((gx HOST_CFG.TX_BASE k.val s +
      64 * ((skipOf k.val s).txDone % 2 ^ gx HOST_CFG.TX_LOG2 k.val s)) % 2 ^ 64) 64 snooped) s) := by
  simp [txStart, hidle, hmore, hgoes, htag, hbad, txRead_of_short htag]

end Sys2Proof.Machine
end

section
/-! PROOFS. The commands of links, of time, of faults and service, of the Monarch, of reset and power: where each completes, and
with which state. -/

namespace Sys2Proof.Machine

theorem inPhase_reached {n : Nat} {s : State} (f : State → State) (hd : dark s = false) (hp : gx START_STAT.PHASE 0 s = n) :
    inPhase n f s = .next (f s) := by
  simp [inPhase, hd, hp]

/-- Settles O14, each command being its operation behind the gate of its unit. -/
theorem linkCommandsAct : Obligations.LinkCommandsAct := by
  intro s
  exact ⟨fun _ _ _ h => liveAt_awake _ h, fun _ h => liveAt_awake _ h, fun _ h => liveAt_awake _ h,
    fun _ h => liveAt_awake _ h, fun _ _ _ h => liveAt_awake _ h, fun _ _ h => liveAt_awake _ h,
    fun _ _ h => liveAt_awake _ h, fun _ _ h => liveAt_awake _ h, fun _ _ h => liveAt_awake _ h,
    fun _ h => liveAt_awake _ h, fun _ h => liveAt_awake _ h, fun _ h => liveAt_awake _ h, fun _ h => liveAt_awake _ h,
    fun _ h => liveAt_awake _ h, fun _ h => liveAt_awake _ h, fun _ h => liveAt_awake _ h, fun _ h => liveAt_awake _ h,
    fun _ h => liveAt_awake _ h, fun _ _ h => liveAt_awake _ h, fun _ _ _ h => liveAt_awake _ h,
    fun _ _ h => liveAt_awake _ h, fun _ _ _ h => liveAt_awake _ h, fun _ _ h => liveAt_awake _ h,
    fun _ _ h => liveAt_awake _ h, fun _ h => liveAt_awake _ h, fun _ h => liveAt_awake _ h, fun _ h => liveAt_awake _ h,
    fun _ h => liveAt_awake _ h, fun _ h => liveAt_awake _ h, fun h => live_awake _ h, fun h => live_awake _ h,
    fun _ h => live_awake _ h, fun _ h => live_awake _ h, fun _ h => live_awake _ h, fun _ _ => rfl,
    fun _ h => liveAt_awake _ h, fun _ h => liveAt_awake _ h, fun _ hd => served_awake _ hd⟩

/-- Settles O19: each command is its operation behind the gate of the OX9; a host write sets one field, what is early waits, and a
refused descriptor is one count, one event and two field writes after its read. -/
theorem skipperCommandsAct : Obligations.SkipperCommandsAct := by
  intro s
  refine ⟨fun _ _ _ h => live_awake _ h, fun _ _ _ _ _ h => live_awake _ h, fun _ _ _ h => live_awake _ h,
    fun _ _ _ h => live_awake _ h, fun _ _ _ h => live_awake _ h, fun _ _ _ _ h => live_awake _ h,
    fun _ _ h => live_awake _ h, fun _ _ h => live_awake _ h, fun _ _ h => live_awake _ h, fun _ _ _ h => live_awake _ h,
    fun _ _ h => live_awake _ h, fun _ h => live_awake _ h, fun k v h => ?rxCons, fun k v h => ?txTail,
    fun k src tag h hearly => (live_awake _ h).trans (congrArg _ (remoteTimeout_of_early hearly)),
    fun k ptag h hearly => (live_awake _ h).trans (congrArg _ (hostCplTimeout_of_early hearly)),
    fun k words data h hidle hmore hgoes tag htag hbad => ?refused⟩
  case rxCons =>
    exact ⟨_, live_awake _ h, (gf_sf_self _ _ _ _ _ (by decide)).trans (Nat.mod_eq_of_lt v.isLt),
      gf_sf_beside _ _ _ _ _ _ (by decide) rfl rfl (by decide), oneWord_sf .., sf_out ..⟩
  case txTail =>
    exact ⟨_, live_awake _ h, (gf_sf_self _ _ _ _ _ (by decide)).trans (Nat.mod_eq_of_lt v.isLt),
      gf_sf_beside _ _ _ _ _ _ (by decide) rfl rfl (by decide), oneWord_sf .., sf_out ..⟩
  case refused =>
    have hbad' : txRefused { words := words.map (·.toNat), data := data, next := 0, tags := [] } = true := by
      simpa [txRefused, txNp, txEnc, txDst, addrRegion, or_assoc] using hbad
    exact ⟨_, _, (live_awake _ h).trans (congrArg _ (txStart_of_refused hidle hmore hgoes htag hbad')), gx_txHalt_halt ..,
      gx_txHalt_err .., skipOf_txHalt _ _ _ hidle, counter_txHalt .., rfl, rfl, rfl, (txHalt_out ..).trans (List.append_assoc ..)⟩

/-- Settles O20, by the gate of each command. -/
theorem timeCommandsAct : Obligations.TimeCommandsAct := by
  intro s
  exact ⟨fun _ _ h => liveAt_awake _ h, fun h => live_awake (fun t => afterStep .ox9 (ppsIn t)) h, fun h => live_awake _ h,
    fun _ h => liveAt_awake _ h, fun _ h => live_awake _ h, fun _ h => live_awake _ h, fun h => live_awake _ h,
    fun _ _ hd hh => hosted_served _ hd hh, fun _ _ h => served_awake _ h⟩

/-- Settles O22, by the gate of each command, of an access the gate of the window it goes through. -/
theorem faultAndServiceCommandsAct : Obligations.FaultAndServiceCommandsAct := by
  intro s
  exact ⟨fun _ hd hh => hosted_served _ hd hh, fun h => live_awake _ h, fun h => live_awake _ h,
    fun _ h => liveAt_awake _ h, fun _ _ h => liveAt_awake _ h, fun _ _ h => liveAt_awake _ h, fun _ h => live_awake _ h,
    fun h => live_awake _ h, fun h => live_awake _ h, fun _ h => live_awake _ h, fun _ h => live_awake _ h,
    fun _ _ _ h => live_awake _ h, fun _ _ _ h => live_awake _ h, fun hd hm => manned_live _ hd hm, rfl, rfl,
    fun h => live_awake _ h, fun _ _ hd hh => hosted_served _ hd hh, fun _ _ _ _ hd hh => hosted_served _ hd hh,
    fun _ _ _ write => by cases write <;> rfl, fun _ _ _ write h => by cases write <;> exact live_awake _ h,
    fun _ _ _ _ hd hh => hosted_served _ hd hh, fun _ _ _ _ => rfl, fun _ _ _ _ h => live_awake _ h⟩

/-- Settles O23, by the gates of hosts and of the Monarch. -/
theorem monarchCommandsAct : Obligations.MonarchCommandsAct := by
  intro s
  exact ⟨fun _ _ hd hh => hosted_served _ hd hh, fun _ hd hh => hosted_served _ hd hh, fun hd hm => manned_live _ hd hm,
    fun _ _ _ hd hh => hosted_served _ hd hh, fun _ _ _ hd hh => hosted_served _ hd hh,
    fun _ _ _ hd hh => hosted_served _ hd hh, fun _ _ _ hd hh => hosted_served _ hd hh,
    fun _ _ hd hh => hosted_served _ hd hh, fun _ _ hd hh => hosted_served _ hd hh,
    fun _ _ _ hd hh => hosted_served _ hd hh, fun _ _ _ hd hh => hosted_served _ hd hh,
    fun _ _ hd hh => hosted_served _ hd hh, fun _ _ _ hd hh => hosted_served _ hd hh,
    fun _ _ hd hh => hosted_served _ hd hh, fun _ hd hh => hosted_served _ hd hh, fun _ hd hh => hosted_served _ hd hh,
    fun _ _ hd hh => hosted_served _ hd hh, fun _ hd hh => hosted_served _ hd hh, fun _ _ hd hh => hosted_served _ hd hh,
    fun _ _ _ hd hh => hosted_served _ hd hh, fun _ _ hd hh => hosted_served _ hd hh,
    fun _ _ hd hh => hosted_served _ hd hh, fun _ _ hd hh => hosted_served _ hd hh, fun _ hd hh => hosted_served _ hd hh,
    fun _ _ _ hd hh => hosted_served _ hd hh, fun _ _ _ hd hh => hosted_served _ hd hh,
    fun _ _ _ hd hh => hosted_served _ hd hh, fun _ _ hd hh => hosted_served _ hd hh,
    fun _ _ hd hh => hosted_served _ hd hh, fun _ hd hh => hosted_served _ hd hh, fun _ _ hd hm => manned_live _ hd hm,
    fun _ _ hd hm => manned_live _ hd hm, fun _ _ hd hm => manned_live _ hd hm, fun _ hd hm => manned_live _ hd hm,
    fun h => live_awake _ h, fun _ hd hm => manned_live _ hd hm, fun _ _ hd hm => manned_live _ hd hm,
    fun _ hd hm => manned_live _ hd hm, fun hd hm => manned_live _ hd hm, fun _ _ hd hm => manned_live _ hd hm,
    fun _ _ _ hd hm => manned_live _ hd hm, fun _ hd hm => manned_live _ hd hm⟩

/-- Settles O24, by the gate of each command, of the end of a start-up phase the phase itself. -/
theorem powerCommandsAct : Obligations.PowerCommandsAct := by
  intro s
  exact ⟨rfl, fun h => live_awake _ h, rfl, rfl, rfl, fun _ _ _ hd hp => inPhase_reached _ hd hp,
    fun hd hp => inPhase_reached _ hd hp, fun _ _ _ _ hd hp => inPhase_reached _ hd hp,
    fun hd hp => inPhase_reached _ hd hp, fun hd hp => inPhase_reached _ hd hp, fun _ _ h => live_awake _ h,
    fun _ h => live_awake _ h, fun _ h => live_awake _ h, fun h => live_awake _ h,
    fun demand h => served_awake (fun t => if gx START_STAT.PHASE 0 t < 3 then t else governor demand t) h,
    fun _ _ h => live_awake _ h, fun _ _ h => served_awake _ h, fun _ _ _ _ _ h => live_awake _ h⟩

end Sys2Proof.Machine
end

section
/-! SUPPORT. One reference cycle: what it adds to the fabric time and the local clock of each unit, and what else of a unit it
reaches (R334, R341, R343, R352). -/

namespace Sys2Proof.Machine

/-! ### A change of a unit's quality -/

/-- The quality set, counted and raised (R343). -/
def qualSet (u : UnitId) (q : Nat) (s : State) : State :=
  raiseU u .timeQuality true [na (qualOf u s), na q] (countU u .timeQualChange (sf u TIME_STAT.QUAL 0 q s))

theorem setQual_oeb (side : Side) (q : Nat) (s : State) :
    setQual (.oeb side) q s = if qualOf (.oeb side) s = q then s else qualSet (.oeb side) q s := rfl

/-- Where the time of an OX9 was set already, its pulses go on as they were. -/
theorem setQual_ox9_of_set {q : Nat} {s : State} (h : qualOf .ox9 s ≠ 0) :
    setQual .ox9 q s = if qualOf .ox9 s = q then s else refreshReady (qualSet .ox9 q s) := by
  unfold setQual
  simp only [h, if_false]
  rfl

/-- Only a time that is set follows its remaining correction (Table 15-4). -/
theorem refreshQual_cases (u : UnitId) (s : State) :
    refreshQual u s = s ∨ qualOf u s ≠ 0 ∧ ∃ q, q ≤ 5 ∧ refreshQual u s = setQual u q s := by
  have hq (r : Int) (up : Nat) : trackQual r up ≤ 5 := by
    unfold trackQual
    split_ifs <;> decide
  unfold refreshQual
  dsimp only
  split
  · exact .inl rfl
  · next hlow =>
    split
    · exact .inl rfl
    · split
      · refine .inr ⟨fun h0 => hlow ?_, _, hq _ _, rfl⟩
        simp [h0]
      · exact .inl rfl

@[simp] theorem time_countU (u v : UnitId) (c : Ctr) (s : State) : ((countU u c s).unit v).time = (s.unit v).time := by
  cases u <;> exact time_countN ..

theorem unit_countU_ne {u v : UnitId} (c : Ctr) (s : State) (h : v ≠ u) : (countU u c s).unit v = s.unit v := by
  cases u <;> exact unit_setUnit_ne _ _ h

theorem time_qualSet (u v : UnitId) (q : Nat) (s : State) : ((qualSet u q s).unit v).time = (s.unit v).time := by
  simp [qualSet, raiseU]

theorem unit_qualSet_ne {u v : UnitId} (q : Nat) (s : State) (h : v ≠ u) : (qualSet u q s).unit v = s.unit v := by
  rw [qualSet, raiseU, unit_raise, if_neg h, unit_countU_ne _ _ h, sf, unit_setW, if_neg h]

theorem unit_with_power (x : Power) (s : State) (v : UnitId) : ({ s with power := x } : State).unit v = s.unit v := by
  unfold State.unit
  split <;> rfl

theorem time_sx (f : Fld) (i x : Nat) (s : State) (v : UnitId) : ((sx f i x s).unit v).time = (s.unit v).time :=
  time_sf ..

theorem time_refreshReady (s : State) (v : UnitId) : ((refreshReady s).unit v).time = (s.unit v).time := by
  unfold refreshReady
  dsimp only
  split_ifs <;> simp only [time_sx, unit_with_power]

theorem unit_sx_ne {v : UnitId} (f : Fld) (i x : Nat) (s : State) (h : v ≠ .ox9) : (sx f i x s).unit v = s.unit v := by
  rw [sx, sf, unit_setW, if_neg h]

theorem unit_refreshReady_ne {v : UnitId} (s : State) (h : v ≠ .ox9) : (refreshReady s).unit v = s.unit v := by
  unfold refreshReady
  dsimp only
  split_ifs <;> simp only [unit_sx_ne _ _ _ _ h, unit_with_power]

theorem time_refreshQual (u v : UnitId) (s : State) : ((refreshQual u s).unit v).time = (s.unit v).time := by
  obtain h | ⟨hset, q, -, h⟩ := refreshQual_cases u s
  · rw [h]
  · rw [h]
    cases u with
    | ox9 =>
      rw [setQual_ox9_of_set hset]
      split
      · rfl
      · rw [time_refreshReady, time_qualSet]
    | oeb side =>
      rw [setQual_oeb]
      split
      · rfl
      · rw [time_qualSet]

theorem unit_refreshQual_ne {u v : UnitId} (s : State) (hv : v ≠ u) : (refreshQual u s).unit v = s.unit v := by
  obtain h | ⟨hset, q, -, h⟩ := refreshQual_cases u s
  · rw [h]
  · rw [h]
    cases u with
    | ox9 =>
      rw [setQual_ox9_of_set hset]
      split
      · rfl
      · rw [unit_refreshReady_ne _ hv, unit_qualSet_ne _ _ hv]
    | oeb side =>
      rw [setQual_oeb]
      split
      · rfl
      · rw [unit_qualSet_ne _ _ hv]

/-! ### The cycle of one unit -/

/-- The fabric time of a unit with its fraction has grown by 16 × (1 + RATE × 10^-7) and its slew, which its remaining correction
loses, and its local clock by 16 (R334, R341, R352). -/
def ClockTicked (u : UnitId) (s t : State) : Prop :=
  let x := (s.unit u).time
  let y := (t.unit u).time
  let lim : Int := ((16 * gf u TIME_CFG.SLEW_MAX 0 s * 2 ^ 32 / 1000000 : Nat) : Int)
  let slew : Int := max (-lim) (min x.r lim)
  let rate : Int := signed 16 (gf u TIME_STAT.RATE 0 s)
  ((y.ft * 2 ^ 32 + y.frac : Nat) : Int) =
      (((x.ft * 2 ^ 32 + x.frac : Nat) : Int) + 16 * 2 ^ 32 + 16 * 2 ^ 32 * rate / 10000000 + slew) % 2 ^ 96 ∧
    y.frac < 2 ^ 32 ∧ y.r = x.r - slew ∧ y.loc = x.loc + 16

/-- It is a fact about the unit before and about its clocks after. -/
theorem ClockTicked.of_unit {u : UnitId} {s s' t t' : State} (h : ClockTicked u s t) (hs : s.unit u = s'.unit u)
    (ht : (t'.unit u).time = (t.unit u).time) : ClockTicked u s' t' := by
  unfold ClockTicked at h ⊢
  rw [ht, ← hs, ← gf_of_unit hs, ← gf_of_unit hs]
  exact h

theorem signed_ge (n : Nat) : -32768 ≤ signed 16 n := by
  unfold signed bits
  split <;> omega

/-- Whole units and a fraction of 2^-32 of a total that is not negative, the units modulo 2^64. -/
theorem split_total {total : Int} (h : 0 ≤ total) :
    (((total / 2 ^ 32).toNat % 2 ^ 64 * 2 ^ 32 + (total % 2 ^ 32).toNat : Nat) : Int) = total % 2 ^ 96 ∧
      (total % 2 ^ 32).toNat < 2 ^ 32 := by
  omega

theorem clockTicked_tickUnit (u : UnitId) (s : State) : ClockTicked u s (tickUnit u s) := by
  have htime : ((tickUnit u s).unit u).time =
      tickTime (signed 16 (gf u TIME_STAT.RATE 0 s)) (gf u TIME_CFG.SLEW_MAX 0 s) (s.unit u).time := by
    rw [tickUnit, time_refreshQual, unit_setUnit_self]
  have hslew : gf u TIME_CFG.SLEW_MAX 0 s < 2 ^ 7 := bits_lt ..
  have hrate := signed_ge (gf u TIME_STAT.RATE 0 s)
  unfold ClockTicked
  rw [htime]
  generalize (s.unit u).time = x, gf u TIME_CFG.SLEW_MAX 0 s = m, signed 16 (gf u TIME_STAT.RATE 0 s) = rate at *
  have hsum := @split_total (((x.ft * 2 ^ 32 + x.frac : Nat) : Int) + rateStep rate + slewStep x.r m) (by
    unfold rateStep slewStep clampInt
    dsimp only
    omega)
  refine ⟨hsum.1.trans ?_, hsum.2, rfl, rfl⟩
  simp only [rateStep, slewStep, clampInt, add_assoc]

/-! ### What else of a unit a cycle reaches -/

theorem unit_tickUnit_ne {u v : UnitId} (s : State) (h : v ≠ u) : (tickUnit u s).unit v = s.unit v := by
  rw [tickUnit, unit_refreshQual_ne _ h, unit_setUnit_ne _ _ h]

/-- Of an OEB's registers one word at most has changed, that of its quality, and without a change of quality no register,
counter or event. -/
def QualTicked (side : Side) (s t : State) : Prop :=
  let o : UnitId := .oeb side
  (∀ (r : Reg) (i w : Nat), regKey r i w ≠ regKey TIME_STAT.QUAL.reg 0 TIME_STAT.QUAL.word → getW o r i w t = getW o r i w s) ∧
    (qualOf o t = qualOf o s → (t.unit o).regs = (s.unit o).regs ∧ (t.unit o).ctrs = (s.unit o).ctrs ∧
      (t.unit o).events = (s.unit o).events)

theorem QualTicked.of_unit {side : Side} {s s' t t' : State} (h : QualTicked side s t)
    (hs : s.unit (.oeb side) = s'.unit (.oeb side)) (ht : t'.unit (.oeb side) = t.unit (.oeb side)) :
    QualTicked side s' t' := by
  simp only [QualTicked, qualOf, gf_of_unit ht, ← gf_of_unit hs, getW_of_unit ht, ← getW_of_unit hs, ht, ← hs] at h ⊢
  exact h

/-- A quality that is set to another reads as another. -/
theorem qualOf_qualSet (side : Side) {q : Nat} (s : State) (h : q ≤ 5) : qualOf (.oeb side) (qualSet (.oeb side) q s) = q := by
  simp only [qualSet, raiseU, countU, countO, qualOf, gf_raise, gf_countN]
  rw [gf_sf_self _ _ _ _ _ (by decide)]
  exact Nat.mod_eq_of_lt (lt_of_le_of_lt h (by decide))

theorem qualTicked_tickUnit (side : Side) (s : State) : QualTicked side s (tickUnit (.oeb side) s) := by
  unfold tickUnit
  dsimp only
  generalize hs' : s.setUnit (.oeb side) _ = s'
  have hregs : (s'.unit (.oeb side)).regs = (s.unit (.oeb side)).regs := by rw [← hs', unit_setUnit_self]
  have hctrs : (s'.unit (.oeb side)).ctrs = (s.unit (.oeb side)).ctrs := by rw [← hs', unit_setUnit_self]
  have hevents : (s'.unit (.oeb side)).events = (s.unit (.oeb side)).events := by rw [← hs', unit_setUnit_self]
  have hword (r : Reg) (i w : Nat) : getW (.oeb side) r i w s' = getW (.oeb side) r i w s := by rw [getW, getW, hregs]
  have hqual : qualOf (.oeb side) s' = qualOf (.oeb side) s := by rw [qualOf, qualOf, gf, gf, hword]
  have hsame : QualTicked side s s' := ⟨fun r i w _ => hword r i w, fun _ => ⟨hregs, hctrs, hevents⟩⟩
  obtain h | ⟨-, q, hq, h⟩ := refreshQual_cases (.oeb side) s'
  · rwa [h]
  · rw [h, setQual_oeb]
    split
    · exact hsame
    · next hne =>
      refine ⟨fun r i w hk => ?_, fun heq => absurd (heq.symm.trans (qualOf_qualSet side s' hq)) (hqual ▸ hne)⟩
      simp only [qualSet, raiseU, countU, countO, getW_raise, getW_countN]
      rw [getW_sf_other _ _ _ _ _ _ _ _ _ (.inl hk), hword]

/-! ### The rest of a reference cycle -/

/-- A fold keeps what each of its steps keeps. -/
theorem foldl_keeps {α β : Type} (g : State → β) {f : State → α → State} (h : ∀ s a, g (f s a) = g s) (l : List α) (s : State) :
    g (l.foldl f s) = g s := by
  induction l generalizing s with
  | nil => rfl
  | cons a l ih => rw [List.foldl_cons, ih, h]

theorem unit_serveToken (r : Nat × Nat) (s : State) (v : UnitId) : (serveToken r s).unit v = s.unit v := by
  unfold serveToken
  split <;> rfl

theorem unit_bucketClock (p k : Nat) (s : State) (v : UnitId) : (bucketClock p k s).unit v = s.unit v :=
  foldl_keeps (·.unit v) (fun s r => unit_serveToken r s v) _ _

theorem unit_bucketClocks (p k n : Nat) (s : State) (v : UnitId) : (bucketClocks p k n s).unit v = s.unit v := by
  induction n generalizing k s with
  | zero => rfl
  | succ n ih => rw [bucketClocks, ih, unit_bucketClock]

/-- The buckets lie in the forwarding core. -/
theorem unit_tickBuckets (s : State) (v : UnitId) : (tickBuckets s).unit v = s.unit v := by
  refine foldl_keeps (·.unit v) (fun s e => ?_) _ _
  split
  · exact unit_bucketClocks ..
  · rfl

theorem time_cmapAdd (f : Fld) (p : Nat) (s : State) (v : UnitId) : ((cmapAdd f p s).unit v).time = (s.unit v).time := by
  unfold cmapAdd
  split
  · exact time_sf ..
  · rfl

theorem unit_cmapAdd_ne {v : UnitId} (f : Fld) (p : Nat) (s : State) (h : v ≠ .ox9) : (cmapAdd f p s).unit v = s.unit v := by
  unfold cmapAdd
  split
  · exact unit_sx_ne _ _ _ _ h
  · rfl

theorem time_tickStarved (before : Nat) (s : State) (v : UnitId) : ((tickStarved before s).unit v).time = (s.unit v).time := by
  unfold tickStarved
  split
  · rfl
  · dsimp only
    split
    · rfl
    · exact foldl_keeps (fun t : State => (t.unit v).time) (fun t p => time_cmapAdd _ p t v) _ _

theorem unit_tickStarved_ne {v : UnitId} (before : Nat) (s : State) (h : v ≠ .ox9) :
    (tickStarved before s).unit v = s.unit v := by
  unfold tickStarved
  split
  · rfl
  · dsimp only
    split
    · rfl
    · exact foldl_keeps (·.unit v) (fun t p => unit_cmapAdd_ne _ p t h) _ _

/-- The cycle of the OX9 and all that goes with it leave the OEBs as their own cycles left them. -/
theorem unit_tick_oeb (side : Side) (s : State) :
    (tick s).unit (.oeb side) = (tickUnit (.oeb 1) (tickUnit (.oeb 0) s)).unit (.oeb side) := by
  have hne : UnitId.oeb side ≠ .ox9 := nofun
  unfold tick
  dsimp only
  split_ifs
  · rfl
  · rw [unit_tickUnit_ne _ hne, unit_with_power]
  · rw [unit_tickStarved_ne _ _ hne, unit_tickBuckets, unit_tickUnit_ne _ hne, unit_with_power]

/-- The cycle of each OEB finds its unit as it was, and what the other's cycle does leaves it. -/
theorem oeb_cycle (side : Side) (s : State) : ∃ s' : State, s'.unit (.oeb side) = s.unit (.oeb side) ∧
    (tick s).unit (.oeb side) = (tickUnit (.oeb side) s').unit (.oeb side) := by
  have hside : side = 0 ∨ side = 1 := by
    revert side
    decide
  obtain rfl | rfl := hside
  · exact ⟨s, rfl, (unit_tick_oeb 0 s).trans (unit_tickUnit_ne _ nofun)⟩
  · exact ⟨tickUnit (.oeb 0) s, unit_tickUnit_ne _ nofun, unit_tick_oeb 1 s⟩

theorem dark_tickUnit_oeb (side : Side) (s : State) : dark (tickUnit (.oeb side) s) = dark s := by
  have hpower : (tickUnit (.oeb side) s).power = s.power := by
    unfold tickUnit
    dsimp only
    obtain h | ⟨-, q, -, h⟩ := refreshQual_cases (.oeb side) (s.setUnit (.oeb side) _)
    · rw [h, setUnit_power]
    · rw [h, setQual_oeb]
      split
      · rw [setUnit_power]
      · simp [qualSet, raiseU, countU]
  rw [dark, hpower, dark]

/-- The OX9 as the cycles of the OEBs leave it. -/
theorem ox9_after_oebs (s : State) : (tickUnit (.oeb 1) (tickUnit (.oeb 0) s)).unit .ox9 = s.unit .ox9 := by
  have hne (side : Side) : UnitId.ox9 ≠ .oeb side := nofun
  rw [unit_tickUnit_ne _ (hne 1), unit_tickUnit_ne _ (hne 0)]

theorem tick_ox_of_dark {s : State} (h : dark s = true) : (tick s).ox = s.ox := by
  have hdark : dark (tickUnit (.oeb 1) (tickUnit (.oeb 0) s)) = true := by rw [dark_tickUnit_oeb, dark_tickUnit_oeb, h]
  rw [tick]
  simp only [hdark, if_true]
  exact ox9_after_oebs s

/-- The clocks of an OX9 that is not dark are as its own cycle leaves them. -/
theorem time_tick_ox9 {s : State} (h : dark s = false) : ∃ s' : State, s'.unit .ox9 = s.unit .ox9 ∧
    ((tick s).unit .ox9).time = ((tickUnit .ox9 s').unit .ox9).time := by
  have hdark : dark (tickUnit (.oeb 1) (tickUnit (.oeb 0) s)) = false := by rw [dark_tickUnit_oeb, dark_tickUnit_oeb, h]
  let s1 := tickUnit (.oeb 1) (tickUnit (.oeb 0) s)
  refine ⟨{ s1 with power := { s1.power with bootCycles := s1.power.bootCycles + 1 } },
    (unit_with_power ..).trans (ox9_after_oebs s), ?_⟩
  rw [tick]
  simp only [hdark, Bool.false_eq_true, if_false]
  split
  · rfl
  · rw [time_tickStarved, unit_tickBuckets]

theorem clockTicked_tick_ox9 {s : State} (h : dark s = false) : ClockTicked .ox9 s (tick s) := by
  obtain ⟨s', hs, ht⟩ := time_tick_ox9 h
  exact (clockTicked_tickUnit _ _).of_unit hs ht

theorem clockTicked_tick_oeb (side : Side) (s : State) : ClockTicked (.oeb side) s (tick s) := by
  obtain ⟨s', hs, ht⟩ := oeb_cycle side s
  exact (clockTicked_tickUnit _ _).of_unit hs (congrArg UnitSt.time ht)

theorem qualTicked_tick (side : Side) (s : State) : QualTicked side s (tick s) := by
  obtain ⟨s', hs, ht⟩ := oeb_cycle side s
  exact (qualTicked_tickUnit side s').of_unit hs ht

end Sys2Proof.Machine
end

section
/-! PROOFS. The statements of fabric time: what an idle step is. -/

namespace Sys2Proof.Machine

/-- Settles O3: an idle step is a reference cycle, which is a cycle of each unit's clock. -/
theorem idleStepAdvancesTime : Obligations.IdleStepAdvancesTime := by
  intro s hidle
  have hstep : step s = .next (tick s) := by simp only [step, hidle]
  refine ⟨tick s, hstep, tick_ox_of_dark, fun side => qualTicked_tick side s, fun u hu => ?_⟩
  cases u with
  | ox9 => exact clockTicked_tick_ox9 (hu rfl)
  | oeb side => exact clockTicked_tick_oeb side s

end Sys2Proof.Machine
end

section
/-! PROOFS. What an OX9 that stands still does with the commands of its fabric side: nothing (R409, R410). -/

namespace Sys2Proof.Machine

theorem liveAt_still {u : UnitId} {s : State} (f : State → State) (hu : u = .ox9) (h : halted s = true) :
    liveAt u f s = .next s := by
  subst hu
  exact live_still f h

/-- Settles O5: each command of the list is a Luna instruction, or an operation behind a gate that a halted OX9 shuts. -/
theorem standingStillOx9IgnoresCommands : Obligations.StandingStillOx9IgnoresCommands := by
  intro c s hc h
  cases c with
  | sramRowRepaired | sramRowCopyDone | ingressLookup | trackingHoldRelease | heldPacketAdmit | heldPacketAgeOut |
  mcOx7Eop | eopCellBuffered | egressQueueHead | ctStallAbort | bufGrantRequest | bufGrantReturn | tokenBlockRequest |
  tokenBlockReturn | mirrorCopy | sampleRecordWrite | echoSend | cmapBoundary | refclkLost | refclkRestored |
  laneDegraded | laneSwapRxSwitch | laneSwapTxSwitch | cwBankRequest | cohWbAtBank | cohDataAtBank | cohAckAtBank |
  cwAckTimeout | contribSopRx | holdRangeAllocated | contribCellRx | contribEopCheck | taskStart | lunaStepDeadline |
  checkRecordRx | verifyTimeout | lunaHwfault | taskBudgetExceeded | armComplete | disarmComplete | segmentEgress |
  segmentRelease | segmentArrival | remoteTimeout | hostRequest | pcieCompletionRx | hostCplTimeout | hostRxConsWrite
  | hostTxTailWrite | hostTxDescriptor | skipperWrRspRx | hostTxDescriptorComplete | ppsInLost | ppsOutEdge |
  ppsOutFall | monarchHeartbeatLoss | monarchFaultReport | hpGlitch | backgroundSelftestFail | sliceCutClock |
  grantFreezeEnd | sliceDrained | sliceFail | unitTestDone | unitShadowDone | calmFreeze | programCommit | stepLaunch
  | lunaCocoonEntry | cocoonWakeDone | dvfsVoltageReached | dvfsTimeout | thermalWarn | pinReadback => exact live_still _ h
  | ppsInEdge => exact live_still (fun s => afterStep .ox9 (ppsIn s)) h
  | egressFlitSlot | creditStall | flitRx | replayTimeout | nakResend | skipInsertSend | skipRx | breezeRx | idleRx |
  swapRx | downRx | gustRx | electricalIdleEntry | gustExit | idleKeepalive | los | losIdle | fecBurst |
  replayMaxExceeded | silentTimeout | gustTimeout | nrPatternRx | ts1Rx | ts2Rx | tsoRx | tscRx | marginCheckDone |
  alignTimeout | marginTimeout | timeStateTimeout | creditStateTimeout | downHoldEnd | seqExhausted | markerLoss |
  keyRotationTime | keyOverlapEnd | trngStartupDone | trngHealthFail | drbgReseed | eventFold | foldWindowExpiry |
  foldMaxspanExpiry | skipModeEnd =>
    exact liveAt_still _ (of_decide_eq_true hc) h
  | echoRx x =>
    cases x with
    | ox | skipper => exact live_still _ h
    | oeb => cases hc
  | rateRecovery u =>
    cases u with
    | skipper => exact live_still _ h
    | oeb => cases hc
  | add | sub | andd | orr | xorr | shl | shr | sar | mul | slt | sltu | seqq | smin | smax | addi | andi | ori | shli
  | shri | lsh | li | ldc | call | ret | done | rdt | bitm | pmov | pget | pfirst | pcnt | vst | vldc | vsel | vcvt |
  vrnd | vsplat | vsta | aoff | vbexp | ost | ld | ldw | st | stw | beq | bne | blt | bltu | bany | bnone | jmp | pand
  | por | pxor | pandn | vld | vlda | fswp | xrnd | xbexp | xmrg | xdns | vadd | vsub | vmax | vmin | vand | vor |
  vxor | vcmpEq | vcmpLt | vcmpLe | vcmpNe | xadd | xsub | xmax | xmin | xand | xior | xxor | xset | xidSum | xidMax |
  xidMin | xidAnd | xidOr | xidXor | xidCopy | xaddw | xsubw | xswpAdd | xswpMax | xswpMin | xswpAnd | xswpOr |
  xswpXor | xswpCopy =>
    exact live_still _ h
  | _ => cases hc

end Sys2Proof.Machine
end

section
/-! PROOFS. The pulse outputs: the edge an output holds, driven once, and its fall (R349). -/

namespace Sys2Proof.Machine

theorem setAt_eq_set {α : Type} (l : List α) (k : Nat) (v : α) : setAt l k v = l.set k v := by
  induction l generalizing k with
  | nil => rfl
  | cons a l ih =>
    cases k with
    | zero => rfl
    | succ k => exact congrArg (a :: ·) (ih k)

/-- The state in which pulse output `k` holds `x`: its last edge, the time of that edge and the level of the pin. -/
def holdPulse (k : Nat) (x : Nat × Nat × Bool) (s : State) : State :=
  setTime .ox9 { s.ox.time with ppsOut := setAt s.ox.time.ppsOut k x } s

section
variable {k : Nat} {x : Nat × Nat × Bool} {s : State}

theorem ppsOutOf_holdPulse_self (hk : k < s.ox.time.ppsOut.length) : ppsOutOf k (holdPulse k x s) = x := by
  show ((setAt s.ox.time.ppsOut k x)[k]?).getD (0, 0, false) = x
  rw [setAt_eq_set, List.getElem?_set_self hk, Option.getD_some]

theorem ppsOutOf_holdPulse_ne {j : Nat} (hj : j ≠ k) : ppsOutOf j (holdPulse k x s) = ppsOutOf j s := by
  show ((setAt s.ox.time.ppsOut k x)[j]?).getD (0, 0, false) = ppsOutOf j s
  rw [setAt_eq_set, List.getElem?_set_ne hj.symm]
  rfl

theorem ppsIndex_of_before (h : ft s < gx PPS_OUT_CFG.PHASE k s) : ppsIndex k (ft s) s = 0 := if_pos h

theorem ppsIndex_of_after (hph : gx PPS_OUT_CFG.PHASE k s ≤ ft s) (hper : 0 < gx PPS_OUT_CFG.PERIOD k s * 2500) :
    ppsIndex k (ft s) s = (ft s - gx PPS_OUT_CFG.PHASE k s) / (gx PPS_OUT_CFG.PERIOD k s * 2500) + 1 := by
  have hmax : max 1 (gx PPS_OUT_CFG.PERIOD k s) = gx PPS_OUT_CFG.PERIOD k s := by omega
  simp only [ppsIndex, hmax]
  rw [if_neg (by omega)]

/-- An output does not rise while off, without a time, or where no edge has come since the one it holds. -/
theorem ppsRise_still (h : gx PPS_OUT_CFG.EN k s = 0 ∨ qualOf .ox9 s = 0 ∨ ppsIndex k (ft s) s ≤ (ppsOutOf k s).1) :
    ppsRise k s = s := if_pos (by simpa [or_assoc] using h)

theorem ppsRise_due (hen : gx PPS_OUT_CFG.EN k s = 1) (hq : qualOf .ox9 s ≠ 0)
    (hn : (ppsOutOf k s).1 < ppsIndex k (ft s) s) :
    ppsRise k s = emit (.ppsOut k true) (holdPulse k (ppsIndex k (ft s) s, ft s, true) s) :=
  if_neg (by simp [hen, hq, hn])

theorem ppsFall_eq : ppsFall k s =
    if !(ppsOutOf k s).2.2 || ft s < (ppsOutOf k s).2.1 + (qualOf .ox9 s + 1) * 25000 then s
    else emit (.ppsOut k false) (holdPulse k ((ppsOutOf k s).1, (ppsOutOf k s).2.1, false) s) := rfl

theorem ppsFall_early (h : ft s < (ppsOutOf k s).2.1 + (qualOf .ox9 s + 1) * 25000) : ppsFall k s = s := by
  rw [ppsFall_eq, if_pos (by simp [h])]

theorem ppsFall_due (hhigh : (ppsOutOf k s).2.2 = true)
    (h : (ppsOutOf k s).2.1 + (qualOf .ox9 s + 1) * 25000 ≤ ft s) :
    ppsFall k s = emit (.ppsOut k false) (holdPulse k ((ppsOutOf k s).1, (ppsOutOf k s).2.1, false) s) := by
  rw [ppsFall_eq, if_neg (by simp [hhigh, h])]

end

/-- Settles O60: an edge above the one held is held as it is driven, so the same edge is not above it again. -/
theorem ppsOutRisesAtItsEdgeAndFalls : Obligations.PpsOutRisesAtItsEdgeAndFalls := by
  intro k s hawake hlen
  have hk : k.val < s.ox.time.ppsOut.length := k.isLt.trans_eq hlen.symm
  have hrise : exec (.ppsOutEdge k) s = .next (ppsRise k.val s) := live_awake _ hawake
  have hfall : exec (.ppsOutFall k) s = .next (ppsFall k.val s) := live_awake _ hawake
  refine ⟨fun h => ?_, fun hen hq hph hper hn => ?_, fun _ hft => by rw [hfall, ppsFall_early hft], fun hhigh hft => ?_⟩
  · rw [hrise, ppsRise_still (h.imp_right (Or.imp_right fun hbefore => ?_))]
    rw [ppsIndex_of_before hbefore]
    exact Nat.zero_le _
  · rw [← ppsIndex_of_after hph hper] at hn ⊢
    refine ⟨_, hrise, ?_⟩
    rw [ppsRise_due hen hq hn]
    have hheld := ppsOutOf_holdPulse_self (x := (ppsIndex k.val (ft s) s, ft s, true)) hk
    refine ⟨rfl, hheld, fun j hj => ppsOutOf_holdPulse_ne (fun he => hj (Fin.ext he)), rfl, rfl, ?_⟩
    have hawake' : halted (emit (.ppsOut k.val true) (holdPulse k.val (ppsIndex k.val (ft s) s, ft s, true) s)) = false := hawake
    exact (live_awake _ hawake').trans (congrArg _ (ppsRise_still (.inr (.inr (congrArg Prod.fst hheld).ge))))
  · refine ⟨_, hfall, ?_⟩
    rw [ppsFall_due hhigh hft]
    exact ⟨rfl, ppsOutOf_holdPulse_self hk, rfl⟩

end Sys2Proof.Machine
end

section
/-! SUPPORT. Security engines and their slots read after a write; an event on its way, whatever else has changed. -/

namespace Sys2Proof.Machine

/-! ### The security engine of a unit -/

theorem keySec_of_keys {u : UnitId} {s t : State} (h : t.keys = s.keys) : keySec u t = keySec u s := by
  rw [keySec, keySec, h]

theorem keySlot_of_keySec {u : UnitId} {n : Nat} {s t : State} (h : keySec u t = keySec u s) :
    keySlot u n t = keySlot u n s := by rw [keySlot, keySlot, h]

@[simp] theorem keySec_setKeySec (u : UnitId) (x : KeySec) (s : State) : keySec u (setKeySec u x s) = x :=
  SMap.get_set_self ..

@[simp] theorem keySec_noteChange (u : UnitId) (s : State) : keySec u (noteChange s) = keySec u s := rfl

@[simp] theorem keySec_sf (u v : UnitId) (f : Fld) (i x : Nat) (s : State) : keySec u (sf v f i x s) = keySec u s :=
  keySec_of_keys (sf_keys ..)

theorem keySlot_setKeySlot_self (u : UnitId) (n : Nat) (k : Option KeySlot) (s : State) :
    keySlot u n (setKeySlot u n k s) = k := by
  simp [keySlot, setKeySlot]

theorem keySlot_setKeySlot_ne {u : UnitId} {m n : Nat} (k : Option KeySlot) (s : State) (h : m ≠ n) :
    keySlot u m (setKeySlot u n k s) = keySlot u m s := by
  simp only [keySlot, setKeySlot, keySec_noteChange, keySec_setKeySec]
  exact SMap.get_set_ne _ _ _ h

@[simp] theorem gf_setKeySec (u v : UnitId) (x : KeySec) (f : Fld) (i : Nat) (s : State) :
    gf v f i (setKeySec u x s) = gf v f i s := gf_of_unit (setKeySec_unit ..) f i

@[simp] theorem gf_setKeySlot (u v : UnitId) (n : Nat) (k : Option KeySlot) (f : Fld) (i : Nat) (s : State) :
    gf v f i (setKeySlot u n k s) = gf v f i s := gf_of_unit (setKeySlot_unit ..) f i

@[simp] theorem gf_resetSeqs (u v : UnitId) (n : Nat) (f : Fld) (i : Nat) (s : State) :
    gf v f i (resetSeqs u n s) = gf v f i s := gf_setKeySec ..

/-! ### Generators -/

@[simp] theorem drawPackage_drbgSeeds (u : UnitId) (i : Nat) (x : KeySec) : (drawPackage u i x).drbgSeeds = x.drbgSeeds := by
  unfold drawPackage
  split <;> rfl

theorem seedsOf_drawPackage (u : UnitId) (i j : Nat) (x : KeySec) : seedsOf j (drawPackage u i x) = seedsOf j x := by
  rw [seedsOf, seedsOf, drawPackage_drbgSeeds]

theorem seedsOf_seedDrbg_self (i : Nat) (x : KeySec) : seedsOf i (seedDrbg i x) = seedsOf i x + 1 :=
  SMap.get_set_self (fun _ => 0) x.drbgSeeds i (seedsOf i x + 1)

theorem seedsOf_seedDrbg_ne {i j : Nat} (x : KeySec) (h : j ≠ i) : seedsOf j (seedDrbg i x) = seedsOf j x :=
  SMap.get_set_ne (fun _ => 0) x.drbgSeeds (seedsOf i x + 1) h

/-! ### Events and counters of a unit -/

/-- What is on its way with an event more, by the events of the unit and whether a Monarch switch is in progress. -/
theorem raisedWith_congr {u : UnitId} {s t : State} (e : Event) (hev : (t.unit u).events = (s.unit u).events)
    (hloc : locOf .ox9 t = locOf .ox9 s) (htele : t.tele = s.tele) : raisedWith u e t = raisedWith u e s := by
  unfold raisedWith switching
  rw [hev, hloc, htele]

/-- Where the counters of a unit's own group are. -/
def ownPlace : UnitId → Place
  | .ox9 => .glob
  | .oeb side => .oeb side.val

theorem countU_eq_countN (u : UnitId) (c : Ctr) (s : State) : countU u c s = countN u (ownPlace u) c 1 s := by
  cases u <;> rfl

theorem eq_ownPlace {u : UnitId} {p : Place} (hox : u = .ox9 → p = .glob)
    (hoeb : ∀ side : Side, u = .oeb side → p = .oeb side.val) : p = ownPlace u := by
  cases u with
  | ox9 => exact hox rfl
  | oeb side => exact hoeb side rfl

/-- A field raised by one, held at its maximum. -/
theorem gf_satAdd_one (u : UnitId) (f : Fld) (i : Nat) (s : State) (h : f.lo + f.len ≤ 64) :
    gf u f i (satAdd u f i 1 s) = min (gf u f i s + 1) (2 ^ f.len - 1) := by
  have hpos : 0 < 2 ^ f.len := Nat.two_pow_pos _
  rw [satAdd, gf_sf_self _ _ _ _ _ h, Nat.mod_eq_of_lt (by omega)]

end Sys2Proof.Machine
end

section
/-! PROOFS. The start-up of a generator and the failure of its continuous tests (R373). -/

namespace Sys2Proof.Machine

section
variable {k : TrngUnit} {u : UnitId} {i : Nat} {s : State}

/-- A start-up counts only while the generator is neither ready nor given up. -/
theorem trngStartup_settled (hk : trngAt k = (u, i)) (pass : Bool)
    (h : gf u TRNG_STAT.READY i s = 1 ∨ gf u TRNG_STAT.FAILED i s = 1) : trngStartup k pass s = s := by
  unfold trngStartup
  rw [hk]
  exact if_pos (by simpa using h)

theorem trngStartup_passed (hk : trngAt k = (u, i)) (hready : gf u TRNG_STAT.READY i s = 0)
    (hfailed : gf u TRNG_STAT.FAILED i s = 0) :
    trngStartup k true s = setKeySec u (drawPackage u i (seedDrbg i (keySec u s)))
      (sf u TRNG_STAT.TRIES i 0 (sf u TRNG_STAT.READY i 1 s)) := by
  unfold trngStartup
  rw [hk]
  simp [hready, hfailed]

theorem trngStartup_failed (hk : trngAt k = (u, i)) (hready : gf u TRNG_STAT.READY i s = 0)
    (hfailed : gf u TRNG_STAT.FAILED i s = 0) :
    trngStartup k false s = if 2 ≤ gf u TRNG_STAT.TRIES i s
      then sf u TRNG_STAT.FAILED i 1 (sf u TRNG_STAT.TRIES i (gf u TRNG_STAT.TRIES i s + 1) s)
      else sf u TRNG_STAT.TRIES i (gf u TRNG_STAT.TRIES i s + 1) s := by
  unfold trngStartup
  rw [hk]
  simp [hready, hfailed]

/-- The fields after a passed start-up, whatever package key is drawn with it. -/
theorem trngStartup_passed_fields (u : UnitId) (i : Nat) (s : State) (x : KeySec) :
    let t := setKeySec u x (sf u TRNG_STAT.TRIES i 0 (sf u TRNG_STAT.READY i 1 s))
    gf u TRNG_STAT.READY i t = 1 ∧ gf u TRNG_STAT.TRIES i t = 0 ∧
      gf u TRNG_STAT.FAILED i t = gf u TRNG_STAT.FAILED i s := by
  simp (disch := decide) only [gf_setKeySec, gf_sf_beside, gf_sf_self]
  exact ⟨rfl, rfl, trivial⟩

/-- The fields after a failed start-up. -/
theorem trngStartup_failed_fields (h : gf u TRNG_STAT.TRIES i s ≤ 2) {t : State}
    (ht : t = if 2 ≤ gf u TRNG_STAT.TRIES i s
      then sf u TRNG_STAT.FAILED i 1 (sf u TRNG_STAT.TRIES i (gf u TRNG_STAT.TRIES i s + 1) s)
      else sf u TRNG_STAT.TRIES i (gf u TRNG_STAT.TRIES i s + 1) s) :
    gf u TRNG_STAT.READY i t = gf u TRNG_STAT.READY i s ∧ gf u TRNG_STAT.TRIES i t = gf u TRNG_STAT.TRIES i s + 1 ∧
      gf u TRNG_STAT.FAILED i t = (if gf u TRNG_STAT.TRIES i s = 2 then 1 else gf u TRNG_STAT.FAILED i s) ∧
      keySec u t = keySec u s := by
  have hmod : (gf u TRNG_STAT.TRIES i s + 1) % 2 ^ TRNG_STAT.TRIES.len = gf u TRNG_STAT.TRIES i s + 1 :=
    Nat.mod_eq_of_lt (show _ < 4 by omega)
  subst ht
  by_cases h2 : gf u TRNG_STAT.TRIES i s = 2
  · rw [if_pos h2.ge, if_pos h2]
    simp (disch := decide) only [gf_sf_beside, gf_sf_self, keySec_sf, hmod]
    exact ⟨trivial, trivial, rfl, trivial⟩
  · rw [if_neg (by omega), if_neg h2]
    simp (disch := decide) only [gf_sf_beside, gf_sf_self, keySec_sf, hmod]
    exact ⟨trivial, trivial, trivial, trivial⟩

/-- The state in which a failure of the continuous tests is counted, before its event. -/
def healthCounted (u : UnitId) (i : Nat) (apt : Bool) (s : State) : State :=
  satAdd u (if apt then TRNG_STAT.APT_FAILS else TRNG_STAT.RCT_FAILS) i 1 (sf u TRNG_STAT.READY i 0 s)

/-- The event of a failure of the continuous tests. -/
def healthEvent (u : UnitId) (i : Nat) (apt : Bool) (s : State) : Event :=
  Event.mk0 u .trngFail false (if u = .ox9 then i else 0) 0 0 [] (healthCounted u i apt s)

theorem trngHealth_ready (hk : trngAt k = (u, i)) (apt : Bool) (hready : gf u TRNG_STAT.READY i s = 1) :
    trngHealth k apt s = raise u (healthEvent u i apt s) (countU u .trngHealthFail (healthCounted u i apt s)) := by
  unfold trngHealth
  rw [hk]
  exact if_neg (by rw [hready]; decide)

end

theorem healthCounted_fields (u : UnitId) (i : Nat) (apt : Bool) (s : State) :
    let t := healthCounted u i apt s
    gf u TRNG_STAT.READY i t = 0 ∧
      gf u TRNG_STAT.RCT_FAILS i t =
        (if apt then gf u TRNG_STAT.RCT_FAILS i s else min (gf u TRNG_STAT.RCT_FAILS i s + 1) 65535) ∧
      gf u TRNG_STAT.APT_FAILS i t =
        (if apt then min (gf u TRNG_STAT.APT_FAILS i s + 1) 65535 else gf u TRNG_STAT.APT_FAILS i s) := by
  cases apt with
  | false =>
    refine ⟨?_, (gf_satAdd_one _ TRNG_STAT.RCT_FAILS _ _ (by decide)).trans ?_, ?_⟩
    · simp (disch := decide) only [healthCounted, satAdd, if_neg, gf_sf_beside, gf_sf_self]
      rfl
    · simp (disch := decide) only [if_neg, gf_sf_beside]
      rfl
    · simp (disch := decide) only [healthCounted, satAdd, if_neg, gf_sf_beside]
  | true =>
    refine ⟨?_, ?_, (gf_satAdd_one _ TRNG_STAT.APT_FAILS _ _ (by decide)).trans ?_⟩
    · simp (disch := decide) only [healthCounted, satAdd, if_pos, gf_sf_beside, gf_sf_self]
      rfl
    · simp (disch := decide) only [healthCounted, satAdd, if_pos, gf_sf_beside]
    · simp (disch := decide) only [if_pos, gf_sf_beside]
      rfl

@[simp] theorem tele_countU (u : UnitId) (c : Ctr) (s : State) : (countU u c s).tele = s.tele := by
  rw [countU_eq_countN, countN_tele]

/-- What a health failure raises and counts beside the fields of its generator. -/
theorem healthCounted_beside (u : UnitId) (i : Nat) (apt : Bool) (s : State) (e : Event) :
    let t := raise u e (countU u .trngHealthFail (healthCounted u i apt s))
    (t.unit u).events.raised = raisedWith u e s ∧
      counter u (ownPlace u) .trngHealthFail t = (counter u (ownPlace u) .trngHealthFail s + 1) % 2 ^ 64 := by
  refine ⟨?_, ?_⟩
  · rw [events_raise]
    exact raisedWith_congr e (by simp [countU_eq_countN, healthCounted, satAdd]) (by simp [locOf, healthCounted, satAdd])
      (by simp [healthCounted])
  · rw [counter_raise, countU_eq_countN, counter_countN_self]
    simp [healthCounted, satAdd]

/-- Settles O52: the start-up and the health failure of a generator, field by field. -/
theorem trngStartsFailsAndLocks : Obligations.TrngStartsFailsAndLocks := by
  intro k s
  rcases hk : trngAt k with ⟨u, i⟩
  intro hawake
  have hstart (pass : Bool) : exec (.trngStartupDone k pass) s = .next (trngStartup k pass s) :=
    liveAt_awake _ (hk ▸ hawake)
  have hhealth (apt : Bool) : exec (.trngHealthFail k apt) s = .next (trngHealth k apt s) :=
    liveAt_awake _ (hk ▸ hawake)
  refine ⟨fun hready hfailed => ⟨?_, fun htries => ?_⟩, fun hfailed pass => ?_, fun hready apt => ?_⟩
  · refine ⟨_, (hstart true).trans (congrArg _ (trngStartup_passed hk hready hfailed)), ?_⟩
    obtain ⟨hr, ht, hf⟩ := trngStartup_passed_fields u i s (drawPackage u i (seedDrbg i (keySec u s)))
    refine ⟨hr, ht, hf.trans hfailed, ?_, fun j hj => ?_⟩
    · rw [keySec_setKeySec, seedsOf_drawPackage, seedsOf_seedDrbg_self]
    · rw [keySec_setKeySec, seedsOf_drawPackage, seedsOf_seedDrbg_ne _ hj]
  · obtain ⟨hr, ht, hf, hs⟩ := trngStartup_failed_fields htries (trngStartup_failed hk hready hfailed)
    exact ⟨_, hstart false, hr.trans hready, ht, hf.trans (by rw [hfailed]), hs⟩
  · rw [hstart, trngStartup_settled hk pass (.inr hfailed)]
  · refine ⟨_, healthEvent u i apt s, (hhealth apt).trans (congrArg _ (trngHealth_ready hk apt hready)), ?_⟩
    obtain ⟨hr, hrct, hapt⟩ := healthCounted_fields u i apt s
    obtain ⟨hraised, hcount⟩ := healthCounted_beside u i apt s (healthEvent u i apt s)
    simp only [gf_raise, countU_eq_countN u .trngHealthFail, gf_countN] at hraised hcount ⊢
    exact ⟨hr, hrct, hapt, hraised, rfl, fun p hox hoeb => by rw [eq_ownPlace hox hoeb]; exact hcount⟩

end Sys2Proof.Machine
end

section
/-! PROOFS. The two transitions of a rotation of a key slot (R372, R48). -/

namespace Sys2Proof.Machine

theorem keySec_resetSeqs (u : UnitId) (n : Nat) (s : State) :
    keySec u (resetSeqs u n s) = { keySec u s with seqs := (keySec u s).seqs.filter fun e => e.1 / 2 ^ 11 ≠ n } :=
  keySec_setKeySec ..

theorem seqs_setKeySlot (u : UnitId) (n : Nat) (k : Option KeySlot) (s : State) :
    (keySec u (setKeySlot u n k s)).seqs = (keySec u s).seqs := by
  simp [setKeySlot]

/-- The state after a rotation: the next key in use, the old one kept, the SEQ counters of the slot gone, GEN one higher. -/
def keyRotated (u : UnitId) (n : Nat) (k : KeySlot) (nk : BitVec 256) (s : State) : State :=
  sf u KS_INFO.STATE n 3 (sf u KS_INFO.GEN n (gf u KS_INFO.GEN n s + 1)
    (resetSeqs u n (setKeySlot u n (some { k with key := nk, next := none, old := some k.key }) s)))

section
variable {u : UnitId} {n : Nat} {k : KeySlot} {s : State} (hslot : keySlot u n s = some k)
include hslot

theorem rotationTime_early (h : ftOf u s < gf u KS_INFO.ROT_AT n s) : rotationTime u n s = s := by
  unfold rotationTime
  rw [hslot]
  dsimp only
  split
  · rfl
  · exact if_pos (by simp [h])

theorem rotationTime_due {nk : BitVec 256} (hnext : k.next = some nk) (hstate : gf u KS_INFO.STATE n s = 2)
    (h : gf u KS_INFO.ROT_AT n s ≤ ftOf u s) : rotationTime u n s = keyRotated u n k nk s := by
  unfold rotationTime
  rw [hslot]
  dsimp only
  rw [hnext]
  exact if_neg (by simp [hstate, h])

theorem overlapEnd_early (h : ftOf u s < gf u KS_INFO.ROT_AT n s + gf u KS_INFO.OVERLAP n s * 2500) :
    overlapEnd u n s = s := by
  unfold overlapEnd
  rw [hslot]
  exact if_pos (by simp [h])

theorem overlapEnd_due (hstate : gf u KS_INFO.STATE n s = 3)
    (h : gf u KS_INFO.ROT_AT n s + gf u KS_INFO.OVERLAP n s * 2500 ≤ ftOf u s) :
    overlapEnd u n s = sf u KS_INFO.STATE n 1 (setKeySlot u n (some { k with old := none }) s) := by
  unfold overlapEnd
  rw [hslot]
  exact if_neg (by simp [hstate, h])

end

section
variable (u : UnitId) (n : Nat) (k : KeySlot) (nk : BitVec 256) (s : State)

theorem keySec_keyRotated : keySec u (keyRotated u n k nk s) =
    keySec u (resetSeqs u n (setKeySlot u n (some { k with key := nk, next := none, old := some k.key }) s)) := by
  rw [keyRotated, keySec_sf, keySec_sf]

theorem seqs_keyRotated : (keySec u (keyRotated u n k nk s)).seqs =
    (keySec u s).seqs.filter fun e => e.1 / 2 ^ 11 ≠ n := by
  rw [keySec_keyRotated, keySec_resetSeqs, seqs_setKeySlot]

theorem keySlot_resetSeqs (m : Nat) : keySlot u m (resetSeqs u n s) = keySlot u m s := by
  rw [keySlot, keySec_resetSeqs]
  rfl

theorem keySlot_keyRotated (m : Nat) : keySlot u m (keyRotated u n k nk s) =
    keySlot u m (setKeySlot u n (some { k with key := nk, next := none, old := some k.key }) s) :=
  (keySlot_of_keySec (keySec_keyRotated ..)).trans (keySlot_resetSeqs ..)

theorem keyRotated_fields : gf u KS_INFO.STATE n (keyRotated u n k nk s) = 3 ∧
    gf u KS_INFO.GEN n (keyRotated u n k nk s) = (gf u KS_INFO.GEN n s + 1) % 2 ^ KS_INFO.GEN.len := by
  simp (disch := decide) only [keyRotated, gf_sf_beside, gf_sf_self]
  exact ⟨rfl, trivial⟩

theorem overlapEnded_fields (x : Option KeySlot) :
    let t := sf u KS_INFO.STATE n 1 (setKeySlot u n x s)
    keySlot u n t = x ∧ gf u KS_INFO.STATE n t = 1 ∧ gf u KS_INFO.GEN n t = gf u KS_INFO.GEN n s := by
  simp (disch := decide) only [keySlot_of_keySec (keySec_sf ..), keySlot_setKeySlot_self, gf_setKeySlot, gf_sf_beside,
    gf_sf_self]
  exact ⟨trivial, rfl, trivial⟩

end

/-- Settles O53: the rotation at ROT_AT and the end of the overlap, each left alone before its time. -/
theorem keyRotatesAtItsTime : Obligations.KeyRotatesAtItsTime := by
  intro u n k s hawake hslot
  have hrot : exec (.keyRotationTime u n) s = .next (rotationTime u n.toNat s) := liveAt_awake _ hawake
  have hend : exec (.keyOverlapEnd u n) s = .next (overlapEnd u n.toNat s) := liveAt_awake _ hawake
  refine ⟨fun nk hnext hstate => ⟨fun hdue => ?_, fun hearly => ?_⟩, fun hstate => ⟨fun hdue => ?_, fun hearly => ?_⟩⟩
  · refine ⟨_, hrot.trans (congrArg _ (rotationTime_due hslot hnext hstate hdue)), ?_⟩
    obtain ⟨hst, hgen⟩ := keyRotated_fields u n.toNat k nk s
    refine ⟨?_, hst, hgen, fun e he => ?_, fun m hm => ?_, fun e he hne => ?_⟩
    · rw [keySlot_keyRotated, keySlot_setKeySlot_self]
    · rw [seqs_keyRotated] at he
      exact of_decide_eq_true (List.mem_filter.mp he).2
    · rw [keySlot_keyRotated, keySlot_setKeySlot_ne _ _ hm]
    · rw [seqs_keyRotated]
      exact List.mem_filter.mpr ⟨he, decide_eq_true hne⟩
  · rw [hrot, rotationTime_early hslot hearly]
  · exact ⟨_, hend.trans (congrArg _ (overlapEnd_due hslot hstate hdue)), overlapEnded_fields ..⟩
  · rw [hend, overlapEnd_early hslot hearly]

end Sys2Proof.Machine
end

section
/-! PROOFS. The tail of a ring, and the exchange over a mailbox (R420, R469, R470). -/

namespace Sys2Proof.Machine

theorem regKey_ne_of_reg_ne {r q : Reg} {i j w k : Nat} (h : q ≠ r) (hj : j < 2 ^ 20) (hi : i < 2 ^ 20) (hk : k < 128)
    (hw : w < 128) : regKey q j k ≠ regKey r i w := fun he => h (regKey_inj hj hi hk hw he).1

/-- A write of a field of a domain leaves the fields of another register of the domain. -/
theorem gx_sx_of_reg_ne {f g : Fld} (d : Dom) (v : Nat) (s : State) (h : g.reg ≠ f.reg) (hg : g.word < 128) (hf : f.word < 128) :
    gx g d.val (sx f d.val v s) = gx g d.val s :=
  gf_sf_other _ _ _ _ _ _ _ _ (.inl (regKey_ne_of_reg_ne h (by omega) (by omega) hg hf))

/-! ### What an operation on the OX9 leaves of the rest -/

theorem raise_rest (e : Event) (x : UnitSt) (s : State) : { raise .ox9 e s with ox := x } = { s with ox := x } := rfl

theorem countG_rest (c : Ctr) (x : UnitSt) (s : State) : { countG c s with ox := x } = { s with ox := x } := rfl

theorem ctrs_sf_ox9 (f : Fld) (i v : Nat) (s : State) : (sf .ox9 f i v s).ox.ctrs = s.ox.ctrs := rfl

theorem sx_rest (f : Fld) (i v : Nat) (x : UnitSt) (s : State) : { sx f i v s with ox := x } = { s with ox := x } := rfl

/-! ### Rings -/

section
variable (d : Dom) (s : State)

/-- The state with the ring halted by an overrun, which is counted and raised. -/
def ringHalted : State :=
  raise .ox9 (Event.mk0 .ox9 .ringOverrun false (activeMonarch s) 8 d.val [na d.val] s)
    (countG .ringOverrun (sx RING_CTL.EN d.val 0 s))

theorem ringHalt_of_overrun (h : 2048 < (gx RING_TAIL.TAIL d.val s + 2 ^ 32 - gx RING_HEAD.HEAD d.val s) % 2 ^ 32) :
    ringHalt d.val s = ringHalted d s := if_pos (decide_eq_true h)

theorem ringHalt_of_room (h : (gx RING_TAIL.TAIL d.val s + 2 ^ 32 - gx RING_HEAD.HEAD d.val s) % 2 ^ 32 ≤ 2048) :
    ringHalt d.val s = s := if_neg (by rw [overrun, decide_eq_true_eq]; omega)

theorem gx_ringHalted_en : gx RING_CTL.EN d.val (ringHalted d s) = 0 := by
  rw [ringHalted, gx, gf_raise, gf_countG, sx, gf_sf_self _ _ _ _ _ (by decide), Nat.zero_mod]

theorem getW_ringHalted {q : Reg} {j k : Nat} (h : regKey q j k ≠ regKey .ringCtl d.val 0) :
    getW .ox9 q j k (ringHalted d s) = getW .ox9 q j k s := by
  rw [ringHalted, getW_raise, countG, getW_countN, sx]
  exact getW_sf_other _ RING_CTL.EN _ _ _ _ _ _ _ (.inl h)

theorem tail_ringHalted : gx RING_TAIL.TAIL d.val (ringHalted d s) = gx RING_TAIL.TAIL d.val s := by
  rw [ringHalted, gx, gf_raise, gf_countG]
  exact gx_sx_of_reg_ne d 0 s (by decide) (by decide) (by decide)

theorem counter_ringHalted : counter .ox9 .glob .ringOverrun (ringHalted d s) =
    (counter .ox9 .glob .ringOverrun s + 1) % 2 ^ 64 := by
  rw [ringHalted, counter_raise, countG, counter_countN_self, sx, counter_sf]

theorem ringHalted_rest (x : UnitSt) : { ringHalted d s with ox := x } = { s with ox := x } :=
  (raise_rest ..).trans ((countG_rest ..).trans (sx_rest ..))

/-- The state with the tail of the ring taken. -/
def tailTaken (v : BitVec 32) : State := sx RING_TAIL.TAIL d.val v.toNat s

theorem gx_tailTaken (v : BitVec 32) : gx RING_TAIL.TAIL d.val (tailTaken d s v) = v.toNat := by
  rw [tailTaken, gx, sx, gf_sf_self _ _ _ _ _ (by decide)]
  exact Nat.mod_eq_of_lt v.isLt

theorem head_tailTaken (v : BitVec 32) : gx RING_HEAD.HEAD d.val (tailTaken d s v) = gx RING_HEAD.HEAD d.val s :=
  gx_sx_of_reg_ne d _ s (by decide) (by decide) (by decide)

theorem oneWord_tailTaken (v : BitVec 32) : oneWord .ox9 .ringTail d.val 0 s (tailTaken d s v) :=
  oneWord_sf .ox9 RING_TAIL.TAIL d.val v.toNat s

end

/-- Settles O50: the tail is taken first; an overrun then halts the ring and touches no other word. -/
theorem ringTailHaltsOnOverrun : Obligations.RingTailHaltsOnOverrun := by
  intro d s hdark hserved
  refine ⟨fun v => ?_, ?_⟩
  · have hexec : exec (.ringTailWrite d v) s = .next (ringHalt d.val (tailTaken d s v)) := hosted_served _ hdark hserved
    have hword := oneWord_tailTaken d s v
    have ⟨_, _, _, hwords⟩ := hword
    by_cases hover : 2048 < (v.toNat + 2 ^ 32 - gx RING_HEAD.HEAD d.val s) % 2 ^ 32
    · rw [ringHalt_of_overrun d _ (by rw [gx_tailTaken, head_tailTaken]; exact hover)] at hexec
      refine ⟨_, hexec, (tail_ringHalted ..).trans (gx_tailTaken d s v),
        fun q j k ht hc => (getW_ringHalted _ _ hc).trans (hwords q j k ht), (ringHalted_rest ..).trans (sx_rest ..),
        fun _ => ⟨gx_ringHalted_en _ _, ?_, ?_⟩, fun h => absurd hover (by omega)⟩
      · rw [counter_ringHalted, tailTaken, sx, counter_sf]
      · exact ⟨_, rfl, rfl, rfl⟩
    · rw [ringHalt_of_room d _ (by rw [gx_tailTaken, head_tailTaken]; omega)] at hexec
      exact ⟨_, hexec, gx_tailTaken d s v, fun q j k ht _ => hwords q j k ht, sx_rest .., fun h => absurd h hover,
        fun _ => hword⟩
  · refine ⟨_, hosted_served _ hdark hserved, ?_, rfl, oneWord_sf .ox9 RING_HEAD.HEAD d.val _ s⟩
    rw [ringFlush, gx, sx, gf_sf_self _ _ _ _ _ (by decide)]
    exact Nat.mod_eq_of_lt (bits_lt ..)

/-! ### The mailbox -/

theorem mailbox_setMailbox_self (d : Nat) (x : Mailbox) (s : State) : mailbox d (setMailbox d x s) = x :=
  SMap.get_set_self ..

theorem mailbox_setMailbox_ne {k d : Nat} (x : Mailbox) (s : State) (h : k ≠ d) :
    mailbox k (setMailbox d x s) = mailbox k s := SMap.get_set_ne _ _ _ h

section
variable (d : Dom) (s : State)

/-- The state with the length of the request taken. -/
def lengthTaken (n : BitVec 13) : State := sx MB_CTL.REQ_LEN d.val n.toNat s

theorem gx_lengthTaken (n : BitVec 13) : gx MB_CTL.REQ_LEN d.val (lengthTaken d s n) = n.toNat := by
  rw [lengthTaken, gx, sx, gf_sf_self _ _ _ _ _ (by decide)]
  exact Nat.mod_eq_of_lt n.isLt

theorem stat_lengthTaken (n : BitVec 13) {g : Fld} (hr : g.reg = .mbStat) (hw : g.word < 128) :
    gx g d.val (lengthTaken d s n) = gx g d.val s :=
  gx_sx_of_reg_ne d _ s (by rw [hr]; decide) hw (by decide)

theorem length_stat {f : Fld} (v : Nat) (hr : f.reg = .mbStat) (hw : f.word < 128) :
    gx MB_CTL.REQ_LEN d.val (sx f d.val v s) = gx MB_CTL.REQ_LEN d.val s :=
  gx_sx_of_reg_ne d _ s (by rw [hr]; decide) (by decide) hw

theorem mailboxGo_busy (n : BitVec 13) (h : gx MB_STAT.BUSY d.val s = 1) :
    mailboxGo d.val n.toNat s = countG .mbBusyWrite (lengthTaken d s n) := if_pos h

theorem mailboxGo_bad {n : BitVec 13} (h : gx MB_STAT.BUSY d.val s = 0)
    (hbad : n.toNat = 0 ∨ 4096 < n.toNat ∨ (mbType d.val s ≠ 5 ∧ mbType d.val s ≠ 6)) :
    mailboxGo d.val n.toNat s = countG .mbReqBad (sx MB_STAT.ERR d.val 1 (lengthTaken d s n)) :=
  (if_neg (by rw [h]; decide)).trans (if_pos (by simpa [or_assoc] using hbad))

theorem mailboxGo_taken {n : BitVec 13} (h : gx MB_STAT.BUSY d.val s = 0) (hpos : 1 ≤ n.toNat) (hmax : n.toNat ≤ 4096)
    (htype : mbType d.val s = 5 ∨ mbType d.val s = 6) :
    mailboxGo d.val n.toNat s = sx MB_STAT.BUSY d.val 1 (lengthTaken d s n) :=
  (if_neg (by rw [h]; decide)).trans (if_neg (by simp; omega))

/-- What GO gives in each of its three cases: the length in REQ_LEN, nothing sent, the buffers as they were. -/
theorem mailboxGo_always (n : BitVec 13) : gx MB_CTL.REQ_LEN d.val (mailboxGo d.val n.toNat s) = n.toNat ∧
    (mailboxGo d.val n.toNat s).out = s.out ∧ (mailboxGo d.val n.toNat s).mailboxes = s.mailboxes := by
  have hlen := gx_lengthTaken d s n
  unfold mailboxGo
  dsimp only
  split
  · exact ⟨(gf_countG ..).trans hlen, by simp, by simp⟩
  · split
    · exact ⟨(gf_countG ..).trans ((length_stat d _ 1 rfl (by decide)).trans hlen), by simp, by simp⟩
    · exact ⟨(length_stat d _ 1 rfl (by decide)).trans hlen, by simp, by simp⟩

/-- The state with the response of a mailbox in its buffer, before its status changes. -/
def responseStored (bs : List Byte) : State := setMailbox d.val { mailbox d.val s with rsp := bs } s

theorem mailboxResponse_idle (bs : List Byte) (h : gx MB_STAT.BUSY d.val s = 0) : mailboxResponse d.val bs s = s := if_pos h

theorem mailboxResponse_busy (bs : List Byte) (h : gx MB_STAT.BUSY d.val s = 1) : mailboxResponse d.val bs s =
    emit (.msix d.val 1) (sx MB_STAT.RSP_LEN d.val bs.length (sx MB_STAT.DONE d.val 1 (sx MB_STAT.BUSY d.val 0
      (responseStored d s bs)))) := if_neg (by rw [h]; decide)

end

theorem mailbox_emit (k : Nat) (o : Output) (s : State) : mailbox k (emit o s) = mailbox k s := rfl

theorem mailbox_sx (k : Nat) (f : Fld) (i v : Nat) (s : State) : mailbox k (sx f i v s) = mailbox k s := rfl

/-- Settles O51: GO while BUSY, GO refused, GO taken; the response; GO through another function. -/
theorem mailboxExchange : Obligations.MailboxExchange := by
  intro d s hdark hserved
  refine ⟨fun n => ?_, fun bs hlen => ?_, fun fn n hne => ?_⟩
  · have hexec : exec (.mailboxGo d d n) s = .next (mailboxGo d.val n.toNat s) := by
      refine (hosted_served _ hdark hserved).trans ?_
      rw [if_pos rfl]
    obtain ⟨hlen, hout, hboxes⟩ := mailboxGo_always d s n
    have hstat {g : Fld} := stat_lengthTaken d s n (g := g)
    refine ⟨_, hexec, hlen, hout, hboxes, fun hbusy => ?_, fun hidle hbad => ?_, fun hidle hpos hmax htype => ?_⟩
    · rw [mailboxGo_busy d s n hbusy]
      refine ⟨(gf_countG ..).trans ((hstat rfl (by decide)).trans hbusy), (gf_countG ..).trans (hstat rfl (by decide)),
        (gf_countG ..).trans (hstat rfl (by decide)), ?_⟩
      rw [countG, counter_countN_self, lengthTaken, sx, counter_sf]
    · rw [mailboxGo_bad d s hidle hbad]
      simp (disch := decide) only [gx, gf_countG, sx, gf_sf_beside, gf_sf_self]
      refine ⟨(hstat rfl (by decide)).trans hidle, rfl, ?_, ?_⟩
      · rw [countG, counter_countN_self, counter_sf, lengthTaken, sx, counter_sf]
      · exact (events_countN .ox9 .ox9 ..).trans ((events_sf .ox9 .ox9 ..).trans
          (events_sf .ox9 .ox9 MB_CTL.REQ_LEN d.val n.toNat s))
    · rw [mailboxGo_taken d s hidle hpos hmax htype]
      simp (disch := decide) only [gx, sx, gf_sf_beside, gf_sf_self]
      exact ⟨rfl, hstat rfl (by decide), (ctrs_sf_ox9 ..).trans (ctrs_sf_ox9 MB_CTL.REQ_LEN d.val n.toNat s)⟩
  · have hexec : exec (.mailboxResponse d bs) s = .next (mailboxResponse d.val bs s) :=
      manned_live _ hdark (by simp_all [hostServed])
    refine ⟨_, hexec, mailboxResponse_idle d s bs, fun hbusy => ?_⟩
    rw [mailboxResponse_busy d s bs hbusy]
    simp only [mailbox_emit, mailbox_sx, responseStored, mailbox_setMailbox_self]
    simp (disch := decide) only [gx, sx, gf_emit, gf_sf_beside, gf_sf_self]
    exact ⟨trivial, trivial, rfl, rfl, Nat.mod_eq_of_lt (Nat.lt_of_le_of_lt hlen (by decide)), rfl,
      fun k hk => mailbox_setMailbox_ne _ _ (fun he => hk (Fin.ext he))⟩
  · refine (hosted_served _ hdark hserved).trans ?_
    rw [if_neg hne.symm]

end Sys2Proof.Machine
end

section
/-! PROOFS. The warning of a die sensor, and the trip that takes power away (R453). -/

namespace Sys2Proof.Machine

/-! ### The warning -/

section
variable {k : Nat} {raw : Int} {s : State}

theorem thermWarn_still (h : 128 ≤ k ∨ reading k raw s < gx THERM_CFG.WARN 0 s) : thermWarn k raw s = s :=
  if_pos (by simpa using h)

theorem thermWarn_hot (hk : k < 128) (h : (gx THERM_CFG.WARN 0 s : Int) ≤ reading k raw s) :
    thermWarn k raw s = raise0 .thermalWarn true (k / 2) [] (sx ALERT_STAT.THERMAL 0 1 s) := if_neg (by simp; omega)

theorem thermTrip_still (h : 128 ≤ k ∨ reading k raw s < 1840) : thermTrip k raw s = s := if_pos (by simpa using h)

end

theorem gx_thermal_raised (e : Event) (s : State) : gx ALERT_STAT.THERMAL 0 (raise .ox9 e (sx ALERT_STAT.THERMAL 0 1 s)) = 1 := by
  rw [gx, gf_raise, sx, gf_sf_self _ _ _ _ _ (by decide)]
  rfl

/-! ### The trip -/

/-- The state with the domains 1 to `n` off. -/
def domainsOff (n : Nat) (s : State) : State := (List.range n).foldl (fun s d => sx DOM_STAT.STATE (d + 1) 0 s) s

theorem domainsOff_succ (n : Nat) (s : State) : domainsOff (n + 1) s = sx DOM_STAT.STATE (n + 1) 0 (domainsOff n s) := by
  rw [domainsOff, List.range_succ, List.foldl_append]
  rfl

/-- The state of one domain is written, and those of the others are as they were. -/
theorem gx_domStat_sx {d n : Nat} (v : Nat) (s : State) (hd : d < 2 ^ 20) (hn : n < 2 ^ 20) :
    gx DOM_STAT.STATE d (sx DOM_STAT.STATE n v s) = if d = n then v % 4 else gx DOM_STAT.STATE d s := by
  split
  · next h => rw [h, gx, sx, gf_sf_self _ _ _ _ _ (by decide)]; rfl
  · next h =>
    refine gf_sf_other _ _ _ _ _ _ _ _ (.inl fun he => h ?_)
    exact (regKey_inj hd hn (by decide) (by decide) he).2.1

theorem gx_domainsOff {d n : Nat} (s : State) (hd : d < 2 ^ 20) (hn : n < 2 ^ 20) :
    gx DOM_STAT.STATE d (domainsOff n s) = if 1 ≤ d ∧ d ≤ n then 0 else gx DOM_STAT.STATE d s := by
  induction n with
  | zero => exact (if_neg (by omega)).symm
  | succ n ih =>
    rw [domainsOff_succ, gx_domStat_sx 0 _ hd hn, ih (by omega)]
    grind

/-- Domains go off in their registers alone. -/
theorem domainsOff_beside (n : Nat) (s : State) :
    ((domainsOff n s).unit .ox9).events = (s.unit .ox9).events ∧ (domainsOff n s).ox.ctrs = s.ox.ctrs := by
  induction n with
  | zero => exact ⟨rfl, rfl⟩
  | succ n ih =>
    rw [domainsOff_succ]
    exact ⟨(events_sf ..).trans ih.1, (ctrs_sf_ox9 ..).trans ih.2⟩

/-- The state tripped: its domains but PD000 off, and the power gone. -/
def tripped (s : State) : State :=
  let t := domainsOff 166 s
  { t with power := { t.power with tripped := true } }

theorem thermTrip_hot {k : Nat} {raw : Int} {s : State} (hk : k < 128) (h : 1840 ≤ reading k raw s) :
    thermTrip k raw s = tripped (raise0 .thermalTrip false (k / 2) [] s) := if_neg (by simp; omega)

theorem gx_tripped {d : Nat} (s : State) (hd : d < 2 ^ 20) :
    gx DOM_STAT.STATE d (tripped s) = if 1 ≤ d ∧ d ≤ 166 then 0 else gx DOM_STAT.STATE d s := by
  rw [← gx_domainsOff s hd (by decide)]
  exact gf_of_unit (unit_with_power ..) ..

theorem dark_tripped (s : State) : dark (tripped s) = true := by simp [dark, tripped]

/-- Settles O59: a die sensor at its level warns, or trips; any other reading leaves the state. -/
theorem thermalWarnsAndTrips : Obligations.ThermalWarnsAndTrips := by
  intro k raw s
  have hwarn (h : halted s = false) : exec (.thermalWarn k raw) s = .next (thermWarn k.val raw s) := live_awake _ h
  have htrip (h : dark s = false) : exec (.thermalTrip k raw) s = .next (thermTrip k.val raw s) := served_awake _ h
  refine ⟨fun hawake hk hhot => ?_, fun hawake hcool => ?_, fun hlit hk hhot => ?_, fun hlit hcool => ?_⟩
  · refine ⟨_, Event.mk0 .ox9 .thermalWarn true (k.val / 2) 0 0 [] (sx ALERT_STAT.THERMAL 0 1 s),
      (hwarn hawake).trans (congrArg _ (thermWarn_hot hk hhot)), gx_thermal_raised _ s, rfl, rfl, rfl, rfl, rfl, rfl,
      fun q j w hne => ?_⟩
    rw [raise0, getW_raise, sx]
    exact getW_sf_other _ ALERT_STAT.THERMAL _ _ _ _ _ _ _ (.inl hne)
  · rw [hwarn hawake, thermWarn_still hcool]
  · obtain ⟨hevents, hctrs⟩ := domainsOff_beside 166 (raise0 .thermalTrip false (k.val / 2) [] s)
    refine ⟨_, Event.mk0 .ox9 .thermalTrip false (k.val / 2) 0 0 [] s,
      (htrip hlit).trans (congrArg _ (thermTrip_hot hk hhot)), dark_tripped _, fun d h1 hd => ?_,
      congrArg EventSys.raised hevents, rfl, hctrs, ?_⟩
    · rw [gx_tripped _ (by omega), if_pos ⟨h1, hd⟩]
    · rw [gx_tripped _ (by decide), if_neg (by decide), raise0, gx, gf_raise, gx]
  · rw [htrip hlit, thermTrip_still hcool]

end Sys2Proof.Machine
end

section
/-! PROOFS. A direct write of a register that programs change, with its right and without (R491). -/

namespace Sys2Proof.Machine

section
variable {fn off : Nat}

/-- The global block names no register from 0x54000 on: SCAN_DATA is no register (R461). -/
theorem globalAt_scanData (h : 0x80000 ≤ off) : globalAt fn off = none := by
  have hends : ∀ x ∈ globalMap, x.base + x.stride * x.count ≤ 0x54000 := by decide
  have hrow : findRow globalMap off = none := by
    refine congrArg (Option.map _) (List.find?_eq_none.mpr fun x hx hin => ?_)
    have hend := hends x hx
    simp only [Bool.and_eq_true, decide_eq_true_eq] at hin
    omega
  simp only [globalAt, hrow, Bool.and_eq_true, Bool.or_eq_true, decide_eq_true_eq]
  simp (disch := omega) only [if_neg, Option.map_none]

theorem ctlAt_scanData (hlo : 0x80000 ≤ off) (hhi : off < 0x81000) : ctlAt fn off = none := by
  unfold ctlAt
  rw [globalAt_scanData hlo, if_pos (show off < 0x100000 by omega), Option.map_none, ite_self]

theorem ctlAt_gap (hlo : 0x200000 ≤ off) (hhi : off < 0x800000) : ctlAt fn off = none := by
  simp only [ctlAt, Bool.and_eq_true, decide_eq_true_eq]
  simp (disch := omega) only [if_neg, ite_self]

theorem ctlAt_mailboxBuffers (hfn : fn < 8) (hlo : 0x6000000 + 0x4000 * fn + 0x1000 ≤ off)
    (hhi : off < 0x6000000 + 0x4000 * fn + 0x3000) : ctlAt fn off = none := by
  simp only [ctlAt, mailboxAt, Bool.and_eq_true, decide_eq_true_eq]
  simp (disch := omega) only [if_neg, if_pos, Option.map_none, ite_self]

theorem ctlAt_wordSlots (hfn : fn < 8) (ha : off % 8 = 0) (hlo : 0x100000 + 0x10000 * fn + 0x8000 ≤ off)
    (hhi : off < 0x100000 + 0x10000 * fn + 0x10000) :
    ctlAt fn off = some (some (.reg .ringWord (2048 * fn + ((off - 0x100000) % 0x10000 - 0x8000) / 16)
      ((off - 0x100000) % 0x10000 % 16 / 8))) := by
  simp only [ctlAt, ringAt, Bool.and_eq_true, decide_eq_true_eq]
  simp (disch := omega) only [if_neg, if_pos, Option.map_some]

end

section
variable {fn off : Nat} {r : Reg} {i w : Nat} {s : State}

/-- A write of a register that programs change reaches the register: its address is that of no buffer and no dead die. -/
theorem bar0Write_programMay (v : Nat) (hfn : fn < 8) (ha : off % 8 = 0) (hat : ctlAt fn off = some (some (.reg r i w)))
    (hr : programMay r = true)
    (hlive : 0x1000000 ≤ off → off < 0x5000000 → off % 0x100000 ≠ 0 → dieDead ((off - 0x1000000) / 0x100000) s = false) :
    bar0Write fn off false v s = if directRight fn r i s then checkedWrite r w v (directWrite r i w) s else unmapped s := by
  have hbuf : ¬(0x6000000 + 0x4000 * fn + 0x1000 ≤ off ∧ off < 0x6000000 + 0x4000 * fn + 0x3000) := fun h => by
    rw [ctlAt_mailboxBuffers hfn h.1 h.2] at hat
    cases hat
  have hslot : ¬(0x100000 + 0x10000 * fn + 0x8000 ≤ off ∧ off < 0x100000 + 0x10000 * fn + 0x10000) := fun h => by
    rw [ctlAt_wordSlots hfn ha h.1 h.2] at hat
    cases hat
    cases hr
  have hgap : ¬(0x200000 ≤ off ∧ off < 0x800000) := fun h => by
    rw [ctlAt_gap h.1 h.2] at hat
    cases hat
  have hscan : ¬(0x80000 ≤ off ∧ off < 0x81000) := fun h => by
    rw [ctlAt_scanData h.1 h.2] at hat
    cases hat
  have hdead : ¬(((0x1000000 ≤ off ∧ off < 0x5000000) ∧ off % 0x100000 ≠ 0) ∧
      dieDead ((off - 0x1000000) / 0x100000) s = true) := fun h => by
    rw [hlive h.1.1.1 h.1.1.2 h.1.2] at h
    cases h.2
  simp only [bar0Write, Bool.and_eq_true, Bool.or_eq_true, decide_eq_true_eq, hat, regDirect, hr, if_true]
  rw [if_neg (by simp [ha]), if_neg (by omega), if_neg hslot, if_neg (by decide), if_neg (by omega), if_neg hscan,
    if_neg hdead]

/-- A write of named bits only is taken as it is. -/
theorem checkedWrite_named {v : Nat} (f : Nat → State → State) (h : v - Nat.land v (fieldMask r w) = 0) :
    checkedWrite r w v f s = f v s := if_neg (not_not.mpr h)

theorem directWrite_running (v : Nat) (h : gb CALM_STAT.CALM 0 s = false) :
    directWrite r i w v s = commitWrites [⟨r, i, w, v⟩] s := if_neg (by simp [h])

end

/-- Settles O12: the write reaches its register, and the right of the domain decides there. -/
theorem rightlessDirectWriteIsIgnored : Obligations.RightlessDirectWriteIsIgnored := by
  intro fn off v r i w s hdark hserved hchr ha hat hr hlive
  have hwrite : hostWrite fn.val off false v.toNat s = bar0Write fn.val off false v.toNat s := by simp [hostWrite, hchr]
  have hexec : exec (.registerWrite (.bar0 fn) off false v) s =
      .next (if directRight fn.val r i s then checkedWrite r w v.toNat (directWrite r i w) s else unmapped s) := by
    rw [← bar0Write_programMay v.toNat fn.isLt ha hat hr hlive, ← hwrite]
    exact hosted_served _ hdark hserved
  refine ⟨fun hright => ?_, fun hmem htele hcalm hnamed => ?_⟩
  · rw [hright] at hexec
    exact ⟨_, unmappedEvent s, hexec, rfl, unmapped_out s, countedAndRaised_unmapped s⟩
  · have hright : directRight fn.val r i s = true := by
      simp only [List.mem_cons, List.not_mem_nil, or_false] at hmem
      obtain rfl | rfl | rfl := hmem <;> exact beq_of_eq htele
    rw [hexec, if_pos hright, checkedWrite_named _ hnamed, directWrite_running _ hcalm]

end Sys2Proof.Machine
end

section
/-! SUPPORT. A link end and its progress read after a change of one of them. -/

namespace Sys2Proof.Machine

section
variable {j k : Nat} {s : State}

theorem getLink_of_links {t : State} (h : t.links = s.links) : getLink k t = getLink k s := by rw [getLink, getLink, h]

theorem getAux_of_links {t : State} (h : t.links = s.links) : getAux k t = getAux k s := by rw [getAux, getAux, h]

@[simp] theorem getLink_setLink_self (l : Link) : getLink k (setLink k l s) = l := SMap.get_set_self ..

theorem getLink_setLink_ne (l : Link) (h : j ≠ k) : getLink j (setLink k l s) = getLink j s := SMap.get_set_ne _ _ _ h

@[simp] theorem getLink_setAux (x : LinkAux) : getLink j (setAux k x s) = getLink j s := rfl

@[simp] theorem getAux_setLink (l : Link) : getAux j (setLink k l s) = getAux j s := rfl

@[simp] theorem getAux_setAux_self (x : LinkAux) : getAux k (setAux k x s) = x := SMap.get_set_self ..

theorem getAux_setAux_ne (x : LinkAux) (h : j ≠ k) : getAux j (setAux k x s) = getAux j s := SMap.get_set_ne _ _ _ h

@[simp] theorem getLink_emit (o : Output) : getLink j (emit o s) = getLink j s := rfl

@[simp] theorem getAux_emit (o : Output) : getAux j (emit o s) = getAux j s := rfl

end

section
variable (e : LinkEnd) (k : InsertKind) (body : List Byte) (s : State)

/-! An insert that leaves is the next output; of the link end only disparities and the boundary have changed. -/

@[simp] theorem getLink_sendInsert (j : Nat) : getLink j (sendInsert e k body s) = getLink j s := rfl

theorem getAux_sendInsert_ne {j : Nat} (h : j ≠ linkKey e) : getAux j (sendInsert e k body s) = getAux j s :=
  (getAux_setAux_ne _ h).trans (getAux_setAux_ne _ h)

theorem credits_sendInsert : (getAux (linkKey e) (sendInsert e k body s)).credits = (getAux (linkKey e) s).credits := by
  unfold sendInsert sendCodes modAux
  rw [getAux_emit, getAux_setAux_self]
  dsimp only
  rw [getAux_setAux_self]

theorem sendInsert_out : ∃ line : Line, (sendInsert e k body s).out = s.out ++ [.insert (linkKey e) k body line] := ⟨_, rfl⟩

theorem counter_sendInsert (u : UnitId) (p : Place) (c : Ctr) : counter u p c (sendInsert e k body s) = counter u p c s := by
  cases u <;> rfl

end

/-! ### The upstream of an OEB chosen again -/

/-- The links, the outputs and one counter of an OEB's own group are as they were. -/
def LinksKept (side : Side) (s t : State) : Prop :=
  t.links = s.links ∧ t.out = s.out ∧
    counter (.oeb side) (.oeb side.val) .linkDown t = counter (.oeb side) (.oeb side.val) .linkDown s

theorem LinksKept.trans {side : Side} {s t x : State} (h : LinksKept side s t) (h' : LinksKept side t x) : LinksKept side s x := by
  obtain ⟨hl, ho, hc⟩ := h
  obtain ⟨hl', ho', hc'⟩ := h'
  exact ⟨hl'.trans hl, ho'.trans ho, hc'.trans hc⟩

section
variable (side : Side) (s : State)

theorem linksKept_setTime (x : TimeUnit) : LinksKept side s (setTime (.oeb side) x s) := by
  refine ⟨by simp, by simp, ?_⟩
  rw [counter, setTime, unit_setUnit_self, counter]

theorem linksKept_sf (f : Fld) (i v : Nat) : LinksKept side s (sf (.oeb side) f i v s) := ⟨by simp, by simp, counter_sf ..⟩

theorem linksKept_raiseU (code : EvCode) (folded : Bool) (args : List (Bool × Nat)) :
    LinksKept side s (raiseU (.oeb side) code folded args s) := ⟨by simp [raiseU], by simp [raiseU], counter_raise ..⟩

theorem linksKept_countU {c : Ctr} (hc : Ctr.linkDown.ctorIdx ≠ c.ctorIdx) : LinksKept side s (countU (.oeb side) c s) := by
  refine ⟨by simp [countU], by simp [countU], ?_⟩
  rw [countU, countO, counter_countN, if_neg]
  rintro ⟨-, hkey⟩
  exact hc (Nat.add_left_cancel hkey)

theorem linksKept_qualSet (q : Nat) : LinksKept side s (qualSet (.oeb side) q s) :=
  (linksKept_sf side s _ _ _).trans ((linksKept_countU side _ (by decide)).trans (linksKept_raiseU side _ _ _ _))

theorem LinksKept.rfl : LinksKept side s s := ⟨Eq.refl _, Eq.refl _, Eq.refl _⟩

theorem linksKept_setQual (q : Nat) : LinksKept side s (setQual (.oeb side) q s) := by
  rw [setQual_oeb]
  split
  · exact .rfl side s
  · exact linksKept_qualSet side s q

theorem linksKept_setUpstream (q : Option Nat) : LinksKept side s (setUpstream (.oeb side) q s) := by
  unfold setUpstream
  split
  · exact .rfl side s
  · exact (linksKept_sf side s _ _ _).trans (linksKept_setTime side _ _)

theorem linksKept_enterDoldrums : LinksKept side s (enterDoldrums (.oeb side) s) := by
  unfold enterDoldrums
  dsimp only
  split
  · exact .rfl side s
  · exact (linksKept_setTime side s _).trans ((linksKept_countU side _ (by decide)).trans
      ((linksKept_sf side _ _ _ _).trans (linksKept_setQual side _ _)))

theorem linksKept_reselect : LinksKept side s (reselect (.oeb side) s) := by
  have hup := linksKept_setUpstream side s (chooseUpstream (.oeb side) s)
  have hdol := hup.trans (linksKept_enterDoldrums side _)
  unfold reselect
  dsimp only
  split
  · exact .rfl side s
  · split
    · exact hup
    · split
      · split
        · exact hdol
        · exact hup
      · exact hdol

end

end Sys2Proof.Machine
end

section
/-! PROOFS. The causes that drop a link, and the end it leaves (R315, R316). -/

namespace Sys2Proof.Machine

theorem dropWhere_eq {p : Link → Bool} {q : Prop} [Decidable q] {e : LinkEnd} {s : State} (cause : Nat)
    (h : p (getLink (linkKey e) s) = true ↔ q) : dropWhere p cause e s = if q then dropLink e cause s else s :=
  if_congr h rfl rfl

/-- What an OEB's link end holds as it enters DOWN, before the upstream is chosen again. -/
theorem dropOeb_end (side : Side) (q : OPort) (cause : Nat) (s : State) :
    let k := linkKey (.oeb side q)
    let t := dropLink (.oeb side q) cause s
    getLink k t = downLink cause (getLink k s) ∧ (∀ c ∈ (getAux k t).credits, c = 0) ∧
      (∀ j : Nat, j ≠ k → getLink j t = getLink j s ∧ getAux j t = getAux j s) ∧
      (∃ (line : Line) (rest : List Output), t.out = s.out ++ .insert k .down [] line :: rest) ∧
      counter (.oeb side) (.oeb side.val) .linkDown t = (counter (.oeb side) (.oeb side.val) .linkDown s + 1) % 2 ^ 64 := by
  intro k t
  let e : LinkEnd := .oeb side q
  let s1 := sendInsert e .down [] (modAux e downAux (modLink e (downLink cause) s))
  let s2 := raiseO side .linkDown false 1 q.val [na q.val, na cause] (countO side .linkDown s1)
  obtain ⟨hlinks, hout, hcount⟩ : LinksKept side s2 t := linksKept_reselect side s2
  replace hlinks : t.links = s1.links := hlinks.trans (by simp [s2])
  obtain ⟨line, hline⟩ := sendInsert_out e .down [] (modAux e downAux (modLink e (downLink cause) s))
  refine ⟨?_, fun c hc => ?_, fun j hj => ⟨?_, ?_⟩, ⟨line, [], ?_⟩, ?_⟩
  · rw [getLink_of_links hlinks, getLink_sendInsert, modAux, getLink_setAux, modLink, getLink_setLink_self]
  · rw [getAux_of_links hlinks, credits_sendInsert, modAux, getAux_setAux_self] at hc
    have hzero : ∀ c ∈ LinkAux.reset.credits, c = 0 := by decide
    exact hzero c hc
  · rw [getLink_of_links hlinks, getLink_sendInsert, modAux, getLink_setAux, modLink, getLink_setLink_ne _ hj]
  · rw [getAux_of_links hlinks, getAux_sendInsert_ne _ _ _ _ hj, modAux, getAux_setAux_ne _ hj, modLink, getAux_setLink]
  · rw [hout, raiseO_out, countO_out, hline, modAux_out, modLink_out]
  · rw [hcount]
    simp only [s2, raiseO, counter_raise, countO, counter_countN_self, s1, counter_sendInsert]
    rfl

/-- Two voted slots of a DOWN insert drop a link that trains or is up. -/
theorem downRx_voted {e : LinkEnd} {line : Line} {s : State} (hlo : 2 ≤ (getLink (linkKey e) s).st)
    (hhi : (getLink (linkKey e) s).st ≤ 8) (h : 2 ≤ slotsVoted e .down (receive e line s).1 (receive e line s).2) :
    downRx e line s = dropLink e 6 (receive e line s).2 := by
  unfold downRx fourSlot
  rw [if_neg (by simp [hlo, hhi])]
  exact if_pos h

/-- Settles O57: each cause by the states it drops in, the end an OEB's drop leaves, and that from which the OX9's starts. -/
theorem linkDropsByItsCause : Obligations.LinkDropsByItsCause := by
  refine ⟨fun e s hawake => ⟨?_, ?_, ?_, ?_, ?_, ?_, fun line hlo hhi hvoted => ?_⟩, fun side q cause s => ?_, fun cause l => ⟨rfl, rfl, rfl⟩⟩
  · exact (liveAt_awake _ hawake).trans (congrArg _ (dropWhere_eq 1 (by simp [and_assoc])))
  · exact (liveAt_awake _ hawake).trans (congrArg _ (dropWhere_eq 2 (by simp)))
  · exact (liveAt_awake _ hawake).trans (congrArg _ (dropWhere_eq 3 (by simp)))
  · exact (liveAt_awake _ hawake).trans (congrArg _ (dropWhere_eq 5 (by simp)))
  · exact (liveAt_awake _ hawake).trans (congrArg _ (dropWhere_eq 8 (by simp)))
  · refine (liveAt_awake _ hawake).trans (congrArg _ ?_)
    rw [dropWhere_eq 4 Iff.rfl, ite_and]
  · exact (liveAt_awake _ hawake).trans (congrArg _ (downRx_voted hlo hhi hvoted))
  · obtain ⟨hlink, hcred, hothers, hout, hcount⟩ := dropOeb_end side q cause s
    refine ⟨hlink, ?_, ?_, ?_, ?_, hcred, hothers, hout, hcount⟩ <;> rw [hlink] <;> rfl

end Sys2Proof.Machine
end

section
/-! SUPPORT. The folder of a unit: its events replaced, a record logged, an entry joined (R375 to R378, R465). -/

namespace Sys2Proof.Machine

/-! ### Events replaced -/

/-- The state with the event system of a unit replaced. -/
def setEvents (u : UnitId) (x : EventSys) (s : State) : State := s.setUnit u { s.unit u with events := x }

section
variable {u : UnitId} (x : EventSys) (s : State)

@[simp] theorem events_setEvents : ((setEvents u x s).unit u).events = x := by rw [setEvents, unit_setUnit_self]

@[simp] theorem gf_setEvents (v : UnitId) (f : Fld) (i : Nat) : gf v f i (setEvents u x s) = gf v f i s := by
  simp only [gf, getW, setEvents, unit_setUnit]
  split
  · next h => rw [h]
  · rfl

@[simp] theorem setEvents_out : (setEvents u x s).out = s.out := by simp [setEvents]

end

/-! ### The log -/

theorem unit_sendFrame (i kind dest : Nat) (body : List Byte) (s : State) (v : UnitId) :
    (sendFrame i kind dest body s).unit v = s.unit v := by
  unfold sendFrame
  split
  · rfl
  · simp

/-- The state with the record written to the ring, and its number in LOG_SEQ. -/
def recordWritten (u : UnitId) (ws : List Nat) (s : State) : State :=
  sf u LOG_SEQ.SEQ 0 (logSeq u s + 1) (setEvents u { (s.unit u).events with
    log := SMap.set (fun _ => []) (s.unit u).events.log ((logSeq u s + 1) % logSize u) ((logSeq u s + 1) :: ws) } s)

/-- Of the unit, a record leaves more only in ALERT_STAT. -/
theorem unit_logRecord (u : UnitId) (code : EvCode) (ws : List Nat) (s : State) :
    (logRecord u code ws s).unit u = (recordWritten u ws s).unit u ∨
      (logRecord u code ws s).unit u = (sf u ALERT_STAT.EVENT 0 1 (recordWritten u ws s)).unit u := by
  cases u with
  | oeb side => exact .inl rfl
  | ox9 =>
    have hsent (p : Prop) [Decidable p] (body : List Byte) (t : State) :
        (if p then sendFrame 0 7 0 body t else t).unit .ox9 = t.unit .ox9 := by
      split
      · exact unit_sendFrame ..
      · rfl
    unfold logRecord
    dsimp only
    rw [hsent]
    split
    · exact .inr rfl
    · exact .inl rfl

section
variable (u : UnitId) (s : State)

/-- One record more, the events on their way and the entries as they were, and the overflow count too. -/
theorem logRecord_folder (code : EvCode) (ws : List Nat) : let t := logRecord u code ws s
    (t.unit u).events.raised = (s.unit u).events.raised ∧ entriesOf u t = entriesOf u s ∧
      logSeq u t = (logSeq u s + 1) % 2 ^ LOG_SEQ.SEQ.len ∧
      gf u FOLD_STAT.OVERFLOW 0 t = gf u FOLD_STAT.OVERFLOW 0 s := by
  intro t
  obtain ⟨hev, hfld⟩ : ((t.unit u).events = ((recordWritten u ws s).unit u).events) ∧
      ∀ f : Fld, f.reg ≠ .alertStat → f.word < 128 → gf u f 0 t = gf u f 0 (recordWritten u ws s) := by
    obtain h | h := unit_logRecord u code ws s
    · exact ⟨congrArg UnitSt.events h, fun f _ _ => gf_of_unit h f 0⟩
    · exact ⟨(congrArg UnitSt.events h).trans (events_sf ..), fun f hf hw => (gf_of_unit h f 0).trans
        (gf_sf_other _ _ _ _ _ _ _ _ (.inl (regKey_ne_of_reg_ne hf (by decide) (by decide) hw (by decide))))⟩
  have hseq := hfld LOG_SEQ.SEQ (by decide) (by decide)
  have hover := hfld FOLD_STAT.OVERFLOW (by decide) (by decide)
  rw [recordWritten, events_sf, events_setEvents] at hev
  rw [recordWritten, gf_sf_self _ _ _ _ _ (by decide)] at hseq
  rw [recordWritten, gf_sf_other _ _ LOG_SEQ.SEQ FOLD_STAT.OVERFLOW _ _ _ _ (.inl (regKey_ne_of_reg_ne (by decide) (by decide)
    (by decide) (by decide) (by decide))), gf_setEvents] at hover
  exact ⟨by rw [hev], by rw [entriesOf, hev, entriesOf], hseq, hover⟩

/-! ### The folder -/

@[simp] theorem entriesOf_setEntries (l : List FoldEntry) : entriesOf u (setEntries u l s) = l := by
  rw [entriesOf, setEntries, events_sf, unit_setUnit_self]

/-- Entries set: the rest of the events as they were, and every field but those of FOLD_STAT. -/
theorem setEntries_beside (l : List FoldEntry) : let t := setEntries u l s
    (t.unit u).events.raised = (s.unit u).events.raised ∧ (t.unit u).events.log = (s.unit u).events.log ∧
      logSeq u t = logSeq u s ∧ t.out = s.out := by
  intro t
  have hev : (t.unit u).events = { (s.unit u).events with entries := l } := by
    rw [show t = setEntries u l s from rfl, setEntries, events_sf, unit_setUnit_self]
  refine ⟨by rw [hev], by rw [hev], ?_, by simp [t, setEntries]⟩
  refine (gf_sf_other _ _ FOLD_STAT.OPEN LOG_SEQ.SEQ _ _ _ _ (.inl (regKey_ne_of_reg_ne (by decide) (by decide)
    (by decide) (by decide) (by decide)))).trans ?_
  exact gf_setEvents ..

end

/-- The first entry that passes the test is the one after those that do not. -/
theorem modFirst_append {p : FoldEntry → Bool} {f : FoldEntry → FoldEntry} {pre post : List FoldEntry} {x : FoldEntry}
    (hpre : ∀ y ∈ pre, p y = false) (hx : p x = true) : modFirst p f (pre ++ x :: post) = pre ++ f x :: post := by
  induction pre with
  | nil => exact if_pos hx
  | cons y pre ih =>
    obtain ⟨hy, hpre⟩ := List.forall_mem_cons.mp hpre
    rw [List.cons_append, modFirst, hy, if_neg Bool.false_ne_true, ih hpre, List.cons_append]

section
variable {u : UnitId} {e : Event} {s : State}

theorem foldMarked_joins {pre post : List FoldEntry} {x : FoldEntry} (hl : entriesOf u s = pre ++ x :: post)
    (hx : sameKey x e = true) (hpre : ∀ y ∈ pre, sameKey y e = false) :
    foldMarked u e s = setEntries u (pre ++ joinEntry x e :: post) s := by
  unfold foldMarked
  dsimp only
  rw [if_pos (List.any_eq_true.mpr ⟨x, by rw [hl]; simp, hx⟩), hl, modFirst_append hpre hx]

theorem foldMarked_overflows (hnone : ∀ x ∈ entriesOf u s, sameKey x e = false ∧ attributes x e = false)
    (hfull : foldSize u ≤ (entriesOf u s).length) :
    foldMarked u e s = satAdd u FOLD_STAT.OVERFLOW 0 1 (logEvent u e 0 false s) := by
  have hkey : ¬(entriesOf u s).any (fun x => sameKey x e) = true := by
    simpa using fun x hx => (hnone x hx).1
  have hattr : ¬(entriesOf u s).any (fun x => attributes x e) = true := by
    simpa using fun x hx => (hnone x hx).2
  unfold foldMarked
  dsimp only
  rw [if_neg hkey, if_neg hattr]
  exact if_pos hfull

theorem trigger_none (h : u = .ox9 → calmTrigger e s = none) : trigger u e s = s := by
  cases u with
  | ox9 => simp [trigger, h rfl]
  | oeb side => rfl

theorem calmTrigger_setEvents (x : EventSys) : calmTrigger e (setEvents u x s) = calmTrigger e s := by
  simp only [calmTrigger, gb, gx, gf_setEvents]
  rfl

/-- The next event is taken from those on their way, and a marked one goes to the entries. -/
theorem eventFold_marked (hcalm : u = .ox9 → calmTrigger e s = none) (hnow : foldsNow u s = true)
    (hnext : nextRaised (s.unit u).events.raised = some e) (hen : gf u FOLD_CTL.EN 0 s = 1) (hfolded : e.folded = true) :
    eventFold u s = foldMarked u e
      (setEvents u { (s.unit u).events with raised := (s.unit u).events.raised.erase e } s) := by
  unfold eventFold
  rw [hnext]
  dsimp only
  rw [if_neg (by simp [hnow])]
  exact (congrArg _ (trigger_none fun hu => (calmTrigger_setEvents _).trans (hcalm hu))).trans
    ((if_neg (by rw [gf_setEvents, hen]; decide)).trans (if_pos hfolded))

end

theorem foldSize_eq (u : UnitId) : foldSize u = if u = .ox9 then 1024 else 32 := by
  cases u <;> rfl

end Sys2Proof.Machine
end

section
/-! PROOFS. A folded event that joins an entry, or is logged alone (R376, R378). -/

namespace Sys2Proof.Machine

/-- Settles O49: the event leaves the queue; the first entry of its key counts it, or a full folder logs it alone. -/
theorem foldedEventJoinsOrIsLoggedAlone : Obligations.FoldedEventJoinsOrIsLoggedAlone := by
  intro u e rest s hgate hnow hnext hrest hen hfolded
  have hexec : exec (.eventFold u) s = .next (foldMarked u e (setEvents u { (s.unit u).events with raised := rest } s)) := by
    rw [hrest, ← eventFold_marked (fun hu => (hgate hu).2) hnow hnext hen hfolded]
    exact liveAt_awake _ fun hu => (hgate hu).1
  generalize hs1 : setEvents u { (s.unit u).events with raised := rest } s = s1 at hexec
  have hev : (s1.unit u).events = { (s.unit u).events with raised := rest } := by rw [← hs1, events_setEvents]
  have hraised : (s1.unit u).events.raised = rest := by rw [hev]
  have hlog : (s1.unit u).events.log = (s.unit u).events.log := by rw [hev]
  have hentries : entriesOf u s1 = entriesOf u s := by rw [entriesOf, hev, entriesOf]
  have hfld (f : Fld) : gf u f 0 s1 = gf u f 0 s := by rw [← hs1, gf_setEvents]
  have hout : s1.out = s.out := by rw [← hs1, setEvents_out]
  refine ⟨fun pre post x hl hx hpre => ?_, fun hnone hfull => ?_⟩
  · rw [foldMarked_joins (hentries.trans hl) hx hpre] at hexec
    obtain ⟨hr, hg, hq, ho⟩ := setEntries_beside u s1 (pre ++ joinEntry x e :: post)
    exact ⟨_, joinEntry x e, hexec, hr.trans hraised, entriesOf_setEntries .., rfl, rfl, rfl, rfl,
      hq.trans (hfld LOG_SEQ.SEQ), hg.trans hlog, ho.trans hout⟩
  · rw [foldMarked_overflows (by rwa [hentries]) (by rwa [hentries, foldSize_eq])] at hexec
    obtain ⟨hr, he, hq, ho⟩ := logRecord_folder u s1 e.code _
    refine ⟨_, hexec, ?_, ?_, ?_, ?_⟩
    · rw [satAdd, events_sf]
      exact hr.trans hraised
    · rw [entriesOf, satAdd, events_sf]
      exact he.trans hentries
    · rw [logSeq, satAdd, gf_sf_other _ _ FOLD_STAT.OVERFLOW LOG_SEQ.SEQ _ _ _ _ (.inl (regKey_ne_of_reg_ne (by decide)
        (by decide) (by decide) (by decide) (by decide)))]
      exact hq.trans (by rw [logSeq, logSeq, hfld])
    · rw [gf_satAdd_one _ _ _ _ (by decide)]
      exact congrArg (fun n => min (n + 1) _) (ho.trans (hfld FOLD_STAT.OVERFLOW))

end Sys2Proof.Machine
end
